-- ==== Sys2Proof/Word.lean ====
section
/-! DEFINITION. The word types of the model: bytes, 32-bit register words, 64-bit instruction words and 256-bit
nano-words. Everything the manual does not treat as bits is a Nat or an Int. -/
namespace Sys2Proof

/-- One byte of a memory or of a mailbox payload. -/
abbrev Byte := BitVec 8

/-- One 32-bit register word (00_scope, the register tables). -/
abbrev Word := BitVec 32

/-- One gate-level instruction (03, R76). -/
abbrev GateWord := BitVec 64

/-- One nano-word (04, R112, R113). -/
abbrev NanoWord := BitVec 256

/-- A sparse map from unit numbers or addresses: entries in strictly rising key order, none holding the map's default
value, so that equal maps are equal lists (the operations are in Machine/SMap.lean). -/
abbrev SMap (α : Type) := List (Nat × α)

end Sys2Proof
end

