-- ==== Sys2Proof/Syntax.lean ====
section
/-! DEFINITION. The commands of the block: one constructor of `Instr` per row of spec/opcode_table.json, in the
table's order. A command is a host access, a firmware command in a mailbox, an event on a pin or a wire, or an
event of the passing of time; its operands are what the outside world contributes (an address, a value, an
observation). Units are named as R16 numbers them: tile 0-6, drive group 0-7, local line 0-7, cluster 0-8;
a thread by its global index 72 * tile + 8 * cluster + thread (R349, R368). -/

namespace Sys2Proof

/-- Which output of a tile: drive channel (or spare, local 64-71), probe output, flux output, bias output
(05, 07, 09). -/
inductive OutKind where
  | drive | probe | flux | bias
  deriving DecidableEq, Repr

/-- The two stores of a cluster (04 R100, R112). -/
inductive StoreKind where
  | micro | nano
  deriving DecidableEq, Repr

/-- What the stores gave on an instruction's fetches (04 R118): no error, a corrected single-bit error in a
nano-word quarter, an uncorrectable nano-word quarter, or a parity error at a micro address. -/
inductive FetchEv where
  | ok | nanoCorr | nanoFatal
  | microParity (addr : Nat)
  deriving DecidableEq, Repr

/-- The thread that issues an instruction, and how the fetches of it went. -/
structure Fetch where
  thr : Nat
  ev  : FetchEv
  deriving DecidableEq, Repr

/-- The last field of a message or ordered set as received, with the check value that follows it. -/
structure Checked (α : Type) (w : Nat) where
  val : α
  sum : BitVec w
  deriving DecidableEq, Repr

/-- A fault block: spine block b (21 R447) or block k of tile n (21 R446). -/
inductive FltBlk where
  | spine (b : Nat)
  | tile (n k : Nat)
  deriving DecidableEq, Repr

/-- One fault detected in a cycle: bit and unit within its block, and its sources (21 R448, R449); `entry` names the
replica entry of a REPLICA_PARITY, as 1,024 * replica + slot (10 R266). -/
structure FaultEv where
  bit   : Nat
  unit  : Nat
  real  : Bool
  inj   : Bool
  entry : Nat
  deriving DecidableEq, Repr

/-- A unit descriptor of R382 (17). -/
structure UnitDesc where
  kind  : Nat
  tile  : Nat
  index : Nat
  deriving DecidableEq, Repr

/-- What the analog side gave in one sense conversion (08 R199, R200, R195, R202): the modulator output, the bias
current monitor in microampere at the midpoint, and whether the modulator overloaded or the clamp conducted. -/
structure SenseObs where
  raw      : Int
  imon     : Int
  overload : Bool
  clamp    : Bool
  deriving DecidableEq, Repr

/-- What a calibration measured (19 R409, R419): gain, offset and pad corrections, and whether its limits held. Of a lead
step (08 R215) `offset` is the voltage difference in microvolt. -/
structure CalObs where
  pass   : Bool
  gain   : Nat
  offset : Int
  pad    : Nat
  fine   : Nat
  deriving DecidableEq, Repr

/-- What a training lane observed (13 R303, R304, R306). -/
structure TrainObs where
  fom         : Nat
  ctle        : Nat
  dfe1        : Int
  dfe2        : Int
  dfe3        : Int
  polInv      : Bool
  laneSeen    : Nat
  skew        : Nat
  partnerId   : Word
  partnerPort : Nat
  partnerWidth : Nat
  partnerGood : BitVec 4
  /-- the sets are TS2, and the CHK they came with (R294) -/
  second      : Bool
  chk         : Byte
  deriving DecidableEq, Repr

/-- What a port's receiver found wrong (13 R292, R300, R302, R315). `inside` says that it lies inside a message. -/
inductive MsgErr where
  /-- the check of a D or P message failed -/
  | crc
  /-- a start symbol where none can begin -/
  | badStart
  /-- the control symbol Kx.y on a lane -/
  | control (lane x y : Nat) (inside : Bool)
  /-- ten bits that are no symbol of the 8b/10b code -/
  | code (lane : Nat) (inside : Bool)
  | disparity (lane : Nat) (inside : Bool)
  /-- a whole packet with another CLASS, or with a LEN inconsistent with its CLASS -/
  | packetClass
  /-- a whole TIM message with another TYPE -/
  | timeType
  /-- a lane in TEST: error-free PRBS bits received, then errored ones (R309) -/
  | prbs (lane good bad : Nat)
  deriving DecidableEq, Repr

/-- Of which port (13). -/
structure MsgFault where
  port : Nat
  err  : MsgErr
  deriving DecidableEq, Repr

/-- Lanes of a port that fail; `lost`: by loss of signal within 1 us of one another (13 R306, R307). -/
structure LaneLoss where
  lanes : BitVec 4
  lost  : Bool
  deriving DecidableEq, Repr

/-- Codes of a tapped line's ADC, from ADC sample `first` of grid time on (11 R267). -/
structure Samples where
  first : Nat
  codes : List Int
  deriving DecidableEq, Repr

/-- One received DEC message (13 R296): remote slot, class, flags, KIND, ORIGIN or VTICK, and DTICK. -/
structure DecMsg where
  slot   : Nat
  cls    : BitVec 2
  late   : Bool
  margin : Bool
  inval  : Bool
  origin : Word
  dtick  : Nat
  deriving DecidableEq, Repr

/-- The body of an ANNOUNCE (14 R313, R315). -/
structure Announce where
  domain     : Word
  masterId   : Word
  hops       : Nat
  freqTraced : Bool
  inDomain   : Bool
  holdover   : Bool
  subtree    : Nat
  deriving DecidableEq, Repr

/-- An ANNOUNCE as received: SEQ, lane, TX stamp in bins, content and CRC-16 (13 R296). -/
structure AnnounceMsg where
  seq   : Nat
  lane  : Nat
  stamp : Nat
  ann   : Announce
  crc   : BitVec 16
  deriving DecidableEq, Repr

/-- A mailbox request: the header of R370 (17) and the payload bytes. -/
structure MbxReq where
  opcode  : Nat
  flags   : BitVec 16
  cmdId   : Word
  len     : Nat
  txnId   : Word
  rsv     : BitVec 128
  payload : List Byte
  deriving DecidableEq, Repr

/-- What the work of an IN_PROGRESS command met (17 R373): self-test or read-back result, measured values in
microvolt, bytes moved before a DMA error, if one came. -/
structure FinalObs where
  ok       : Bool
  measured : List Int
  bytes    : Nat
  data     : List Byte
  deriving DecidableEq, Repr

/-- A memory configuration read at boot (18 R395, R396). -/
structure MemObs where
  trained  : Bool
  testOk   : Bool
  capacity : Nat
  ranks    : Nat
  density  : Nat
  down     : Bool
  badDevs  : List Nat
  /-- speed in MT/s, device width in bits, 3DS stacks, and channels that are alike -/
  speed    : Nat
  width    : Nat
  stacked  : Bool
  alike    : Bool
  /-- channels whose module serial has changed since Sinter was written -/
  changed  : List Nat
  deriving DecidableEq, Repr

/-- Corrected symbols of a device in one line (18 R399, R405). -/
structure SymObs where
  dev  : Nat
  addr : Nat
  n    : Nat
  deriving DecidableEq, Repr

/-- What the boot ROM found in one flash slot (22 R475, R476). -/
structure SlotObs where
  readOk   : Bool
  hdrOk    : Bool
  sigOk    : Bool
  selfTest : Bool
  version  : Word
  svn      : Nat
  stepping : Nat
  deriving DecidableEq, Repr

/-- A configuration request (15 R331-R345). -/
inductive CfgReq where
  | read (off : Nat)
  | cacheEnable (b : Bool)
  | memEnable (b : Bool)
  | viralEnable (b : Bool)
  | msixEnable (b : Bool)
  | other (off : Nat) (value : Word)
  deriving DecidableEq, Repr

/-- Who owns the address of a memory error (18 R402). -/
inductive MemOwner where
  | hostRead | hostCopy | ring (tile strm : Nat) | staging (job line : Nat) | firmware (bothCopies : Bool) | patrol
  deriving DecidableEq, Repr

/-- Which threshold state of a thermal sensor (20 R436). -/
inductive ThermState where
  | warn | crit
  deriving DecidableEq, Repr

/-- The commands: one constructor per row of the opcode table. -/
inductive Instr where
  /-- REG_WRITE: a BAR write of `len` bytes at `addr` (BAR0 offset; BAR2 at 0x1000_0000, BAR4 at 0x2000_0000), byte i
  of the data being bits 8 i + 7 to 8 i of `value`. -/
  | regWrite (addr len : Nat) (value : BitVec 64)
  /-- TICK_BOUNDARY_APPLY: the next tick boundary, and up to `n` ticks pass. -/
  | tickBoundaryApply (n : Nat)
  | coupleTimeout (addr : Nat)
  | timNowLoRead
  | refinEdgeSeen
  /-- QUALIFY_END: the frequency of REFIN measured against the crystal, in units of 0.1 Hz, and its phase error against an
  edge, in units of 2 ps. -/
  | qualifyEnd (freq : Nat) (phase : Int)
  | qualifyReturn
  | refLock
  | refLoss
  | timRefCtrlWrite (value : Word)
  | pllLock
  /-- TILE_TICK_CHECK: the low 16 bits of the tile's own counter. -/
  | tileTickCheck (tile : Nat) (count : BitVec 16)
  | pllUnlock
  /-- SHOT_START of the job in a job slot. -/
  | shotStart (job : Nat)
  | play (thr : Nat) (ev : FetchEv)
  | frame (f : Fetch)
  | setf (f : Fetch)
  | wait (f : Fetch)
  | waitRelease (thr : Nat)
  | sync (f : Fetch)
  | barrierRelease (bar : Nat)
  | syncTimeout (thr : Nat)
  | syncMiss (bar : Nat)
  | meas (f : Fetch)
  | brd (f : Fetch)
  | brdResolve (thr : Nat)
  | brdLate (thr : Nat)
  | jump (f : Fetch)
  | call (f : Fetch)
  | ret (f : Fetch)
  | loop (f : Fetch)
  | sweep (f : Fetch)
  | mark (f : Fetch)
  | trig (f : Fetch)
  | trigRelease (thr : Nat)
  | trigTimeout (thr : Nat)
  | pub (f : Fetch)
  | custom (thr : Nat) (ev : FetchEv)
  | waitsRelease (thr : Nat)
  | waitsTimeout (thr : Nat)
  | peerStop (thr : Nat)
  | shotComplete (job : Nat)
  | shotRerun (job : Nat)
  | mchkReloadDone (tile cluster : Nat) (store : StoreKind) (bank : Bool) (addr : Nat)
  | bankReplaceDone (tile cluster : Nat) (store : StoreKind)
  | nanoViewWrite (tile off : Nat) (value : Word)
  | envMemWrite (tile sample : Nat) (value : Word)
  | weightWrite (tile line d : Nat) (value : Word)
  | decodeTableWrite (entry : Nat) (value : Word)
  | drvEnable (probe : Bool) (tile chan : Nat)
  | flxEnable (tile chan : Nat)
  | biaEnable (tile chan : Nat)
  | enableCheckDone (kind : OutKind) (tile chan : Nat)
  | spareTakeoverDone (tile group : Nat)
  | spareHandback (tile group : Nat)
  | handbackForced (tile group : Nat)
  | calTakeover (tile group : Nat)
  | calOfflineDone (tile group : Nat) (chan spare : CalObs)
  | segOpen (tile seg : Nat)
  | segSeal (tile seg : Nat)
  | strmJumpRequest (tile strm target : Nat)
  | commitPoint (tile strm : Nat)
  | passEnd (tile strm : Nat)
  | strmWpWrite (tile strm : Nat) (value : Word)
  | streamFetch (tile strm : Nat)
  | streamBlockArrive (tile strm : Nat)
  | streamUnderrun (tile strm : Nat)
  | genEnable (tile gen : Nat)
  | genRestart (tile gen : Nat)
  | biasLatch (tile chan : Nat)
  | spanChange (kind : OutKind) (tile chan span : Nat) (codeAfter : BitVec 20)
  | spanChangeEnd (kind : OutKind) (tile chan : Nat)
  | scanEnable (tile : Nat) (on : Bool)
  | senseSlotStart (tile list : Nat)
  | senseConversionDone (tile list : Nat) (obs : SenseObs)
  | snsInjGo (tile list : Nat)
  | snsInjTime (tile list : Nat)
  | senseRotate (tile : Nat)
  /-- WINDOW_END: the ADC samples x(n) (signed Q1.17) from n = W0 - 20 on (09 R232, R233). -/
  | windowEnd (tile line tone : Nat) (x : List Int)
  | sliceRotate (tile line : Nat)
  | sliceSpareInPlace (tile line : Nat)
  | agcStep (tile line : Nat)
  | xtSwap (tile line : Nat)
  /-- DECISION_UPDATE: the next update on its way to a replica (0-6 a tile's, 7 the hub's) arrives. -/
  | decisionUpdate (replica : Nat)
  | slotAged (replica slot : Nat)
  | decSwWrite (value : Word)
  | groupFire (group : Nat)
  | decoderFire (dec : Nat) (parityErr : Bool)
  | tableReloadDone (entry : Nat)
  | extDecoderFire (dec : Nat)
  | synBaseWrite (dec : Nat) (value : Word)
  | decQueueSend (port : Nat)
  | ringRebuildDone
  | spineLinkRetry (tile lane : Nat)
  | capArm (tile : Nat)
  | capStop (tile : Nat)
  | capForce (tile : Nat)
  | capArmTimeReached (tile : Nat)
  | capRearmEnd (tile : Nat)
  /-- CAP_TRIGGER: raw codes of the tapped line's ADC, from ADC sample `first` of grid time on (11 R267, R272, R273). A
  loopback tap takes its codes from the output itself. -/
  | capTrigger (tile first : Nat) (codes : List Int)
  /-- CAP_RECORD_DONE: likewise, and, in long mode, the gaps among these samples (START, LENGTH). -/
  | capRecordDone (tile : Nat) (late : Samples) (gaps : List (Nat × Nat))
  /-- TDC_EDGE: a transition at a TDC ball, at `bin` bins of grid time, to high or to low, whose new level held for
  `held` fabric cycles (12 R282). -/
  | tdcEdge (inp bin : Nat) (rise : Bool) (held : Nat)
  | intervalStartExpire (iv : Nat)
  | tdcLineSwap (inp : Nat) (dllLost : Bool)
  | tdcFifoPop
  | tdcFreqGo
  | tdcFreqGateEnd
  | laneTrainStep (port lane : Nat) (obs : TrainObs)
  | trainStepTimeout (port lane : Nat)
  | trainRetry (port lane : Nat)
  | deepPoll (port lane : Nat)
  | laneFail (port : Nat) (loss : LaneLoss)
  | skipSend (port : Nat)
  /-- SKIP_RECEIVE: symbols by which the elastic buffer has filled since the last SKIP. -/
  | skipReceive (port : Nat) (drift : Int)
  /-- RST_RECEIVE and RPL_RECEIVE: the set's content and its CHK. -/
  | rstReceive (port : Nat) (mask : BitVec 4) (dcount : Word) (pcount : Checked Word 8)
  | rplReceive (port : Nat) (dcount : Word) (pcount : Checked Word 8)
  /-- DEC, ACK, NAK: the content and the CRC-8 that came with it. -/
  | decReceive (port : Nat) (msg : Checked DecMsg 8)
  | ackReceive (port : Nat) (dcount : Word) (pcount : Checked Word 8)
  | nakReceive (port : Nat) (dcount : Word) (pcount : Checked Word 8)
  | msgError (found : MsgFault)
  | nakRepeat (port : Nat)
  | ackSend (port : Nat)
  | pktAnswerReceive (port dec : Nat) (round : BitVec 16) (classes : Checked Word 32)
  | pktManagementReceive (port : Nat) (bytes : Checked (List Byte) 32)
  | bvnRetrain (port : Nat)
  | bvnWiden (port : Nat)
  | bvnInj (port lane : Nat)
  | announceSend (port : Nat)
  | announceReceive (port : Nat) (msg : AnnounceMsg)
  | announceTimeout (port : Nat)
  | delayReqSend
  /-- DELAY_REQ received: SEQ, lane, the TX stamp t1 with DOMAIN and the CRC-16, and the receive stamp t2 in bins. -/
  | delayReq (port seq lane : Nat) (sent : Checked (Nat × Word) 16) (t2 : Nat)
  /-- DELAY_RESP received: SEQ, lane, t2, t3 (the responder's grid), CRC-16, and t4, in bins. -/
  | delayResp (seq lane t2 : Nat) (t3 : Checked Nat 16) (t4 : Nat)
  | timeStep
  | tsHoldExpire
  | syncOutPulse
  /-- SYN received: SYNC ID, EVENT, and lane and TX stamp in bins with the CRC-16. -/
  | synReceive (port id : Nat) (event : Word) (sent : Checked (Nat × Nat) 16)
  | syncCalDone
  | timedEventFire (ev : Nat)
  | linkUp (cxl : Bool) (width speed : Nat)
  | linkOutage
  | d3hotWrite
  | d0Write
  | hdmCommit (dec base size ways : Nat) (lock : Bool)
  | cxlmemRequest (write : Bool) (hostAddr : Nat) (data : List Byte)
  | viralReceive
  | memReady (obs : MemObs)
  | sqTailDoorbell (qp tail : Nat)
  | cqHeadDoorbell (qp head : Nat)
  /-- SUBMIT_*: the 64 bytes of the entry fetched from the pair's SQ (16 R355, R356). -/
  | submitRun (qp : Nat) (entry : List Byte)
  | submitCapture (qp : Nat) (entry : List Byte)
  | submitCalibrate (qp : Nat) (entry : List Byte)
  | submitStreamOpen (qp : Nat) (entry : List Byte)
  | submitStreamClose (qp : Nat) (entry : List Byte)
  | submitScan (qp : Nat) (entry : List Byte)
  | jobStart (job : Nat)
  | jobDeadline (job : Nat)
  | completionPost (qp : Nat)
  | mailboxDoorbell (n : Nat) (req : MbxReq)
  | commandFinalResponse (n : Nat) (obs : FinalObs)
  | getInfo (n : Nat)
  | resume (n : Nat)
  | resumeComplete
  | safeEnter (n : Nat)
  | txnBegin (n : Nat)
  | txnSet (n : Nat)
  | txnCommit (n : Nat)
  | txnRollback (n : Nat)
  | txnStatus (n : Nat)
  | txnTimeout (part : Nat)
  | txnApply (part : Nat)
  | unitEnable (n : Nat)
  | unitDisable (n : Nat)
  | fence (n : Nat)
  | unfence (n : Nat)
  | programLoad (n : Nat)
  | patchStage (n : Nat)
  | userUcodeStage (n : Nat)
  | patchApply (n : Nat)
  | patchApplyDone
  | patchDiscard (n : Nat)
  | nanoLoad (n : Nat)
  | nanoSwap (n : Nat)
  | nanoSwapDone (tile cluster : Nat)
  | partCreate (n : Nat)
  | partDestroy (n : Nat)
  | partPolicy (n : Nat)
  | partAssign (n : Nat)
  | qpCreate (n : Nat)
  | qpDelete (n : Nat)
  | planLoad (n : Nat)
  | planDrop (n : Nat)
  | jobAbort (n : Nat)
  | decSlotAssign (n : Nat)
  | decExportSet (n : Nat)
  | decImportSet (n : Nat)
  | syndGroupSet (n : Nat)
  | syndDecoderSet (n : Nat)
  | syndRead (n : Nat)
  | timeConfig (n : Nat)
  | timeReinit (n : Nat)
  | syncCal (n : Nat)
  | calRun (n : Nat)
  | calRefDeclare (n : Nat)
  | calStatus (n : Nat)
  | hostCopyIn (n : Nat)
  | hostCopyOut (n : Nat)
  | fwStage (n : Nat)
  | fwActivate (n : Nat)
  | mgmtHandover (n : Nat)
  | logRead (n : Nat)
  | memInfo (n : Nat)
  | memRetire (n : Nat)
  | patrolPassEnd
  | devRetireThreshold (dev : Nat)
  | memUncorrectable (addr dev : Nat) (owner : MemOwner)
  | memInitDone
  | calDue (unit : UnitDesc)
  | calStale (unit : UnitDesc)
  /-- GAP_CAL_STEP; `disturbed`: something is committed in the step that no other command shows. -/
  | gapCalStep (unit : UnitDesc) (disturbed : Bool)
  | calComplete (unit : UnitDesc) (obs : CalObs)
  | calHoldTimeout (unit : UnitDesc)
  | calRecordWrite (unit : UnitDesc)
  | bootCalDone (failed : List UnitDesc)
  /-- THERM_SAMPLE: sensor (spine s as s, sensor k of tile n as 6 + 12 n + k) and its reading in 1/128 degree C,
  none when the converter does not answer. -/
  | thermSample (sensor : Nat) (temp : Option Int)
  | thermStateEntry (sensor : Nat) (st : ThermState)
  | thermStateLeave (sensor : Nat) (st : ThermState)
  | thermRateEntry (sensor : Nat)
  | thermRateLeave (sensor : Nat)
  | thermSensorFail (sensor : Nat)
  | thermShutdown
  | thermRestart
  | thmCfgWrite (value : Word)
  | faultRecord (blk : FltBlk) (faults : List FaultEv)
  | fltInject (blk : FltBlk) (value : Word)
  | errHoldExpire
  | tileLinkSilence (tile : Nat)
  | heartbeatMiss
  | standbyRestartDone (ok : Bool)
  /-- FW_AUDIT: the units of which firmware's view disagrees with the hardware. -/
  | fwAudit (stale : List UnitDesc)
  | logWrite
  | peakClr (thr : Nat)
  | maxClear
  | railSeqError (rail : Nat)
  | railDrop (rail : Nat)
  | perstAssert
  | perstDeassert
  | vauxLoss
  | bootImageCheck (slotA slotB : SlotObs) (flash8D : Bool)
  | fwReady
  | spineLaneRepairDone (tile : Nat)
  | spareFaultHandbackDone (tile group : Nat)
  | trainingSignalLoss (port lane : Nat)
  | deskewWaitExpire (port : Nat)
  | syncMissing
  | resultDelivery
  | configRequest (req : CfgReq)
  | cacheSnoop (hostAddr : Nat)
  | pcieRefclkLoss
  | railReturn (rail : Nat)
  | bootStart
  deriving DecidableEq, Repr

end Sys2Proof
end

