-- ==== Sys2Proof/Config.lean ====
section
/-! DEFINITION. What one implementation or one board fixes and the values the spec leaves open, as constants with no
body: nothing can be proved of their values. Free values are applied to the state's counter (log 1) or to the operands
they depend on. -/

namespace Sys2Proof.Config

/-- A value the spec leaves open after an event in which the part goes on (log 1), one per counter value. -/
opaque freeNat : Nat → Nat

/-- The contents of invalid pretrigger and gap samples of a capture record (11 R271, R276; log 1). -/
opaque freeSample : Nat → Word

/-- TICK of grid time from a loss of the main PLL's lock until it locks again (02 R53; log 5). -/
opaque freeGrid : Nat → Nat

/-! ## Firmware images (22 R475, R479; log 11) -/

/-- The vendor microcode of the image of a version: its words by ascending address, its version bytes and its IMAGE_ID. -/
opaque vendorWords (version : Nat) : List (Nat × Word)
opaque vendorVersion (version : Nat) : Nat
opaque vendorId (version : Nat) : Nat

/-- The signature of a vendor patch image holds under the microcode key of the firmware image of a version (04 R122). -/
opaque microSigOk (version : Nat) (image : List Byte) : Bool

/-- The signature of a firmware image holds under the root key in fuses (22 R476). -/
opaque fwSigOk (image : List Byte) : Bool

/-- Where the sequence numbers of the transactions of a partition begin (17 R387). -/
opaque txnSeq (part : Nat) : Nat

/-- The device serial number (17 R379). -/
opaque serial : Nat

/-! ## Sense conversion (08 R199-R201; log 14) -/

/-- Volts at a sense input from the modulator output, by the ADC's gain and zero corrections, the range in force and the
measurements of the DC reference transfer in force (19 R429; none: factory). -/
opaque senseVolts (refs : List Int) (range gain : Nat) (zero raw : Int) : Rat

/-- Coefficient c[i][j] of an ADC's range, after a number of linearisation fits. -/
opaque senseCoef (tile adc range fits i j : Nat) : Rat

/-! ## Synthesis (05 R126, R132, R133, R135, 07 R182, R183; log 100) -/

/-- How the 18-bit cosine and sine of a 20-bit phase, and an entry of the flux table, lie off the nearest value: modulo 3,
less 1, in units of 2^-17. -/
opaque cosErr (phase : Nat) : Nat
opaque sinErr (phase : Nat) : Nat
opaque fluxErr (entry : Nat) : Nat

/-- The half-band cascade of the drive interpolator: one part of the scaled envelope from 15 samples before to 16 after
the governing sample, at the sample's place 0-15 in it. -/
opaque halfBand (window : List Int) (m : Nat) : BitVec 18

/-- The polyphase filter of the flux interpolator, likewise. -/
opaque polyphase (window : List Int) (m : Nat) : BitVec 18

/-- 1.0 in the 18-bit scaled envelope: the product of two parts that are both -1.0. -/
opaque scaleTop : BitVec 18

/-- A lane output beyond the 18-bit range: what the lane plays for the exact value. -/
opaque laneOver (value : Int) : BitVec 18

/-- What a lane that is to hold the last sample received plays of a stream that has received none. -/
opaque unreceived (stream : Nat) : BitVec 32

/-! ## Demodulation (09 R225, R227, R233; log 44) -/

/-- The sample that leaves stage 3 for one of a run of raw ADC codes, corrected for offset, gain and sampling skew of the
slice that took it (16 the spare): the global line, the slice, the ADC sample number, the codes and the place in them. -/
opaque sliceSample (line slice sample : Nat) (codes : List Int) (i : Nat) : BitVec 18

/-- A corrected sample at an input gain setting above 0 dB in input-referred units. -/
opaque gainRefer (gain : Nat) (sample : Int) : BitVec 18

/-- The decimation filter: 48 mixed samples to one of 18 + 18 bits. -/
opaque firOut (z : List (Int × Int)) : BitVec 18 × BitVec 18

/-! ## Calibration (19 R426; log 16) -/

/-- The factory record of a unit: gain, offset plus 32,768, pad, fine. -/
opaque factoryCal (unit i : Nat) : Nat

/-! ## Configuration space (15 R331, R332) -/

/-- A configuration word whose layout the standards fix and the spec does not list: its offset, what the host has written
there, and the control bits in force. -/
opaque cfgWord (off : Nat) (written : Word) (controls : Nat) : Word

end Sys2Proof.Config
end

