-- ==== Sys2Proof/Machine/RegMap.lean ====
section
/-! DEFINITION. The register map: every register of the spec's register tables, its address in one flat space (BAR0
offsets; BAR2 at 0x1000_0000 and BAR4 at 0x2000_0000 above them), its index dimensions, its reset domain (R12), its
fields with their access types (R13) and the values R14 accepts. A probe output's DRV block (R218) is PRB_*, a spine
generator SGEN_*, a tile's sensor word THM_SENS_T, a tile's fault block TFLT_*. -/

namespace Sys2Proof.Machine

/-- Access types (00 R13). -/
inductive Access where
  | ro | rw | rws | rwh | rwc | rl | rw1c | wo
  deriving DecidableEq, Repr

/-- Reset domains (00 R12). `fltSpine` is AON for spine fault block 2 and PERST for the others (21). -/
inductive Domain where
  | aon | perst | tile | safe | fltSpine
  deriving DecidableEq, Repr

/-- A field of a register word: its word, lowest bit, width, access type and the ranges of values that R14 accepts
(none listed: every value). -/
structure FieldDesc where
  word    : Nat
  lo      : Nat
  width   : Nat
  access  : Access
  allowed : List (Nat × Nat)
  deriving DecidableEq, Repr

/-- A register or an array of registers. `dims` are (count, stride) pairs, outermost first; `resets` its words at
reset; `special` marks a reset value that depends on the instance (`resetWord`). -/
structure Reg where
  id      : Nat
  base    : Nat
  dims    : List (Nat × Nat)
  words   : Nat
  domain  : Domain
  fields  : List FieldDesc
  resets  : List Nat
  special : Bool
  deriving DecidableEq, Repr

/-- One named field. -/
structure Fld where
  reg   : Reg
  word  : Nat
  lo    : Nat
  width : Nat
  deriving DecidableEq, Repr

def R.SPN_ID : Reg := ⟨0, 0x0, [], 1, .aon, [⟨0, 0, 8, .ro, []⟩, ⟨0, 8, 4, .ro, []⟩, ⟨0, 16, 7, .ro, []⟩,
  ⟨0, 24, 8, .ro, []⟩],
  [0x7000000], true⟩
def F.SPN_ID_STEPPING : Fld := ⟨R.SPN_ID, 0, 0, 8⟩
def F.SPN_ID_TILES : Fld := ⟨R.SPN_ID, 0, 8, 4⟩
def F.SPN_ID_PRESENT : Fld := ⟨R.SPN_ID, 0, 16, 7⟩
def F.SPN_ID_FAMILY : Fld := ⟨R.SPN_ID, 0, 24, 8⟩
def R.SPN_REFUSE : Reg := ⟨1, 0x20, [], 2, .perst, [⟨0, 0, 16, .ro, []⟩, ⟨1, 0, 24, .ro, []⟩],
  [0, 0], false⟩
def F.SPN_REFUSE_REASON : Fld := ⟨R.SPN_REFUSE, 0, 0, 16⟩
def F.SPN_REFUSE_OFFSET : Fld := ⟨R.SPN_REFUSE, 1, 0, 24⟩
def R.TIL_REFUSE : Reg := ⟨2, 0x1000030, [(7, 0x1000000)], 2, .tile, [⟨0, 0, 16, .ro, []⟩, ⟨1, 0, 24, .ro, []⟩],
  [0, 0], false⟩
def F.TIL_REFUSE_REASON : Fld := ⟨R.TIL_REFUSE, 0, 0, 16⟩
def F.TIL_REFUSE_OFFSET : Fld := ⟨R.TIL_REFUSE, 1, 0, 24⟩
def R.TIL_STATUS : Reg := ⟨3, 0x1000000, [(7, 0x1000000)], 1, .tile, [⟨0, 0, 3, .ro, []⟩, ⟨0, 8, 1, .ro, []⟩, ⟨0, 9, 1, .ro, []⟩,
  ⟨0, 10, 1, .ro, []⟩, ⟨0, 11, 1, .ro, []⟩, ⟨0, 12, 2, .ro, []⟩],
  [0x2000], true⟩
def F.TIL_STATUS_TILE : Fld := ⟨R.TIL_STATUS, 0, 0, 3⟩
def F.TIL_STATUS_FENCED : Fld := ⟨R.TIL_STATUS, 0, 8, 1⟩
def F.TIL_STATUS_LINK_UP : Fld := ⟨R.TIL_STATUS, 0, 9, 1⟩
def F.TIL_STATUS_CAL_VALID : Fld := ⟨R.TIL_STATUS, 0, 10, 1⟩
def F.TIL_STATUS_RUNNING : Fld := ⟨R.TIL_STATUS, 0, 11, 1⟩
def F.TIL_STATUS_LINK_SPARES : Fld := ⟨R.TIL_STATUS, 0, 12, 2⟩
def R.SPN_MODE : Reg := ⟨4, 0x4, [], 1, .perst, [⟨0, 0, 3, .ro, []⟩, ⟨0, 8, 4, .ro, []⟩, ⟨0, 15, 1, .ro, []⟩],
  [0], false⟩
def F.SPN_MODE_MODE : Fld := ⟨R.SPN_MODE, 0, 0, 3⟩
def F.SPN_MODE_SAFE_CAUSE : Fld := ⟨R.SPN_MODE, 0, 8, 4⟩
def F.SPN_MODE_CHANGING : Fld := ⟨R.SPN_MODE, 0, 15, 1⟩
def R.SPN_MODE_TIME : Reg := ⟨5, 0x8, [], 1, .perst, [⟨0, 0, 32, .ro, []⟩],
  [0], false⟩
def F.SPN_MODE_TIME_TICK : Fld := ⟨R.SPN_MODE_TIME, 0, 0, 32⟩
def R.TIM_NOW_LO : Reg := ⟨6, 0x30000, [], 1, .perst, [⟨0, 0, 32, .ro, []⟩],
  [0], false⟩
def F.TIM_NOW_LO_TICK_LO : Fld := ⟨R.TIM_NOW_LO, 0, 0, 32⟩
def R.TIM_NOW_HI : Reg := ⟨7, 0x30004, [], 1, .perst, [⟨0, 0, 25, .ro, []⟩],
  [0], false⟩
def F.TIM_NOW_HI_TICK_HI : Fld := ⟨R.TIM_NOW_HI, 0, 0, 25⟩
def R.TIM_REF_CTRL : Reg := ⟨8, 0x30010, [], 1, .perst, [⟨0, 0, 1, .rl, []⟩, ⟨0, 1, 1, .rl, []⟩, ⟨0, 2, 1, .rw, []⟩],
  [2], false⟩
def F.TIM_REF_CTRL_FREQ : Fld := ⟨R.TIM_REF_CTRL, 0, 0, 1⟩
def F.TIM_REF_CTRL_REF_EN : Fld := ⟨R.TIM_REF_CTRL, 0, 1, 1⟩
def F.TIM_REF_CTRL_REQUIRE_REF : Fld := ⟨R.TIM_REF_CTRL, 0, 2, 1⟩
def R.TIM_REF_STATUS : Reg := ⟨9, 0x30014, [], 1, .perst, [⟨0, 0, 3, .ro, []⟩, ⟨0, 3, 1, .rw1c, []⟩, ⟨0, 4, 1, .rw1c, []⟩,
  ⟨0, 8, 8, .ro, []⟩, ⟨0, 16, 16, .ro, []⟩],
  [1], false⟩
def F.TIM_REF_STATUS_STATE : Fld := ⟨R.TIM_REF_STATUS, 0, 0, 3⟩
def F.TIM_REF_STATUS_LOSS : Fld := ⟨R.TIM_REF_STATUS, 0, 3, 1⟩
def F.TIM_REF_STATUS_OUT_OF_RANGE : Fld := ⟨R.TIM_REF_STATUS, 0, 4, 1⟩
def F.TIM_REF_STATUS_LOSS_COUNT : Fld := ⟨R.TIM_REF_STATUS, 0, 8, 8⟩
def F.TIM_REF_STATUS_PHASE_ERR : Fld := ⟨R.TIM_REF_STATUS, 0, 16, 16⟩
def R.TIM_REF_LOSS_TICK : Reg := ⟨10, 0x30018, [], 1, .perst, [⟨0, 0, 32, .ro, []⟩],
  [0], false⟩
def F.TIM_REF_LOSS_TICK_TICK : Fld := ⟨R.TIM_REF_LOSS_TICK, 0, 0, 32⟩
def R.TIM_XTAL_AGE : Reg := ⟨11, 0x3001C, [], 1, .aon, [⟨0, 0, 16, .rws, []⟩],
  [0], false⟩
def F.TIM_XTAL_AGE_AGE : Fld := ⟨R.TIM_XTAL_AGE, 0, 0, 16⟩
def R.TIM_XTAL_STEER : Reg := ⟨12, 0x30020, [], 1, .perst, [⟨0, 0, 32, .ro, []⟩],
  [0], false⟩
def F.TIM_XTAL_STEER_STEER : Fld := ⟨R.TIM_XTAL_STEER, 0, 0, 32⟩
def R.TIM_PLL_STATUS : Reg := ⟨13, 0x30024, [], 1, .perst, [⟨0, 0, 1, .ro, []⟩, ⟨0, 1, 1, .ro, []⟩, ⟨0, 2, 1, .rw1c, []⟩,
  ⟨0, 4, 7, .rw1c, []⟩],
  [0], false⟩
def F.TIM_PLL_STATUS_LOCKED : Fld := ⟨R.TIM_PLL_STATUS, 0, 0, 1⟩
def F.TIM_PLL_STATUS_TILES_ALIGNED : Fld := ⟨R.TIM_PLL_STATUS, 0, 1, 1⟩
def F.TIM_PLL_STATUS_UNLOCK : Fld := ⟨R.TIM_PLL_STATUS, 0, 2, 1⟩
def F.TIM_PLL_STATUS_TILE_TICK_ERR : Fld := ⟨R.TIM_PLL_STATUS, 0, 4, 7⟩
def R.TIL_MEMWIN_SEL : Reg := ⟨14, 0x1000010, [(7, 0x1000000)], 1, .tile, [⟨0, 0, 4, .rw, [(0, 8)]⟩],
  [0], false⟩
def F.TIL_MEMWIN_SEL_CLUSTER : Fld := ⟨R.TIL_MEMWIN_SEL, 0, 0, 4⟩
def R.TIL_BAR_MEM : Reg := ⟨15, 0x1000100, [(7, 0x1000000), (32, 0x10)], 4, .safe, [⟨0, 0, 32, .ro, []⟩, ⟨1, 0, 32, .ro, []⟩, ⟨2, 0, 8, .ro, []⟩,
  ⟨3, 0, 1, .ro, []⟩, ⟨3, 1, 1, .ro, []⟩],
  [0, 0, 0, 0], false⟩
def F.TIL_BAR_MEM_MEM_LO : Fld := ⟨R.TIL_BAR_MEM, 0, 0, 32⟩
def F.TIL_BAR_MEM_MEM_MID : Fld := ⟨R.TIL_BAR_MEM, 1, 0, 32⟩
def F.TIL_BAR_MEM_MEM_C8 : Fld := ⟨R.TIL_BAR_MEM, 2, 0, 8⟩
def F.TIL_BAR_MEM_SPANS : Fld := ⟨R.TIL_BAR_MEM, 3, 0, 1⟩
def F.TIL_BAR_MEM_WAITING : Fld := ⟨R.TIL_BAR_MEM, 3, 1, 1⟩
def R.CLU_STATUS : Reg := ⟨16, 0x1020000, [(7, 0x1000000), (9, 0x2000)], 1, .tile, [⟨0, 0, 8, .ro, []⟩, ⟨0, 8, 8, .ro, []⟩, ⟨0, 16, 1, .ro, []⟩],
  [0], false⟩
def F.CLU_STATUS_RUNNING : Fld := ⟨R.CLU_STATUS, 0, 0, 8⟩
def F.CLU_STATUS_FENCED : Fld := ⟨R.CLU_STATUS, 0, 8, 8⟩
def F.CLU_STATUS_CL_FENCED : Fld := ⟨R.CLU_STATUS, 0, 16, 1⟩
def R.CLU_REGION : Reg := ⟨17, 0x1020100, [(7, 0x1000000), (9, 0x2000), (16, 0x8)], 2, .tile, [⟨0, 0, 16, .ro, []⟩, ⟨0, 16, 16, .ro, []⟩, ⟨1, 0, 1, .ro, []⟩,
  ⟨1, 1, 1, .ro, []⟩, ⟨1, 8, 6, .ro, []⟩],
  [0, 0], false⟩
def F.CLU_REGION_BASE : Fld := ⟨R.CLU_REGION, 0, 0, 16⟩
def F.CLU_REGION_LAST : Fld := ⟨R.CLU_REGION, 0, 16, 16⟩
def F.CLU_REGION_VALID : Fld := ⟨R.CLU_REGION, 1, 0, 1⟩
def F.CLU_REGION_IN_USE : Fld := ⟨R.CLU_REGION, 1, 1, 1⟩
def F.CLU_REGION_PART : Fld := ⟨R.CLU_REGION, 1, 8, 6⟩
def R.CLU_THR_STATE : Reg := ⟨18, 0x1020400, [(7, 0x1000000), (9, 0x2000), (8, 0x200)], 1, .tile, [⟨0, 0, 4, .ro, []⟩, ⟨0, 4, 4, .ro, []⟩, ⟨0, 16, 16, .ro, []⟩],
  [0], false⟩
def F.CLU_THR_STATE_STATE : Fld := ⟨R.CLU_THR_STATE, 0, 0, 4⟩
def F.CLU_THR_STATE_CSP : Fld := ⟨R.CLU_THR_STATE, 0, 4, 4⟩
def F.CLU_THR_STATE_PC : Fld := ⟨R.CLU_THR_STATE, 0, 16, 16⟩
def R.CLU_THR_SHOT : Reg := ⟨19, 0x1020404, [(7, 0x1000000), (9, 0x2000), (8, 0x200)], 1, .tile, [⟨0, 0, 8, .ro, []⟩, ⟨0, 8, 1, .ro, []⟩, ⟨0, 9, 1, .ro, []⟩,
  ⟨0, 10, 1, .ro, []⟩, ⟨0, 11, 1, .ro, []⟩, ⟨0, 12, 1, .ro, []⟩],
  [0], false⟩
def F.CLU_THR_SHOT_STATUS : Fld := ⟨R.CLU_THR_SHOT, 0, 0, 8⟩
def F.CLU_THR_SHOT_WAIT_LATE : Fld := ⟨R.CLU_THR_SHOT, 0, 8, 1⟩
def F.CLU_THR_SHOT_DEC_LATE : Fld := ⟨R.CLU_THR_SHOT, 0, 9, 1⟩
def F.CLU_THR_SHOT_MEAS_OVERLAP : Fld := ⟨R.CLU_THR_SHOT, 0, 10, 1⟩
def F.CLU_THR_SHOT_LOOP_ZERO : Fld := ⟨R.CLU_THR_SHOT, 0, 11, 1⟩
def F.CLU_THR_SHOT_PULSE_CUT : Fld := ⟨R.CLU_THR_SHOT, 0, 12, 1⟩
def R.CLU_THR_SHOT_TICK : Reg := ⟨20, 0x1020408, [(7, 0x1000000), (9, 0x2000), (8, 0x200)], 1, .tile, [⟨0, 0, 32, .ro, []⟩],
  [0], false⟩
def F.CLU_THR_SHOT_TICK_TICK : Fld := ⟨R.CLU_THR_SHOT_TICK, 0, 0, 32⟩
def R.CLU_THR_BUDGET : Reg := ⟨21, 0x102040C, [(7, 0x1000000), (9, 0x2000), (8, 0x200)], 1, .tile, [⟨0, 0, 4, .ro, []⟩, ⟨0, 8, 1, .wo, []⟩, ⟨0, 16, 16, .ro, []⟩],
  [0], false⟩
def F.CLU_THR_BUDGET_PEAK : Fld := ⟨R.CLU_THR_BUDGET, 0, 0, 4⟩
def F.CLU_THR_BUDGET_PEAK_CLR : Fld := ⟨R.CLU_THR_BUDGET, 0, 8, 1⟩
def F.CLU_THR_BUDGET_SLIP_COUNT : Fld := ⟨R.CLU_THR_BUDGET, 0, 16, 16⟩
def R.CLU_THR_LATE : Reg := ⟨22, 0x1020410, [(7, 0x1000000), (9, 0x2000), (8, 0x200)], 1, .tile, [⟨0, 0, 16, .ro, []⟩, ⟨0, 16, 16, .ro, []⟩],
  [0], false⟩
def F.CLU_THR_LATE_DEC_LATE : Fld := ⟨R.CLU_THR_LATE, 0, 0, 16⟩
def F.CLU_THR_LATE_WAIT_LATE : Fld := ⟨R.CLU_THR_LATE, 0, 16, 16⟩
def R.CLU_THR_GINIT : Reg := ⟨23, 0x1020440, [(7, 0x1000000), (9, 0x2000), (8, 0x200), (16, 0x4)], 1, .tile, [⟨0, 0, 32, .rwh, []⟩],
  [0], false⟩
def F.CLU_THR_GINIT_V : Fld := ⟨R.CLU_THR_GINIT, 0, 0, 32⟩
def R.CLU_THR_G : Reg := ⟨24, 0x1020480, [(7, 0x1000000), (9, 0x2000), (8, 0x200), (16, 0x4)], 1, .tile, [⟨0, 0, 32, .ro, []⟩],
  [0], false⟩
def F.CLU_THR_G_V : Fld := ⟨R.CLU_THR_G, 0, 0, 32⟩
def R.CLU_THR_FRINIT : Reg := ⟨25, 0x10204C0, [(7, 0x1000000), (9, 0x2000), (8, 0x200), (8, 0x4)], 1, .tile, [⟨0, 0, 32, .rwh, []⟩],
  [0], false⟩
def F.CLU_THR_FRINIT_V : Fld := ⟨R.CLU_THR_FRINIT, 0, 0, 32⟩
def R.CLU_THR_FR : Reg := ⟨26, 0x10204E0, [(7, 0x1000000), (9, 0x2000), (8, 0x200), (8, 0x4)], 1, .tile, [⟨0, 0, 32, .ro, []⟩],
  [0], false⟩
def F.CLU_THR_FR_V : Fld := ⟨R.CLU_THR_FR, 0, 0, 32⟩
def R.CLU_THR_LC : Reg := ⟨27, 0x1020500, [(7, 0x1000000), (9, 0x2000), (8, 0x200), (4, 0x4)], 1, .tile, [⟨0, 0, 32, .ro, []⟩],
  [0], false⟩
def F.CLU_THR_LC_V : Fld := ⟨R.CLU_THR_LC, 0, 0, 32⟩
def R.SPN_MCODE_VER : Reg := ⟨28, 0x10, [], 1, .perst, [⟨0, 0, 8, .ro, []⟩, ⟨0, 8, 8, .ro, []⟩, ⟨0, 16, 8, .ro, []⟩,
  ⟨0, 31, 1, .ro, []⟩],
  [0], false⟩
def F.SPN_MCODE_VER_PATCH : Fld := ⟨R.SPN_MCODE_VER, 0, 0, 8⟩
def F.SPN_MCODE_VER_MINOR : Fld := ⟨R.SPN_MCODE_VER, 0, 8, 8⟩
def F.SPN_MCODE_VER_MAJOR : Fld := ⟨R.SPN_MCODE_VER, 0, 16, 8⟩
def F.SPN_MCODE_VER_SWITCHING : Fld := ⟨R.SPN_MCODE_VER, 0, 31, 1⟩
def R.SPN_MCODE_ID : Reg := ⟨29, 0x14, [], 1, .perst, [⟨0, 0, 32, .ro, []⟩],
  [0], false⟩
def F.SPN_MCODE_ID_IMAGE_ID : Fld := ⟨R.SPN_MCODE_ID, 0, 0, 32⟩
def R.SPN_MCODE_STAGE : Reg := ⟨30, 0x18, [], 1, .perst, [⟨0, 0, 2, .ro, []⟩, ⟨0, 2, 1, .ro, []⟩, ⟨0, 3, 1, .ro, []⟩],
  [0], false⟩
def F.SPN_MCODE_STAGE_STATE : Fld := ⟨R.SPN_MCODE_STAGE, 0, 0, 2⟩
def F.SPN_MCODE_STAGE_VENDOR : Fld := ⟨R.SPN_MCODE_STAGE, 0, 2, 1⟩
def F.SPN_MCODE_STAGE_USER : Fld := ⟨R.SPN_MCODE_STAGE, 0, 3, 1⟩
def R.CLU_UCODE_STATUS : Reg := ⟨31, 0x1020010, [(7, 0x1000000), (9, 0x2000)], 1, .tile, [⟨0, 0, 8, .ro, []⟩, ⟨0, 8, 8, .ro, []⟩, ⟨0, 16, 1, .ro, []⟩,
  ⟨0, 17, 1, .ro, []⟩, ⟨0, 18, 1, .ro, []⟩, ⟨0, 19, 1, .ro, []⟩,
  ⟨0, 20, 1, .ro, []⟩, ⟨0, 21, 1, .ro, []⟩, ⟨0, 22, 1, .rw1c, []⟩],
  [0], false⟩
def F.CLU_UCODE_STATUS_UBANK : Fld := ⟨R.CLU_UCODE_STATUS, 0, 0, 8⟩
def F.CLU_UCODE_STATUS_NBANK : Fld := ⟨R.CLU_UCODE_STATUS, 0, 8, 8⟩
def F.CLU_UCODE_STATUS_U_SWITCHING : Fld := ⟨R.CLU_UCODE_STATUS, 0, 16, 1⟩
def F.CLU_UCODE_STATUS_N_SWITCHING : Fld := ⟨R.CLU_UCODE_STATUS, 0, 17, 1⟩
def F.CLU_UCODE_STATUS_U0_FAILED : Fld := ⟨R.CLU_UCODE_STATUS, 0, 18, 1⟩
def F.CLU_UCODE_STATUS_U1_FAILED : Fld := ⟨R.CLU_UCODE_STATUS, 0, 19, 1⟩
def F.CLU_UCODE_STATUS_NA_FAILED : Fld := ⟨R.CLU_UCODE_STATUS, 0, 20, 1⟩
def F.CLU_UCODE_STATUS_NB_FAILED : Fld := ⟨R.CLU_UCODE_STATUS, 0, 21, 1⟩
def F.CLU_UCODE_STATUS_WR_REFUSED : Fld := ⟨R.CLU_UCODE_STATUS, 0, 22, 1⟩
def R.CLU_MCHK : Reg := ⟨32, 0x1020014, [(7, 0x1000000), (9, 0x2000)], 1, .tile, [⟨0, 0, 14, .ro, []⟩, ⟨0, 14, 1, .ro, []⟩, ⟨0, 15, 3, .ro, []⟩,
  ⟨0, 18, 4, .ro, []⟩, ⟨0, 22, 1, .ro, []⟩, ⟨0, 23, 1, .ro, []⟩,
  ⟨0, 24, 8, .ro, []⟩],
  [0], false⟩
def F.CLU_MCHK_ADDR : Fld := ⟨R.CLU_MCHK, 0, 0, 14⟩
def F.CLU_MCHK_BANK : Fld := ⟨R.CLU_MCHK, 0, 14, 1⟩
def F.CLU_MCHK_THREAD : Fld := ⟨R.CLU_MCHK, 0, 15, 3⟩
def F.CLU_MCHK_CAUSE : Fld := ⟨R.CLU_MCHK, 0, 18, 4⟩
def F.CLU_MCHK_RELOADING : Fld := ⟨R.CLU_MCHK, 0, 22, 1⟩
def F.CLU_MCHK_HARD : Fld := ⟨R.CLU_MCHK, 0, 23, 1⟩
def F.CLU_MCHK_COUNT : Fld := ⟨R.CLU_MCHK, 0, 24, 8⟩
def R.CLU_MCHK_TICK : Reg := ⟨33, 0x1020018, [(7, 0x1000000), (9, 0x2000)], 1, .tile, [⟨0, 0, 32, .ro, []⟩],
  [0], false⟩
def F.CLU_MCHK_TICK_TICK : Fld := ⟨R.CLU_MCHK_TICK, 0, 0, 32⟩
def R.CLU_NANO_CORR : Reg := ⟨34, 0x102001C, [(7, 0x1000000), (9, 0x2000)], 1, .tile, [⟨0, 0, 32, .ro, []⟩],
  [0], false⟩
def F.CLU_NANO_CORR_COUNT : Fld := ⟨R.CLU_NANO_CORR, 0, 0, 32⟩
def R.CLU_UCODE_USER_ID : Reg := ⟨35, 0x1020020, [(7, 0x1000000), (9, 0x2000)], 1, .tile, [⟨0, 0, 32, .ro, []⟩],
  [0], false⟩
def F.CLU_UCODE_USER_ID_IMAGE_ID : Fld := ⟨R.CLU_UCODE_USER_ID, 0, 0, 32⟩
def R.DRV_CTRL : Reg := ⟨36, 0x1100000, [(7, 0x1000000), (72, 0x1000)], 1, .tile, [⟨0, 0, 1, .rl, []⟩, ⟨0, 1, 1, .rws, []⟩],
  [0], false⟩
def F.DRV_CTRL_EN : Fld := ⟨R.DRV_CTRL, 0, 0, 1⟩
def F.DRV_CTRL_MUTE : Fld := ⟨R.DRV_CTRL, 0, 1, 1⟩
def R.DRV_STATUS : Reg := ⟨37, 0x1100004, [(7, 0x1000000), (72, 0x1000)], 1, .tile, [⟨0, 0, 1, .ro, []⟩, ⟨0, 1, 1, .ro, []⟩, ⟨0, 2, 1, .ro, []⟩,
  ⟨0, 3, 1, .ro, []⟩, ⟨0, 4, 1, .ro, []⟩, ⟨0, 5, 1, .ro, []⟩,
  ⟨0, 6, 1, .ro, []⟩, ⟨0, 7, 1, .rw1c, []⟩, ⟨0, 8, 1, .rw1c, []⟩,
  ⟨0, 9, 1, .rw1c, []⟩, ⟨0, 10, 1, .ro, []⟩],
  [0], false⟩
def F.DRV_STATUS_ENABLED : Fld := ⟨R.DRV_STATUS, 0, 0, 1⟩
def F.DRV_STATUS_READY : Fld := ⟨R.DRV_STATUS, 0, 1, 1⟩
def F.DRV_STATUS_LIVE : Fld := ⟨R.DRV_STATUS, 0, 2, 1⟩
def F.DRV_STATUS_FENCED : Fld := ⟨R.DRV_STATUS, 0, 3, 1⟩
def F.DRV_STATUS_SPARE : Fld := ⟨R.DRV_STATUS, 0, 4, 1⟩
def F.DRV_STATUS_CAL_VALID : Fld := ⟨R.DRV_STATUS, 0, 5, 1⟩
def F.DRV_STATUS_WIDE_TOL : Fld := ⟨R.DRV_STATUS, 0, 6, 1⟩
def F.DRV_STATUS_CLIP : Fld := ⟨R.DRV_STATUS, 0, 7, 1⟩
def F.DRV_STATUS_MUTED_PLAY : Fld := ⟨R.DRV_STATUS, 0, 8, 1⟩
def F.DRV_STATUS_HANDBACK_FORCED : Fld := ⟨R.DRV_STATUS, 0, 9, 1⟩
def F.DRV_STATUS_CHECKING : Fld := ⟨R.DRV_STATUS, 0, 10, 1⟩
def R.DRV_ENABLE_STATUS : Reg := ⟨38, 0x1100008, [(7, 0x1000000), (72, 0x1000)], 1, .tile, [⟨0, 0, 16, .ro, []⟩],
  [0], false⟩
def F.DRV_ENABLE_STATUS_REASON : Fld := ⟨R.DRV_ENABLE_STATUS, 0, 0, 16⟩
def R.DRV_REFUSE : Reg := ⟨39, 0x110000C, [(7, 0x1000000), (72, 0x1000)], 1, .tile, [⟨0, 0, 16, .ro, []⟩, ⟨0, 16, 12, .ro, []⟩],
  [0], false⟩
def F.DRV_REFUSE_REASON : Fld := ⟨R.DRV_REFUSE, 0, 0, 16⟩
def F.DRV_REFUSE_OFFSET : Fld := ⟨R.DRV_REFUSE, 0, 16, 12⟩
def R.DRV_GAIN : Reg := ⟨40, 0x1100010, [(7, 0x1000000), (72, 0x1000)], 1, .tile, [⟨0, 0, 16, .rws, []⟩],
  [0x8000], false⟩
def F.DRV_GAIN_GAIN : Fld := ⟨R.DRV_GAIN, 0, 0, 16⟩
def R.DRV_OFFSET : Reg := ⟨41, 0x1100014, [(7, 0x1000000), (72, 0x1000)], 1, .tile, [⟨0, 0, 14, .rws, []⟩],
  [0], false⟩
def F.DRV_OFFSET_OFFSET : Fld := ⟨R.DRV_OFFSET, 0, 0, 14⟩
def R.DRV_DELAY : Reg := ⟨42, 0x1100018, [(7, 0x1000000), (72, 0x1000)], 1, .tile, [⟨0, 0, 8, .rl, []⟩, ⟨0, 8, 6, .rl, []⟩],
  [0], false⟩
def F.DRV_DELAY_SAMPLES : Fld := ⟨R.DRV_DELAY, 0, 0, 8⟩
def F.DRV_DELAY_FINE : Fld := ⟨R.DRV_DELAY, 0, 8, 6⟩
def R.DRV_CLIP_COUNT : Reg := ⟨43, 0x110001C, [(7, 0x1000000), (72, 0x1000)], 1, .tile, [⟨0, 0, 32, .ro, []⟩],
  [0], false⟩
def F.DRV_CLIP_COUNT_COUNT : Fld := ⟨R.DRV_CLIP_COUNT, 0, 0, 32⟩
def R.DRV_SPARE : Reg := ⟨44, 0x1100020, [(7, 0x1000000), (72, 0x1000)], 1, .tile, [⟨0, 0, 3, .ro, []⟩, ⟨0, 3, 2, .ro, []⟩, ⟨0, 5, 1, .ro, []⟩],
  [0], false⟩
def F.DRV_SPARE_SERVES : Fld := ⟨R.DRV_SPARE, 0, 0, 3⟩
def F.DRV_SPARE_MODE : Fld := ⟨R.DRV_SPARE, 0, 3, 2⟩
def F.DRV_SPARE_SWITCHING : Fld := ⟨R.DRV_SPARE, 0, 5, 1⟩
def R.DRV_CAL_GAIN : Reg := ⟨45, 0x1100040, [(7, 0x1000000), (72, 0x1000)], 1, .tile, [⟨0, 0, 16, .ro, []⟩],
  [0x8000], false⟩
def F.DRV_CAL_GAIN_GAIN : Fld := ⟨R.DRV_CAL_GAIN, 0, 0, 16⟩
def R.DRV_CAL_OFFSET : Reg := ⟨46, 0x1100044, [(7, 0x1000000), (72, 0x1000)], 1, .tile, [⟨0, 0, 14, .ro, []⟩],
  [0], false⟩
def F.DRV_CAL_OFFSET_OFFSET : Fld := ⟨R.DRV_CAL_OFFSET, 0, 0, 14⟩
def R.DRV_CAL_DELAY : Reg := ⟨47, 0x1100048, [(7, 0x1000000), (72, 0x1000)], 1, .tile, [⟨0, 0, 9, .ro, []⟩, ⟨0, 9, 6, .ro, []⟩],
  [0xB0], false⟩
def F.DRV_CAL_DELAY_PAD : Fld := ⟨R.DRV_CAL_DELAY, 0, 0, 9⟩
def F.DRV_CAL_DELAY_FINE : Fld := ⟨R.DRV_CAL_DELAY, 0, 9, 6⟩
def R.DRV_CAL_TICK : Reg := ⟨48, 0x110004C, [(7, 0x1000000), (72, 0x1000)], 1, .tile, [⟨0, 0, 32, .ro, []⟩],
  [0], false⟩
def F.DRV_CAL_TICK_TICK : Fld := ⟨R.DRV_CAL_TICK, 0, 0, 32⟩
def R.DRV_FREQ : Reg := ⟨49, 0x1100100, [(7, 0x1000000), (72, 0x1000), (2, 0x80), (16, 0x8)], 2, .tile, [⟨0, 0, 32, .rwc, []⟩, ⟨1, 0, 16, .rwc, []⟩],
  [0, 0], false⟩
def F.DRV_FREQ_FTW_LO : Fld := ⟨R.DRV_FREQ, 0, 0, 32⟩
def F.DRV_FREQ_FTW_HI : Fld := ⟨R.DRV_FREQ, 1, 0, 16⟩
def R.TIL_MARK : Reg := ⟨50, 0x1000400, [(7, 0x1000000), (4, 0x4)], 1, .tile, [⟨0, 0, 1, .rws, []⟩, ⟨0, 1, 1, .rws, []⟩, ⟨0, 2, 1, .rws, []⟩,
  ⟨0, 3, 6, .rws, []⟩, ⟨0, 9, 2, .rws, []⟩, ⟨0, 16, 8, .rl, []⟩,
  ⟨0, 24, 6, .rl, []⟩],
  [0], false⟩
def F.TIL_MARK_EN : Fld := ⟨R.TIL_MARK, 0, 0, 1⟩
def F.TIL_MARK_INV : Fld := ⟨R.TIL_MARK, 0, 1, 1⟩
def F.TIL_MARK_KIND : Fld := ⟨R.TIL_MARK, 0, 2, 1⟩
def F.TIL_MARK_CHAN : Fld := ⟨R.TIL_MARK, 0, 3, 6⟩
def F.TIL_MARK_BIT : Fld := ⟨R.TIL_MARK, 0, 9, 2⟩
def F.TIL_MARK_DELAY : Fld := ⟨R.TIL_MARK, 0, 16, 8⟩
def F.TIL_MARK_FINE : Fld := ⟨R.TIL_MARK, 0, 24, 6⟩
def R.TIL_ENV_STATUS : Reg := ⟨51, 0x1000020, [(7, 0x1000000)], 1, .tile, [⟨0, 0, 1, .rw1c, []⟩, ⟨0, 1, 1, .rw1c, []⟩, ⟨0, 2, 10, .ro, []⟩,
  ⟨0, 12, 10, .ro, []⟩],
  [0], false⟩
def F.TIL_ENV_STATUS_WR_REFUSED : Fld := ⟨R.TIL_ENV_STATUS, 0, 0, 1⟩
def F.TIL_ENV_STATUS_OPEN_READ : Fld := ⟨R.TIL_ENV_STATUS, 0, 1, 1⟩
def F.TIL_ENV_STATUS_WR_PAGE : Fld := ⟨R.TIL_ENV_STATUS, 0, 2, 10⟩
def F.TIL_ENV_STATUS_RD_PAGE : Fld := ⟨R.TIL_ENV_STATUS, 0, 12, 10⟩
def R.TIL_SEG_REFUSE : Reg := ⟨52, 0x1000024, [(7, 0x1000000)], 1, .tile, [⟨0, 0, 16, .ro, []⟩, ⟨0, 16, 8, .ro, []⟩],
  [0], false⟩
def F.TIL_SEG_REFUSE_REASON : Fld := ⟨R.TIL_SEG_REFUSE, 0, 0, 16⟩
def F.TIL_SEG_REFUSE_SEG : Fld := ⟨R.TIL_SEG_REFUSE, 0, 16, 8⟩
def R.TIL_SEG : Reg := ⟨53, 0x1002000, [(7, 0x1000000), (256, 0x10)], 4, .tile, [⟨0, 0, 2, .rw, [(0, 2)]⟩, ⟨0, 2, 1, .rws, []⟩, ⟨0, 3, 1, .ro, []⟩,
  ⟨1, 0, 10, .rw, []⟩, ⟨1, 10, 11, .rw, []⟩, ⟨2, 0, 20, .rw, []⟩,
  ⟨3, 0, 8, .rw, []⟩, ⟨3, 8, 16, .rw, []⟩, ⟨3, 24, 1, .rw, []⟩,
  ⟨3, 25, 1, .rw, []⟩],
  [0, 0, 0, 0], false⟩
def F.TIL_SEG_TYPE : Fld := ⟨R.TIL_SEG, 0, 0, 2⟩
def F.TIL_SEG_STATE : Fld := ⟨R.TIL_SEG, 0, 2, 1⟩
def F.TIL_SEG_INUSE : Fld := ⟨R.TIL_SEG, 0, 3, 1⟩
def F.TIL_SEG_PAGE_BASE : Fld := ⟨R.TIL_SEG, 1, 0, 10⟩
def F.TIL_SEG_PAGES : Fld := ⟨R.TIL_SEG, 1, 10, 11⟩
def F.TIL_SEG_LEN : Fld := ⟨R.TIL_SEG, 2, 0, 20⟩
def F.TIL_SEG_NEXT : Fld := ⟨R.TIL_SEG, 3, 0, 8⟩
def F.TIL_SEG_REPEAT : Fld := ⟨R.TIL_SEG, 3, 8, 16⟩
def F.TIL_SEG_INF : Fld := ⟨R.TIL_SEG, 3, 24, 1⟩
def F.TIL_SEG_END : Fld := ⟨R.TIL_SEG, 3, 25, 1⟩
def R.TIL_STRM_STATUS : Reg := ⟨54, 0x1004000, [(7, 0x1000000), (64, 0x20)], 1, .tile, [⟨0, 0, 3, .ro, []⟩, ⟨0, 3, 1, .rw1c, []⟩, ⟨0, 4, 2, .ro, []⟩,
  ⟨0, 6, 1, .ro, []⟩, ⟨0, 7, 1, .rw1c, []⟩, ⟨0, 8, 1, .rw1c, []⟩,
  ⟨0, 9, 1, .ro, []⟩, ⟨0, 10, 6, .ro, []⟩, ⟨0, 16, 8, .ro, []⟩],
  [0], false⟩
def F.TIL_STRM_STATUS_STATE : Fld := ⟨R.TIL_STRM_STATUS, 0, 0, 3⟩
def F.TIL_STRM_STATUS_UNDERRUN : Fld := ⟨R.TIL_STRM_STATUS, 0, 3, 1⟩
def F.TIL_STRM_STATUS_CAUSE : Fld := ⟨R.TIL_STRM_STATUS, 0, 4, 2⟩
def F.TIL_STRM_STATUS_URUN : Fld := ⟨R.TIL_STRM_STATUS, 0, 6, 1⟩
def F.TIL_STRM_STATUS_URUN_MISMATCH : Fld := ⟨R.TIL_STRM_STATUS, 0, 7, 1⟩
def F.TIL_STRM_STATUS_TAP_ENDED : Fld := ⟨R.TIL_STRM_STATUS, 0, 8, 1⟩
def F.TIL_STRM_STATUS_POLICY : Fld := ⟨R.TIL_STRM_STATUS, 0, 9, 1⟩
def F.TIL_STRM_STATUS_PART : Fld := ⟨R.TIL_STRM_STATUS, 0, 10, 6⟩
def F.TIL_STRM_STATUS_CUR : Fld := ⟨R.TIL_STRM_STATUS, 0, 16, 8⟩
def R.TIL_STRM_NEXT : Reg := ⟨55, 0x1004004, [(7, 0x1000000), (64, 0x20)], 1, .tile, [⟨0, 0, 8, .ro, []⟩, ⟨0, 8, 1, .ro, []⟩, ⟨0, 9, 8, .ro, []⟩,
  ⟨0, 17, 1, .ro, []⟩],
  [0], false⟩
def F.TIL_STRM_NEXT_SUCC : Fld := ⟨R.TIL_STRM_NEXT, 0, 0, 8⟩
def F.TIL_STRM_NEXT_FIXED : Fld := ⟨R.TIL_STRM_NEXT, 0, 8, 1⟩
def F.TIL_STRM_NEXT_PEND : Fld := ⟨R.TIL_STRM_NEXT, 0, 9, 8⟩
def F.TIL_STRM_NEXT_PENDING : Fld := ⟨R.TIL_STRM_NEXT, 0, 17, 1⟩
def R.TIL_STRM_JUMP : Reg := ⟨56, 0x1004008, [(7, 0x1000000), (64, 0x20)], 1, .tile, [⟨0, 0, 8, .rws, []⟩],
  [0], false⟩
def F.TIL_STRM_JUMP_TARGET : Fld := ⟨R.TIL_STRM_JUMP, 0, 0, 8⟩
def R.TIL_STRM_MISS : Reg := ⟨57, 0x100400C, [(7, 0x1000000), (64, 0x20)], 1, .tile, [⟨0, 0, 32, .ro, []⟩],
  [0], false⟩
def F.TIL_STRM_MISS_COUNT : Fld := ⟨R.TIL_STRM_MISS, 0, 0, 32⟩
def R.TIL_STRM_MISS_TICK : Reg := ⟨58, 0x1004010, [(7, 0x1000000), (64, 0x20)], 1, .tile, [⟨0, 0, 32, .ro, []⟩],
  [0], false⟩
def F.TIL_STRM_MISS_TICK_TICK : Fld := ⟨R.TIL_STRM_MISS_TICK, 0, 0, 32⟩
def R.TIL_STRM_PASS : Reg := ⟨59, 0x1004014, [(7, 0x1000000), (64, 0x20)], 1, .tile, [⟨0, 0, 16, .ro, []⟩],
  [0], false⟩
def F.TIL_STRM_PASS_PASS : Fld := ⟨R.TIL_STRM_PASS, 0, 0, 16⟩
def R.QMG_STRM_BASE_LO : Reg := ⟨60, 0x90000, [(7, 0x800), (64, 0x20)], 1, .perst, [⟨0, 0, 32, .ro, []⟩],
  [0], false⟩
def F.QMG_STRM_BASE_LO_BASE_LO : Fld := ⟨R.QMG_STRM_BASE_LO, 0, 0, 32⟩
def R.QMG_STRM_BASE_HI : Reg := ⟨61, 0x90004, [(7, 0x800), (64, 0x20)], 1, .perst, [⟨0, 0, 32, .ro, []⟩],
  [0], false⟩
def F.QMG_STRM_BASE_HI_BASE_HI : Fld := ⟨R.QMG_STRM_BASE_HI, 0, 0, 32⟩
def R.QMG_STRM_CFG : Reg := ⟨62, 0x90008, [(7, 0x800), (64, 0x20)], 1, .perst, [⟨0, 0, 5, .ro, []⟩, ⟨0, 8, 7, .ro, []⟩, ⟨0, 16, 6, .ro, []⟩],
  [0], false⟩
def F.QMG_STRM_CFG_LOG2SIZE : Fld := ⟨R.QMG_STRM_CFG, 0, 0, 5⟩
def F.QMG_STRM_CFG_WIN : Fld := ⟨R.QMG_STRM_CFG, 0, 8, 7⟩
def F.QMG_STRM_CFG_RATE : Fld := ⟨R.QMG_STRM_CFG, 0, 16, 6⟩
def R.QMG_STRM_WP : Reg := ⟨63, 0x9000C, [(7, 0x800), (64, 0x20)], 1, .perst, [⟨0, 0, 32, .rw, []⟩],
  [0], false⟩
def F.QMG_STRM_WP_WP : Fld := ⟨R.QMG_STRM_WP, 0, 0, 32⟩
def R.QMG_STRM_FP : Reg := ⟨64, 0x90010, [(7, 0x800), (64, 0x20)], 1, .perst, [⟨0, 0, 32, .ro, []⟩],
  [0], false⟩
def F.QMG_STRM_FP_FP : Fld := ⟨R.QMG_STRM_FP, 0, 0, 32⟩
def R.QMG_STRM_CP : Reg := ⟨65, 0x90014, [(7, 0x800), (64, 0x20)], 1, .perst, [⟨0, 0, 32, .ro, []⟩],
  [0], false⟩
def F.QMG_STRM_CP_CP : Fld := ⟨R.QMG_STRM_CP, 0, 0, 32⟩
def R.QMG_STRM_STATUS : Reg := ⟨66, 0x90018, [(7, 0x800), (64, 0x20)], 1, .perst, [⟨0, 0, 1, .rw1c, []⟩, ⟨0, 1, 1, .ro, []⟩],
  [0], false⟩
def F.QMG_STRM_STATUS_RING_ERR : Fld := ⟨R.QMG_STRM_STATUS, 0, 0, 1⟩
def F.QMG_STRM_STATUS_STALL : Fld := ⟨R.QMG_STRM_STATUS, 0, 1, 1⟩
def R.TIL_GEN_CTRL : Reg := ⟨67, 0x1001000, [(7, 0x1000000), (32, 0x20)], 1, .tile, [⟨0, 0, 1, .rws, []⟩, ⟨0, 1, 2, .rl, []⟩, ⟨0, 3, 1, .wo, []⟩,
  ⟨0, 16, 16, .ro, []⟩],
  [0], false⟩
def F.TIL_GEN_CTRL_EN : Fld := ⟨R.TIL_GEN_CTRL, 0, 0, 1⟩
def F.TIL_GEN_CTRL_MODE : Fld := ⟨R.TIL_GEN_CTRL, 0, 1, 2⟩
def F.TIL_GEN_CTRL_RESTART : Fld := ⟨R.TIL_GEN_CTRL, 0, 3, 1⟩
def F.TIL_GEN_CTRL_REASON : Fld := ⟨R.TIL_GEN_CTRL, 0, 16, 16⟩
def R.TIL_GEN_START : Reg := ⟨68, 0x1001004, [(7, 0x1000000), (32, 0x20)], 1, .tile, [⟨0, 0, 32, .rl, []⟩],
  [0], false⟩
def F.TIL_GEN_START_START : Fld := ⟨R.TIL_GEN_START, 0, 0, 32⟩
def R.TIL_GEN_STEP : Reg := ⟨69, 0x1001008, [(7, 0x1000000), (32, 0x20)], 1, .tile, [⟨0, 0, 32, .rl, []⟩],
  [0], false⟩
def F.TIL_GEN_STEP_STEP : Fld := ⟨R.TIL_GEN_STEP, 0, 0, 32⟩
def R.TIL_GEN_LIMIT : Reg := ⟨70, 0x100100C, [(7, 0x1000000), (32, 0x20)], 1, .tile, [⟨0, 0, 32, .rl, []⟩],
  [0], false⟩
def F.TIL_GEN_LIMIT_LIMIT : Fld := ⟨R.TIL_GEN_LIMIT, 0, 0, 32⟩
def R.TIL_GEN_VALUE : Reg := ⟨71, 0x1001010, [(7, 0x1000000), (32, 0x20)], 1, .tile, [⟨0, 0, 32, .ro, []⟩],
  [0], false⟩
def F.TIL_GEN_VALUE_VALUE : Fld := ⟨R.TIL_GEN_VALUE, 0, 0, 32⟩
def R.TIL_GEN_ADV : Reg := ⟨72, 0x1001014, [(7, 0x1000000), (32, 0x20)], 1, .tile, [⟨0, 0, 32, .ro, []⟩],
  [0], false⟩
def F.TIL_GEN_ADV_ADV : Fld := ⟨R.TIL_GEN_ADV, 0, 0, 32⟩
def R.FLX_CTRL : Reg := ⟨73, 0x1200000, [(7, 0x1000000), (64, 0x2000)], 1, .tile, [⟨0, 0, 1, .rl, []⟩, ⟨0, 1, 1, .rl, []⟩],
  [0], false⟩
def F.FLX_CTRL_EN : Fld := ⟨R.FLX_CTRL, 0, 0, 1⟩
def F.FLX_CTRL_SPAN : Fld := ⟨R.FLX_CTRL, 0, 1, 1⟩
def R.FLX_STATUS : Reg := ⟨74, 0x1200004, [(7, 0x1000000), (64, 0x2000)], 1, .tile, [⟨0, 0, 1, .ro, []⟩, ⟨0, 1, 1, .ro, []⟩, ⟨0, 2, 1, .ro, []⟩,
  ⟨0, 3, 1, .ro, []⟩, ⟨0, 4, 1, .ro, []⟩, ⟨0, 5, 1, .rw1c, []⟩,
  ⟨0, 6, 1, .rw1c, []⟩, ⟨0, 7, 1, .ro, []⟩],
  [0], false⟩
def F.FLX_STATUS_ENABLED : Fld := ⟨R.FLX_STATUS, 0, 0, 1⟩
def F.FLX_STATUS_LIVE : Fld := ⟨R.FLX_STATUS, 0, 1, 1⟩
def F.FLX_STATUS_FENCED : Fld := ⟨R.FLX_STATUS, 0, 2, 1⟩
def F.FLX_STATUS_CAL_VALID : Fld := ⟨R.FLX_STATUS, 0, 3, 1⟩
def F.FLX_STATUS_SPAN_CHANGING : Fld := ⟨R.FLX_STATUS, 0, 4, 1⟩
def F.FLX_STATUS_CLIP : Fld := ⟨R.FLX_STATUS, 0, 5, 1⟩
def F.FLX_STATUS_MUTED_PLAY : Fld := ⟨R.FLX_STATUS, 0, 6, 1⟩
def F.FLX_STATUS_CHECKING : Fld := ⟨R.FLX_STATUS, 0, 7, 1⟩
def R.FLX_ENABLE_STATUS : Reg := ⟨75, 0x1200008, [(7, 0x1000000), (64, 0x2000)], 1, .tile, [⟨0, 0, 16, .ro, []⟩],
  [0], false⟩
def F.FLX_ENABLE_STATUS_REASON : Fld := ⟨R.FLX_ENABLE_STATUS, 0, 0, 16⟩
def R.FLX_REFUSE : Reg := ⟨76, 0x120000C, [(7, 0x1000000), (64, 0x2000)], 1, .tile, [⟨0, 0, 16, .ro, []⟩, ⟨0, 16, 12, .ro, []⟩],
  [0], false⟩
def F.FLX_REFUSE_REASON : Fld := ⟨R.FLX_REFUSE, 0, 0, 16⟩
def F.FLX_REFUSE_OFFSET : Fld := ⟨R.FLX_REFUSE, 0, 16, 12⟩
def R.FLX_GAIN : Reg := ⟨77, 0x1200010, [(7, 0x1000000), (64, 0x2000)], 1, .tile, [⟨0, 0, 16, .rws, []⟩],
  [0x8000], false⟩
def F.FLX_GAIN_GAIN : Fld := ⟨R.FLX_GAIN, 0, 0, 16⟩
def R.FLX_LEVEL : Reg := ⟨78, 0x1200014, [(7, 0x1000000), (64, 0x2000)], 1, .tile, [⟨0, 0, 16, .rws, []⟩],
  [0], false⟩
def F.FLX_LEVEL_LEVEL : Fld := ⟨R.FLX_LEVEL, 0, 0, 16⟩
def R.FLX_DELAY : Reg := ⟨79, 0x1200018, [(7, 0x1000000), (64, 0x2000)], 1, .tile, [⟨0, 0, 8, .rl, []⟩, ⟨0, 8, 6, .rl, []⟩],
  [0], false⟩
def F.FLX_DELAY_SAMPLES : Fld := ⟨R.FLX_DELAY, 0, 0, 8⟩
def F.FLX_DELAY_FINE : Fld := ⟨R.FLX_DELAY, 0, 8, 6⟩
def R.FLX_CLIP_COUNT : Reg := ⟨80, 0x120001C, [(7, 0x1000000), (64, 0x2000)], 1, .tile, [⟨0, 0, 32, .ro, []⟩],
  [0], false⟩
def F.FLX_CLIP_COUNT_COUNT : Fld := ⟨R.FLX_CLIP_COUNT, 0, 0, 32⟩
def R.FLX_CAL_GAIN : Reg := ⟨81, 0x1200040, [(7, 0x1000000), (64, 0x2000)], 1, .tile, [⟨0, 0, 16, .ro, []⟩],
  [0x8000], false⟩
def F.FLX_CAL_GAIN_GAIN : Fld := ⟨R.FLX_CAL_GAIN, 0, 0, 16⟩
def R.FLX_CAL_OFFSET : Reg := ⟨82, 0x1200044, [(7, 0x1000000), (64, 0x2000)], 1, .tile, [⟨0, 0, 16, .ro, []⟩],
  [0], false⟩
def F.FLX_CAL_OFFSET_OFFSET : Fld := ⟨R.FLX_CAL_OFFSET, 0, 0, 16⟩
def R.FLX_CAL_DELAY : Reg := ⟨83, 0x1200048, [(7, 0x1000000), (64, 0x2000)], 1, .tile, [⟨0, 0, 9, .ro, []⟩, ⟨0, 9, 6, .ro, []⟩],
  [0xF8], false⟩
def F.FLX_CAL_DELAY_PAD : Fld := ⟨R.FLX_CAL_DELAY, 0, 0, 9⟩
def F.FLX_CAL_DELAY_FINE : Fld := ⟨R.FLX_CAL_DELAY, 0, 9, 6⟩
def R.FLX_CAL_TICK : Reg := ⟨84, 0x120004C, [(7, 0x1000000), (64, 0x2000)], 1, .tile, [⟨0, 0, 32, .ro, []⟩],
  [0], false⟩
def F.FLX_CAL_TICK_TICK : Fld := ⟨R.FLX_CAL_TICK, 0, 0, 32⟩
def R.FLX_FREQ : Reg := ⟨85, 0x1200100, [(7, 0x1000000), (64, 0x2000), (2, 0x80), (16, 0x8)], 2, .tile, [⟨0, 0, 32, .rwc, []⟩, ⟨1, 0, 16, .rwc, []⟩],
  [0, 0], false⟩
def F.FLX_FREQ_FTW_LO : Fld := ⟨R.FLX_FREQ, 0, 0, 32⟩
def F.FLX_FREQ_FTW_HI : Fld := ⟨R.FLX_FREQ, 1, 0, 16⟩
def R.BIA_CTRL : Reg := ⟨86, 0x1280000, [(7, 0x1000000), (64, 0x1000)], 1, .tile, [⟨0, 0, 1, .rl, []⟩],
  [0], false⟩
def F.BIA_CTRL_EN : Fld := ⟨R.BIA_CTRL, 0, 0, 1⟩
def R.BIA_SPAN : Reg := ⟨87, 0x1280004, [(7, 0x1000000), (64, 0x1000)], 1, .tile, [⟨0, 0, 3, .rl, [(0, 2), (4, 6)]⟩, ⟨0, 12, 20, .rl, []⟩],
  [0], false⟩
def F.BIA_SPAN_SPAN : Fld := ⟨R.BIA_SPAN, 0, 0, 3⟩
def F.BIA_SPAN_CODE_AFTER : Fld := ⟨R.BIA_SPAN, 0, 12, 20⟩
def R.BIA_CODE : Reg := ⟨88, 0x1280008, [(7, 0x1000000), (64, 0x1000)], 1, .tile, [⟨0, 0, 20, .rws, []⟩],
  [0], false⟩
def F.BIA_CODE_CODE : Fld := ⟨R.BIA_CODE, 0, 0, 20⟩
def R.BIA_STATUS : Reg := ⟨89, 0x128000C, [(7, 0x1000000), (64, 0x1000)], 1, .tile, [⟨0, 0, 1, .ro, []⟩, ⟨0, 1, 1, .ro, []⟩, ⟨0, 2, 1, .ro, []⟩,
  ⟨0, 3, 1, .ro, []⟩, ⟨0, 4, 1, .ro, []⟩, ⟨0, 5, 1, .rw1c, []⟩,
  ⟨0, 6, 1, .rw1c, []⟩, ⟨0, 7, 1, .rw1c, []⟩, ⟨0, 8, 1, .ro, []⟩],
  [0], false⟩
def F.BIA_STATUS_ENABLED : Fld := ⟨R.BIA_STATUS, 0, 0, 1⟩
def F.BIA_STATUS_LIVE : Fld := ⟨R.BIA_STATUS, 0, 1, 1⟩
def F.BIA_STATUS_FENCED : Fld := ⟨R.BIA_STATUS, 0, 2, 1⟩
def F.BIA_STATUS_CAL_VALID : Fld := ⟨R.BIA_STATUS, 0, 3, 1⟩
def F.BIA_STATUS_SPAN_CHANGING : Fld := ⟨R.BIA_STATUS, 0, 4, 1⟩
def F.BIA_STATUS_DEFERRED : Fld := ⟨R.BIA_STATUS, 0, 5, 1⟩
def F.BIA_STATUS_COMPLIANCE : Fld := ⟨R.BIA_STATUS, 0, 6, 1⟩
def F.BIA_STATUS_MUTED_PLAY : Fld := ⟨R.BIA_STATUS, 0, 7, 1⟩
def F.BIA_STATUS_CHECKING : Fld := ⟨R.BIA_STATUS, 0, 8, 1⟩
def R.BIA_ENABLE_STATUS : Reg := ⟨90, 0x1280010, [(7, 0x1000000), (64, 0x1000)], 1, .tile, [⟨0, 0, 16, .ro, []⟩],
  [0], false⟩
def F.BIA_ENABLE_STATUS_REASON : Fld := ⟨R.BIA_ENABLE_STATUS, 0, 0, 16⟩
def R.BIA_REFUSE : Reg := ⟨91, 0x1280014, [(7, 0x1000000), (64, 0x1000)], 1, .tile, [⟨0, 0, 16, .ro, []⟩, ⟨0, 16, 12, .ro, []⟩],
  [0], false⟩
def F.BIA_REFUSE_REASON : Fld := ⟨R.BIA_REFUSE, 0, 0, 16⟩
def F.BIA_REFUSE_OFFSET : Fld := ⟨R.BIA_REFUSE, 0, 16, 12⟩
def R.BIA_DELAY : Reg := ⟨92, 0x1280018, [(7, 0x1000000), (64, 0x1000)], 1, .tile, [⟨0, 0, 8, .rl, []⟩],
  [0], false⟩
def F.BIA_DELAY_SAMPLES : Fld := ⟨R.BIA_DELAY, 0, 0, 8⟩
def R.BIA_LATCH_TICK : Reg := ⟨93, 0x128001C, [(7, 0x1000000), (64, 0x1000)], 1, .tile, [⟨0, 0, 32, .ro, []⟩],
  [0], false⟩
def F.BIA_LATCH_TICK_TICK : Fld := ⟨R.BIA_LATCH_TICK, 0, 0, 32⟩
def R.BIA_CAL_GAIN : Reg := ⟨94, 0x1280040, [(7, 0x1000000), (64, 0x1000)], 1, .tile, [⟨0, 0, 24, .ro, []⟩],
  [0x800000], false⟩
def F.BIA_CAL_GAIN_GAIN : Fld := ⟨R.BIA_CAL_GAIN, 0, 0, 24⟩
def R.BIA_CAL_OFFSET : Reg := ⟨95, 0x1280044, [(7, 0x1000000), (64, 0x1000)], 1, .tile, [⟨0, 0, 20, .ro, []⟩],
  [0], false⟩
def F.BIA_CAL_OFFSET_OFFSET : Fld := ⟨R.BIA_CAL_OFFSET, 0, 0, 20⟩
def R.BIA_CAL_TICK : Reg := ⟨96, 0x1280048, [(7, 0x1000000), (64, 0x1000)], 1, .tile, [⟨0, 0, 32, .ro, []⟩],
  [0], false⟩
def F.BIA_CAL_TICK_TICK : Fld := ⟨R.BIA_CAL_TICK, 0, 0, 32⟩
def R.SNS_CTRL : Reg := ⟨97, 0x12C0000, [(7, 0x1000000)], 1, .tile, [⟨0, 0, 1, .rws, []⟩, ⟨0, 1, 7, .rl, [(1, 64)]⟩, ⟨0, 8, 1, .rl, []⟩,
  ⟨0, 9, 7, .rl, []⟩, ⟨0, 16, 16, .rl, [(50, 65535)]⟩],
  [0x401410], false⟩
def F.SNS_CTRL_SCAN_EN : Fld := ⟨R.SNS_CTRL, 0, 0, 1⟩
def F.SNS_CTRL_OW_N : Fld := ⟨R.SNS_CTRL, 0, 1, 7⟩
def F.SNS_CTRL_SHORT_ACT : Fld := ⟨R.SNS_CTRL, 0, 8, 1⟩
def F.SNS_CTRL_SETTLE : Fld := ⟨R.SNS_CTRL, 0, 9, 7⟩
def F.SNS_CTRL_TCONV : Fld := ⟨R.SNS_CTRL, 0, 16, 16⟩
def R.SNS_STATUS : Reg := ⟨98, 0x12C0004, [(7, 0x1000000)], 1, .tile, [⟨0, 0, 1, .ro, []⟩, ⟨0, 1, 1, .ro, []⟩, ⟨0, 2, 1, .ro, []⟩,
  ⟨0, 16, 16, .ro, []⟩],
  [0], false⟩
def F.SNS_STATUS_SCANNING : Fld := ⟨R.SNS_STATUS, 0, 0, 1⟩
def F.SNS_STATUS_ROT_STOPPED : Fld := ⟨R.SNS_STATUS, 0, 1, 1⟩
def F.SNS_STATUS_NO_ADC : Fld := ⟨R.SNS_STATUS, 0, 2, 1⟩
def F.SNS_STATUS_STRETCH_COUNT : Fld := ⟨R.SNS_STATUS, 0, 16, 16⟩
def R.SNS_SCAN : Reg := ⟨99, 0x12C0008, [(7, 0x1000000)], 1, .tile, [⟨0, 0, 16, .ro, []⟩],
  [0], false⟩
def F.SNS_SCAN_SEQ : Fld := ⟨R.SNS_SCAN, 0, 0, 16⟩
def R.SNS_SCAN_TICK : Reg := ⟨100, 0x12C000C, [(7, 0x1000000)], 1, .tile, [⟨0, 0, 32, .ro, []⟩],
  [0], false⟩
def F.SNS_SCAN_TICK_TICK : Fld := ⟨R.SNS_SCAN_TICK, 0, 0, 32⟩
def R.SNS_ADC : Reg := ⟨101, 0x12C0100, [(7, 0x1000000), (5, 0x10)], 1, .tile, [⟨0, 0, 3, .ro, []⟩, ⟨0, 3, 2, .ro, []⟩, ⟨0, 5, 1, .ro, []⟩,
  ⟨0, 6, 1, .ro, []⟩, ⟨0, 16, 16, .ro, []⟩],
  [0], true⟩
def F.SNS_ADC_LIST : Fld := ⟨R.SNS_ADC, 0, 0, 3⟩
def F.SNS_ADC_ROLE : Fld := ⟨R.SNS_ADC, 0, 3, 2⟩
def F.SNS_ADC_FENCED : Fld := ⟨R.SNS_ADC, 0, 5, 1⟩
def F.SNS_ADC_CAL_VALID : Fld := ⟨R.SNS_ADC, 0, 6, 1⟩
def F.SNS_ADC_TEMP : Fld := ⟨R.SNS_ADC, 0, 16, 16⟩
def R.SNS_INJ_CTRL : Reg := ⟨102, 0x12C0200, [(7, 0x1000000), (4, 0x20)], 1, .tile, [⟨0, 0, 4, .rws, []⟩, ⟨0, 4, 1, .wo, []⟩, ⟨0, 5, 4, .rws, [(0, 10)]⟩,
  ⟨0, 9, 1, .rws, []⟩],
  [0], false⟩
def F.SNS_INJ_CTRL_PAIR : Fld := ⟨R.SNS_INJ_CTRL, 0, 0, 4⟩
def F.SNS_INJ_CTRL_GO : Fld := ⟨R.SNS_INJ_CTRL, 0, 4, 1⟩
def F.SNS_INJ_CTRL_SRC : Fld := ⟨R.SNS_INJ_CTRL, 0, 5, 4⟩
def F.SNS_INJ_CTRL_IRQ : Fld := ⟨R.SNS_INJ_CTRL, 0, 9, 1⟩
def R.SNS_INJ_TIME : Reg := ⟨103, 0x12C0204, [(7, 0x1000000), (4, 0x20)], 1, .tile, [⟨0, 0, 32, .rws, []⟩],
  [0], false⟩
def F.SNS_INJ_TIME_TICK : Fld := ⟨R.SNS_INJ_TIME, 0, 0, 32⟩
def R.SNS_INJ_STATUS : Reg := ⟨104, 0x12C0208, [(7, 0x1000000), (4, 0x20)], 1, .tile, [⟨0, 0, 1, .ro, []⟩, ⟨0, 1, 1, .rw1c, []⟩, ⟨0, 16, 16, .ro, []⟩],
  [0], false⟩
def F.SNS_INJ_STATUS_BUSY : Fld := ⟨R.SNS_INJ_STATUS, 0, 0, 1⟩
def F.SNS_INJ_STATUS_DONE : Fld := ⟨R.SNS_INJ_STATUS, 0, 1, 1⟩
def F.SNS_INJ_STATUS_IGNORED : Fld := ⟨R.SNS_INJ_STATUS, 0, 16, 16⟩
def R.SNS_INJ_RESULT : Reg := ⟨105, 0x12C0210, [(7, 0x1000000), (4, 0x20)], 4, .tile, [],
  [0, 0, 0, 0], false⟩
def R.SNS_PAIR_CFG : Reg := ⟨106, 0x12D0000, [(7, 0x1000000), (64, 0x40)], 1, .tile, [⟨0, 0, 1, .rws, []⟩, ⟨0, 1, 1, .rws, []⟩, ⟨0, 2, 2, .rws, []⟩,
  ⟨0, 4, 1, .rws, []⟩, ⟨0, 5, 1, .rws, []⟩, ⟨0, 16, 16, .rws, [(10, 2500)]⟩],
  [0x32001E], false⟩
def F.SNS_PAIR_CFG_EN : Fld := ⟨R.SNS_PAIR_CFG, 0, 0, 1⟩
def F.SNS_PAIR_CFG_AUTO : Fld := ⟨R.SNS_PAIR_CFG, 0, 1, 1⟩
def F.SNS_PAIR_CFG_RANGE : Fld := ⟨R.SNS_PAIR_CFG, 0, 2, 2⟩
def F.SNS_PAIR_CFG_OW_EN : Fld := ⟨R.SNS_PAIR_CFG, 0, 4, 1⟩
def F.SNS_PAIR_CFG_ICHK_EN : Fld := ⟨R.SNS_PAIR_CFG, 0, 5, 1⟩
def F.SNS_PAIR_CFG_OW_THRESH : Fld := ⟨R.SNS_PAIR_CFG, 0, 16, 16⟩
def R.SNS_LIMIT_LO : Reg := ⟨107, 0x12D0004, [(7, 0x1000000), (64, 0x40)], 1, .tile, [⟨0, 0, 32, .rwc, []⟩],
  [0xFF48E500], false⟩
def F.SNS_LIMIT_LO_LO : Fld := ⟨R.SNS_LIMIT_LO, 0, 0, 32⟩
def R.SNS_LIMIT_HI : Reg := ⟨108, 0x12D0008, [(7, 0x1000000), (64, 0x40)], 1, .tile, [⟨0, 0, 32, .rwc, []⟩],
  [0xB71B00], false⟩
def F.SNS_LIMIT_HI_HI : Fld := ⟨R.SNS_LIMIT_HI, 0, 0, 32⟩
def R.SNS_STEP : Reg := ⟨109, 0x12D000C, [(7, 0x1000000), (64, 0x40)], 1, .tile, [⟨0, 0, 24, .rws, []⟩],
  [0x186A0], false⟩
def F.SNS_STEP_STEP_MAX : Fld := ⟨R.SNS_STEP, 0, 0, 24⟩
def R.SNS_LOAD : Reg := ⟨110, 0x12D0010, [(7, 0x1000000), (64, 0x40)], 1, .tile, [⟨0, 0, 24, .rws, []⟩],
  [0], false⟩
def F.SNS_LOAD_R_LOAD : Fld := ⟨R.SNS_LOAD, 0, 0, 24⟩
def R.SNS_ILIM : Reg := ⟨111, 0x12D0014, [(7, 0x1000000), (64, 0x40)], 1, .tile, [⟨0, 0, 16, .rws, []⟩],
  [0xC8], false⟩
def F.SNS_ILIM_LIMIT : Fld := ⟨R.SNS_ILIM, 0, 0, 16⟩
def R.SNS_LEAD : Reg := ⟨112, 0x12D0018, [(7, 0x1000000), (64, 0x40)], 1, .tile, [⟨0, 0, 16, .ro, []⟩, ⟨0, 16, 1, .ro, []⟩],
  [0], false⟩
def F.SNS_LEAD_R_LEAD : Fld := ⟨R.SNS_LEAD, 0, 0, 16⟩
def F.SNS_LEAD_LEAD_VALID : Fld := ⟨R.SNS_LEAD, 0, 16, 1⟩
def R.SNS_PAIR_STATUS : Reg := ⟨113, 0x12D001C, [(7, 0x1000000), (64, 0x40)], 1, .tile, [⟨0, 0, 1, .ro, []⟩, ⟨0, 1, 1, .ro, []⟩, ⟨0, 2, 1, .ro, []⟩,
  ⟨0, 3, 1, .rw1c, []⟩, ⟨0, 4, 1, .ro, []⟩, ⟨0, 5, 1, .rw1c, []⟩,
  ⟨0, 6, 1, .rw1c, []⟩, ⟨0, 7, 2, .ro, []⟩],
  [0x180], false⟩
def F.SNS_PAIR_STATUS_OPEN_PAIR : Fld := ⟨R.SNS_PAIR_STATUS, 0, 0, 1⟩
def F.SNS_PAIR_STATUS_LOAD_OPEN : Fld := ⟨R.SNS_PAIR_STATUS, 0, 1, 1⟩
def F.SNS_PAIR_STATUS_LOAD_SHORT : Fld := ⟨R.SNS_PAIR_STATUS, 0, 2, 1⟩
def F.SNS_PAIR_STATUS_CLAMP : Fld := ⟨R.SNS_PAIR_STATUS, 0, 3, 1⟩
def F.SNS_PAIR_STATUS_SUSPECT : Fld := ⟨R.SNS_PAIR_STATUS, 0, 4, 1⟩
def F.SNS_PAIR_STATUS_OUT_OF_LIMIT : Fld := ⟨R.SNS_PAIR_STATUS, 0, 5, 1⟩
def F.SNS_PAIR_STATUS_OVERLOAD : Fld := ⟨R.SNS_PAIR_STATUS, 0, 6, 1⟩
def F.SNS_PAIR_STATUS_RANGE : Fld := ⟨R.SNS_PAIR_STATUS, 0, 7, 2⟩
def R.SNS_RESULT : Reg := ⟨114, 0x12D0020, [(7, 0x1000000), (64, 0x40)], 4, .tile, [],
  [0, 0, 0, 0], false⟩
def R.RDO_STATUS : Reg := ⟨115, 0x1301000, [(7, 0x1000000), (8, 0x8000)], 1, .tile, [⟨0, 0, 1, .ro, []⟩, ⟨0, 1, 1, .ro, []⟩, ⟨0, 2, 2, .ro, []⟩,
  ⟨0, 4, 1, .rw1c, []⟩, ⟨0, 5, 1, .rw1c, []⟩, ⟨0, 6, 1, .rw1c, []⟩,
  ⟨0, 7, 1, .rw1c, []⟩, ⟨0, 8, 1, .rw1c, []⟩, ⟨0, 16, 16, .ro, []⟩],
  [0], false⟩
def F.RDO_STATUS_FENCED : Fld := ⟨R.RDO_STATUS, 0, 0, 1⟩
def F.RDO_STATUS_CAL_VALID : Fld := ⟨R.RDO_STATUS, 0, 1, 1⟩
def F.RDO_STATUS_GAIN : Fld := ⟨R.RDO_STATUS, 0, 2, 2⟩
def F.RDO_STATUS_AGC_STEPPED : Fld := ⟨R.RDO_STATUS, 0, 4, 1⟩
def F.RDO_STATUS_OVERRANGE : Fld := ⟨R.RDO_STATUS, 0, 5, 1⟩
def F.RDO_STATUS_W_REFUSED : Fld := ⟨R.RDO_STATUS, 0, 6, 1⟩
def F.RDO_STATUS_SAT : Fld := ⟨R.RDO_STATUS, 0, 7, 1⟩
def F.RDO_STATUS_SLICE_GAP : Fld := ⟨R.RDO_STATUS, 0, 8, 1⟩
def F.RDO_STATUS_OPEN : Fld := ⟨R.RDO_STATUS, 0, 16, 16⟩
def R.RDO_IN_CTRL : Reg := ⟨116, 0x1301004, [(7, 0x1000000), (8, 0x8000)], 1, .tile, [⟨0, 0, 2, .rws, []⟩, ⟨0, 2, 1, .rws, []⟩],
  [0], false⟩
def F.RDO_IN_CTRL_GAIN : Fld := ⟨R.RDO_IN_CTRL, 0, 0, 2⟩
def F.RDO_IN_CTRL_AUTO : Fld := ⟨R.RDO_IN_CTRL, 0, 2, 1⟩
def R.RDO_IN_DELAY : Reg := ⟨117, 0x1301008, [(7, 0x1000000), (8, 0x8000)], 1, .tile, [⟨0, 0, 14, .rl, []⟩],
  [0], false⟩
def F.RDO_IN_DELAY_DELAY : Fld := ⟨R.RDO_IN_DELAY, 0, 0, 14⟩
def R.RDO_SLICE : Reg := ⟨118, 0x130100C, [(7, 0x1000000), (8, 0x8000)], 1, .tile, [⟨0, 0, 5, .ro, []⟩, ⟨0, 5, 1, .rws, []⟩, ⟨0, 6, 1, .ro, []⟩,
  ⟨0, 7, 17, .ro, []⟩],
  [0x20], false⟩
def F.RDO_SLICE_SPARE_POS : Fld := ⟨R.RDO_SLICE, 0, 0, 5⟩
def F.RDO_SLICE_ROT_EN : Fld := ⟨R.RDO_SLICE, 0, 5, 1⟩
def F.RDO_SLICE_SPARE_FIXED : Fld := ⟨R.RDO_SLICE, 0, 6, 1⟩
def F.RDO_SLICE_FAILED : Fld := ⟨R.RDO_SLICE, 0, 7, 17⟩
def R.RDO_XT_CTRL : Reg := ⟨119, 0x1301010, [(7, 0x1000000), (8, 0x8000)], 1, .tile, [⟨0, 0, 1, .rws, []⟩, ⟨0, 1, 1, .wo, []⟩, ⟨0, 2, 1, .ro, []⟩],
  [0], false⟩
def F.RDO_XT_CTRL_EN : Fld := ⟨R.RDO_XT_CTRL, 0, 0, 1⟩
def F.RDO_XT_CTRL_SWAP : Fld := ⟨R.RDO_XT_CTRL, 0, 1, 1⟩
def F.RDO_XT_CTRL_PENDING : Fld := ⟨R.RDO_XT_CTRL, 0, 2, 1⟩
def R.RDO_REFUSE : Reg := ⟨120, 0x1301014, [(7, 0x1000000), (8, 0x8000)], 1, .tile, [⟨0, 0, 16, .ro, []⟩, ⟨0, 16, 15, .ro, []⟩],
  [0], false⟩
def F.RDO_REFUSE_REASON : Fld := ⟨R.RDO_REFUSE, 0, 0, 16⟩
def F.RDO_REFUSE_OFFSET : Fld := ⟨R.RDO_REFUSE, 0, 16, 15⟩
def R.RDO_COUNT : Reg := ⟨121, 0x1301018, [(7, 0x1000000), (8, 0x8000)], 1, .tile, [⟨0, 0, 16, .ro, []⟩, ⟨0, 16, 16, .ro, []⟩],
  [0], false⟩
def F.RDO_COUNT_OVERRANGE : Fld := ⟨R.RDO_COUNT, 0, 0, 16⟩
def F.RDO_COUNT_AGC : Fld := ⟨R.RDO_COUNT, 0, 16, 16⟩
def R.RDO_WSEL : Reg := ⟨122, 0x130101C, [(7, 0x1000000), (8, 0x8000)], 1, .tile, [⟨0, 0, 4, .rw, []⟩, ⟨0, 4, 1, .rw, []⟩],
  [0], false⟩
def F.RDO_WSEL_TONE : Fld := ⟨R.RDO_WSEL, 0, 0, 4⟩
def F.RDO_WSEL_SET : Fld := ⟨R.RDO_WSEL, 0, 4, 1⟩
def R.RDO_CAL_TICK : Reg := ⟨123, 0x1301020, [(7, 0x1000000), (8, 0x8000)], 1, .tile, [⟨0, 0, 32, .ro, []⟩],
  [0], false⟩
def F.RDO_CAL_TICK_TICK : Fld := ⟨R.RDO_CAL_TICK, 0, 0, 32⟩
def R.RDO_TONE_FTW_LO : Reg := ⟨124, 0x1302000, [(7, 0x1000000), (8, 0x8000), (16, 0x100)], 1, .tile, [⟨0, 0, 32, .rwc, []⟩],
  [0], false⟩
def F.RDO_TONE_FTW_LO_FTW_LO : Fld := ⟨R.RDO_TONE_FTW_LO, 0, 0, 32⟩
def R.RDO_TONE_FTW_HI : Reg := ⟨125, 0x1302004, [(7, 0x1000000), (8, 0x8000), (16, 0x100)], 1, .tile, [⟨0, 0, 16, .rwc, []⟩],
  [0], false⟩
def F.RDO_TONE_FTW_HI_FTW_HI : Fld := ⟨R.RDO_TONE_FTW_HI, 0, 0, 16⟩
def R.RDO_TONE_CFG : Reg := ⟨126, 0x1302008, [(7, 0x1000000), (8, 0x8000), (16, 0x100)], 1, .tile, [⟨0, 0, 2, .rl, [(0, 2)]⟩, ⟨0, 2, 1, .rws, []⟩, ⟨0, 3, 5, .rws, [(0, 16)]⟩],
  [4], false⟩
def F.RDO_TONE_CFG_RES_MODE : Fld := ⟨R.RDO_TONE_CFG, 0, 0, 2⟩
def F.RDO_TONE_CFG_THREE : Fld := ⟨R.RDO_TONE_CFG, 0, 2, 1⟩
def F.RDO_TONE_CFG_SHIFT : Fld := ⟨R.RDO_TONE_CFG, 0, 3, 5⟩
def R.RDO_TONE_WLEN : Reg := ⟨127, 0x130200C, [(7, 0x1000000), (8, 0x8000), (16, 0x100)], 1, .tile, [⟨0, 0, 13, .rws, [(1, 4096)]⟩, ⟨0, 16, 13, .rws, [(1, 4096)]⟩],
  [0x10001000], false⟩
def F.RDO_TONE_WLEN_WLEN0 : Fld := ⟨R.RDO_TONE_WLEN, 0, 0, 13⟩
def F.RDO_TONE_WLEN_WLEN1 : Fld := ⟨R.RDO_TONE_WLEN, 0, 16, 13⟩
def R.RDO_TONE_DPHASE : Reg := ⟨128, 0x1302010, [(7, 0x1000000), (8, 0x8000), (16, 0x100)], 1, .tile, [⟨0, 0, 16, .rws, []⟩],
  [0], false⟩
def F.RDO_TONE_DPHASE_DPHASE : Fld := ⟨R.RDO_TONE_DPHASE, 0, 0, 16⟩
def R.RDO_TONE_C0_I : Reg := ⟨129, 0x1302014, [(7, 0x1000000), (8, 0x8000), (16, 0x100)], 1, .tile, [⟨0, 0, 32, .rwc, []⟩],
  [0], false⟩
def F.RDO_TONE_C0_I_C0_I : Fld := ⟨R.RDO_TONE_C0_I, 0, 0, 32⟩
def R.RDO_TONE_C0_Q : Reg := ⟨130, 0x1302018, [(7, 0x1000000), (8, 0x8000), (16, 0x100)], 1, .tile, [⟨0, 0, 32, .rwc, []⟩],
  [0], false⟩
def F.RDO_TONE_C0_Q_C0_Q : Fld := ⟨R.RDO_TONE_C0_Q, 0, 0, 32⟩
def R.RDO_TONE_C1_I : Reg := ⟨131, 0x130201C, [(7, 0x1000000), (8, 0x8000), (16, 0x100)], 1, .tile, [⟨0, 0, 32, .rwc, []⟩],
  [0], false⟩
def F.RDO_TONE_C1_I_C1_I : Fld := ⟨R.RDO_TONE_C1_I, 0, 0, 32⟩
def R.RDO_TONE_C1_Q : Reg := ⟨132, 0x1302020, [(7, 0x1000000), (8, 0x8000), (16, 0x100)], 1, .tile, [⟨0, 0, 32, .rwc, []⟩],
  [0], false⟩
def F.RDO_TONE_C1_Q_C1_Q : Fld := ⟨R.RDO_TONE_C1_Q, 0, 0, 32⟩
def R.RDO_TONE_C2_I : Reg := ⟨133, 0x1302024, [(7, 0x1000000), (8, 0x8000), (16, 0x100)], 1, .tile, [⟨0, 0, 32, .rwc, []⟩],
  [0], false⟩
def F.RDO_TONE_C2_I_C2_I : Fld := ⟨R.RDO_TONE_C2_I, 0, 0, 32⟩
def R.RDO_TONE_C2_Q : Reg := ⟨134, 0x1302028, [(7, 0x1000000), (8, 0x8000), (16, 0x100)], 1, .tile, [⟨0, 0, 32, .rwc, []⟩],
  [0], false⟩
def F.RDO_TONE_C2_Q_C2_Q : Fld := ⟨R.RDO_TONE_C2_Q, 0, 0, 32⟩
def R.RDO_TONE_MARGIN : Reg := ⟨135, 0x130202C, [(7, 0x1000000), (8, 0x8000), (16, 0x100)], 1, .tile, [⟨0, 0, 32, .rws, []⟩],
  [0], false⟩
def F.RDO_TONE_MARGIN_MARGIN : Fld := ⟨R.RDO_TONE_MARGIN, 0, 0, 32⟩
def R.RDO_TONE_LAST : Reg := ⟨136, 0x1302030, [(7, 0x1000000), (8, 0x8000), (16, 0x100)], 4, .tile, [],
  [0, 0, 0, 0], false⟩
def R.RDO_XT_SHADOW : Reg := ⟨137, 0x1303000, [(7, 0x1000000), (8, 0x8000), (16, 0x40), (16, 0x4)], 1, .tile, [⟨0, 0, 16, .rw, []⟩, ⟨0, 16, 16, .rw, []⟩],
  [0], true⟩
def F.RDO_XT_SHADOW_RE : Fld := ⟨R.RDO_XT_SHADOW, 0, 0, 16⟩
def F.RDO_XT_SHADOW_IM : Fld := ⟨R.RDO_XT_SHADOW, 0, 16, 16⟩
def R.RDO_XT_FORCE : Reg := ⟨138, 0x1303400, [(7, 0x1000000), (8, 0x8000), (16, 0x40), (16, 0x4)], 1, .tile, [⟨0, 0, 16, .ro, []⟩, ⟨0, 16, 16, .ro, []⟩],
  [0], true⟩
def F.RDO_XT_FORCE_RE : Fld := ⟨R.RDO_XT_FORCE, 0, 0, 16⟩
def F.RDO_XT_FORCE_IM : Fld := ⟨R.RDO_XT_FORCE, 0, 16, 16⟩
def R.SPN_DEC_STATUS : Reg := ⟨139, 0x60000, [], 1, .perst, [⟨0, 0, 1, .rw1c, []⟩, ⟨0, 1, 1, .rw1c, []⟩, ⟨0, 2, 1, .rw1c, []⟩],
  [0], false⟩
def F.SPN_DEC_STATUS_SW_REFUSED : Fld := ⟨R.SPN_DEC_STATUS, 0, 0, 1⟩
def F.SPN_DEC_STATUS_TBL_WR_REFUSED : Fld := ⟨R.SPN_DEC_STATUS, 0, 1, 1⟩
def F.SPN_DEC_STATUS_STALE : Fld := ⟨R.SPN_DEC_STATUS, 0, 2, 1⟩
def R.SPN_DEC_COUNT : Reg := ⟨140, 0x60004, [], 1, .perst, [⟨0, 0, 16, .ro, []⟩, ⟨0, 16, 16, .ro, []⟩],
  [0], false⟩
def F.SPN_DEC_COUNT_SUPERSEDED : Fld := ⟨R.SPN_DEC_COUNT, 0, 0, 16⟩
def F.SPN_DEC_COUNT_STALE_IMPORT : Fld := ⟨R.SPN_DEC_COUNT, 0, 16, 16⟩
def R.SPN_DEC_SW : Reg := ⟨141, 0x60008, [], 1, .perst, [⟨0, 0, 6, .rws, []⟩, ⟨0, 6, 2, .rws, [(0, 2)]⟩, ⟨0, 8, 1, .rws, []⟩],
  [0], false⟩
def F.SPN_DEC_SW_SLOT : Fld := ⟨R.SPN_DEC_SW, 0, 0, 6⟩
def F.SPN_DEC_SW_CLASS : Fld := ⟨R.SPN_DEC_SW, 0, 6, 2⟩
def F.SPN_DEC_SW_MARGIN : Fld := ⟨R.SPN_DEC_SW, 0, 8, 1⟩
def R.SPN_SYN_PARITY_ENTRY : Reg := ⟨142, 0x6000C, [], 1, .perst, [⟨0, 0, 18, .ro, []⟩, ⟨0, 18, 1, .ro, []⟩],
  [0], false⟩
def F.SPN_SYN_PARITY_ENTRY_ENTRY : Fld := ⟨R.SPN_SYN_PARITY_ENTRY, 0, 0, 18⟩
def F.SPN_SYN_PARITY_ENTRY_MIRROR : Fld := ⟨R.SPN_SYN_PARITY_ENTRY, 0, 18, 1⟩
def R.SPN_SYN_REFUSE : Reg := ⟨143, 0x60010, [], 1, .perst, [⟨0, 0, 16, .ro, []⟩, ⟨0, 16, 2, .ro, []⟩],
  [0], false⟩
def F.SPN_SYN_REFUSE_REASON : Fld := ⟨R.SPN_SYN_REFUSE, 0, 0, 16⟩
def F.SPN_SYN_REFUSE_DEC : Fld := ⟨R.SPN_SYN_REFUSE, 0, 16, 2⟩
def R.SPN_SYN_DEC_CFG : Reg := ⟨144, 0x60100, [(4, 0x40)], 1, .perst, [⟨0, 0, 2, .ro, []⟩, ⟨0, 2, 5, .ro, []⟩, ⟨0, 7, 6, .ro, []⟩,
  ⟨0, 13, 2, .ro, []⟩],
  [0], false⟩
def F.SPN_SYN_DEC_CFG_MODE : Fld := ⟨R.SPN_SYN_DEC_CFG, 0, 0, 2⟩
def F.SPN_SYN_DEC_CFG_K : Fld := ⟨R.SPN_SYN_DEC_CFG, 0, 2, 5⟩
def F.SPN_SYN_DEC_CFG_PART : Fld := ⟨R.SPN_SYN_DEC_CFG, 0, 7, 6⟩
def F.SPN_SYN_DEC_CFG_PORT : Fld := ⟨R.SPN_SYN_DEC_CFG, 0, 13, 2⟩
def R.SPN_SYN_DEC_BASE : Reg := ⟨145, 0x60104, [(4, 0x40)], 1, .perst, [⟨0, 0, 18, .rwh, []⟩],
  [0], false⟩
def F.SPN_SYN_DEC_BASE_BASE : Fld := ⟨R.SPN_SYN_DEC_BASE, 0, 0, 18⟩
def R.SPN_SYN_DEC_DEADLINE : Reg := ⟨146, 0x60108, [(4, 0x40)], 1, .perst, [⟨0, 0, 16, .ro, []⟩],
  [0], false⟩
def F.SPN_SYN_DEC_DEADLINE_DEADLINE : Fld := ⟨R.SPN_SYN_DEC_DEADLINE, 0, 0, 16⟩
def R.SPN_SYN_DEC_STATE : Reg := ⟨147, 0x6010C, [(4, 0x40)], 1, .perst, [⟨0, 0, 16, .ro, []⟩, ⟨0, 16, 4, .ro, []⟩],
  [0], false⟩
def F.SPN_SYN_DEC_STATE_ROUND : Fld := ⟨R.SPN_SYN_DEC_STATE, 0, 0, 16⟩
def F.SPN_SYN_DEC_STATE_OUTSTANDING : Fld := ⟨R.SPN_SYN_DEC_STATE, 0, 16, 4⟩
def R.SPN_SYN_DEC_FIRES : Reg := ⟨148, 0x60110, [(4, 0x40)], 1, .perst, [⟨0, 0, 32, .ro, []⟩],
  [0], false⟩
def F.SPN_SYN_DEC_FIRES_FIRES : Fld := ⟨R.SPN_SYN_DEC_FIRES, 0, 0, 32⟩
def R.SPN_SYN_DEC_FIRE_TICK : Reg := ⟨149, 0x60114, [(4, 0x40)], 1, .perst, [⟨0, 0, 32, .ro, []⟩],
  [0], false⟩
def F.SPN_SYN_DEC_FIRE_TICK_TICK : Fld := ⟨R.SPN_SYN_DEC_FIRE_TICK, 0, 0, 32⟩
def R.SPN_SYN_DEC_EXT : Reg := ⟨150, 0x60118, [(4, 0x40)], 1, .perst, [⟨0, 0, 10, .ro, []⟩, ⟨0, 10, 10, .ro, []⟩, ⟨0, 20, 10, .ro, []⟩],
  [0], false⟩
def F.SPN_SYN_DEC_EXT_EXT_LATE : Fld := ⟨R.SPN_SYN_DEC_EXT, 0, 0, 10⟩
def F.SPN_SYN_DEC_EXT_EXT_LOST : Fld := ⟨R.SPN_SYN_DEC_EXT, 0, 10, 10⟩
def F.SPN_SYN_DEC_EXT_EXT_STRAY : Fld := ⟨R.SPN_SYN_DEC_EXT, 0, 20, 10⟩
def R.SPN_SYN_GRP_CFG : Reg := ⟨151, 0x61000, [(256, 0x10)], 1, .perst, [⟨0, 0, 7, .ro, []⟩, ⟨0, 7, 1, .ro, []⟩, ⟨0, 8, 1, .ro, []⟩],
  [0], false⟩
def F.SPN_SYN_GRP_CFG_COUNT : Fld := ⟨R.SPN_SYN_GRP_CFG, 0, 0, 7⟩
def F.SPN_SYN_GRP_CFG_MAP : Fld := ⟨R.SPN_SYN_GRP_CFG, 0, 7, 1⟩
def F.SPN_SYN_GRP_CFG_INV : Fld := ⟨R.SPN_SYN_GRP_CFG, 0, 8, 1⟩
def R.SPN_SYN_GRP_STATE : Reg := ⟨152, 0x61004, [(256, 0x10)], 1, .perst, [⟨0, 0, 7, .ro, []⟩, ⟨0, 7, 1, .ro, []⟩, ⟨0, 8, 1, .ro, []⟩,
  ⟨0, 9, 1, .ro, []⟩, ⟨0, 10, 1, .ro, []⟩, ⟨0, 11, 1, .ro, []⟩],
  [0], false⟩
def F.SPN_SYN_GRP_STATE_FRESH : Fld := ⟨R.SPN_SYN_GRP_STATE, 0, 0, 7⟩
def F.SPN_SYN_GRP_STATE_FIRED : Fld := ⟨R.SPN_SYN_GRP_STATE, 0, 7, 1⟩
def F.SPN_SYN_GRP_STATE_PARITY : Fld := ⟨R.SPN_SYN_GRP_STATE, 0, 8, 1⟩
def F.SPN_SYN_GRP_STATE_LEAK : Fld := ⟨R.SPN_SYN_GRP_STATE, 0, 9, 1⟩
def F.SPN_SYN_GRP_STATE_MARG : Fld := ⟨R.SPN_SYN_GRP_STATE, 0, 10, 1⟩
def F.SPN_SYN_GRP_STATE_GLATE : Fld := ⟨R.SPN_SYN_GRP_STATE, 0, 11, 1⟩
def R.SPN_SYN_GRP_ORIGIN : Reg := ⟨153, 0x61008, [(256, 0x10)], 1, .perst, [⟨0, 0, 32, .ro, []⟩],
  [0], false⟩
def F.SPN_SYN_GRP_ORIGIN_GORIGIN : Fld := ⟨R.SPN_SYN_GRP_ORIGIN, 0, 0, 32⟩
def R.SPN_DEC_PORT : Reg := ⟨154, 0x60400, [(4, 0x10)], 1, .perst, [⟨0, 0, 7, .ro, []⟩, ⟨0, 8, 7, .ro, []⟩, ⟨0, 15, 1, .ro, []⟩,
  ⟨0, 16, 16, .ro, []⟩],
  [0], false⟩
def F.SPN_DEC_PORT_EXPORTS : Fld := ⟨R.SPN_DEC_PORT, 0, 0, 7⟩
def F.SPN_DEC_PORT_IMPORTS : Fld := ⟨R.SPN_DEC_PORT, 0, 8, 7⟩
def F.SPN_DEC_PORT_NO_TIME : Fld := ⟨R.SPN_DEC_PORT, 0, 15, 1⟩
def F.SPN_DEC_PORT_UNMAPPED : Fld := ⟨R.SPN_DEC_PORT, 0, 16, 16⟩
def R.SPN_DEC_PORT_QUEUE : Reg := ⟨155, 0x60404, [(4, 0x10)], 1, .perst, [⟨0, 0, 16, .ro, []⟩],
  [0], false⟩
def F.SPN_DEC_PORT_QUEUE_QUEUED : Fld := ⟨R.SPN_DEC_PORT_QUEUE, 0, 0, 16⟩
def R.CAP_CTRL : Reg := ⟨156, 0x1380000, [(7, 0x1000000)], 1, .tile, [⟨0, 0, 1, .wo, []⟩, ⟨0, 1, 1, .wo, []⟩, ⟨0, 2, 1, .wo, []⟩,
  ⟨0, 3, 1, .rl, []⟩, ⟨0, 4, 1, .rl, []⟩, ⟨0, 5, 1, .rws, []⟩],
  [0], false⟩
def F.CAP_CTRL_ARM : Fld := ⟨R.CAP_CTRL, 0, 0, 1⟩
def F.CAP_CTRL_STOP : Fld := ⟨R.CAP_CTRL, 0, 1, 1⟩
def F.CAP_CTRL_FORCE : Fld := ⟨R.CAP_CTRL, 0, 2, 1⟩
def F.CAP_CTRL_LONG : Fld := ⟨R.CAP_CTRL, 0, 3, 1⟩
def F.CAP_CTRL_ARM_AT : Fld := ⟨R.CAP_CTRL, 0, 4, 1⟩
def F.CAP_CTRL_IRQ : Fld := ⟨R.CAP_CTRL, 0, 5, 1⟩
def R.CAP_STATUS : Reg := ⟨157, 0x1380004, [(7, 0x1000000)], 1, .tile, [⟨0, 0, 3, .ro, []⟩, ⟨0, 3, 1, .ro, []⟩, ⟨0, 4, 1, .rw1c, []⟩,
  ⟨0, 5, 1, .ro, []⟩],
  [0], false⟩
def F.CAP_STATUS_STATE : Fld := ⟨R.CAP_STATUS, 0, 0, 3⟩
def F.CAP_STATUS_HELD : Fld := ⟨R.CAP_STATUS, 0, 3, 1⟩
def F.CAP_STATUS_ARM_REFUSED : Fld := ⟨R.CAP_STATUS, 0, 4, 1⟩
def F.CAP_STATUS_FENCED : Fld := ⟨R.CAP_STATUS, 0, 5, 1⟩
def R.CAP_TAP : Reg := ⟨158, 0x1380008, [(7, 0x1000000)], 1, .tile, [⟨0, 0, 2, .rl, []⟩, ⟨0, 2, 6, .rl, []⟩, ⟨0, 8, 4, .rl, []⟩],
  [0], false⟩
def F.CAP_TAP_KIND : Fld := ⟨R.CAP_TAP, 0, 0, 2⟩
def F.CAP_TAP_UNIT : Fld := ⟨R.CAP_TAP, 0, 2, 6⟩
def F.CAP_TAP_TONE : Fld := ⟨R.CAP_TAP, 0, 8, 4⟩
def R.CAP_LEN : Reg := ⟨159, 0x138000C, [(7, 0x1000000)], 1, .tile, [⟨0, 0, 21, .rl, []⟩],
  [0x10000], false⟩
def F.CAP_LEN_LEN : Fld := ⟨R.CAP_LEN, 0, 0, 21⟩
def R.CAP_PRE : Reg := ⟨160, 0x1380010, [(7, 0x1000000)], 1, .tile, [⟨0, 0, 20, .rl, []⟩],
  [0], false⟩
def F.CAP_PRE_PRE : Fld := ⟨R.CAP_PRE, 0, 0, 20⟩
def R.CAP_ARM_TIME : Reg := ⟨161, 0x1380014, [(7, 0x1000000)], 1, .tile, [⟨0, 0, 32, .rl, []⟩],
  [0], false⟩
def F.CAP_ARM_TIME_TICK : Fld := ⟨R.CAP_ARM_TIME, 0, 0, 32⟩
def R.CAP_MISSED : Reg := ⟨162, 0x1380018, [(7, 0x1000000)], 1, .tile, [⟨0, 0, 32, .ro, []⟩],
  [0], false⟩
def F.CAP_MISSED_TRIG_MISSED : Fld := ⟨R.CAP_MISSED, 0, 0, 32⟩
def R.CAP_PAGE : Reg := ⟨163, 0x138001C, [(7, 0x1000000)], 1, .tile, [⟨0, 0, 3, .rw, []⟩],
  [0], false⟩
def F.CAP_PAGE_PAGE : Fld := ⟨R.CAP_PAGE, 0, 0, 3⟩
def R.CAP_DEST_LO : Reg := ⟨164, 0x1380020, [(7, 0x1000000)], 1, .tile, [⟨0, 0, 32, .rl, []⟩],
  [0], false⟩
def F.CAP_DEST_LO_DEST_LO : Fld := ⟨R.CAP_DEST_LO, 0, 0, 32⟩
def R.CAP_DEST_HI : Reg := ⟨165, 0x1380024, [(7, 0x1000000)], 1, .tile, [⟨0, 0, 32, .rl, []⟩],
  [0], false⟩
def F.CAP_DEST_HI_DEST_HI : Fld := ⟨R.CAP_DEST_HI, 0, 0, 32⟩
def R.CAP_REFUSE : Reg := ⟨166, 0x1380028, [(7, 0x1000000)], 1, .tile, [⟨0, 0, 16, .ro, []⟩],
  [0], false⟩
def F.CAP_REFUSE_REASON : Fld := ⟨R.CAP_REFUSE, 0, 0, 16⟩
def R.CAP_EDGE : Reg := ⟨167, 0x1380040, [(7, 0x1000000)], 1, .tile, [⟨0, 0, 1, .rl, []⟩, ⟨0, 1, 2, .rl, [(0, 2)]⟩, ⟨0, 3, 2, .rl, [(0, 2)]⟩,
  ⟨0, 5, 1, .rl, []⟩, ⟨0, 16, 16, .rl, []⟩],
  [0], false⟩
def F.CAP_EDGE_EN : Fld := ⟨R.CAP_EDGE, 0, 0, 1⟩
def F.CAP_EDGE_SIG : Fld := ⟨R.CAP_EDGE, 0, 1, 2⟩
def F.CAP_EDGE_POL : Fld := ⟨R.CAP_EDGE, 0, 3, 2⟩
def F.CAP_EDGE_LEVELMODE : Fld := ⟨R.CAP_EDGE, 0, 5, 1⟩
def F.CAP_EDGE_HYST : Fld := ⟨R.CAP_EDGE, 0, 16, 16⟩
def R.CAP_EDGE_LEVEL : Reg := ⟨168, 0x1380044, [(7, 0x1000000)], 1, .tile, [⟨0, 0, 16, .rl, []⟩],
  [0], false⟩
def F.CAP_EDGE_LEVEL_LEVEL : Fld := ⟨R.CAP_EDGE_LEVEL, 0, 0, 16⟩
def R.CAP_WIDTH : Reg := ⟨169, 0x1380048, [(7, 0x1000000)], 1, .tile, [⟨0, 0, 1, .rl, []⟩, ⟨0, 1, 2, .rl, [(0, 2)]⟩],
  [0], false⟩
def F.CAP_WIDTH_EN : Fld := ⟨R.CAP_WIDTH, 0, 0, 1⟩
def F.CAP_WIDTH_WMODE : Fld := ⟨R.CAP_WIDTH, 0, 1, 2⟩
def R.CAP_WMIN : Reg := ⟨170, 0x138004C, [(7, 0x1000000)], 1, .tile, [⟨0, 0, 24, .rl, [(1, 16777215)]⟩],
  [1], false⟩
def F.CAP_WMIN_WMIN : Fld := ⟨R.CAP_WMIN, 0, 0, 24⟩
def R.CAP_WMAX : Reg := ⟨171, 0x1380050, [(7, 0x1000000)], 1, .tile, [⟨0, 0, 24, .rl, [(1, 16777215)]⟩],
  [1], false⟩
def F.CAP_WMAX_WMAX : Fld := ⟨R.CAP_WMAX, 0, 0, 24⟩
def R.CAP_RUNT : Reg := ⟨172, 0x1380054, [(7, 0x1000000)], 1, .tile, [⟨0, 0, 1, .rl, []⟩, ⟨0, 1, 2, .rl, [(0, 2)]⟩, ⟨0, 3, 1, .rl, []⟩],
  [0], false⟩
def F.CAP_RUNT_EN : Fld := ⟨R.CAP_RUNT, 0, 0, 1⟩
def F.CAP_RUNT_SIG : Fld := ⟨R.CAP_RUNT, 0, 1, 2⟩
def F.CAP_RUNT_POL : Fld := ⟨R.CAP_RUNT, 0, 3, 1⟩
def R.CAP_RUNT_THR : Reg := ⟨173, 0x1380058, [(7, 0x1000000)], 1, .tile, [⟨0, 0, 16, .rl, []⟩, ⟨0, 16, 16, .rl, []⟩],
  [0], false⟩
def F.CAP_RUNT_THR_LOW : Fld := ⟨R.CAP_RUNT_THR, 0, 0, 16⟩
def F.CAP_RUNT_THR_HIGH : Fld := ⟨R.CAP_RUNT_THR, 0, 16, 16⟩
def R.CAP_TMO : Reg := ⟨174, 0x138005C, [(7, 0x1000000)], 1, .tile, [⟨0, 0, 1, .rl, []⟩],
  [0], false⟩
def F.CAP_TMO_EN : Fld := ⟨R.CAP_TMO, 0, 0, 1⟩
def R.CAP_TMO_T : Reg := ⟨175, 0x1380060, [(7, 0x1000000)], 1, .tile, [⟨0, 0, 32, .rl, [(1, 4294967295)]⟩],
  [1], false⟩
def F.CAP_TMO_T_T : Fld := ⟨R.CAP_TMO_T, 0, 0, 32⟩
def R.CAP_SLEW : Reg := ⟨176, 0x1380064, [(7, 0x1000000)], 1, .tile, [⟨0, 0, 1, .rl, []⟩, ⟨0, 1, 2, .rl, [(0, 2)]⟩, ⟨0, 3, 6, .rl, []⟩,
  ⟨0, 16, 16, .rl, []⟩],
  [0], false⟩
def F.CAP_SLEW_EN : Fld := ⟨R.CAP_SLEW, 0, 0, 1⟩
def F.CAP_SLEW_SIG : Fld := ⟨R.CAP_SLEW, 0, 1, 2⟩
def F.CAP_SLEW_NS : Fld := ⟨R.CAP_SLEW, 0, 3, 6⟩
def F.CAP_SLEW_DELTA : Fld := ⟨R.CAP_SLEW, 0, 16, 16⟩
def R.CAP_HDR : Reg := ⟨177, 0x1380100, [(7, 0x1000000)], 16, .tile, [],
  [0, 0, 0, 0, 0, 0, 0, 0, 0, 0, 0, 0, 0, 0, 0, 0], false⟩
def R.TDC_IN_CFG : Reg := ⟨178, 0x50000, [(10, 0x20)], 1, .perst, [⟨0, 0, 1, .rws, []⟩, ⟨0, 1, 2, .rws, [(0, 2)]⟩, ⟨0, 3, 1, .rws, []⟩,
  ⟨0, 4, 5, .rws, [(0, 16)]⟩, ⟨0, 9, 1, .rws, []⟩],
  [0], true⟩
def F.TDC_IN_CFG_EN : Fld := ⟨R.TDC_IN_CFG, 0, 0, 1⟩
def F.TDC_IN_CFG_POL : Fld := ⟨R.TDC_IN_CFG, 0, 1, 2⟩
def F.TDC_IN_CFG_INV : Fld := ⟨R.TDC_IN_CFG, 0, 3, 1⟩
def F.TDC_IN_CFG_FILT : Fld := ⟨R.TDC_IN_CFG, 0, 4, 5⟩
def F.TDC_IN_CFG_LOG : Fld := ⟨R.TDC_IN_CFG, 0, 9, 1⟩
def R.TDC_IN_STATUS : Reg := ⟨179, 0x50004, [(10, 0x20)], 1, .perst, [⟨0, 0, 1, .ro, []⟩, ⟨0, 1, 1, .rw1c, []⟩, ⟨0, 2, 1, .ro, []⟩,
  ⟨0, 3, 1, .ro, []⟩, ⟨0, 16, 16, .ro, []⟩],
  [0], false⟩
def F.TDC_IN_STATUS_LEVEL : Fld := ⟨R.TDC_IN_STATUS, 0, 0, 1⟩
def F.TDC_IN_STATUS_DEADTIME : Fld := ⟨R.TDC_IN_STATUS, 0, 1, 1⟩
def F.TDC_IN_STATUS_FENCED : Fld := ⟨R.TDC_IN_STATUS, 0, 2, 1⟩
def F.TDC_IN_STATUS_LINE : Fld := ⟨R.TDC_IN_STATUS, 0, 3, 1⟩
def F.TDC_IN_STATUS_GLITCH : Fld := ⟨R.TDC_IN_STATUS, 0, 16, 16⟩
def R.TDC_IN_DEAD : Reg := ⟨180, 0x50008, [(10, 0x20)], 1, .perst, [⟨0, 0, 32, .ro, []⟩],
  [0], false⟩
def F.TDC_IN_DEAD_COUNT : Fld := ⟨R.TDC_IN_DEAD, 0, 0, 32⟩
def R.TDC_IN_LAST_LO : Reg := ⟨181, 0x5000C, [(10, 0x20)], 1, .perst, [⟨0, 0, 32, .ro, []⟩],
  [0], false⟩
def F.TDC_IN_LAST_LO_TICK : Fld := ⟨R.TDC_IN_LAST_LO, 0, 0, 32⟩
def R.TDC_IN_LAST_HI : Reg := ⟨182, 0x50010, [(10, 0x20)], 1, .perst, [⟨0, 0, 25, .ro, []⟩],
  [0], false⟩
def F.TDC_IN_LAST_HI_TICK_HI : Fld := ⟨R.TDC_IN_LAST_HI, 0, 0, 25⟩
def R.TDC_IN_LAST_FINE : Reg := ⟨183, 0x50014, [(10, 0x20)], 1, .perst, [⟨0, 0, 13, .ro, []⟩, ⟨0, 13, 1, .ro, []⟩],
  [0], false⟩
def F.TDC_IN_LAST_FINE_FINE : Fld := ⟨R.TDC_IN_LAST_FINE, 0, 0, 13⟩
def F.TDC_IN_LAST_FINE_EDGE : Fld := ⟨R.TDC_IN_LAST_FINE, 0, 13, 1⟩
def R.TDC_FIFO_STATUS : Reg := ⟨184, 0x50400, [], 1, .perst, [⟨0, 0, 11, .ro, []⟩, ⟨0, 11, 1, .rw1c, []⟩, ⟨0, 16, 16, .ro, []⟩],
  [0], false⟩
def F.TDC_FIFO_STATUS_COUNT : Fld := ⟨R.TDC_FIFO_STATUS, 0, 0, 11⟩
def F.TDC_FIFO_STATUS_OVF : Fld := ⟨R.TDC_FIFO_STATUS, 0, 11, 1⟩
def F.TDC_FIFO_STATUS_DROPPED : Fld := ⟨R.TDC_FIFO_STATUS, 0, 16, 16⟩
def R.TDC_FIFO_REC : Reg := ⟨185, 0x50410, [], 4, .perst, [],
  [0, 0, 0, 0], false⟩
def R.TDC_IV_CFG : Reg := ⟨186, 0x50800, [(4, 0x20)], 1, .perst, [⟨0, 0, 1, .rws, []⟩, ⟨0, 1, 4, .rl, [(0, 8)]⟩, ⟨0, 5, 1, .rl, []⟩,
  ⟨0, 6, 4, .rl, [(0, 8)]⟩, ⟨0, 10, 1, .rl, []⟩, ⟨0, 11, 1, .rws, []⟩],
  [0], false⟩
def F.TDC_IV_CFG_EN : Fld := ⟨R.TDC_IV_CFG, 0, 0, 1⟩
def F.TDC_IV_CFG_START : Fld := ⟨R.TDC_IV_CFG, 0, 1, 4⟩
def F.TDC_IV_CFG_START_POL : Fld := ⟨R.TDC_IV_CFG, 0, 5, 1⟩
def F.TDC_IV_CFG_STOP : Fld := ⟨R.TDC_IV_CFG, 0, 6, 4⟩
def F.TDC_IV_CFG_STOP_POL : Fld := ⟨R.TDC_IV_CFG, 0, 10, 1⟩
def F.TDC_IV_CFG_IRQ : Fld := ⟨R.TDC_IV_CFG, 0, 11, 1⟩
def R.TDC_IV_STATUS : Reg := ⟨187, 0x50804, [(4, 0x20)], 1, .perst, [⟨0, 0, 1, .ro, []⟩, ⟨0, 1, 1, .rw1c, []⟩, ⟨0, 2, 1, .rw1c, []⟩,
  ⟨0, 3, 1, .rw1c, []⟩, ⟨0, 16, 16, .ro, []⟩],
  [0], false⟩
def F.TDC_IV_STATUS_PENDING : Fld := ⟨R.TDC_IV_STATUS, 0, 0, 1⟩
def F.TDC_IV_STATUS_DONE : Fld := ⟨R.TDC_IV_STATUS, 0, 1, 1⟩
def F.TDC_IV_STATUS_SAME_BIN : Fld := ⟨R.TDC_IV_STATUS, 0, 2, 1⟩
def F.TDC_IV_STATUS_OVERWRITE : Fld := ⟨R.TDC_IV_STATUS, 0, 3, 1⟩
def F.TDC_IV_STATUS_ORPHAN_STOP : Fld := ⟨R.TDC_IV_STATUS, 0, 16, 16⟩
def R.TDC_IV_COUNT : Reg := ⟨188, 0x50808, [(4, 0x20)], 1, .perst, [⟨0, 0, 16, .ro, []⟩, ⟨0, 16, 16, .ro, []⟩],
  [0], false⟩
def F.TDC_IV_COUNT_RESTART : Fld := ⟨R.TDC_IV_COUNT, 0, 0, 16⟩
def F.TDC_IV_COUNT_EXPIRED : Fld := ⟨R.TDC_IV_COUNT, 0, 16, 16⟩
def R.TDC_IV_RES_LO : Reg := ⟨189, 0x5080C, [(4, 0x20)], 1, .perst, [⟨0, 0, 32, .ro, []⟩],
  [0], false⟩
def F.TDC_IV_RES_LO_BINS_LO : Fld := ⟨R.TDC_IV_RES_LO, 0, 0, 32⟩
def R.TDC_IV_RES_HI : Reg := ⟨190, 0x50810, [(4, 0x20)], 1, .perst, [⟨0, 0, 16, .ro, []⟩],
  [0], false⟩
def F.TDC_IV_RES_HI_BINS_HI : Fld := ⟨R.TDC_IV_RES_HI, 0, 0, 16⟩
def R.TDC_IV_STOP_TICK : Reg := ⟨191, 0x50814, [(4, 0x20)], 1, .perst, [⟨0, 0, 32, .ro, []⟩],
  [0], false⟩
def F.TDC_IV_STOP_TICK_TICK : Fld := ⟨R.TDC_IV_STOP_TICK, 0, 0, 32⟩
def R.TDC_FREQ_CFG : Reg := ⟨192, 0x50C00, [], 1, .perst, [⟨0, 0, 4, .rl, [(0, 9)]⟩, ⟨0, 4, 1, .wo, []⟩, ⟨0, 5, 1, .rws, []⟩],
  [9], false⟩
def F.TDC_FREQ_CFG_SRC : Fld := ⟨R.TDC_FREQ_CFG, 0, 0, 4⟩
def F.TDC_FREQ_CFG_GO : Fld := ⟨R.TDC_FREQ_CFG, 0, 4, 1⟩
def F.TDC_FREQ_CFG_IRQ : Fld := ⟨R.TDC_FREQ_CFG, 0, 5, 1⟩
def R.TDC_FREQ_GATE : Reg := ⟨193, 0x50C04, [], 1, .perst, [⟨0, 0, 28, .rl, [(1, 268435455)]⟩],
  [0x9502F90], false⟩
def F.TDC_FREQ_GATE_GATE : Fld := ⟨R.TDC_FREQ_GATE, 0, 0, 28⟩
def R.TDC_FREQ_STATUS : Reg := ⟨194, 0x50C08, [], 1, .perst, [⟨0, 0, 1, .ro, []⟩, ⟨0, 1, 1, .rw1c, []⟩, ⟨0, 2, 1, .rw1c, []⟩],
  [0], false⟩
def F.TDC_FREQ_STATUS_BUSY : Fld := ⟨R.TDC_FREQ_STATUS, 0, 0, 1⟩
def F.TDC_FREQ_STATUS_DONE : Fld := ⟨R.TDC_FREQ_STATUS, 0, 1, 1⟩
def F.TDC_FREQ_STATUS_NO_SIGNAL : Fld := ⟨R.TDC_FREQ_STATUS, 0, 2, 1⟩
def R.TDC_FREQ_EDGES : Reg := ⟨195, 0x50C0C, [], 1, .perst, [⟨0, 0, 32, .ro, []⟩],
  [0], false⟩
def F.TDC_FREQ_EDGES_N : Fld := ⟨R.TDC_FREQ_EDGES, 0, 0, 32⟩
def R.TDC_FREQ_SPAN_LO : Reg := ⟨196, 0x50C10, [], 1, .perst, [⟨0, 0, 32, .ro, []⟩],
  [0], false⟩
def F.TDC_FREQ_SPAN_LO_SPAN_LO : Fld := ⟨R.TDC_FREQ_SPAN_LO, 0, 0, 32⟩
def R.TDC_FREQ_SPAN_HI : Reg := ⟨197, 0x50C14, [], 1, .perst, [⟨0, 0, 16, .ro, []⟩],
  [0], false⟩
def F.TDC_FREQ_SPAN_HI_SPAN_HI : Fld := ⟨R.TDC_FREQ_SPAN_HI, 0, 0, 16⟩
def R.TDC_FREQ_MHZ_LO : Reg := ⟨198, 0x50C18, [], 1, .perst, [⟨0, 0, 32, .ro, []⟩],
  [0], false⟩
def F.TDC_FREQ_MHZ_LO_F_LO : Fld := ⟨R.TDC_FREQ_MHZ_LO, 0, 0, 32⟩
def R.TDC_FREQ_MHZ_HI : Reg := ⟨199, 0x50C1C, [], 1, .perst, [⟨0, 0, 8, .ro, []⟩],
  [0], false⟩
def F.TDC_FREQ_MHZ_HI_F_HI : Fld := ⟨R.TDC_FREQ_MHZ_HI, 0, 0, 8⟩
def R.BVN_LOCAL_ID : Reg := ⟨200, 0x4F000, [], 1, .perst, [⟨0, 0, 32, .rl, []⟩],
  [0], false⟩
def F.BVN_LOCAL_ID_ID : Fld := ⟨R.BVN_LOCAL_ID, 0, 0, 32⟩
def R.BVN_FOM : Reg := ⟨201, 0x4F004, [], 1, .perst, [⟨0, 0, 8, .rws, []⟩, ⟨0, 8, 8, .rws, []⟩],
  [0x6040], false⟩
def F.BVN_FOM_MIN : Fld := ⟨R.BVN_FOM, 0, 0, 8⟩
def F.BVN_FOM_WARN : Fld := ⟨R.BVN_FOM, 0, 8, 8⟩
def R.BVN_PORT_CTRL : Reg := ⟨202, 0x40000, [(4, 0x1000)], 1, .perst, [⟨0, 0, 1, .rl, []⟩, ⟨0, 1, 3, .rl, [(1, 2), (4, 4)]⟩, ⟨0, 4, 4, .rl, []⟩,
  ⟨0, 8, 1, .wo, []⟩, ⟨0, 9, 1, .wo, []⟩, ⟨0, 10, 1, .rl, []⟩,
  ⟨0, 11, 1, .rws, []⟩],
  [0xF8], false⟩
def F.BVN_PORT_CTRL_EN : Fld := ⟨R.BVN_PORT_CTRL, 0, 0, 1⟩
def F.BVN_PORT_CTRL_WIDTH_MAX : Fld := ⟨R.BVN_PORT_CTRL, 0, 1, 3⟩
def F.BVN_PORT_CTRL_LANE_EN : Fld := ⟨R.BVN_PORT_CTRL, 0, 4, 4⟩
def F.BVN_PORT_CTRL_RETRAIN : Fld := ⟨R.BVN_PORT_CTRL, 0, 8, 1⟩
def F.BVN_PORT_CTRL_WIDEN : Fld := ⟨R.BVN_PORT_CTRL, 0, 9, 1⟩
def F.BVN_PORT_CTRL_TEST : Fld := ⟨R.BVN_PORT_CTRL, 0, 10, 1⟩
def F.BVN_PORT_CTRL_EQ_FREEZE : Fld := ⟨R.BVN_PORT_CTRL, 0, 11, 1⟩
def R.BVN_PORT_STATUS : Reg := ⟨203, 0x40004, [(4, 0x1000)], 1, .perst, [⟨0, 0, 3, .ro, []⟩, ⟨0, 3, 3, .ro, []⟩, ⟨0, 6, 4, .ro, []⟩,
  ⟨0, 10, 4, .ro, []⟩, ⟨0, 14, 1, .ro, []⟩, ⟨0, 15, 2, .ro, []⟩],
  [0], false⟩
def F.BVN_PORT_STATUS_STATE : Fld := ⟨R.BVN_PORT_STATUS, 0, 0, 3⟩
def F.BVN_PORT_STATUS_WIDTH : Fld := ⟨R.BVN_PORT_STATUS, 0, 3, 3⟩
def F.BVN_PORT_STATUS_IN_USE : Fld := ⟨R.BVN_PORT_STATUS, 0, 6, 4⟩
def F.BVN_PORT_STATUS_GOOD : Fld := ⟨R.BVN_PORT_STATUS, 0, 10, 4⟩
def F.BVN_PORT_STATUS_REPLAYING : Fld := ⟨R.BVN_PORT_STATUS, 0, 14, 1⟩
def F.BVN_PORT_STATUS_PARTNER_PORT : Fld := ⟨R.BVN_PORT_STATUS, 0, 15, 2⟩
def R.BVN_PARTNER_ID : Reg := ⟨204, 0x40008, [(4, 0x1000)], 1, .perst, [⟨0, 0, 32, .ro, []⟩],
  [0], false⟩
def F.BVN_PARTNER_ID_ID : Fld := ⟨R.BVN_PARTNER_ID, 0, 0, 32⟩
def R.BVN_PORT_COUNT : Reg := ⟨205, 0x4000C, [(4, 0x1000)], 1, .perst, [⟨0, 0, 16, .ro, []⟩, ⟨0, 16, 16, .ro, []⟩],
  [0], false⟩
def F.BVN_PORT_COUNT_REPLAYS : Fld := ⟨R.BVN_PORT_COUNT, 0, 0, 16⟩
def F.BVN_PORT_COUNT_BAD_MSG : Fld := ⟨R.BVN_PORT_COUNT, 0, 16, 16⟩
def R.BVN_PORT_COUNT2 : Reg := ⟨206, 0x40010, [(4, 0x1000)], 1, .perst, [⟨0, 0, 16, .ro, []⟩, ⟨0, 16, 16, .ro, []⟩],
  [0], false⟩
def F.BVN_PORT_COUNT2_REPLAY_FULL : Fld := ⟨R.BVN_PORT_COUNT2, 0, 0, 16⟩
def F.BVN_PORT_COUNT2_WIDTH_DROPS : Fld := ⟨R.BVN_PORT_COUNT2, 0, 16, 16⟩
def R.BVN_PORT_TICK : Reg := ⟨207, 0x40014, [(4, 0x1000)], 1, .perst, [⟨0, 0, 32, .ro, []⟩],
  [0], false⟩
def F.BVN_PORT_TICK_TICK : Fld := ⟨R.BVN_PORT_TICK, 0, 0, 32⟩
def R.BVN_LANE_STATUS : Reg := ⟨208, 0x40100, [(4, 0x1000), (4, 0x40)], 1, .perst, [⟨0, 0, 4, .ro, []⟩, ⟨0, 4, 4, .ro, []⟩, ⟨0, 8, 4, .ro, []⟩,
  ⟨0, 12, 2, .ro, []⟩, ⟨0, 14, 1, .ro, []⟩, ⟨0, 15, 1, .ro, []⟩,
  ⟨0, 16, 8, .ro, []⟩],
  [0], false⟩
def F.BVN_LANE_STATUS_TSTATE : Fld := ⟨R.BVN_LANE_STATUS, 0, 0, 4⟩
def F.BVN_LANE_STATUS_ATTEMPTS : Fld := ⟨R.BVN_LANE_STATUS, 0, 4, 4⟩
def F.BVN_LANE_STATUS_FAIL_STEP : Fld := ⟨R.BVN_LANE_STATUS, 0, 8, 4⟩
def F.BVN_LANE_STATUS_ABSENT_CAUSE : Fld := ⟨R.BVN_LANE_STATUS, 0, 12, 2⟩
def F.BVN_LANE_STATUS_POL_INV : Fld := ⟨R.BVN_LANE_STATUS, 0, 14, 1⟩
def F.BVN_LANE_STATUS_FENCED : Fld := ⟨R.BVN_LANE_STATUS, 0, 15, 1⟩
def F.BVN_LANE_STATUS_FOM : Fld := ⟨R.BVN_LANE_STATUS, 0, 16, 8⟩
def R.BVN_LANE_ERR : Reg := ⟨209, 0x40104, [(4, 0x1000), (4, 0x40)], 1, .perst, [⟨0, 0, 16, .ro, []⟩, ⟨0, 16, 16, .ro, []⟩],
  [0], false⟩
def F.BVN_LANE_ERR_CODE_ERR : Fld := ⟨R.BVN_LANE_ERR, 0, 0, 16⟩
def F.BVN_LANE_ERR_DISP_ERR : Fld := ⟨R.BVN_LANE_ERR, 0, 16, 16⟩
def R.BVN_LANE_EQ : Reg := ⟨210, 0x40108, [(4, 0x1000), (4, 0x40)], 1, .perst, [⟨0, 0, 5, .ro, []⟩, ⟨0, 5, 6, .ro, []⟩, ⟨0, 11, 6, .ro, []⟩,
  ⟨0, 17, 6, .ro, []⟩],
  [0], false⟩
def F.BVN_LANE_EQ_CTLE : Fld := ⟨R.BVN_LANE_EQ, 0, 0, 5⟩
def F.BVN_LANE_EQ_DFE1 : Fld := ⟨R.BVN_LANE_EQ, 0, 5, 6⟩
def F.BVN_LANE_EQ_DFE2 : Fld := ⟨R.BVN_LANE_EQ, 0, 11, 6⟩
def F.BVN_LANE_EQ_DFE3 : Fld := ⟨R.BVN_LANE_EQ, 0, 17, 6⟩
def R.BVN_LANE_PRBS : Reg := ⟨211, 0x4010C, [(4, 0x1000), (4, 0x40)], 1, .perst, [⟨0, 0, 2, .rws, [(0, 2)]⟩, ⟨0, 2, 1, .rws, []⟩, ⟨0, 3, 1, .rws, []⟩,
  ⟨0, 4, 1, .wo, []⟩, ⟨0, 5, 1, .ro, []⟩],
  [0], false⟩
def F.BVN_LANE_PRBS_PATTERN : Fld := ⟨R.BVN_LANE_PRBS, 0, 0, 2⟩
def F.BVN_LANE_PRBS_GEN_EN : Fld := ⟨R.BVN_LANE_PRBS, 0, 2, 1⟩
def F.BVN_LANE_PRBS_CHK_EN : Fld := ⟨R.BVN_LANE_PRBS, 0, 3, 1⟩
def F.BVN_LANE_PRBS_INJ : Fld := ⟨R.BVN_LANE_PRBS, 0, 4, 1⟩
def F.BVN_LANE_PRBS_LOCK : Fld := ⟨R.BVN_LANE_PRBS, 0, 5, 1⟩
def R.BVN_LANE_PRBS_ERR : Reg := ⟨212, 0x40110, [(4, 0x1000), (4, 0x40)], 1, .perst, [⟨0, 0, 32, .ro, []⟩],
  [0], false⟩
def F.BVN_LANE_PRBS_ERR_COUNT : Fld := ⟨R.BVN_LANE_PRBS_ERR, 0, 0, 32⟩
def R.BVN_LANE_SKIP : Reg := ⟨213, 0x40114, [(4, 0x1000), (4, 0x40)], 1, .perst, [⟨0, 0, 16, .ro, []⟩, ⟨0, 16, 16, .ro, []⟩],
  [0], false⟩
def F.BVN_LANE_SKIP_INSERTED : Fld := ⟨R.BVN_LANE_SKIP, 0, 0, 16⟩
def F.BVN_LANE_SKIP_DELETED : Fld := ⟨R.BVN_LANE_SKIP, 0, 16, 16⟩
def R.TIM_TS_CFG : Reg := ⟨214, 0x30100, [], 1, .perst, [⟨0, 0, 2, .ro, []⟩, ⟨0, 2, 2, .ro, []⟩, ⟨0, 4, 4, .ro, []⟩,
  ⟨0, 8, 5, .ro, []⟩, ⟨0, 13, 1, .ro, []⟩],
  [0xE00], false⟩
def F.TIM_TS_CFG_ROLE : Fld := ⟨R.TIM_TS_CFG, 0, 0, 2⟩
def F.TIM_TS_CFG_UPSTREAM : Fld := ⟨R.TIM_TS_CFG, 0, 2, 2⟩
def F.TIM_TS_CFG_DOWNSTREAM : Fld := ⟨R.TIM_TS_CFG, 0, 4, 4⟩
def F.TIM_TS_CFG_PERIOD : Fld := ⟨R.TIM_TS_CFG, 0, 8, 5⟩
def F.TIM_TS_CFG_SYNC_OUT : Fld := ⟨R.TIM_TS_CFG, 0, 13, 1⟩
def R.TIM_TS_DOMAIN : Reg := ⟨215, 0x30104, [], 1, .perst, [⟨0, 0, 32, .ro, []⟩],
  [0], false⟩
def F.TIM_TS_DOMAIN_DOMAIN : Fld := ⟨R.TIM_TS_DOMAIN, 0, 0, 32⟩
def R.TIM_TS_MASTER : Reg := ⟨216, 0x30108, [], 1, .perst, [⟨0, 0, 32, .ro, []⟩],
  [0], false⟩
def F.TIM_TS_MASTER_MASTER_ID : Fld := ⟨R.TIM_TS_MASTER, 0, 0, 32⟩
def R.TIM_TS_STATUS : Reg := ⟨217, 0x3010C, [], 1, .perst, [⟨0, 0, 3, .ro, []⟩, ⟨0, 3, 1, .ro, []⟩, ⟨0, 4, 1, .ro, []⟩,
  ⟨0, 5, 5, .ro, []⟩, ⟨0, 10, 1, .rw1c, []⟩, ⟨0, 11, 1, .rw1c, []⟩,
  ⟨0, 12, 1, .rw1c, []⟩, ⟨0, 13, 1, .rw1c, []⟩, ⟨0, 14, 6, .ro, []⟩,
  ⟨0, 20, 1, .ro, []⟩],
  [0], false⟩
def F.TIM_TS_STATUS_STATE : Fld := ⟨R.TIM_TS_STATUS, 0, 0, 3⟩
def F.TIM_TS_STATUS_STEPPED : Fld := ⟨R.TIM_TS_STATUS, 0, 3, 1⟩
def F.TIM_TS_STATUS_IN_DOMAIN : Fld := ⟨R.TIM_TS_STATUS, 0, 4, 1⟩
def F.TIM_TS_STATUS_HOPS : Fld := ⟨R.TIM_TS_STATUS, 0, 5, 5⟩
def F.TIM_TS_STATUS_FOREIGN : Fld := ⟨R.TIM_TS_STATUS, 0, 10, 1⟩
def F.TIM_TS_STATUS_OFFSET_LARGE : Fld := ⟨R.TIM_TS_STATUS, 0, 11, 1⟩
def F.TIM_TS_STATUS_CANCELLED : Fld := ⟨R.TIM_TS_STATUS, 0, 12, 1⟩
def F.TIM_TS_STATUS_HOP_LIMIT : Fld := ⟨R.TIM_TS_STATUS, 0, 13, 1⟩
def F.TIM_TS_STATUS_SIZE : Fld := ⟨R.TIM_TS_STATUS, 0, 14, 6⟩
def F.TIM_TS_STATUS_DOMAIN_OVER : Fld := ⟨R.TIM_TS_STATUS, 0, 20, 1⟩
def R.TIM_TS_OFFSET : Reg := ⟨218, 0x30110, [], 1, .perst, [⟨0, 0, 32, .ro, []⟩],
  [0], false⟩
def F.TIM_TS_OFFSET_THETA : Fld := ⟨R.TIM_TS_OFFSET, 0, 0, 32⟩
def R.TIM_TS_DELAY : Reg := ⟨219, 0x30114, [], 1, .perst, [⟨0, 0, 32, .ro, []⟩],
  [0], false⟩
def F.TIM_TS_DELAY_D : Fld := ⟨R.TIM_TS_DELAY, 0, 0, 32⟩
def R.TIM_TS_RATE : Reg := ⟨220, 0x30118, [], 1, .perst, [⟨0, 0, 32, .ro, []⟩],
  [0], false⟩
def F.TIM_TS_RATE_RATE : Fld := ⟨R.TIM_TS_RATE, 0, 0, 32⟩
def R.TIM_TS_WINDOW : Reg := ⟨221, 0x3011C, [], 1, .perst, [⟨0, 0, 16, .rws, [(10, 65535)]⟩],
  [0x3E8], false⟩
def F.TIM_TS_WINDOW_WINDOW : Fld := ⟨R.TIM_TS_WINDOW, 0, 0, 16⟩
def R.TIM_TS_HOLD : Reg := ⟨222, 0x30120, [], 1, .perst, [⟨0, 0, 20, .rws, [(1, 1000000)]⟩],
  [0x3E8], false⟩
def F.TIM_TS_HOLD_HOLD : Fld := ⟨R.TIM_TS_HOLD, 0, 0, 20⟩
def R.TIM_TS_STEP_TICK : Reg := ⟨223, 0x30124, [], 1, .perst, [⟨0, 0, 32, .ro, []⟩],
  [0], false⟩
def F.TIM_TS_STEP_TICK_TICK : Fld := ⟨R.TIM_TS_STEP_TICK, 0, 0, 32⟩
def R.TIM_TS_COUNT : Reg := ⟨224, 0x30128, [], 1, .perst, [⟨0, 0, 16, .ro, []⟩, ⟨0, 16, 16, .ro, []⟩],
  [0], false⟩
def F.TIM_TS_COUNT_EXCH : Fld := ⟨R.TIM_TS_COUNT, 0, 0, 16⟩
def F.TIM_TS_COUNT_LOST : Fld := ⟨R.TIM_TS_COUNT, 0, 16, 16⟩
def R.TIM_TS_ASYM : Reg := ⟨225, 0x30130, [(4, 0x4)], 1, .aon, [⟨0, 0, 32, .rws, []⟩],
  [0], false⟩
def F.TIM_TS_ASYM_ASYM : Fld := ⟨R.TIM_TS_ASYM, 0, 0, 32⟩
def R.TIM_SYNC_CFG : Reg := ⟨226, 0x30140, [], 1, .perst, [⟨0, 0, 24, .rl, [(1024, 16777215)]⟩, ⟨0, 24, 1, .rws, []⟩],
  [0x2625A], false⟩
def F.TIM_SYNC_CFG_PERIOD : Fld := ⟨R.TIM_SYNC_CFG, 0, 0, 24⟩
def F.TIM_SYNC_CFG_IN_EN : Fld := ⟨R.TIM_SYNC_CFG, 0, 24, 1⟩
def R.TIM_SYNC_DELAY : Reg := ⟨227, 0x30144, [], 1, .perst, [⟨0, 0, 24, .rws, []⟩],
  [0], false⟩
def F.TIM_SYNC_DELAY_DELAY : Fld := ⟨R.TIM_SYNC_DELAY, 0, 0, 24⟩
def R.TIM_SYNC_RESID : Reg := ⟨228, 0x30148, [], 1, .perst, [⟨0, 0, 32, .ro, []⟩],
  [0], false⟩
def F.TIM_SYNC_RESID_R : Fld := ⟨R.TIM_SYNC_RESID, 0, 0, 32⟩
def R.TIM_EVT_CTRL : Reg := ⟨229, 0x30200, [(8, 0x10)], 1, .perst, [⟨0, 0, 1, .rws, []⟩, ⟨0, 1, 3, .rl, [(0, 4)]⟩, ⟨0, 4, 7, .rl, []⟩,
  ⟨0, 11, 2, .rl, []⟩, ⟨0, 13, 8, .rl, [(1, 255)]⟩, ⟨0, 21, 1, .rw1c, []⟩,
  ⟨0, 22, 1, .rw1c, []⟩],
  [0x2000], false⟩
def F.TIM_EVT_CTRL_EN : Fld := ⟨R.TIM_EVT_CTRL, 0, 0, 1⟩
def F.TIM_EVT_CTRL_ACTION : Fld := ⟨R.TIM_EVT_CTRL, 0, 1, 3⟩
def F.TIM_EVT_CTRL_TILES : Fld := ⟨R.TIM_EVT_CTRL, 0, 4, 7⟩
def F.TIM_EVT_CTRL_MARK : Fld := ⟨R.TIM_EVT_CTRL, 0, 11, 2⟩
def F.TIM_EVT_CTRL_WIDTH : Fld := ⟨R.TIM_EVT_CTRL, 0, 13, 8⟩
def F.TIM_EVT_CTRL_FIRED : Fld := ⟨R.TIM_EVT_CTRL, 0, 21, 1⟩
def F.TIM_EVT_CTRL_LATE : Fld := ⟨R.TIM_EVT_CTRL, 0, 22, 1⟩
def R.TIM_EVT_TARGET : Reg := ⟨230, 0x30204, [(8, 0x10)], 1, .perst, [⟨0, 0, 32, .rl, []⟩],
  [0], false⟩
def F.TIM_EVT_TARGET_TICK : Fld := ⟨R.TIM_EVT_TARGET, 0, 0, 32⟩
def R.TIM_EVT_PERIOD : Reg := ⟨231, 0x30208, [(8, 0x10)], 1, .perst, [⟨0, 0, 32, .rl, [(0, 2147483647)]⟩],
  [0], false⟩
def F.TIM_EVT_PERIOD_PERIOD : Fld := ⟨R.TIM_EVT_PERIOD, 0, 0, 32⟩
def R.SPN_HIF_STATUS : Reg := ⟨232, 0x200, [], 1, .perst, [⟨0, 0, 2, .ro, []⟩, ⟨0, 2, 1, .ro, []⟩, ⟨0, 3, 3, .ro, []⟩,
  ⟨0, 6, 3, .ro, []⟩, ⟨0, 9, 1, .ro, []⟩, ⟨0, 10, 1, .ro, []⟩,
  ⟨0, 11, 1, .ro, []⟩, ⟨0, 12, 1, .ro, []⟩, ⟨0, 13, 1, .ro, []⟩,
  ⟨0, 14, 1, .ro, []⟩, ⟨0, 15, 1, .rw1c, []⟩, ⟨0, 16, 16, .ro, []⟩],
  [0], false⟩
def F.SPN_HIF_STATUS_MODE : Fld := ⟨R.SPN_HIF_STATUS, 0, 0, 2⟩
def F.SPN_HIF_STATUS_LINK_UP : Fld := ⟨R.SPN_HIF_STATUS, 0, 2, 1⟩
def F.SPN_HIF_STATUS_WIDTH : Fld := ⟨R.SPN_HIF_STATUS, 0, 3, 3⟩
def F.SPN_HIF_STATUS_SPEED : Fld := ⟨R.SPN_HIF_STATUS, 0, 6, 3⟩
def F.SPN_HIF_STATUS_DEGRADED : Fld := ⟨R.SPN_HIF_STATUS, 0, 9, 1⟩
def F.SPN_HIF_STATUS_CACHE_ON : Fld := ⟨R.SPN_HIF_STATUS, 0, 10, 1⟩
def F.SPN_HIF_STATUS_MEM_ACTIVE : Fld := ⟨R.SPN_HIF_STATUS, 0, 11, 1⟩
def F.SPN_HIF_STATUS_MEM_FAIL : Fld := ⟨R.SPN_HIF_STATUS, 0, 12, 1⟩
def F.SPN_HIF_STATUS_VIRAL : Fld := ⟨R.SPN_HIF_STATUS, 0, 13, 1⟩
def F.SPN_HIF_STATUS_D3HOT : Fld := ⟨R.SPN_HIF_STATUS, 0, 14, 1⟩
def F.SPN_HIF_STATUS_PARTIAL_WR : Fld := ⟨R.SPN_HIF_STATUS, 0, 15, 1⟩
def F.SPN_HIF_STATUS_OUTAGES : Fld := ⟨R.SPN_HIF_STATUS, 0, 16, 16⟩
def R.SPN_HIF_OUTAGE_TICK : Reg := ⟨233, 0x204, [], 1, .perst, [⟨0, 0, 32, .ro, []⟩],
  [0], false⟩
def F.SPN_HIF_OUTAGE_TICK_TICK : Fld := ⟨R.SPN_HIF_OUTAGE_TICK, 0, 0, 32⟩
def R.SPN_HIF_OUTAGE_LEN : Reg := ⟨234, 0x208, [], 1, .perst, [⟨0, 0, 32, .ro, []⟩],
  [0], false⟩
def F.SPN_HIF_OUTAGE_LEN_TICKS : Fld := ⟨R.SPN_HIF_OUTAGE_LEN, 0, 0, 32⟩
def R.QMG_STATUS : Reg := ⟨235, 0x80000, [], 1, .perst, [⟨0, 0, 11, .ro, []⟩, ⟨0, 11, 1, .ro, []⟩, ⟨0, 12, 7, .ro, []⟩],
  [0], false⟩
def F.QMG_STATUS_IN_FLIGHT : Fld := ⟨R.QMG_STATUS, 0, 0, 11⟩
def F.QMG_STATUS_FETCH_PAUSED : Fld := ⟨R.QMG_STATUS, 0, 11, 1⟩
def F.QMG_STATUS_PARTS : Fld := ⟨R.QMG_STATUS, 0, 12, 7⟩
def R.QMG_STAGE_POOL : Reg := ⟨236, 0x80004, [], 1, .perst, [⟨0, 0, 32, .ro, []⟩],
  [0], false⟩
def F.QMG_STAGE_POOL_POOL : Fld := ⟨R.QMG_STAGE_POOL, 0, 0, 32⟩
def R.QMG_PART_CFG : Reg := ⟨237, 0x81000, [(64, 0x20)], 1, .perst, [⟨0, 0, 1, .ro, []⟩, ⟨0, 1, 1, .ro, []⟩, ⟨0, 2, 2, .ro, []⟩,
  ⟨0, 16, 13, .ro, []⟩],
  [0], false⟩
def F.QMG_PART_CFG_VALID : Fld := ⟨R.QMG_PART_CFG, 0, 0, 1⟩
def F.QMG_PART_CFG_POLICY : Fld := ⟨R.QMG_PART_CFG, 0, 1, 1⟩
def F.QMG_PART_CFG_STATE : Fld := ⟨R.QMG_PART_CFG, 0, 2, 2⟩
def F.QMG_PART_CFG_QUEUES : Fld := ⟨R.QMG_PART_CFG, 0, 16, 13⟩
def R.QMG_PART_QUOTA : Reg := ⟨238, 0x81004, [(64, 0x20)], 1, .perst, [⟨0, 0, 32, .ro, []⟩],
  [0], false⟩
def F.QMG_PART_QUOTA_QUOTA : Fld := ⟨R.QMG_PART_QUOTA, 0, 0, 32⟩
def R.QMG_PART_USE : Reg := ⟨239, 0x81008, [(64, 0x20)], 1, .perst, [⟨0, 0, 32, .ro, []⟩],
  [0], false⟩
def F.QMG_PART_USE_USE : Fld := ⟨R.QMG_PART_USE, 0, 0, 32⟩
def R.QMG_PART_JOBS : Reg := ⟨240, 0x8100C, [(64, 0x20)], 1, .perst, [⟨0, 0, 11, .ro, []⟩],
  [0], false⟩
def F.QMG_PART_JOBS_IN_FLIGHT : Fld := ⟨R.QMG_PART_JOBS, 0, 0, 11⟩
def R.QMG_PART_TICK : Reg := ⟨241, 0x81010, [(64, 0x20)], 1, .perst, [⟨0, 0, 32, .ro, []⟩],
  [0], false⟩
def F.QMG_PART_TICK_TICK : Fld := ⟨R.QMG_PART_TICK, 0, 0, 32⟩
def R.QMG_JOB_TAG : Reg := ⟨242, 0x82000, [(1024, 0x10)], 1, .perst, [⟨0, 0, 32, .ro, []⟩],
  [0], false⟩
def F.QMG_JOB_TAG_TAG : Fld := ⟨R.QMG_JOB_TAG, 0, 0, 32⟩
def R.QMG_JOB_STATE : Reg := ⟨243, 0x82004, [(1024, 0x10)], 1, .perst, [⟨0, 0, 2, .ro, []⟩, ⟨0, 2, 6, .ro, []⟩, ⟨0, 8, 12, .ro, []⟩,
  ⟨0, 20, 3, .ro, []⟩, ⟨0, 23, 9, .ro, []⟩],
  [0], false⟩
def F.QMG_JOB_STATE_STATE : Fld := ⟨R.QMG_JOB_STATE, 0, 0, 2⟩
def F.QMG_JOB_STATE_PART : Fld := ⟨R.QMG_JOB_STATE, 0, 2, 6⟩
def F.QMG_JOB_STATE_QP : Fld := ⟨R.QMG_JOB_STATE, 0, 8, 12⟩
def F.QMG_JOB_STATE_KIND : Fld := ⟨R.QMG_JOB_STATE, 0, 20, 3⟩
def F.QMG_JOB_STATE_TRIG_OVR : Fld := ⟨R.QMG_JOB_STATE, 0, 23, 9⟩
def R.QMG_JOB_SHOTS : Reg := ⟨244, 0x82008, [(1024, 0x10)], 1, .perst, [⟨0, 0, 32, .ro, []⟩],
  [0], false⟩
def F.QMG_JOB_SHOTS_SHOTS : Fld := ⟨R.QMG_JOB_SHOTS, 0, 0, 32⟩
def R.QMG_JOB_NEXT : Reg := ⟨245, 0x8200C, [(1024, 0x10)], 1, .safe, [⟨0, 0, 32, .ro, []⟩],
  [0], false⟩
def F.QMG_JOB_NEXT_TICK : Fld := ⟨R.QMG_JOB_NEXT, 0, 0, 32⟩
def R.QMG_QP : Reg := ⟨246, 0x88000, [(4096, 0x8)], 1, .perst, [⟨0, 0, 12, .ro, []⟩, ⟨0, 12, 12, .ro, []⟩, ⟨0, 24, 1, .ro, []⟩,
  ⟨0, 25, 1, .rw1c, []⟩, ⟨0, 26, 1, .ro, []⟩, ⟨0, 27, 1, .ro, []⟩],
  [0x8000000], false⟩
def F.QMG_QP_SQ_HEAD : Fld := ⟨R.QMG_QP, 0, 0, 12⟩
def F.QMG_QP_CQ_TAIL : Fld := ⟨R.QMG_QP, 0, 12, 12⟩
def F.QMG_QP_VALID : Fld := ⟨R.QMG_QP, 0, 24, 1⟩
def F.QMG_QP_DB_ERR : Fld := ⟨R.QMG_QP, 0, 25, 1⟩
def F.QMG_QP_CQ_FULL : Fld := ⟨R.QMG_QP, 0, 26, 1⟩
def F.QMG_QP_PHASE : Fld := ⟨R.QMG_QP, 0, 27, 1⟩
def R.QMG_QP_CFG : Reg := ⟨247, 0x88004, [(4096, 0x8)], 1, .perst, [⟨0, 0, 6, .ro, []⟩, ⟨0, 16, 11, .ro, []⟩],
  [0], false⟩
def F.QMG_QP_CFG_PART : Fld := ⟨R.QMG_QP_CFG, 0, 0, 6⟩
def F.QMG_QP_CFG_VECTOR : Fld := ⟨R.QMG_QP_CFG, 0, 16, 11⟩
def R.QDB_SQ_TAIL : Reg := ⟨248, 0x20000000, [(4096, 0x1000)], 1, .perst, [⟨0, 0, 12, .wo, []⟩],
  [0], false⟩
def F.QDB_SQ_TAIL_TAIL : Fld := ⟨R.QDB_SQ_TAIL, 0, 0, 12⟩
def R.QDB_CQ_HEAD : Reg := ⟨249, 0x20000004, [(4096, 0x1000)], 1, .perst, [⟨0, 0, 12, .wo, []⟩],
  [0], false⟩
def F.QDB_CQ_HEAD_HEAD : Fld := ⟨R.QDB_CQ_HEAD, 0, 0, 12⟩
def R.MBX_DB : Reg := ⟨250, 0x10040000, [(64, 0x10)], 1, .perst, [⟨0, 0, 1, .wo, []⟩],
  [0], false⟩
def F.MBX_DB_GO : Fld := ⟨R.MBX_DB, 0, 0, 1⟩
def R.MBX_STATUS : Reg := ⟨251, 0x10040004, [(64, 0x10)], 1, .perst, [⟨0, 0, 2, .ro, []⟩, ⟨0, 2, 1, .rw1c, []⟩, ⟨0, 3, 1, .ro, []⟩,
  ⟨0, 16, 16, .ro, []⟩],
  [3], false⟩
def F.MBX_STATUS_STATE : Fld := ⟨R.MBX_STATUS, 0, 0, 2⟩
def F.MBX_STATUS_DB_ERR : Fld := ⟨R.MBX_STATUS, 0, 2, 1⟩
def F.MBX_STATUS_REISSUE : Fld := ⟨R.MBX_STATUS, 0, 3, 1⟩
def F.MBX_STATUS_COMMANDS : Fld := ⟨R.MBX_STATUS, 0, 16, 16⟩
def R.MBX_GLOBAL : Reg := ⟨252, 0x10040800, [], 1, .perst, [⟨0, 0, 1, .ro, []⟩, ⟨0, 1, 1, .ro, []⟩, ⟨0, 2, 1, .ro, []⟩,
  ⟨0, 3, 1, .ro, []⟩, ⟨0, 4, 1, .ro, []⟩, ⟨0, 5, 1, .ro, []⟩,
  ⟨0, 6, 3, .ro, []⟩, ⟨0, 16, 16, .ro, []⟩],
  [0], false⟩
def F.MBX_GLOBAL_FW_READY : Fld := ⟨R.MBX_GLOBAL, 0, 0, 1⟩
def F.MBX_GLOBAL_IDLE_READY : Fld := ⟨R.MBX_GLOBAL, 0, 1, 1⟩
def F.MBX_GLOBAL_ACTIVE_CORE : Fld := ⟨R.MBX_GLOBAL, 0, 2, 1⟩
def F.MBX_GLOBAL_STANDBY_READY : Fld := ⟨R.MBX_GLOBAL, 0, 3, 1⟩
def F.MBX_GLOBAL_HANDOVER : Fld := ⟨R.MBX_GLOBAL, 0, 4, 1⟩
def F.MBX_GLOBAL_FW_IMAGE : Fld := ⟨R.MBX_GLOBAL, 0, 5, 1⟩
def F.MBX_GLOBAL_MODE : Fld := ⟨R.MBX_GLOBAL, 0, 6, 3⟩
def F.MBX_GLOBAL_HANDOVERS : Fld := ⟨R.MBX_GLOBAL, 0, 16, 16⟩
def R.SPN_TXN : Reg := ⟨253, 0x1000, [(65, 0x20)], 8, .perst, [⟨0, 0, 2, .ro, []⟩, ⟨0, 2, 1, .rw1c, []⟩, ⟨0, 16, 13, .ro, []⟩,
  ⟨1, 0, 32, .ro, []⟩, ⟨2, 0, 32, .ro, []⟩, ⟨3, 0, 32, .ro, []⟩,
  ⟨4, 0, 13, .ro, []⟩, ⟨5, 0, 32, .ro, []⟩],
  [0, 0, 0, 0, 0, 0, 0, 0], false⟩
def F.SPN_TXN_STATE : Fld := ⟨R.SPN_TXN, 0, 0, 2⟩
def F.SPN_TXN_TIMEOUT : Fld := ⟨R.SPN_TXN, 0, 2, 1⟩
def F.SPN_TXN_ENTRIES : Fld := ⟨R.SPN_TXN, 0, 16, 13⟩
def F.SPN_TXN_TXN_ID : Fld := ⟨R.SPN_TXN, 1, 0, 32⟩
def F.SPN_TXN_BEGIN_TICK : Fld := ⟨R.SPN_TXN, 2, 0, 32⟩
def F.SPN_TXN_COMMIT_TICK : Fld := ⟨R.SPN_TXN, 3, 0, 32⟩
def F.SPN_TXN_C_ENTRIES : Fld := ⟨R.SPN_TXN, 4, 0, 13⟩
def F.SPN_TXN_C_TXN_ID : Fld := ⟨R.SPN_TXN, 5, 0, 32⟩
def R.MEM_CFG : Reg := ⟨254, 0x70000, [], 1, .perst, [⟨0, 0, 9, .ro, []⟩, ⟨0, 9, 1, .ro, []⟩, ⟨0, 10, 2, .ro, []⟩,
  ⟨0, 12, 1, .ro, []⟩],
  [0], false⟩
def F.MEM_CFG_CAPACITY : Fld := ⟨R.MEM_CFG, 0, 0, 9⟩
def F.MEM_CFG_RANKS : Fld := ⟨R.MEM_CFG, 0, 9, 1⟩
def F.MEM_CFG_DENSITY : Fld := ⟨R.MEM_CFG, 0, 10, 2⟩
def F.MEM_CFG_DOWN : Fld := ⟨R.MEM_CFG, 0, 12, 1⟩
def R.MEM_STATUS : Reg := ⟨255, 0x70004, [], 1, .perst, [⟨0, 0, 1, .ro, []⟩, ⟨0, 1, 1, .ro, []⟩, ⟨0, 2, 1, .ro, []⟩,
  ⟨0, 3, 1, .ro, []⟩, ⟨0, 4, 4, .ro, []⟩],
  [0], false⟩
def F.MEM_STATUS_TRAINED : Fld := ⟨R.MEM_STATUS, 0, 0, 1⟩
def F.MEM_STATUS_TESTED : Fld := ⟨R.MEM_STATUS, 0, 1, 1⟩
def F.MEM_STATUS_INIT_DONE : Fld := ⟨R.MEM_STATUS, 0, 2, 1⟩
def F.MEM_STATUS_MEM_FAIL : Fld := ⟨R.MEM_STATUS, 0, 3, 1⟩
def F.MEM_STATUS_RETIRED : Fld := ⟨R.MEM_STATUS, 0, 4, 4⟩
def R.MEM_HOST_SIZE : Reg := ⟨256, 0x70008, [], 1, .perst, [⟨0, 0, 16, .ro, []⟩],
  [0], false⟩
def F.MEM_HOST_SIZE_H : Fld := ⟨R.MEM_HOST_SIZE, 0, 0, 16⟩
def R.MEM_BW : Reg := ⟨257, 0x7000C, [], 1, .perst, [⟨0, 0, 16, .ro, []⟩, ⟨0, 16, 16, .ro, []⟩],
  [0], false⟩
def F.MEM_BW_RESERVED : Fld := ⟨R.MEM_BW, 0, 0, 16⟩
def F.MEM_BW_USED : Fld := ⟨R.MEM_BW, 0, 16, 16⟩
def R.MEM_PATROL : Reg := ⟨258, 0x70010, [], 1, .perst, [⟨0, 0, 8, .rws, [(1, 168)]⟩, ⟨0, 8, 8, .ro, []⟩, ⟨0, 16, 16, .ro, []⟩],
  [0x18], false⟩
def F.MEM_PATROL_PERIOD : Fld := ⟨R.MEM_PATROL, 0, 0, 8⟩
def F.MEM_PATROL_PROGRESS : Fld := ⟨R.MEM_PATROL, 0, 8, 8⟩
def F.MEM_PATROL_PASSES : Fld := ⟨R.MEM_PATROL, 0, 16, 16⟩
def R.MEM_RETIRE_THR : Reg := ⟨259, 0x70014, [], 1, .perst, [⟨0, 0, 16, .rws, [(1, 65535)]⟩],
  [0x100], false⟩
def F.MEM_RETIRE_THR_THR : Fld := ⟨R.MEM_RETIRE_THR, 0, 0, 16⟩
def R.MEM_CE_TOTAL : Reg := ⟨260, 0x70018, [], 1, .perst, [⟨0, 0, 32, .ro, []⟩],
  [0], false⟩
def F.MEM_CE_TOTAL_COUNT : Fld := ⟨R.MEM_CE_TOTAL, 0, 0, 32⟩
def R.MEM_UE_TOTAL : Reg := ⟨261, 0x7001C, [], 1, .perst, [⟨0, 0, 16, .ro, []⟩],
  [0], false⟩
def F.MEM_UE_TOTAL_COUNT : Fld := ⟨R.MEM_UE_TOTAL, 0, 0, 16⟩
def R.MEM_LAST_ERR : Reg := ⟨262, 0x70020, [], 1, .perst, [⟨0, 0, 7, .ro, []⟩, ⟨0, 7, 1, .ro, []⟩, ⟨0, 8, 3, .ro, []⟩],
  [0], false⟩
def F.MEM_LAST_ERR_DEVICE : Fld := ⟨R.MEM_LAST_ERR, 0, 0, 7⟩
def F.MEM_LAST_ERR_UE : Fld := ⟨R.MEM_LAST_ERR, 0, 7, 1⟩
def F.MEM_LAST_ERR_OWNER : Fld := ⟨R.MEM_LAST_ERR, 0, 8, 3⟩
def R.MEM_LAST_ERR_LO : Reg := ⟨263, 0x70024, [], 1, .perst, [⟨0, 0, 32, .ro, []⟩],
  [0], false⟩
def F.MEM_LAST_ERR_LO_ADDR_LO : Fld := ⟨R.MEM_LAST_ERR_LO, 0, 0, 32⟩
def R.MEM_LAST_ERR_HI : Reg := ⟨264, 0x70028, [], 1, .perst, [⟨0, 0, 6, .ro, []⟩],
  [0], false⟩
def F.MEM_LAST_ERR_HI_ADDR_HI : Fld := ⟨R.MEM_LAST_ERR_HI, 0, 0, 6⟩
def R.MEM_DEV_ERR : Reg := ⟨265, 0x71000, [(80, 0x4)], 1, .perst, [⟨0, 0, 16, .ro, []⟩, ⟨0, 16, 12, .ro, []⟩, ⟨0, 28, 1, .ro, []⟩,
  ⟨0, 29, 1, .ro, []⟩, ⟨0, 30, 2, .ro, []⟩],
  [0], false⟩
def F.MEM_DEV_ERR_CE_COUNT : Fld := ⟨R.MEM_DEV_ERR, 0, 0, 16⟩
def F.MEM_DEV_ERR_LAST_PASS : Fld := ⟨R.MEM_DEV_ERR, 0, 16, 12⟩
def F.MEM_DEV_ERR_FITTED : Fld := ⟨R.MEM_DEV_ERR, 0, 28, 1⟩
def F.MEM_DEV_ERR_RETIRED : Fld := ⟨R.MEM_DEV_ERR, 0, 29, 1⟩
def F.MEM_DEV_ERR_CAUSE : Fld := ⟨R.MEM_DEV_ERR, 0, 30, 2⟩
def R.SPN_CAL_CFG : Reg := ⟨266, 0xA0000, [], 1, .perst, [⟨0, 0, 8, .rws, [(5, 100)]⟩, ⟨0, 16, 14, .rws, [(1, 10080)]⟩],
  [0x5A00014], false⟩
def F.SPN_CAL_CFG_DT : Fld := ⟨R.SPN_CAL_CFG, 0, 0, 8⟩
def F.SPN_CAL_CFG_MAXAGE : Fld := ⟨R.SPN_CAL_CFG, 0, 16, 14⟩
def R.SPN_CAL_CFG2 : Reg := ⟨267, 0xA0004, [], 1, .perst, [⟨0, 0, 12, .rws, [(1, 3600)]⟩, ⟨0, 12, 1, .rws, []⟩],
  [0x103C], false⟩
def F.SPN_CAL_CFG2_GRACE : Fld := ⟨R.SPN_CAL_CFG2, 0, 0, 12⟩
def F.SPN_CAL_CFG2_AUTO : Fld := ⟨R.SPN_CAL_CFG2, 0, 12, 1⟩
def R.SPN_CAL_STATUS : Reg := ⟨268, 0xA0008, [], 1, .perst, [⟨0, 0, 1, .ro, []⟩, ⟨0, 1, 1, .rw1c, []⟩, ⟨0, 2, 1, .ro, []⟩,
  ⟨0, 3, 1, .ro, []⟩, ⟨0, 4, 1, .ro, []⟩, ⟨0, 16, 16, .ro, []⟩],
  [0], false⟩
def F.SPN_CAL_STATUS_FOREGROUND : Fld := ⟨R.SPN_CAL_STATUS, 0, 0, 1⟩
def F.SPN_CAL_STATUS_FALLBACK : Fld := ⟨R.SPN_CAL_STATUS, 0, 1, 1⟩
def F.SPN_CAL_STATUS_DC_TRACED : Fld := ⟨R.SPN_CAL_STATUS, 0, 2, 1⟩
def F.SPN_CAL_STATUS_FREQ_TRACED : Fld := ⟨R.SPN_CAL_STATUS, 0, 3, 1⟩
def F.SPN_CAL_STATUS_NV_PENDING : Fld := ⟨R.SPN_CAL_STATUS, 0, 4, 1⟩
def F.SPN_CAL_STATUS_STALE : Fld := ⟨R.SPN_CAL_STATUS, 0, 16, 16⟩
def R.SPN_CAL_REF : Reg := ⟨269, 0xA000C, [], 1, .perst, [⟨0, 0, 32, .ro, []⟩],
  [0], false⟩
def F.SPN_CAL_REF_VALUE : Fld := ⟨R.SPN_CAL_REF, 0, 0, 32⟩
def R.SPN_CAL_FALLBACK : Reg := ⟨270, 0xA0010, [], 1, .perst, [⟨0, 0, 32, .ro, []⟩],
  [0], false⟩
def F.SPN_CAL_FALLBACK_UNIT : Fld := ⟨R.SPN_CAL_FALLBACK, 0, 0, 32⟩
def R.SPN_CAL_FALLBACK_SRC : Reg := ⟨271, 0xA0014, [], 1, .perst, [⟨0, 0, 2, .ro, []⟩],
  [0], false⟩
def F.SPN_CAL_FALLBACK_SRC_SOURCE : Fld := ⟨R.SPN_CAL_FALLBACK_SRC, 0, 0, 2⟩
def R.TIL_CAL_STATUS : Reg := ⟨272, 0x1000600, [(7, 0x1000000)], 1, .tile, [⟨0, 0, 8, .ro, []⟩, ⟨0, 8, 8, .ro, []⟩, ⟨0, 16, 8, .ro, []⟩,
  ⟨0, 24, 1, .ro, []⟩],
  [0], false⟩
def F.TIL_CAL_STATUS_DUE : Fld := ⟨R.TIL_CAL_STATUS, 0, 0, 8⟩
def F.TIL_CAL_STATUS_STALE : Fld := ⟨R.TIL_CAL_STATUS, 0, 8, 8⟩
def F.TIL_CAL_STATUS_HELD : Fld := ⟨R.TIL_CAL_STATUS, 0, 16, 8⟩
def F.TIL_CAL_STATUS_ACTIVE : Fld := ⟨R.TIL_CAL_STATUS, 0, 24, 1⟩
def R.THM_CFG : Reg := ⟨273, 0x20000, [], 1, .perst, [⟨0, 0, 8, .rws, []⟩, ⟨0, 8, 8, .rws, []⟩, ⟨0, 16, 5, .rws, []⟩],
  [0x4695F], false⟩
def F.THM_CFG_WARN : Fld := ⟨R.THM_CFG, 0, 0, 8⟩
def F.THM_CFG_CRIT : Fld := ⟨R.THM_CFG, 0, 8, 8⟩
def F.THM_CFG_HYST : Fld := ⟨R.THM_CFG, 0, 16, 5⟩
def R.THM_RATE : Reg := ⟨274, 0x20004, [], 1, .perst, [⟨0, 0, 8, .rws, [(5, 255)]⟩, ⟨0, 8, 1, .rws, []⟩],
  [0x28], false⟩
def F.THM_RATE_LIMIT : Fld := ⟨R.THM_RATE, 0, 0, 8⟩
def F.THM_RATE_ACT : Fld := ⟨R.THM_RATE, 0, 8, 1⟩
def R.THM_STATUS : Reg := ⟨275, 0x20008, [], 1, .aon, [⟨0, 0, 1, .ro, []⟩, ⟨0, 1, 1, .ro, []⟩, ⟨0, 2, 1, .ro, []⟩,
  ⟨0, 3, 1, .ro, []⟩, ⟨0, 4, 1, .ro, []⟩, ⟨0, 5, 1, .ro, []⟩,
  ⟨0, 6, 1, .wo, []⟩, ⟨0, 16, 16, .ro, []⟩],
  [0], false⟩
def F.THM_STATUS_SHUTDOWN : Fld := ⟨R.THM_STATUS, 0, 0, 1⟩
def F.THM_STATUS_DWELL : Fld := ⟨R.THM_STATUS, 0, 1, 1⟩
def F.THM_STATUS_WARN : Fld := ⟨R.THM_STATUS, 0, 2, 1⟩
def F.THM_STATUS_CRIT : Fld := ⟨R.THM_STATUS, 0, 3, 1⟩
def F.THM_STATUS_RATE : Fld := ⟨R.THM_STATUS, 0, 4, 1⟩
def F.THM_STATUS_FAST : Fld := ⟨R.THM_STATUS, 0, 5, 1⟩
def F.THM_STATUS_PEAK_CLR : Fld := ⟨R.THM_STATUS, 0, 6, 1⟩
def F.THM_STATUS_SHUT_COUNT : Fld := ⟨R.THM_STATUS, 0, 16, 16⟩
def R.THM_REFUSE : Reg := ⟨276, 0x2000C, [], 1, .perst, [⟨0, 0, 16, .ro, []⟩],
  [0], false⟩
def F.THM_REFUSE_REASON : Fld := ⟨R.THM_REFUSE, 0, 0, 16⟩
def R.THM_SD_TICK : Reg := ⟨277, 0x20010, [], 1, .aon, [⟨0, 0, 32, .ro, []⟩],
  [0], false⟩
def F.THM_SD_TICK_TICK : Fld := ⟨R.THM_SD_TICK, 0, 0, 32⟩
def R.THM_SENS : Reg := ⟨278, 0x20100, [(6, 0x4)], 1, .aon, [⟨0, 0, 16, .ro, []⟩, ⟨0, 16, 1, .ro, []⟩, ⟨0, 17, 1, .ro, []⟩,
  ⟨0, 18, 1, .ro, []⟩, ⟨0, 19, 1, .ro, []⟩, ⟨0, 20, 1, .ro, []⟩,
  ⟨0, 24, 8, .ro, []⟩],
  [0], false⟩
def F.THM_SENS_TEMP : Fld := ⟨R.THM_SENS, 0, 0, 16⟩
def F.THM_SENS_WARN : Fld := ⟨R.THM_SENS, 0, 16, 1⟩
def F.THM_SENS_CRIT : Fld := ⟨R.THM_SENS, 0, 17, 1⟩
def F.THM_SENS_RATE : Fld := ⟨R.THM_SENS, 0, 18, 1⟩
def F.THM_SENS_FAST : Fld := ⟨R.THM_SENS, 0, 19, 1⟩
def F.THM_SENS_FAILED : Fld := ⟨R.THM_SENS, 0, 20, 1⟩
def F.THM_SENS_MAX : Fld := ⟨R.THM_SENS, 0, 24, 8⟩
def R.FLT_STATUS : Reg := ⟨279, 0x10000, [(13, 0x100)], 1, .fltSpine, [⟨0, 0, 32, .rw1c, []⟩],
  [0], false⟩
def F.FLT_STATUS_STATUS : Fld := ⟨R.FLT_STATUS, 0, 0, 32⟩
def R.FLT_REAL : Reg := ⟨280, 0x10004, [(13, 0x100)], 1, .fltSpine, [⟨0, 0, 32, .ro, []⟩],
  [0], false⟩
def F.FLT_REAL_REAL : Fld := ⟨R.FLT_REAL, 0, 0, 32⟩
def R.FLT_INJ : Reg := ⟨281, 0x10008, [(13, 0x100)], 1, .fltSpine, [⟨0, 0, 32, .ro, []⟩],
  [0], false⟩
def F.FLT_INJ_INJ : Fld := ⟨R.FLT_INJ, 0, 0, 32⟩
def R.FLT_MASK : Reg := ⟨282, 0x1000C, [(13, 0x100)], 1, .fltSpine, [⟨0, 0, 32, .rw, []⟩],
  [0], false⟩
def F.FLT_MASK_MASK : Fld := ⟨R.FLT_MASK, 0, 0, 32⟩
def R.FLT_ACTION : Reg := ⟨283, 0x10010, [(13, 0x100)], 1, .fltSpine, [⟨0, 0, 32, .rw, []⟩],
  [0], true⟩
def F.FLT_ACTION_PIN : Fld := ⟨R.FLT_ACTION, 0, 0, 32⟩
def R.FLT_FIRST : Reg := ⟨284, 0x10014, [(13, 0x100)], 1, .fltSpine, [⟨0, 0, 1, .rw1c, []⟩, ⟨0, 1, 5, .ro, []⟩, ⟨0, 6, 3, .ro, []⟩,
  ⟨0, 9, 7, .ro, []⟩, ⟨0, 16, 1, .ro, []⟩, ⟨0, 17, 1, .ro, []⟩],
  [0], false⟩
def F.FLT_FIRST_VALID : Fld := ⟨R.FLT_FIRST, 0, 0, 1⟩
def F.FLT_FIRST_BIT : Fld := ⟨R.FLT_FIRST, 0, 1, 5⟩
def F.FLT_FIRST_SEV : Fld := ⟨R.FLT_FIRST, 0, 6, 3⟩
def F.FLT_FIRST_UNIT : Fld := ⟨R.FLT_FIRST, 0, 9, 7⟩
def F.FLT_FIRST_REAL : Fld := ⟨R.FLT_FIRST, 0, 16, 1⟩
def F.FLT_FIRST_INJ : Fld := ⟨R.FLT_FIRST, 0, 17, 1⟩
def R.FLT_FIRST_TICK : Reg := ⟨285, 0x10018, [(13, 0x100)], 1, .fltSpine, [⟨0, 0, 32, .ro, []⟩],
  [0], false⟩
def F.FLT_FIRST_TICK_TICK : Fld := ⟨R.FLT_FIRST_TICK, 0, 0, 32⟩
def R.FLT_INJECT : Reg := ⟨286, 0x1001C, [(13, 0x100)], 1, .fltSpine, [⟨0, 0, 5, .wo, []⟩, ⟨0, 5, 7, .wo, []⟩, ⟨0, 12, 1, .wo, []⟩,
  ⟨0, 31, 1, .wo, []⟩],
  [0], false⟩
def F.FLT_INJECT_BIT : Fld := ⟨R.FLT_INJECT, 0, 0, 5⟩
def F.FLT_INJECT_UNIT : Fld := ⟨R.FLT_INJECT, 0, 5, 7⟩
def F.FLT_INJECT_MODE : Fld := ⟨R.FLT_INJECT, 0, 12, 1⟩
def F.FLT_INJECT_GO : Fld := ⟨R.FLT_INJECT, 0, 31, 1⟩
def R.FLT_COUNT : Reg := ⟨287, 0x10020, [(13, 0x100)], 1, .fltSpine, [⟨0, 0, 16, .ro, []⟩, ⟨0, 16, 1, .rw1c, []⟩],
  [0], false⟩
def F.FLT_COUNT_RECORDED : Fld := ⟨R.FLT_COUNT, 0, 0, 16⟩
def F.FLT_COUNT_INJ_REFUSED : Fld := ⟨R.FLT_COUNT, 0, 16, 1⟩
def R.FLT_DEFINED : Reg := ⟨288, 0x10024, [(13, 0x100)], 1, .fltSpine, [⟨0, 0, 32, .ro, []⟩],
  [0], true⟩
def F.FLT_DEFINED_DEFINED : Fld := ⟨R.FLT_DEFINED, 0, 0, 32⟩
def R.FLT_VECTOR : Reg := ⟨289, 0x10028, [(13, 0x100)], 1, .fltSpine, [⟨0, 0, 11, .ro, []⟩],
  [0], true⟩
def F.FLT_VECTOR_VECTOR : Fld := ⟨R.FLT_VECTOR, 0, 0, 11⟩
def R.SPN_FLT_CTRL : Reg := ⟨290, 0x1F000, [], 1, .perst, [⟨0, 0, 1, .rw, []⟩],
  [0], false⟩
def F.SPN_FLT_CTRL_INJ_EN : Fld := ⟨R.SPN_FLT_CTRL, 0, 0, 1⟩
def R.SPN_REPLACE : Reg := ⟨291, 0x300, [], 1, .perst, [⟨0, 0, 1, .ro, []⟩, ⟨0, 1, 1, .ro, []⟩, ⟨0, 2, 1, .ro, []⟩,
  ⟨0, 3, 1, .ro, []⟩, ⟨0, 4, 1, .ro, []⟩, ⟨0, 5, 1, .ro, []⟩,
  ⟨0, 6, 1, .ro, []⟩],
  [0], false⟩
def F.SPN_REPLACE_DRIVE_GROUP : Fld := ⟨R.SPN_REPLACE, 0, 0, 1⟩
def F.SPN_REPLACE_SENSE_LIST : Fld := ⟨R.SPN_REPLACE, 0, 1, 1⟩
def F.SPN_REPLACE_SLICE : Fld := ⟨R.SPN_REPLACE, 0, 2, 1⟩
def F.SPN_REPLACE_DRAM : Fld := ⟨R.SPN_REPLACE, 0, 3, 1⟩
def F.SPN_REPLACE_TILE : Fld := ⟨R.SPN_REPLACE, 0, 4, 1⟩
def F.SPN_REPLACE_MGMT : Fld := ⟨R.SPN_REPLACE, 0, 5, 1⟩
def F.SPN_REPLACE_USTORE : Fld := ⟨R.SPN_REPLACE, 0, 6, 1⟩
def R.SPN_ERR_PIN : Reg := ⟨292, 0x304, [], 1, .perst, [⟨0, 0, 1, .ro, []⟩, ⟨0, 1, 1, .ro, []⟩, ⟨0, 2, 1, .rw, []⟩],
  [0], false⟩
def F.SPN_ERR_PIN_ASSERTED : Fld := ⟨R.SPN_ERR_PIN, 0, 0, 1⟩
def F.SPN_ERR_PIN_HW_HOLD : Fld := ⟨R.SPN_ERR_PIN, 0, 1, 1⟩
def F.SPN_ERR_PIN_POLICY : Fld := ⟨R.SPN_ERR_PIN, 0, 2, 1⟩
def R.SPN_TILE_FENCE : Reg := ⟨293, 0x308, [], 1, .perst, [⟨0, 0, 7, .ro, []⟩, ⟨0, 8, 7, .ro, []⟩],
  [0], false⟩
def F.SPN_TILE_FENCE_FENCED : Fld := ⟨R.SPN_TILE_FENCE, 0, 0, 7⟩
def F.SPN_TILE_FENCE_LINK_DEAD : Fld := ⟨R.SPN_TILE_FENCE, 0, 8, 7⟩
def R.SPN_BOOT_STATUS : Reg := ⟨294, 0x40, [], 1, .perst, [⟨0, 0, 1, .ro, []⟩, ⟨0, 1, 1, .ro, []⟩, ⟨0, 2, 1, .ro, []⟩,
  ⟨0, 3, 1, .ro, []⟩, ⟨0, 4, 4, .ro, []⟩, ⟨0, 8, 4, .ro, []⟩,
  ⟨0, 12, 1, .ro, []⟩, ⟨0, 13, 1, .ro, []⟩],
  [0], false⟩
def F.SPN_BOOT_STATUS_IMAGE : Fld := ⟨R.SPN_BOOT_STATUS, 0, 0, 1⟩
def F.SPN_BOOT_STATUS_PREFERRED : Fld := ⟨R.SPN_BOOT_STATUS, 0, 1, 1⟩
def F.SPN_BOOT_STATUS_FALLBACK : Fld := ⟨R.SPN_BOOT_STATUS, 0, 2, 1⟩
def F.SPN_BOOT_STATUS_BOOT_FAIL : Fld := ⟨R.SPN_BOOT_STATUS, 0, 3, 1⟩
def F.SPN_BOOT_STATUS_A_CAUSE : Fld := ⟨R.SPN_BOOT_STATUS, 0, 4, 4⟩
def F.SPN_BOOT_STATUS_B_CAUSE : Fld := ⟨R.SPN_BOOT_STATUS, 0, 8, 4⟩
def F.SPN_BOOT_STATUS_FLASH_8D : Fld := ⟨R.SPN_BOOT_STATUS, 0, 12, 1⟩
def F.SPN_BOOT_STATUS_STAGED : Fld := ⟨R.SPN_BOOT_STATUS, 0, 13, 1⟩
def R.SPN_FW_VER : Reg := ⟨295, 0x44, [], 1, .perst, [⟨0, 0, 8, .ro, []⟩, ⟨0, 8, 8, .ro, []⟩, ⟨0, 16, 8, .ro, []⟩,
  ⟨0, 24, 8, .ro, []⟩],
  [0], false⟩
def F.SPN_FW_VER_BUILD : Fld := ⟨R.SPN_FW_VER, 0, 0, 8⟩
def F.SPN_FW_VER_PATCH : Fld := ⟨R.SPN_FW_VER, 0, 8, 8⟩
def F.SPN_FW_VER_MINOR : Fld := ⟨R.SPN_FW_VER, 0, 16, 8⟩
def F.SPN_FW_VER_MAJOR : Fld := ⟨R.SPN_FW_VER, 0, 24, 8⟩
def R.SPN_FW_SVN : Reg := ⟨296, 0x48, [], 1, .perst, [⟨0, 0, 16, .ro, []⟩, ⟨0, 16, 16, .ro, []⟩],
  [0], false⟩
def F.SPN_FW_SVN_RUNNING : Fld := ⟨R.SPN_FW_SVN, 0, 0, 16⟩
def F.SPN_FW_SVN_MIN : Fld := ⟨R.SPN_FW_SVN, 0, 16, 16⟩
def R.SPN_RAIL_STATUS : Reg := ⟨297, 0x4C, [], 1, .aon, [⟨0, 0, 8, .ro, []⟩, ⟨0, 8, 1, .rw1c, []⟩, ⟨0, 9, 1, .rw1c, []⟩,
  ⟨0, 10, 3, .ro, []⟩],
  [0], false⟩
def F.SPN_RAIL_STATUS_GOOD : Fld := ⟨R.SPN_RAIL_STATUS, 0, 0, 8⟩
def F.SPN_RAIL_STATUS_SEQ_ERR : Fld := ⟨R.SPN_RAIL_STATUS, 0, 8, 1⟩
def F.SPN_RAIL_STATUS_DROP : Fld := ⟨R.SPN_RAIL_STATUS, 0, 9, 1⟩
def F.SPN_RAIL_STATUS_DROP_RAIL : Fld := ⟨R.SPN_RAIL_STATUS, 0, 10, 3⟩
def R.PRB_CTRL : Reg := ⟨298, 0x1300000, [(7, 0x1000000), (8, 0x8000)], 1, .tile, [⟨0, 0, 1, .rl, []⟩, ⟨0, 1, 1, .rws, []⟩],
  [0], false⟩
def F.PRB_CTRL_EN : Fld := ⟨R.PRB_CTRL, 0, 0, 1⟩
def F.PRB_CTRL_MUTE : Fld := ⟨R.PRB_CTRL, 0, 1, 1⟩
def R.PRB_STATUS : Reg := ⟨299, 0x1300004, [(7, 0x1000000), (8, 0x8000)], 1, .tile, [⟨0, 0, 1, .ro, []⟩, ⟨0, 1, 1, .ro, []⟩, ⟨0, 2, 1, .ro, []⟩,
  ⟨0, 3, 1, .ro, []⟩, ⟨0, 4, 1, .ro, []⟩, ⟨0, 5, 1, .ro, []⟩,
  ⟨0, 6, 1, .ro, []⟩, ⟨0, 7, 1, .rw1c, []⟩, ⟨0, 8, 1, .rw1c, []⟩,
  ⟨0, 9, 1, .rw1c, []⟩, ⟨0, 10, 1, .ro, []⟩],
  [0], false⟩
def F.PRB_STATUS_ENABLED : Fld := ⟨R.PRB_STATUS, 0, 0, 1⟩
def F.PRB_STATUS_READY : Fld := ⟨R.PRB_STATUS, 0, 1, 1⟩
def F.PRB_STATUS_LIVE : Fld := ⟨R.PRB_STATUS, 0, 2, 1⟩
def F.PRB_STATUS_FENCED : Fld := ⟨R.PRB_STATUS, 0, 3, 1⟩
def F.PRB_STATUS_SPARE : Fld := ⟨R.PRB_STATUS, 0, 4, 1⟩
def F.PRB_STATUS_CAL_VALID : Fld := ⟨R.PRB_STATUS, 0, 5, 1⟩
def F.PRB_STATUS_WIDE_TOL : Fld := ⟨R.PRB_STATUS, 0, 6, 1⟩
def F.PRB_STATUS_CLIP : Fld := ⟨R.PRB_STATUS, 0, 7, 1⟩
def F.PRB_STATUS_MUTED_PLAY : Fld := ⟨R.PRB_STATUS, 0, 8, 1⟩
def F.PRB_STATUS_HANDBACK_FORCED : Fld := ⟨R.PRB_STATUS, 0, 9, 1⟩
def F.PRB_STATUS_CHECKING : Fld := ⟨R.PRB_STATUS, 0, 10, 1⟩
def R.PRB_ENABLE_STATUS : Reg := ⟨300, 0x1300008, [(7, 0x1000000), (8, 0x8000)], 1, .tile, [⟨0, 0, 16, .ro, []⟩],
  [0], false⟩
def F.PRB_ENABLE_STATUS_REASON : Fld := ⟨R.PRB_ENABLE_STATUS, 0, 0, 16⟩
def R.PRB_REFUSE : Reg := ⟨301, 0x130000C, [(7, 0x1000000), (8, 0x8000)], 1, .tile, [⟨0, 0, 16, .ro, []⟩, ⟨0, 16, 12, .ro, []⟩],
  [0], false⟩
def F.PRB_REFUSE_REASON : Fld := ⟨R.PRB_REFUSE, 0, 0, 16⟩
def F.PRB_REFUSE_OFFSET : Fld := ⟨R.PRB_REFUSE, 0, 16, 12⟩
def R.PRB_GAIN : Reg := ⟨302, 0x1300010, [(7, 0x1000000), (8, 0x8000)], 1, .tile, [⟨0, 0, 16, .rws, []⟩],
  [0x8000], false⟩
def F.PRB_GAIN_GAIN : Fld := ⟨R.PRB_GAIN, 0, 0, 16⟩
def R.PRB_OFFSET : Reg := ⟨303, 0x1300014, [(7, 0x1000000), (8, 0x8000)], 1, .tile, [⟨0, 0, 14, .rws, []⟩],
  [0], false⟩
def F.PRB_OFFSET_OFFSET : Fld := ⟨R.PRB_OFFSET, 0, 0, 14⟩
def R.PRB_DELAY : Reg := ⟨304, 0x1300018, [(7, 0x1000000), (8, 0x8000)], 1, .tile, [⟨0, 0, 8, .rl, []⟩, ⟨0, 8, 6, .rl, []⟩],
  [0], false⟩
def F.PRB_DELAY_SAMPLES : Fld := ⟨R.PRB_DELAY, 0, 0, 8⟩
def F.PRB_DELAY_FINE : Fld := ⟨R.PRB_DELAY, 0, 8, 6⟩
def R.PRB_CLIP_COUNT : Reg := ⟨305, 0x130001C, [(7, 0x1000000), (8, 0x8000)], 1, .tile, [⟨0, 0, 32, .ro, []⟩],
  [0], false⟩
def F.PRB_CLIP_COUNT_COUNT : Fld := ⟨R.PRB_CLIP_COUNT, 0, 0, 32⟩
def R.PRB_CAL_GAIN : Reg := ⟨306, 0x1300040, [(7, 0x1000000), (8, 0x8000)], 1, .tile, [⟨0, 0, 16, .ro, []⟩],
  [0x8000], false⟩
def F.PRB_CAL_GAIN_GAIN : Fld := ⟨R.PRB_CAL_GAIN, 0, 0, 16⟩
def R.PRB_CAL_OFFSET : Reg := ⟨307, 0x1300044, [(7, 0x1000000), (8, 0x8000)], 1, .tile, [⟨0, 0, 14, .ro, []⟩],
  [0], false⟩
def F.PRB_CAL_OFFSET_OFFSET : Fld := ⟨R.PRB_CAL_OFFSET, 0, 0, 14⟩
def R.PRB_CAL_DELAY : Reg := ⟨308, 0x1300048, [(7, 0x1000000), (8, 0x8000)], 1, .tile, [⟨0, 0, 9, .ro, []⟩, ⟨0, 9, 6, .ro, []⟩],
  [0xB0], false⟩
def F.PRB_CAL_DELAY_PAD : Fld := ⟨R.PRB_CAL_DELAY, 0, 0, 9⟩
def F.PRB_CAL_DELAY_FINE : Fld := ⟨R.PRB_CAL_DELAY, 0, 9, 6⟩
def R.PRB_CAL_TICK : Reg := ⟨309, 0x130004C, [(7, 0x1000000), (8, 0x8000)], 1, .tile, [⟨0, 0, 32, .ro, []⟩],
  [0], false⟩
def F.PRB_CAL_TICK_TICK : Fld := ⟨R.PRB_CAL_TICK, 0, 0, 32⟩
def R.SGEN_CTRL : Reg := ⟨310, 0x98000, [(8, 0x20)], 1, .perst, [⟨0, 0, 1, .ro, []⟩, ⟨0, 1, 2, .ro, []⟩, ⟨0, 3, 1, .ro, []⟩,
  ⟨0, 16, 16, .ro, []⟩],
  [0], false⟩
def F.SGEN_CTRL_EN : Fld := ⟨R.SGEN_CTRL, 0, 0, 1⟩
def F.SGEN_CTRL_MODE : Fld := ⟨R.SGEN_CTRL, 0, 1, 2⟩
def F.SGEN_CTRL_RESTART : Fld := ⟨R.SGEN_CTRL, 0, 3, 1⟩
def F.SGEN_CTRL_REASON : Fld := ⟨R.SGEN_CTRL, 0, 16, 16⟩
def R.SGEN_START : Reg := ⟨311, 0x98004, [(8, 0x20)], 1, .perst, [⟨0, 0, 32, .ro, []⟩],
  [0], false⟩
def F.SGEN_START_START : Fld := ⟨R.SGEN_START, 0, 0, 32⟩
def R.SGEN_STEP : Reg := ⟨312, 0x98008, [(8, 0x20)], 1, .perst, [⟨0, 0, 32, .ro, []⟩],
  [0], false⟩
def F.SGEN_STEP_STEP : Fld := ⟨R.SGEN_STEP, 0, 0, 32⟩
def R.SGEN_LIMIT : Reg := ⟨313, 0x9800C, [(8, 0x20)], 1, .perst, [⟨0, 0, 32, .ro, []⟩],
  [0], false⟩
def F.SGEN_LIMIT_LIMIT : Fld := ⟨R.SGEN_LIMIT, 0, 0, 32⟩
def R.SGEN_VALUE : Reg := ⟨314, 0x98010, [(8, 0x20)], 1, .perst, [⟨0, 0, 32, .ro, []⟩],
  [0], false⟩
def F.SGEN_VALUE_VALUE : Fld := ⟨R.SGEN_VALUE, 0, 0, 32⟩
def R.SGEN_ADV : Reg := ⟨315, 0x98014, [(8, 0x20)], 1, .perst, [⟨0, 0, 32, .ro, []⟩],
  [0], false⟩
def F.SGEN_ADV_ADV : Fld := ⟨R.SGEN_ADV, 0, 0, 32⟩
def R.THM_SENS_T : Reg := ⟨316, 0x20200, [(7, 0x40), (12, 0x4)], 1, .aon, [⟨0, 0, 16, .ro, []⟩, ⟨0, 16, 1, .ro, []⟩, ⟨0, 17, 1, .ro, []⟩,
  ⟨0, 18, 1, .ro, []⟩, ⟨0, 19, 1, .ro, []⟩, ⟨0, 20, 1, .ro, []⟩,
  ⟨0, 24, 8, .ro, []⟩],
  [0], false⟩
def F.THM_SENS_T_TEMP : Fld := ⟨R.THM_SENS_T, 0, 0, 16⟩
def F.THM_SENS_T_WARN : Fld := ⟨R.THM_SENS_T, 0, 16, 1⟩
def F.THM_SENS_T_CRIT : Fld := ⟨R.THM_SENS_T, 0, 17, 1⟩
def F.THM_SENS_T_RATE : Fld := ⟨R.THM_SENS_T, 0, 18, 1⟩
def F.THM_SENS_T_FAST : Fld := ⟨R.THM_SENS_T, 0, 19, 1⟩
def F.THM_SENS_T_FAILED : Fld := ⟨R.THM_SENS_T, 0, 20, 1⟩
def F.THM_SENS_T_MAX : Fld := ⟨R.THM_SENS_T, 0, 24, 8⟩
def R.TFLT_STATUS : Reg := ⟨317, 0x1010000, [(7, 0x1000000), (108, 0x100)], 1, .tile, [⟨0, 0, 32, .rw1c, []⟩],
  [0], false⟩
def F.TFLT_STATUS_STATUS : Fld := ⟨R.TFLT_STATUS, 0, 0, 32⟩
def R.TFLT_REAL : Reg := ⟨318, 0x1010004, [(7, 0x1000000), (108, 0x100)], 1, .tile, [⟨0, 0, 32, .ro, []⟩],
  [0], false⟩
def F.TFLT_REAL_REAL : Fld := ⟨R.TFLT_REAL, 0, 0, 32⟩
def R.TFLT_INJ : Reg := ⟨319, 0x1010008, [(7, 0x1000000), (108, 0x100)], 1, .tile, [⟨0, 0, 32, .ro, []⟩],
  [0], false⟩
def F.TFLT_INJ_INJ : Fld := ⟨R.TFLT_INJ, 0, 0, 32⟩
def R.TFLT_MASK : Reg := ⟨320, 0x101000C, [(7, 0x1000000), (108, 0x100)], 1, .tile, [⟨0, 0, 32, .rw, []⟩],
  [0], false⟩
def F.TFLT_MASK_MASK : Fld := ⟨R.TFLT_MASK, 0, 0, 32⟩
def R.TFLT_ACTION : Reg := ⟨321, 0x1010010, [(7, 0x1000000), (108, 0x100)], 1, .tile, [⟨0, 0, 32, .rw, []⟩],
  [0], true⟩
def F.TFLT_ACTION_PIN : Fld := ⟨R.TFLT_ACTION, 0, 0, 32⟩
def R.TFLT_FIRST : Reg := ⟨322, 0x1010014, [(7, 0x1000000), (108, 0x100)], 1, .tile, [⟨0, 0, 1, .rw1c, []⟩, ⟨0, 1, 5, .ro, []⟩, ⟨0, 6, 3, .ro, []⟩,
  ⟨0, 9, 7, .ro, []⟩, ⟨0, 16, 1, .ro, []⟩, ⟨0, 17, 1, .ro, []⟩],
  [0], false⟩
def F.TFLT_FIRST_VALID : Fld := ⟨R.TFLT_FIRST, 0, 0, 1⟩
def F.TFLT_FIRST_BIT : Fld := ⟨R.TFLT_FIRST, 0, 1, 5⟩
def F.TFLT_FIRST_SEV : Fld := ⟨R.TFLT_FIRST, 0, 6, 3⟩
def F.TFLT_FIRST_UNIT : Fld := ⟨R.TFLT_FIRST, 0, 9, 7⟩
def F.TFLT_FIRST_REAL : Fld := ⟨R.TFLT_FIRST, 0, 16, 1⟩
def F.TFLT_FIRST_INJ : Fld := ⟨R.TFLT_FIRST, 0, 17, 1⟩
def R.TFLT_FIRST_TICK : Reg := ⟨323, 0x1010018, [(7, 0x1000000), (108, 0x100)], 1, .tile, [⟨0, 0, 32, .ro, []⟩],
  [0], false⟩
def F.TFLT_FIRST_TICK_TICK : Fld := ⟨R.TFLT_FIRST_TICK, 0, 0, 32⟩
def R.TFLT_INJECT : Reg := ⟨324, 0x101001C, [(7, 0x1000000), (108, 0x100)], 1, .tile, [⟨0, 0, 5, .wo, []⟩, ⟨0, 5, 7, .wo, []⟩, ⟨0, 12, 1, .wo, []⟩,
  ⟨0, 31, 1, .wo, []⟩],
  [0], false⟩
def F.TFLT_INJECT_BIT : Fld := ⟨R.TFLT_INJECT, 0, 0, 5⟩
def F.TFLT_INJECT_UNIT : Fld := ⟨R.TFLT_INJECT, 0, 5, 7⟩
def F.TFLT_INJECT_MODE : Fld := ⟨R.TFLT_INJECT, 0, 12, 1⟩
def F.TFLT_INJECT_GO : Fld := ⟨R.TFLT_INJECT, 0, 31, 1⟩
def R.TFLT_COUNT : Reg := ⟨325, 0x1010020, [(7, 0x1000000), (108, 0x100)], 1, .tile, [⟨0, 0, 16, .ro, []⟩, ⟨0, 16, 1, .rw1c, []⟩],
  [0], false⟩
def F.TFLT_COUNT_RECORDED : Fld := ⟨R.TFLT_COUNT, 0, 0, 16⟩
def F.TFLT_COUNT_INJ_REFUSED : Fld := ⟨R.TFLT_COUNT, 0, 16, 1⟩
def R.TFLT_DEFINED : Reg := ⟨326, 0x1010024, [(7, 0x1000000), (108, 0x100)], 1, .tile, [⟨0, 0, 32, .ro, []⟩],
  [0], true⟩
def F.TFLT_DEFINED_DEFINED : Fld := ⟨R.TFLT_DEFINED, 0, 0, 32⟩
def R.TFLT_VECTOR : Reg := ⟨327, 0x1010028, [(7, 0x1000000), (108, 0x100)], 1, .tile, [⟨0, 0, 11, .ro, []⟩],
  [0], true⟩
def F.TFLT_VECTOR_VECTOR : Fld := ⟨R.TFLT_VECTOR, 0, 0, 11⟩

def regTable0 : List Reg := [R.SPN_ID, R.SPN_REFUSE, R.TIL_REFUSE, R.TIL_STATUS, R.SPN_MODE,
  R.SPN_MODE_TIME, R.TIM_NOW_LO, R.TIM_NOW_HI, R.TIM_REF_CTRL, R.TIM_REF_STATUS,
  R.TIM_REF_LOSS_TICK, R.TIM_XTAL_AGE, R.TIM_XTAL_STEER, R.TIM_PLL_STATUS, R.TIL_MEMWIN_SEL,
  R.TIL_BAR_MEM, R.CLU_STATUS, R.CLU_REGION, R.CLU_THR_STATE, R.CLU_THR_SHOT,
  R.CLU_THR_SHOT_TICK, R.CLU_THR_BUDGET, R.CLU_THR_LATE, R.CLU_THR_GINIT, R.CLU_THR_G,
  R.CLU_THR_FRINIT, R.CLU_THR_FR, R.CLU_THR_LC, R.SPN_MCODE_VER, R.SPN_MCODE_ID,
  R.SPN_MCODE_STAGE, R.CLU_UCODE_STATUS, R.CLU_MCHK, R.CLU_MCHK_TICK, R.CLU_NANO_CORR,
  R.CLU_UCODE_USER_ID, R.DRV_CTRL, R.DRV_STATUS, R.DRV_ENABLE_STATUS, R.DRV_REFUSE]
def regTable1 : List Reg := [R.DRV_GAIN, R.DRV_OFFSET, R.DRV_DELAY, R.DRV_CLIP_COUNT, R.DRV_SPARE,
  R.DRV_CAL_GAIN, R.DRV_CAL_OFFSET, R.DRV_CAL_DELAY, R.DRV_CAL_TICK, R.DRV_FREQ,
  R.TIL_MARK, R.TIL_ENV_STATUS, R.TIL_SEG_REFUSE, R.TIL_SEG, R.TIL_STRM_STATUS,
  R.TIL_STRM_NEXT, R.TIL_STRM_JUMP, R.TIL_STRM_MISS, R.TIL_STRM_MISS_TICK, R.TIL_STRM_PASS,
  R.QMG_STRM_BASE_LO, R.QMG_STRM_BASE_HI, R.QMG_STRM_CFG, R.QMG_STRM_WP, R.QMG_STRM_FP,
  R.QMG_STRM_CP, R.QMG_STRM_STATUS, R.TIL_GEN_CTRL, R.TIL_GEN_START, R.TIL_GEN_STEP,
  R.TIL_GEN_LIMIT, R.TIL_GEN_VALUE, R.TIL_GEN_ADV, R.FLX_CTRL, R.FLX_STATUS,
  R.FLX_ENABLE_STATUS, R.FLX_REFUSE, R.FLX_GAIN, R.FLX_LEVEL, R.FLX_DELAY]
def regTable2 : List Reg := [R.FLX_CLIP_COUNT, R.FLX_CAL_GAIN, R.FLX_CAL_OFFSET, R.FLX_CAL_DELAY, R.FLX_CAL_TICK,
  R.FLX_FREQ, R.BIA_CTRL, R.BIA_SPAN, R.BIA_CODE, R.BIA_STATUS,
  R.BIA_ENABLE_STATUS, R.BIA_REFUSE, R.BIA_DELAY, R.BIA_LATCH_TICK, R.BIA_CAL_GAIN,
  R.BIA_CAL_OFFSET, R.BIA_CAL_TICK, R.SNS_CTRL, R.SNS_STATUS, R.SNS_SCAN,
  R.SNS_SCAN_TICK, R.SNS_ADC, R.SNS_INJ_CTRL, R.SNS_INJ_TIME, R.SNS_INJ_STATUS,
  R.SNS_INJ_RESULT, R.SNS_PAIR_CFG, R.SNS_LIMIT_LO, R.SNS_LIMIT_HI, R.SNS_STEP,
  R.SNS_LOAD, R.SNS_ILIM, R.SNS_LEAD, R.SNS_PAIR_STATUS, R.SNS_RESULT,
  R.RDO_STATUS, R.RDO_IN_CTRL, R.RDO_IN_DELAY, R.RDO_SLICE, R.RDO_XT_CTRL]
def regTable3 : List Reg := [R.RDO_REFUSE, R.RDO_COUNT, R.RDO_WSEL, R.RDO_CAL_TICK, R.RDO_TONE_FTW_LO,
  R.RDO_TONE_FTW_HI, R.RDO_TONE_CFG, R.RDO_TONE_WLEN, R.RDO_TONE_DPHASE, R.RDO_TONE_C0_I,
  R.RDO_TONE_C0_Q, R.RDO_TONE_C1_I, R.RDO_TONE_C1_Q, R.RDO_TONE_C2_I, R.RDO_TONE_C2_Q,
  R.RDO_TONE_MARGIN, R.RDO_TONE_LAST, R.RDO_XT_SHADOW, R.RDO_XT_FORCE, R.SPN_DEC_STATUS,
  R.SPN_DEC_COUNT, R.SPN_DEC_SW, R.SPN_SYN_PARITY_ENTRY, R.SPN_SYN_REFUSE, R.SPN_SYN_DEC_CFG,
  R.SPN_SYN_DEC_BASE, R.SPN_SYN_DEC_DEADLINE, R.SPN_SYN_DEC_STATE, R.SPN_SYN_DEC_FIRES, R.SPN_SYN_DEC_FIRE_TICK,
  R.SPN_SYN_DEC_EXT, R.SPN_SYN_GRP_CFG, R.SPN_SYN_GRP_STATE, R.SPN_SYN_GRP_ORIGIN, R.SPN_DEC_PORT,
  R.SPN_DEC_PORT_QUEUE, R.CAP_CTRL, R.CAP_STATUS, R.CAP_TAP, R.CAP_LEN]
def regTable4 : List Reg := [R.CAP_PRE, R.CAP_ARM_TIME, R.CAP_MISSED, R.CAP_PAGE, R.CAP_DEST_LO,
  R.CAP_DEST_HI, R.CAP_REFUSE, R.CAP_EDGE, R.CAP_EDGE_LEVEL, R.CAP_WIDTH,
  R.CAP_WMIN, R.CAP_WMAX, R.CAP_RUNT, R.CAP_RUNT_THR, R.CAP_TMO,
  R.CAP_TMO_T, R.CAP_SLEW, R.CAP_HDR, R.TDC_IN_CFG, R.TDC_IN_STATUS,
  R.TDC_IN_DEAD, R.TDC_IN_LAST_LO, R.TDC_IN_LAST_HI, R.TDC_IN_LAST_FINE, R.TDC_FIFO_STATUS,
  R.TDC_FIFO_REC, R.TDC_IV_CFG, R.TDC_IV_STATUS, R.TDC_IV_COUNT, R.TDC_IV_RES_LO,
  R.TDC_IV_RES_HI, R.TDC_IV_STOP_TICK, R.TDC_FREQ_CFG, R.TDC_FREQ_GATE, R.TDC_FREQ_STATUS,
  R.TDC_FREQ_EDGES, R.TDC_FREQ_SPAN_LO, R.TDC_FREQ_SPAN_HI, R.TDC_FREQ_MHZ_LO, R.TDC_FREQ_MHZ_HI]
def regTable5 : List Reg := [R.BVN_LOCAL_ID, R.BVN_FOM, R.BVN_PORT_CTRL, R.BVN_PORT_STATUS, R.BVN_PARTNER_ID,
  R.BVN_PORT_COUNT, R.BVN_PORT_COUNT2, R.BVN_PORT_TICK, R.BVN_LANE_STATUS, R.BVN_LANE_ERR,
  R.BVN_LANE_EQ, R.BVN_LANE_PRBS, R.BVN_LANE_PRBS_ERR, R.BVN_LANE_SKIP, R.TIM_TS_CFG,
  R.TIM_TS_DOMAIN, R.TIM_TS_MASTER, R.TIM_TS_STATUS, R.TIM_TS_OFFSET, R.TIM_TS_DELAY,
  R.TIM_TS_RATE, R.TIM_TS_WINDOW, R.TIM_TS_HOLD, R.TIM_TS_STEP_TICK, R.TIM_TS_COUNT,
  R.TIM_TS_ASYM, R.TIM_SYNC_CFG, R.TIM_SYNC_DELAY, R.TIM_SYNC_RESID, R.TIM_EVT_CTRL,
  R.TIM_EVT_TARGET, R.TIM_EVT_PERIOD, R.SPN_HIF_STATUS, R.SPN_HIF_OUTAGE_TICK, R.SPN_HIF_OUTAGE_LEN,
  R.QMG_STATUS, R.QMG_STAGE_POOL, R.QMG_PART_CFG, R.QMG_PART_QUOTA, R.QMG_PART_USE]
def regTable6 : List Reg := [R.QMG_PART_JOBS, R.QMG_PART_TICK, R.QMG_JOB_TAG, R.QMG_JOB_STATE, R.QMG_JOB_SHOTS,
  R.QMG_JOB_NEXT, R.QMG_QP, R.QMG_QP_CFG, R.QDB_SQ_TAIL, R.QDB_CQ_HEAD,
  R.MBX_DB, R.MBX_STATUS, R.MBX_GLOBAL, R.SPN_TXN, R.MEM_CFG,
  R.MEM_STATUS, R.MEM_HOST_SIZE, R.MEM_BW, R.MEM_PATROL, R.MEM_RETIRE_THR,
  R.MEM_CE_TOTAL, R.MEM_UE_TOTAL, R.MEM_LAST_ERR, R.MEM_LAST_ERR_LO, R.MEM_LAST_ERR_HI,
  R.MEM_DEV_ERR, R.SPN_CAL_CFG, R.SPN_CAL_CFG2, R.SPN_CAL_STATUS, R.SPN_CAL_REF,
  R.SPN_CAL_FALLBACK, R.SPN_CAL_FALLBACK_SRC, R.TIL_CAL_STATUS, R.THM_CFG, R.THM_RATE,
  R.THM_STATUS, R.THM_REFUSE, R.THM_SD_TICK, R.THM_SENS, R.FLT_STATUS]
def regTable7 : List Reg := [R.FLT_REAL, R.FLT_INJ, R.FLT_MASK, R.FLT_ACTION, R.FLT_FIRST,
  R.FLT_FIRST_TICK, R.FLT_INJECT, R.FLT_COUNT, R.FLT_DEFINED, R.FLT_VECTOR,
  R.SPN_FLT_CTRL, R.SPN_REPLACE, R.SPN_ERR_PIN, R.SPN_TILE_FENCE, R.SPN_BOOT_STATUS,
  R.SPN_FW_VER, R.SPN_FW_SVN, R.SPN_RAIL_STATUS, R.PRB_CTRL, R.PRB_STATUS,
  R.PRB_ENABLE_STATUS, R.PRB_REFUSE, R.PRB_GAIN, R.PRB_OFFSET, R.PRB_DELAY,
  R.PRB_CLIP_COUNT, R.PRB_CAL_GAIN, R.PRB_CAL_OFFSET, R.PRB_CAL_DELAY, R.PRB_CAL_TICK,
  R.SGEN_CTRL, R.SGEN_START, R.SGEN_STEP, R.SGEN_LIMIT, R.SGEN_VALUE,
  R.SGEN_ADV, R.THM_SENS_T, R.TFLT_STATUS, R.TFLT_REAL, R.TFLT_INJ]
def regTable8 : List Reg := [R.TFLT_MASK, R.TFLT_ACTION, R.TFLT_FIRST, R.TFLT_FIRST_TICK, R.TFLT_INJECT,
  R.TFLT_COUNT, R.TFLT_DEFINED, R.TFLT_VECTOR]
/-- Every register of the part. -/
def regTable : List Reg :=
  regTable0 ++ regTable1 ++ regTable2 ++ regTable3 ++ regTable4 ++ regTable5 ++ regTable6 ++ regTable7 ++ regTable8

end Sys2Proof.Machine
end

