-- ==== Sys2Proof/Machine/SMap.lean ====
section
/-! DEFINITION. Sparse maps with a default value, in one canonical form: keys strictly rising, no entry holding the
default. `get` reads the first entry of a key; `put` keeps the form, so equal maps are equal lists. -/

namespace Sys2Proof.Machine

/-- The value at key `i`, `d` where none is listed. -/
def SMap.get {α : Type} (d : α) : SMap α → Nat → α
  | [], _ => d
  | (k, v) :: t, i => if k = i then v else SMap.get d t i

/-- `m` with `v` listed at `i`, before the first larger key. -/
def SMap.insert {α : Type} : SMap α → Nat → α → SMap α
  | [], i, v => [(i, v)]
  | (k, w) :: t, i, v =>
    if k = i then (i, v) :: t
    else if i < k then (i, v) :: (k, w) :: t
    else (k, w) :: SMap.insert t i v

/-- `m` without an entry at `i`. -/
def SMap.remove {α : Type} : SMap α → Nat → SMap α
  | [], _ => []
  | (k, w) :: t, i => if k = i then SMap.remove t i else (k, w) :: SMap.remove t i

/-- Writes `v` at key `i`; the default removes the entry. -/
def SMap.put {α : Type} [DecidableEq α] (d : α) (m : SMap α) (i : Nat) (v : α) : SMap α :=
  if v = d then SMap.remove m i else SMap.insert m i v

/-- The canonical form: keys strictly rising and no default listed. -/
abbrev SMap.wf {α : Type} (d : α) (m : SMap α) : Prop :=
  m.Pairwise (fun a b => a.1 < b.1) ∧ ∀ e ∈ m, e.2 ≠ d

/-- Writes a list of values at rising keys from `i`. -/
def SMap.putList {α : Type} [DecidableEq α] (d : α) (m : SMap α) (i : Nat) : List α → SMap α
  | [] => m
  | v :: vs => SMap.putList d (SMap.put d m i v) (i + 1) vs

/-- Reads `n` values from key `i` on. -/
def SMap.getList {α : Type} (d : α) (m : SMap α) (i : Nat) : Nat → List α
  | 0 => []
  | n + 1 => SMap.get d m i :: SMap.getList d m (i + 1) n

/-- Applies `f` to the value at key `i`. -/
def SMap.upd {α : Type} [DecidableEq α] (d : α) (m : SMap α) (i : Nat) (f : α → α) : SMap α :=
  SMap.put d m i (f (SMap.get d m i))

end Sys2Proof.Machine
end

