-- ==== Sys2Proof/Machine/State.lean ====
section
/-! DEFINITION. The state of the part: plain data, holding every piece of state the manual names.

`regs` is the one home of the RO, RW and status registers of BAR0, BAR2 and BAR4 (Machine/RegMap.lean gives each its
address and its reset value; an entry holds the word XOR its reset value, so a register at reset is not listed).
Everything a register does not hold stands in the records below, one per unit, in sparse maps keyed by the unit's
number as R16 numbers it; a unit at reset is not listed. Ticks and samples are Nat (R38: TICK is kept below 2^57). -/

namespace Sys2Proof.Machine

/-- The ordering codes of R1 (00). -/
inductive Variant where
  | sqc7064 | sqc7128 | sqc7256 | sqc7448
  deriving DecidableEq, Repr

/-! ## Symbols on a lane (13 R292) -/

/-- The control symbols the part uses. -/
inductive Ctl where
  | com | skp | idl | dec | tim | syn | pkt | end_ | ack | nak
  deriving DecidableEq, Repr

/-- A symbol: a control symbol or a data byte. -/
inductive Sym where
  | ctl (c : Ctl)
  | data (b : Byte)
  deriving DecidableEq, Repr

/-- A symbol to be sent; `numbered`: of a DEC or PKT message. -/
structure TxSym where
  sym      : Sym
  numbered : Bool
  deriving DecidableEq, Repr

/-! ## What leaves the part -/

/-- Something the part has put on a wire, into host memory or on a pin. The log of these is the model's own (log 3):
host memory, the other packages and the board are not part of the state. -/
inductive Emit where
  /-- MSI-X message of a vector (15 R340). -/
  | msix (vector : Nat) (addr : Nat) (data : Word)
  /-- Bytes written into host memory (15 R338, 16 R365). -/
  | hostWrite (addr : Nat) (bytes : List Byte) (poison : List Nat)
  /-- A completion entry, eight words, written at an index of a pair's CQ (16 R367). -/
  | completion (qp index : Nat) (words : List Word)
  /-- A CXL.mem or configuration read's data, with its poison (15 R336, R337). -/
  | readData (bytes : List Byte) (poison : Bool)
  /-- A request answered by configuration retry status, a master abort or Unsupported Request (15 R336, R343). -/
  | retry
  | masterAbort
  | writeDone
  /-- A snoop answered with a miss (15 R338). -/
  | snoopMiss (addr : Nat)
  /-- Viral signalled upstream (15 R342). -/
  | viral
  /-- A register read's value (02 R42, 12 R287). -/
  | regData (values : List Word)
  /-- Ordered sets and messages handed to a Borvon port's transmitter (13 R294, R296). -/
  | skip (port : Nat)
  | rst (port : Nat) (mask : BitVec 4) (dcount pcount : Word)
  | rpl (port : Nat) (dcount pcount : Word)
  | decMsg (port : Nat) (msg : DecMsg)
  | ack (port : Nat) (dcount pcount : Word)
  | nak (port : Nat) (dcount pcount : Word)
  | parity (port dec : Nat) (round : BitVec 16) (origin : Word) (nibbles : List (Nat × Nat))
  | announce (port seq lane stamp : Nat) (a : Announce)
  | delayReq (port seq lane t1 : Nat) (domain : Word)
  | delayResp (port seq lane t2 t3 : Nat)
  | syn (port id : Nat) (event : Word) (lane stamp : Nat)
  /-- A management packet of the firmware handed to the port (13 R300). -/
  | mgmtSent (port : Nat) (bytes : List Byte)
  /-- A training lane sends TS1, or TS2, from here on: LANE, PORT, WIDTH offered, GOOD and package ID (13 R294, R303). -/
  | ts (port lane partnerPort width : Nat) (good : BitVec 4) (id : Word) (second : Bool)
  /-- A bit inverted by INJ on a lane (13 R309). -/
  | inverted (port lane : Nat)
  /-- The symbols of a tick in which a port has something to send: cycle by cycle, one symbol for each of the lanes in use,
  with whether a bit of it is inverted (13 R295). -/
  | wire (port : Nat) (lanes : List Nat) (cycles : List (List (Sym × Bool)))
  /-- Firmware reports that it has discarded the image staged in a cluster's other bank (04 R120); the manual gives the
  report no form. -/
  | patchDiscarded (cluster : Nat)
  /-- A management packet handed to firmware (13 R300). -/
  | mgmt (port : Nat) (bytes : List Byte)
  /-- SYNCOUT driven high for 8 ticks from a tick on, in grid time at the ball (14 R322). -/
  | syncOut (tick : Nat)
  deriving DecidableEq, Repr

/-! ## Stores -/

/-- A poisoned or reloaded word of a store (04 R118, R120), with the machine check that found it. -/
structure BadWord where
  cluster : Nat
  store   : StoreKind
  bank    : Bool
  addr    : Nat
  tick    : Nat
  /-- thread whose fetch found it, CAUSE, and the CLU_MCHK count that its entry shows -/
  thr     : Nat
  cause   : Nat
  deriving DecidableEq, Repr

/-- A bank being replaced after a hard failure (04 R120): the failed bank of a cluster's store; the other bank is filled
and the threads switch to it. -/
structure BankRepl where
  cluster : Nat
  store   : StoreKind
  bank    : Bool
  tick    : Nat
  filled  : Bool
  deriving DecidableEq, Repr

/-- Microcode staged in the shadow banks (04 R121-R124). `clusters` are global cluster indices 9 * tile + cluster;
`targets` pairs each with the bank that holds the image; applied from a tick on (0: at once). -/
structure UStage where
  clusters : List Nat
  vendor   : Bool
  user     : Bool
  vendorId : Word
  vendorVer : Word
  vendorSvn : Nat
  userId   : Word
  userClusters : List Nat
  targets  : List (Nat × Bool)
  applying : Bool
  applyAt  : Nat
  mbx      : Option Nat
  deriving DecidableEq, Repr

/-- The memories of the tiles and of the syndrome unit. A store holds what was last written to it, which is also its golden
copy (04 R118); the words that have gone bad since are listed in `poison`. Keys: program SRAM 65,536 * cluster + address (03 R62), micro-store
16,384 * (2 * cluster + bank) + address (04 R100), nano-store 4,096 * (2 * cluster + bank) + index (04 R112), with the
global cluster index 9 * tile + cluster; envelope 2^20 * tile + sample (05 R129); weights 4,096 * (2 * (16 * line +
tone) + set) + d with the global line (09 R242); decode table entry (10 R260); capture memory 2^21 * tile + byte (11). -/
structure Stores where
  sram        : SMap GateWord
  micro       : SMap Word
  nano        : SMap NanoWord
  env         : SMap Word
  weights     : SMap Word
  table       : SMap Word
  tableMirror : SMap Word
  capMem      : SMap Byte
  poison      : List BadWord
  reloaded    : List BadWord
  bankRepl    : List BankRepl
  /-- decode table entries in repair, (entry, detection tick); verified reloads; entries served from the mirror -/
  tableRepair : List (Nat × Nat)
  tableReload : List (Nat × Nat)
  tableMir    : List Nat
  ustage      : Option UStage
  /-- nano-store swaps accepted: (cluster, target bank, commit tick of its transaction or 0, mailbox) -/
  nanoSwap    : List (Nat × Bool × Nat × Option Nat)
  /-- running vendor image: security-version minimum in Sinter (04 R122) -/
  ucodeSvnMin : Nat
  /-- the image staged last has been applied, and nothing has been staged since (04 R124) -/
  ucodeApplied : Bool
  deriving DecidableEq, Repr

/-! ## Time -/

/-- The grid counter and the reference state machine (02). -/
structure Clock where
  /-- ticks since power-on; never stepped, so every interval is measured in it -/
  tick      : Nat
  /-- TICK of grid time minus that count (R38, R53, 14 R319) -/
  off       : Int
  /-- grid time is defined (false from a PLL unlock to the relock, R53) -/
  gridValid : Bool
  /-- reference machine: the state it entered QUALIFY from, the tick it entered its state, the tick qualification
  failed, the tick since which PHASE_ERR is within 20 ps (R44) -/
  refFrom   : Nat
  refSince  : Nat
  refFail   : Option Nat
  refInBand : Option Nat
  /-- PHASE_ERR at the entry to PULL -/
  refPhase  : Int
  /-- crystal age in force (R47) -/
  age       : BitVec 16
  /-- the strobe of R50 is due at the next boundary -/
  strobe    : Bool
  deriving DecidableEq, Repr

/-- What a staged entry does at its boundary (02 R57, R59; 17 R390). -/
inductive StagedAct where
  /-- a register word write, bits under the mask -/
  | word (addr : Nat) (value mask : Word)
  /-- a coupled pair: address of the first member, both values -/
  | couple (addr : Nat) (lo hi : Word)
  | genRestart (tile gen : Nat)
  | spanChange (kind : OutKind) (tile chan span : Nat) (codeAfter : BitVec 20)
  | snsInj (tile list : Nat)
  | shortClamp (tile chan : Nat)
  | agcStep (tile line : Nat)
  | xtSwap (tile line : Nat)
  | decSw (value : Word)
  | synBase (dec : Nat) (value : Word)
  | capArm (tile : Nat)
  | capStop (tile : Nat)
  | capForce (tile : Nat)
  | freqGo
  | fltInject (blk : FltBlk) (value : Word)
  | jobAbort (job : Nat)
  | thmCfg (value : Word)
  deriving DecidableEq, Repr

/-- A staged entry: what it does, the tick it entered staging, and whether it waits for a shot boundary of its unit
(RWH; 00 R13). -/
structure Staged where
  act   : StagedAct
  entry : Nat
  rwh   : Bool
  deriving DecidableEq, Repr

/-- A direct stage of a coupled pair whose partner has not come (17 R393): the pair's first member, which member was
written, its value, and the tick it entered staging. -/
structure Couple where
  addr   : Nat
  second : Bool
  value  : Word
  entry  : Nat
  deriving DecidableEq, Repr

/-! ## Threads -/

/-- What a thread waits for (03 R82-R96, 04 R111). `custom` marks a wait microword of a CUSTOM instruction. -/
inductive WaitRec where
  | none
  | until (tick : Nat) (custom : Bool)
  | barrier (bar : Nat) (at_ : Bool) (val arrive : Nat) (custom : Bool)
  /-- `got`: the tick in which every named slot had become valid in the tile's replica, and the key then -/
  | brd (slot num : Nat) (take tgt : BitVec 16) (dl lact issue : Nat) (custom : Bool) (got : Option (Nat × Nat))
  | trig (src tmo tact : Nat) (tgt : BitVec 16) (issue : Nat) (edge : Option Nat) (custom : Bool)
  | stream (strm tmo issue : Nat)
  deriving DecidableEq, Repr

/-- One hardware thread (03 R60-R75; the CLU_THR_* registers show it). -/
structure Thread where
  g       : Vector Word 16
  fr      : Vector Word 8
  lc      : Vector Word 4
  /-- 65,536 past the last address -/
  pc      : Nat
  stack   : List Nat
  /-- current slots, 8 * lane + channel -/
  slots   : Vector (BitVec 4) 16
  marks   : Vector (BitVec 4) 8
  /-- CLU_THR_STATE.STATE: 0 no shot, 1 issuing, 2 WAIT, 3 SYNC, 4 BRD, 5 TRIG, 6 CUSTOM wait, 7 machine check,
  8 fenced -/
  st      : Nat
  wait    : WaitRec
  /-- issue tick of the next instruction, slots used in that tick, largest use -/
  issue   : Nat
  used    : Nat
  peak    : Nat
  /-- shot start tick, job slot that runs it, its region (first and last address), entry status -/
  start   : Nat
  job     : Option Nat
  base    : Nat
  last    : Nat
  /-- the last ended shot: its start tick, its status, its flags in the order of CLU_THR_SHOT[12:8], its end tick -/
  lastShot : Option Nat
  status  : BitVec 8
  flags   : BitVec 5
  /-- flags raised so far in the running shot -/
  cur     : BitVec 5
  endTick : BitVec 32
  /-- the shot in progress has ended with its own status at this tick (peers stop after it) -/
  ended   : Option Nat
  /-- a peer has ended the shot: the last tick in which this thread may still issue (R73) -/
  peerEnd : Option Nat
  slips   : Nat
  decLate : Nat
  waitLate : Nat
  /-- a pulse of the running shot tapped a missing sample under TIMING (06 R176) -/
  urun    : Bool
  deriving DecidableEq, Repr

/-- A barrier (03 R83-R85): its job, members (global thread indices), and the failure of its round. -/
structure Barrier where
  job     : Option Nat
  members : List Nat
  failed  : Option Nat
  deriving DecidableEq, Repr

/-! ## Outputs -/

/-- A pulse placed and not yet over (03 R78, R79; 05 R131-R135; 07 R181-R183; 09 R219): its output, first sample and
length, and what it latched at its start. -/
structure Pulse where
  kind    : OutKind
  tile    : Nat
  chan    : Nat
  lane    : Nat
  /-- frequency slot on the lane; it is the thread's current slot -/
  slot    : Nat
  slotCur : Bool
  start   : Nat
  envLen  : Nat
  envBase : Nat
  stream  : Bool
  ampI    : BitVec 16
  ampQ    : BitVec 16
  ftw     : BitVec 48
  /-- frame register it uses, none without FR_EN; the frame value latched -/
  frameIx : Option Nat
  frame   : Word
  phase   : BitVec 16
  mark    : BitVec 4
  interp  : BitVec 2
  urun    : Bool
  thr     : Nat
  /-- start tick of the shot that placed it -/
  shot    : Nat
  /-- tick in which it was committed -/
  commit  : Nat
  /-- sample at which a later pulse cuts it -/
  cut     : Option Nat
  /-- the tick of its first sample has begun -/
  begun   : Bool
  deriving DecidableEq, Repr

/-- An edge of static marker levels (03 R95): levels of the markers of an output in a mask, from a sample on. -/
structure MarkEdge where
  probe   : Bool
  tile    : Nat
  chan    : Nat
  sample  : Nat
  levels  : BitVec 4
  mask    : BitVec 4
  deriving DecidableEq, Repr

/-- Enabling of an output (05 R142, 07 R191): since when the check runs; accepted and waiting for its stage; a value
has come since enable or since leaving SAFE. -/
structure EnRun where
  checking : Option Nat
  powering : Option Nat
  hadValue : Bool
  deriving DecidableEq, Repr

/-- A spare drive DAC at work (05 R148-R152, 19 R414). -/
inductive SpareJob where
  | none
  /-- taking over a fenced channel since tick F -/
  | takeover (chan since : Nat)
  /-- in CAL, the offline calibration running (since) or complete -/
  | calRun (chan since : Nat) (done : Bool)
  /-- giving up channel A for fenced channel B since F (R150) -/
  | evict (chan next since : Nat)
  /-- serving a fenced channel; after UNFENCE, waiting for a quiet window -/
  | serve (chan : Nat) (unfenced : Bool)
  /-- a fault of the spare in CAL: the ball goes back to its own DAC -/
  | faultBack (chan since : Nat)
  deriving DecidableEq, Repr

/-- A drive channel's fence tick, for the order in which fenced channels await the spare (R148). -/
structure DrvFence where
  chan : Nat
  tick : Nat
  deriving DecidableEq, Repr

/-- A bias code placed and not yet latched (07 R187): placed sample, code, from a register or from a thread's pulse. -/
structure BiasCode where
  sample  : Nat
  code    : BitVec 20
  fromReg : Bool
  thr     : Nat
  deriving DecidableEq, Repr

/-- A span change (07 R192): its boundary B, the new span, the code to apply, and whether the output was live. -/
structure SpanRun where
  at_   : Nat
  span  : Nat
  after : BitVec 20
  live  : Bool
  deriving DecidableEq, Repr

/-- A bias output (07 R186-R192): the DAC code latched last, codes placed and not yet latched. -/
structure BiasRun where
  code    : BitVec 20
  waiting : List BiasCode
  /-- sample of the previous latch; the latches that 08 R203 may still look back to, newest first; the code latched, before
  corrections -/
  latched : Option Nat
  recent  : List Nat
  placed  : BitVec 20
  /-- span in force, and the span change in progress -/
  span    : Nat
  change  : Option SpanRun
  /-- entry to SAFE of a live output: the clamp follows 3,125 ticks later (R190) -/
  safeAt  : Option Nat
  /-- clamped by SHORT_ACT until EN is written 0 and then 1 (08 R209) -/
  clamped : Bool
  /-- ticks from which and to which the latest span changes were in progress, newest first (08 R203) -/
  changes : List (Nat × Nat)
  deriving DecidableEq, Repr

/-- A flux output (07 R192): span in force, and the span change in progress. -/
structure FluxRun where
  span   : Nat
  change : Option SpanRun
  deriving DecidableEq, Repr

/-- The outputs. `en` is keyed 1,000 * kind + 100 * tile + local (kind 0 drive, 1 probe, 2 flux, 3 bias), `spares`
8 * tile + group, `fences` per the same key, `bias` and `flux` 64 * tile + local. -/
structure Outs where
  pulses : List Pulse
  marks  : List MarkEdge
  en     : SMap EnRun
  spares : SMap SpareJob
  fences : SMap (List DrvFence)
  /-- the corrections the spare holds for each ball path: 64 * tile + channel -/
  paths  : SMap CalObs
  /-- those measured since, in force from the spare's next takeover (19 R419) -/
  pathsNew : SMap CalObs
  bias   : SMap BiasRun
  flux   : SMap FluxRun
  /-- spine marker balls: the pulses that drive them, each from a tick to a tick (14 R326) -/
  smark  : SMap (List (Nat × Nat))
  deriving DecidableEq, Repr

/-! ## Streams and generators -/

/-- The position of a stream at the start of a shot (06 R176): its job, whether the stream was OPEN, its position fields,
and the successors fixed since, each as 256 * kind + segment. -/
structure Checkpoint where
  job       : Nat
  opened    : Bool
  n0        : Nat
  passStart : Nat
  ringAt    : Nat
  cur       : Nat
  pass      : Nat
  /-- stream sample at the shot's start tick, and that tick -/
  pos       : Nat
  tick      : Nat
  fixedK    : Option Nat
  log       : List Nat
  deriving DecidableEq, Repr

/-- A pass of a stream that has begun: its first stream sample, its segment, the ring count of its first sample, and the
sample received last before it (05 R132). -/
structure PassRec where
  start : Nat
  seg   : Nat
  ring  : Nat
  hold  : Option Word
  deriving DecidableEq, Repr

/-- A stream (06 R162-R176). `n0` is the first tap's sample; `passStart` the stream sample at which the current pass
began; `ringAt` the ring count at which it began; `fetched` the full fetch count; `arrived` the ring count up to which
samples are in the buffer; `buf` the buffered samples by ring count. -/
structure StreamRun where
  n0        : Nat
  passStart : Nat
  ringAt    : Nat
  fetched   : Nat
  arrived   : Nat
  buf       : SMap Word
  /-- what was fixed for the pass: 256 * kind + segment; kind 0 the segment again, 1 a move, 2 the end -/
  fixedK    : Option Nat
  /-- boundary at which the pending jump request came into force -/
  pendAt    : Nat
  /-- the successor check failed: BROKEN at the pass's end -/
  failed    : Bool
  /-- stream sample up to which missing samples have been counted -/
  missedTo  : Nat
  /-- ranges of ring counts that are not in the buffer: lost to an uncorrectable line (18 R402), or late (R174) -/
  gone      : List (Nat × Nat)
  /-- the pass before the current one, and the sample received last before the current one -/
  prev      : Option PassRec
  hold      : Option Word
  /-- fetches within the last W × 0.8 ns: tick and samples (R170) -/
  rate      : List (Nat × Nat)
  checks    : List Checkpoint
  /-- rewound and waiting for the re-run; successors to be replayed -/
  rewound   : Bool
  replay    : List Nat
  deriving DecidableEq, Repr

/-- A generator (06 R177-R180): advances since the restart, and the lfsr state. -/
structure GenRun where
  i : Nat
  s : Word
  deriving DecidableEq, Repr

/-- Streams are keyed 64 * tile + stream, generators 32 * tile + g, the spine's 224 + g. -/
structure Strms where
  streams : SMap StreamRun
  gens    : SMap GenRun
  deriving DecidableEq, Repr

/-! ## Sense front end -/

/-- What a sense ADC converts in its slot (08 R197, R212). -/
inductive SlotUse where
  | idle
  | pair (p : Nat) (test : Bool) (discard : Bool)
  | monitor (k : Nat)
  | injected (p : Nat)
  | cal
  deriving DecidableEq, Repr

/-- A list's scan (08 R197-R212). Times are in units of 1/32 tick (t_c = TCONV * 3,125 of them): the scan's start, slots
begun in it, scan slots (0-19) begun, displacements; an injected request is pending; the request of SNS_INJ_TIME has
been raised. -/
structure SenseList where
  scanStart : Nat
  begun     : Nat
  nextSlot  : Nat
  shifts    : Nat
  using_    : SlotUse
  /-- the ADC that makes the conversion -/
  adc       : Nat
  inj       : Bool
  timeDone  : Bool
  deriving DecidableEq, Repr

/-- A sense pair (08 R202-R208). -/
structure SensePair where
  lastValid : Int
  hasValid  : Bool
  upRun     : Nat
  downRun   : Nat
  newRange  : Option Nat
  /-- a scheduled test displaced by a range change (R205) -/
  testDue   : Bool
  openRun   : Nat
  shortRun  : Nat
  openPass  : Nat
  shortPass : Nat
  deriving DecidableEq, Repr

/-- A tile's scanning (08 R198, R213): a stop requested; scans of the rotation cycle done; ADCs that take another list at a
slot boundary (ADC, list, ROLE) and when, in 1/32 tick (R214). -/
structure SenseTile where
  running : Bool
  stopReq : Bool
  cycle   : Nat
  hand    : List (Nat × Nat × Nat)
  handAt  : Nat
  deriving DecidableEq, Repr

/-- Lists are keyed 4 * tile + list, pairs 64 * tile + pair, tiles by tile. -/
structure Sense where
  lists : SMap SenseList
  pairs : SMap SensePair
  tiles : SMap SenseTile
  deriving DecidableEq, Repr

/-! ## Readout -/

/-- What a window latches at W0 (09 R231). -/
structure WinLatch where
  ftw     : BitVec 48
  dphase  : BitVec 16
  shift   : Nat
  resMode : Nat
  calOk   : Bool
  deriving DecidableEq, Repr

/-- An integration window opened by a MEAS whose results are not yet recorded (09 R230-R241). W0 and E are ADC samples. -/
structure Window where
  tile   : Nat
  line   : Nat
  tone   : Nat
  set    : Nat
  thr    : Nat
  job    : Option Nat
  /-- start tick and number of the shot that opened it -/
  shot   : Nat
  shotNo : Nat
  issue  : Nat
  w0     : Nat
  e      : Nat
  wlen   : Nat
  /-- MEAS instructions of the line issued before it: windows of one MEAS share it -/
  group  : Nat
  xt     : Bool
  nodec  : Bool
  nores  : Bool
  widx   : Nat
  latch  : Option WinLatch
  rangeSettle : Bool
  overrange   : Bool
  sat    : Bool
  gapped : Bool
  dead   : Bool
  raw    : Option (Int × Int)
  /-- corrected point, class and margin flag once classified; the results are recorded when no slice failure can gap the
  window any more -/
  out    : Option (Int × Int × Nat × Bool)
  /-- weights overwritten after E and before processing -/
  oldW   : List (Nat × Word)
  deriving DecidableEq, Repr

/-- A readout line (09 R225, R226, R228, R512): MEAS count, since when the spare holds its position, a failed slice
in repair (position, detection tick, slice p resumes instead of the spare), the gain changes that windows may still see,
each with its boundary and the settings before and after it. -/
structure LineRun where
  measCount : Nat
  rotSince  : Nat
  repair    : Option (Nat × Nat × Bool)
  gainAt    : List (Nat × Nat × Nat)
  deriving DecidableEq, Repr

/-- An average accumulator (09 R240) of a job: global line, WIDX, tone. `copy` is the start tick of the
shot whose copy it is, none for the job's total. -/
structure AvgAcc where
  job  : Nat
  line : Nat
  widx : Nat
  tone : Nat
  copy : Option Nat
  sumI : Int
  sumQ : Int
  n    : Nat
  n1   : Nat
  n2   : Nat
  hdr  : Word
  deriving DecidableEq, Repr

/-- Lines are keyed 8 * tile + line. `widx` counts MEAS of a job's running shot per line: 1,024 * line + job. -/
structure Rdo where
  windows : List Window
  lines   : SMap LineRun
  avg     : List AvgAcc
  widx    : SMap Nat
  deriving DecidableEq, Repr

/-! ## Decisions -/

/-- One entry of a replica (10 R244). -/
structure Slot where
  cls    : BitVec 2
  valid  : Bool
  late   : Bool
  margin : Bool
  src    : Nat
  aged   : Bool
  tick   : Word
  origin : Word
  vtick  : Word
  deriving DecidableEq, Repr

/-- A write or an invalidation of a slot (10 R247, R248). -/
structure Update where
  slot   : Nat
  inval  : Bool
  cls    : BitVec 2
  late   : Bool
  margin : Bool
  src    : Nat
  tick   : Word
  origin : Word
  vtick  : Word
  deriving DecidableEq, Repr

/-- What a message of the decision fabric or of a spine link carries: an update, or a register write to a tile, which
does not overtake the updates sent before it (01 R21). -/
inductive FabBody where
  | upd (u : Update)
  | write (addr : Nat) (value : Word)
  deriving DecidableEq, Repr

/-- A message on its way to a replica (0-6 tiles, 7 hub), sent at a tick; from a tile to the hub or from the hub. -/
structure FabMsg where
  dest : Nat
  sent : Nat
  src  : Nat
  body : FabBody
  deriving DecidableEq, Repr

/-- Who may write a classical slot 960-1023 (10 R245). -/
inductive SlotUser where
  | none
  | pub (job thr : Nat)
  | imp (port part : Nat)
  | software (part : Nat)
  deriving DecidableEq, Repr

/-- A parity group (10 R257, R258): members, MAP, INV, which members are fresh, and its firing with the decoders
that have not consumed it. -/
structure Group where
  members : List Nat
  map     : Bool
  inv     : Bool
  fresh   : List Nat
  /-- tick in which the last member became fresh -/
  dueAt   : Option Nat
  fired   : Option Nat
  waiting : List Nat
  parity  : Bool
  leak    : Bool
  marg    : Bool
  glate   : Bool
  origin  : Word
  deriving DecidableEq, Repr

/-- An outstanding round of an EXTERNAL decoder (10 R264). -/
structure Round where
  round  : BitVec 16
  origin : Word
  margin : Bool
  fired  : Nat
  deriving DecidableEq, Repr

/-- A syndrome decoder (10 R259): the setting beyond its registers, and its rounds. -/
structure Decoder where
  owned  : Bool
  groups : List Nat
  mask   : List Nat
  rounds : List Round
  /-- outputs looked up, each with the tick of its publication in the hub (R262) -/
  out    : List (Nat × Update)
  deriving DecidableEq, Repr

/-- Slots are keyed 1,024 * replica + slot; `users` slot - 960; `exports`, `imports`, `queue` by port. -/
structure Dec where
  slots    : SMap Slot
  badSlots : List Nat
  fabric   : List FabMsg
  rebuild  : Option Nat
  users    : SMap SlotUser
  exports  : SMap (List Nat)
  imports  : SMap (List (Nat × Nat))
  queue    : SMap (List DecMsg)
  /-- decision messages sent in the current tick: per port (tick, count) -/
  sentAt   : SMap (Nat × Nat)
  groups   : SMap Group
  decoders : SMap Decoder
  deriving DecidableEq, Repr

/-! ## Capture and TDC -/

/-- What the evaluators remember from sample to sample (11 R272, R273): edge arming, the pulse in progress (its length and
direction), samples since the last qualifying edge or the start of ARMED, the runt in progress, and the previous value. -/
structure CapEval where
  upArm  : Bool
  dnArm  : Bool
  pulse  : Option (Nat × Bool)
  since  : Nat
  runtUp : Bool
  last   : Option Int
  deriving DecidableEq, Repr

/-- The settings of a record as they were when it was armed (11 R268, R275, R277): CAP_TAP [11:0], LONG, LEN, PRE and
CAP_DEST. -/
structure CapSet where
  tap  : Nat
  long : Bool
  len  : Nat
  pre  : Nat
  dest : Nat
  deriving DecidableEq, Repr

/-- A capture engine at work (11 R269-R279). `recno` counts completed records; an aborted record awaits its samples. -/
structure CapRun where
  /-- tick at which REARM or ARMED began -/
  since   : Nat
  /-- force requested at a boundary -/
  force   : Option Nat
  /-- trigger: tap sample index, causes, primary, pretrigger samples written, missed count -/
  trig    : Option (Nat × Nat × Nat × Nat × Nat)
  recno   : Nat
  job     : Option Nat
  armTick : Nat
  /-- start tick of the job that arms the engine through WAIT_TIME -/
  wake    : Option Nat
  /-- an aborted record's cause and last valid index, until its samples are in memory -/
  aborted : Option (Nat × Nat)
  set     : CapSet
  /-- the tap sample that the evaluators take next, what they remember, and the last 64 samples, newest first -/
  next    : Nat
  ev      : CapEval
  past    : List (Int × Int)
  /-- samples of the record, from the first valid pretrigger sample on -/
  kept    : List (Int × Int)
  /-- runs of samples not stored: record index and length (R276) -/
  gaps    : List (Nat × Nat)
  /-- capture memory holds the pretrigger or the queue, in no stated layout (log 105) -/
  scratch : Bool
  deriving DecidableEq, Repr

/-- A TDC input (12 R282-R287): last stamped edge in bins, a transition lost since, stamps, DLL lock per line. -/
structure TdcIn where
  lastBin : Option Nat
  lost    : Bool
  seq     : Word
  dllBad  : Bool
  swapAt  : Nat
  /-- the lines swap at the next tick boundary -/
  swap    : Bool
  deriving DecidableEq, Repr

/-- A frequency gate (12 R289): first tick, first and last stamp, edges. -/
structure FreqRun where
  start : Nat
  first : Nat
  last  : Nat
  n     : Nat
  deriving DecidableEq, Repr

structure Tdc where
  ins   : SMap TdcIn
  log   : List (List Word)
  /-- pending start of an interval unit: its stamp in bins of grid time, and its tick -/
  ivs   : SMap (Option (Nat × Nat))
  freq  : Option FreqRun
  deriving DecidableEq, Repr

/-! ## Borvon -/

/-- A lane (13 R303-R309): the tick its step begins, a wait until a tick (0 none), symbol alignment reached, polling from
the deep state, an INJ waiting for the next symbol. -/
structure LaneRun where
  since   : Nat
  wait    : Nat
  commaOk : Bool
  polls   : Bool
  inject  : Bool
  /-- ticks of its code and disparity errors within the last 1 ms (R307) -/
  errs    : List Nat
  deriving DecidableEq, Repr

/-- One message of the P stream held for replay (13 R300, R301). -/
inductive TxMsg where
  | parity (dec : Nat) (round : BitVec 16) (origin : Word) (nibbles : List (Nat × Nat))
  | mgmt (bytes : List Byte)
  deriving DecidableEq, Repr

/-- A port (13 R295-R308): sent and acknowledged indices, received counts, replay buffers, NAK and re-stripe. -/
structure PortRun where
  dSent   : Word
  pSent   : Word
  dAcked  : Word
  pAcked  : Word
  dCount  : Word
  pCount  : Word
  dBuf    : List DecMsg
  pBuf    : List TxMsg
  /-- messages waiting because the buffer is full or the port re-stripes -/
  waitD   : List DecMsg
  waitP   : List TxMsg
  nakAt   : Option Nat
  ackAt   : Nat
  ackDue  : Bool
  /-- re-stripe: new mask, tick it began, this end started it -/
  restripe : Option (BitVec 4 × Nat × Bool)
  commaAt : Option Nat
  skips   : Nat
  /-- half tick at which the next SKIP is due (R293); symbols in the elastic buffers -/
  skipAt  : Nat
  fill    : Nat
  /-- messages at the head of `waitD` that R254 holds back and that are counted in QUEUED -/
  late    : Nat
  /-- the transmitter (R298): what is handed over and not begun; the rest of a message, of a packet and of an ordered set
  in transmission -/
  tx      : List Emit
  cur     : List TxSym
  pkt     : List TxSym
  os      : List Sym
  deriving DecidableEq, Repr

structure Bvn where
  ports : SMap PortRun
  lanes : SMap LaneRun
  deriving DecidableEq, Repr

/-! ## Time service -/

/-- The last ANNOUNCE of a port's partner (14 R313) and the tick it came. -/
structure Heard where
  ann  : Announce
  tick : Nat
  deriving DecidableEq, Repr

/-- The time service (14). Phases and delays are in half bins, so that halves are exact. -/
structure TimeSvc where
  /-- valid exchanges, newest first, at most 16: theta and d in half bins -/
  exch    : List (Int × Int)
  seq     : Nat
  /-- request outstanding: SEQ, t1 in bins, lane, tick -/
  req     : Option (Nat × Nat × Nat × Nat)
  reqAt   : Nat
  inWin   : Nat
  outWin  : Nat
  invalid : Nat
  freqTerm  : Int
  phaseTerm : Int
  holdAt  : Option Nat
  epoch   : Nat
  heard   : SMap Heard
  annAt   : SMap Nat
  /-- the master takes its epoch at the next boundary -/
  epochDue : Bool
  synAt   : Nat
  /-- EVENTs received and SYNCIN stamps (in bins) not yet paired, with the ticks at which they came -/
  events  : List (Word × Nat)
  stamps  : List (Nat × Nat)
  lastPair : Option Nat
  /-- SYNC_CAL: mailbox, pairs, sum of theta - r in half bins, lane -/
  cal     : Option (Nat × Nat × Int × Nat)
  deriving DecidableEq, Repr

/-! ## Host interface, queues, jobs -/

/-- An HDM decoder (15 R336). -/
structure Hdm where
  base : Nat
  size : Nat
  committed : Bool
  locked : Bool
  err  : Bool
  deriving DecidableEq, Repr

/-- The host port (15). `pba` lists the pending vectors, `unmasked` the vectors whose mask bit is clear, `msixTab` the
address and data words of the MSI-X table by 3 * vector + word; `cfg` holds what the host has written to configuration
space outside the controls named here. -/
structure Hif where
  viralEn : Bool
  cacheEn : Bool
  memEn   : Bool
  msixEn  : Bool
  pba     : List Nat
  unmasked : List Nat
  msixTab : SMap Word
  cfg     : SMap Word
  hdm0    : Hdm
  hdm1    : Hdm
  outageAt : Option Nat
  cfgReady : Bool
  memInfo : Bool
  refclk  : Bool
  cxlDown : Bool
  ras     : Nat
  deriving DecidableEq, Repr

/-- A completion to be written: its job slot, or none for a refused entry with its tag and reason; the SQ head after
the fetch. -/
structure Done where
  job    : Option Nat
  tag    : Word
  reason : Nat
  sqHead : Nat
  deriving DecidableEq, Repr

/-- What the re-run of a struck shot awaits (01 R511, 04 R119, 06 R176, 16 R366). -/
inductive Await where
  /-- the reload of a store word is verified -/
  | reload (cluster : Nat) (store : StoreKind) (bank : Bool) (addr : Nat)
  /-- the spare serves a drive channel -/
  | spare (tile chan : Nat)
  /-- a readout line's failed slice position is filled -/
  | slice (tile line : Nat)
  /-- a spine-link lane of a tile is repaired -/
  | lane (tile : Nat)
  /-- a stream's buffer holds its window from the checkpoint -/
  | stream (tile strm : Nat)
  /-- a decode table entry is reloaded from its mirror (10 R261) -/
  | table (entry : Nat)
  deriving DecidableEq, Repr

/-- A queue pair (16 R351-R354): rings, tail and head in force. -/
structure Qp where
  sqAddr : Nat
  cqAddr : Nat
  sqLen  : Nat
  cqLen  : Nat
  sqTail : Nat
  cqHead : Nat
  /-- completions still to be written, in the order the jobs completed (R354) -/
  done   : List Done
  deriving DecidableEq, Repr

/-- One thread of a plan (16 R357). -/
structure PlanThr where
  tile    : Nat
  cluster : Nat
  thr     : Nat
  region  : Nat
  entries : List (BitVec 16)
  bars    : Word
  deriving DecidableEq, Repr

/-- A run plan and its resource set (16 R357, R358). -/
structure Plan where
  part     : Nat
  threads  : List PlanThr
  pubs     : List (Nat × Nat)
  strms    : List (Nat × Nat)
  bars     : Word
  resPerShot : Nat
  shotLen  : Nat
  lines    : List Nat
  gens     : List Nat
  brdSlots : List Nat
  deriving DecidableEq, Repr

/-- A shot of a job that has ended, or been interrupted, with windows still open while a later one runs: its start tick,
number, status and record bytes; whether it counts in the completion (an attempt that is re-run does not). -/
structure ShotTail where
  start  : Nat
  no     : Nat
  status : BitVec 8
  bytes  : Nat
  counts : Bool
  deriving DecidableEq, Repr

/-- An earlier shot of a job that was struck with only windows or pulses left and is to be run again after the shot in
progress (01 R27): its number, its start tick and what it awaits. -/
structure Redo where
  no    : Nat
  start : Nat
  aw    : Await
  deriving DecidableEq, Repr

/-- A job from its admission until its completion entry is written (16). -/
structure Job where
  kind     : Nat
  qp       : Nat
  part     : Nat
  start    : Nat
  trigEach : Bool
  irq      : Bool
  trigSrc  : Nat
  tag      : Word
  startTime : Nat
  deadline : Nat
  /-- kind-specific: plan and entry set; tile; stream and its parameters; first pair and count -/
  plan     : Nat
  entrySet : Nat
  shots    : Nat
  period   : Nat
  tile     : Nat
  strm     : Nat
  first    : Nat
  urun     : Bool
  win      : Nat
  rate     : Nat
  ringBase : Nat
  log2     : Nat
  firstQ   : Nat
  countQ   : Nat
  resAddr  : Nat
  resLen   : Nat
  calReq   : List Byte
  /-- place in the order of admission; admission tick, earliest start tick so far (R361), start tick once fixed, next
  shot's start tick -/
  order    : Nat
  admitAt    : Nat
  floor    : Nat
  startAt  : Option Nat
  nextAt   : Option Nat
  /-- its start tick has come (R362) -/
  begun    : Bool
  running  : Bool
  shotAt   : Nat
  /-- number of the shot in progress; it has been struck and is re-run once all of these have come; the tick at which
  they had (R511); earlier shots to be run again -/
  no       : Nat
  rerun    : List Await
  recAt    : Option Nat
  redo     : List Redo
  /-- the running shot had only windows left when a fault or SAFE ended it: its status (SHOT_FAULT, SAFE_ENTERED), else
  0 -/
  struck   : BitVec 8
  pendTrig : Option Nat
  /-- threads of the running shot that have finished: (thread, status, end tick) -/
  finished : List (Nat × BitVec 8 × Nat)
  shotsRun : Nat
  shotsOk  : Nat
  firstBad : BitVec 8
  resBytes : Nat
  shotBytes : Nat
  tails    : List ShotTail
  addedLat : Nat
  aux      : Nat
  flags    : BitVec 8
  trigOvr  : Nat
  underrun : Bool
  /-- end status decided: (status, reason) -/
  ended    : Option (Nat × Nat)
  abort    : Bool
  held     : Bool
  /-- result bytes staged and not yet delivered, with their host addresses -/
  staged   : List (Nat × List Byte)
  /-- host lines whose staged bytes carry a poison marker (18 R402) -/
  bad      : List Nat
  /-- completion words fixed at its end, before PHASE -/
  sqHead   : Nat
  calDone  : Nat
  calFailed : Nat
  deriving DecidableEq, Repr

/-- A partition's units (16 R349), as lists of global indices. -/
structure Part where
  chans : List Nat
  lines : List Nat
  thrs  : List Nat
  gens  : List Nat
  /-- staging bytes in use -/
  inUse : Nat
  deriving DecidableEq, Repr

/-- The queue manager. Jobs are keyed by job slot; `parts` by partition; `admits` counts admitted jobs. -/
structure Qm where
  admits  : Nat
  qps     : SMap Qp
  rr      : Nat
  plans   : SMap Plan
  jobs    : SMap Job
  parts   : SMap Part
  deriving DecidableEq, Repr

/-! ## Mailboxes and transactions -/

/-- A response: status, reason, detail, transaction and payload (17 R371). -/
structure MbxResp where
  opcode : Nat
  status : Nat
  cmdId  : Word
  txnId  : Word
  reason : Nat
  detail : Word
  tick   : Word
  payload : List Byte
  deriving DecidableEq, Repr

/-- A mailbox (17 R369-R377): the request, the response, and the record of the last command that reached DONE. -/
structure Mbx where
  /-- the bytes of the request region -/
  region : SMap Byte
  req    : MbxReq
  resp   : MbxResp
  record : Option (Nat × Word × MbxResp)
  /-- the command has answered IN_PROGRESS -/
  inProg : Bool
  /-- number of the doorbell write that began the command -/
  bell   : Nat
  deriving DecidableEq, Repr

/-- One staged entry of a transaction (17 R388). -/
structure TxnEntry where
  kind   : Nat
  offset : Nat
  value  : Word
  mask   : Word
  deriving DecidableEq, Repr

/-- A transaction, OPEN or COMMITTED (17 R386). `order` is the order of accepted commits. -/
structure Txn where
  id      : Word
  entries : List TxnEntry
  begin_  : Nat
  commit  : Nat
  order   : Nat
  applied : Bool
  deriving DecidableEq, Repr

/-- Mailboxes by number; OPEN and COMMITTED transactions by partition (64 the device); sequence numbers; ids ended by
timeout; commits and doorbell writes accepted. -/
structure Mb where
  boxes     : SMap Mbx
  open_     : SMap Txn
  committed : SMap Txn
  seq       : SMap Nat
  timedOut  : List Word
  orders    : Nat
  bells     : Nat
  deriving DecidableEq, Repr

/-! ## Device memory service -/

/-- The memory controller beside its registers (18): initialised 2 MB blocks (R404), poisoned lines (R402), retired
devices in Sinter (R401). -/
structure MemSvc where
  initBlocks : List Nat
  allInit    : Bool
  poison     : List Nat
  sinterRetired : List Nat
  deriving DecidableEq, Repr

/-! ## Calibration -/

/-- A calibration of a unit at work (19 R414, R416). -/
inductive CalWork where
  | none
  /-- held for a timed event since a tick (R424) -/
  | held (since : Nat)
  /-- gap calibration: steps done -/
  | gap (steps : Nat)
  | takeover
  /-- the lead step of a bias output (08 R215): its phase (0 moving to the 2 mA span, 1 at +1 mA, 2 at -1 mA, 3 measured),
  and the span and code to restore -/
  | lead (phase span : Nat) (code : BitVec 20)
  deriving DecidableEq, Repr

/-- A record of a unit in the calibration store (19 R427): the fields of its header that vary, and its corrections. -/
structure CalRec where
  unit     : Nat
  seq      : Nat
  opsec    : Nat
  temp     : Int
  stepping : Nat
  crc      : Word
  corr     : CalObs
  deriving DecidableEq, Repr

/-- What calibration knows of a unit (19 R411-R428). -/
structure CalUnit where
  due     : Option Nat
  stale   : Bool
  temp    : Int
  opsec   : Nat
  source  : Nat
  work    : CalWork
  startTemp : Int
  startOps  : Nat
  /-- corrections measured and waiting for their boundary; the corrections in force; linearisation fits done -/
  result  : Option CalObs
  inForce : CalObs
  fits    : Nat
  /-- record copies A and B; operating second of the last write; a result waiting to be written -/
  recA    : Option CalRec
  recB    : Option CalRec
  written : Option Nat
  unwritten : Option CalObs
  named   : Bool
  /-- start tick of the gap step at work (R416) -/
  stepFrom : Option Nat
  deriving DecidableEq, Repr

/-- A CAL_RUN or CALIBRATE request at work (19 R422-R425): who asked (mailbox or job), the units left, each with its
steps left (bits as in STEPS), and the results. -/
structure CalReq where
  mbx    : Option Nat
  job    : Option Nat
  scope  : Nat
  steps  : Nat
  hold   : Bool
  units  : List UnitDesc
  todo   : List (UnitDesc × Nat)
  done   : Nat
  failed : Nat
  firstFail : Nat
  since  : Nat
  reason : Nat
  deriving DecidableEq, Repr

/-- The reference record in Sinter (19 R426, R429): the declared value and uncertainty and what was measured. -/
structure RefRec where
  value    : Nat
  unc      : Nat
  measured : List Int
  deriving DecidableEq, Repr

/-- Units are keyed by their descriptor: 2^24 * kind + 2^16 * tile + index. -/
structure Cal where
  units  : SMap CalUnit
  reqs   : List CalReq
  /-- operating ticks out of RESET, across power cycles (R411) -/
  opTicks : Nat
  /-- a CAL_REF_DECLARE at work: mailbox, VALUE, UNC -/
  refReq : Option (Nat × Nat × Nat)
  /-- the transfer in force; none: the factory values -/
  refRec : Option RefRec
  boot   : Bool
  /-- corrections of completed calibrations, and a transfer, that come into force at the next boundary (R419, R429) -/
  coming : List (UnitDesc × CalObs)
  refDue : Option RefRec
  deriving DecidableEq, Repr

/-! ## Thermal -/

/-- A sensor (20 R434-R440): its consecutive counts, recent 1 kHz samples newest first, and far samples. -/
structure Sensor where
  /-- tick of the last sample, answered or not -/
  last     : Option Nat
  warnUp   : Nat
  warnDown : Nat
  critUp   : Nat
  critDown : Nat
  hotUp    : Nat
  rateUp   : Nat
  rateDown : Nat
  bad      : Nat
  silent   : Nat
  far      : Nat
  /-- tick of the last 1 kHz sample -/
  slowAt   : Nat
  recent   : List Int
  deriving DecidableEq, Repr

structure Therm where
  sensors : SMap Sensor
  /-- restart count: since when every working sensor is below 90 degrees (R443) -/
  dwellAt : Option Nat
  /-- THERM_N driven low -/
  thermN  : Bool
  deriving DecidableEq, Repr

/-! ## Faults, management, log, boot -/

/-- A Travertine record (21 R466). -/
structure LogRec where
  seq    : Nat
  kind   : Nat
  sev    : Nat
  bit    : Nat
  flags  : BitVec 8
  block  : BitVec 16
  unit   : Nat
  desc   : Word
  time   : Nat
  boot   : Nat
  repeat_ : Nat
  data   : List Byte
  deriving DecidableEq, Repr

/-- Fault signalling and management (21). -/
structure Flt where
  /-- ERR_N hardware hold runs until a tick; the pin is low; causes of REPLACE_N last advised in the log; the standby
  core is lost -/
  errHold  : Option Nat
  errN     : Bool
  advised  : Nat
  standbyLost : Bool
  logBuf   : List LogRec
  log      : List LogRec
  logSeq   : Nat
  dropped  : Nat
  bootCount : Nat
  /-- management: a core restarting (since); firmware lost -/
  restart  : Option Nat
  lost     : Bool
  /-- per tile: tick plus 1 of the last spine-link traffic when it has stopped; tick plus 1 of a lane repair at work;
  spares used per direction -/
  silent   : SMap Nat
  repairAt : SMap Nat
  usedUp   : SMap Nat
  usedDown : SMap Nat
  deriving DecidableEq, Repr

/-- Boot, supplies and firmware slots (22). -/
structure Boot where
  /-- PERST_N is deasserted -/
  perstN   : Bool
  /-- tick at which the last rail came into range, and the first of VHVP and VHVN -/
  railsAt  : Option Nat
  hvAt     : Option Nat
  /-- held by a sequence error; every rail but VAUX has fallen since -/
  seqHold  : Bool
  seqLow   : Bool
  started  : Bool
  accepted : Bool
  /-- what the slots hold, as the boot ROM or a stage found it -/
  slotA    : Option SlotObs
  slotB    : Option SlotObs
  /-- Sinter: preferred slot (true: B) and minimum firmware SVN -/
  preferred : Bool
  minSvn   : Nat
  /-- mailbox of a stage or of an activation at work, with COMMIT_SVN -/
  staging  : Option Nat
  activating : Option (Nat × Bool)
  /-- the tick at which a RESUME was accepted (R484) -/
  resuming : Option Nat
  deriving DecidableEq, Repr

/-! ## The state -/

/-- The part. -/
structure State where
  variant : Variant
  pending : List Instr
  /-- counter for free values (log 1) -/
  freeCtr : Nat
  emitted : List Emit
  regs    : SMap Word
  mem     : List Host.Cell
  stores  : Stores
  clk     : Clock
  staged  : List Staged
  couples : List Couple
  threads : SMap Thread
  bars    : SMap Barrier
  outs    : Outs
  strms   : Strms
  sense   : Sense
  rdo     : Rdo
  dec     : Dec
  caps    : SMap CapRun
  tdc     : Tdc
  bvn     : Bvn
  ts      : TimeSvc
  hif     : Hif
  qm      : Qm
  mb      : Mb
  msvc    : MemSvc
  cal     : Cal
  therm   : Therm
  flt     : Flt
  boot    : Boot
  deriving DecidableEq, Repr

/-! ## Units at rest: the value of a unit that no command has touched since reset -/

def Thread.idle : Thread :=
  { g := Vector.replicate 16 0, fr := Vector.replicate 8 0, lc := Vector.replicate 4 0, pc := 0, stack := [],
    slots := Vector.replicate 16 0, marks := Vector.replicate 8 0, st := 0, wait := .none, issue := 0, used := 0,
    peak := 0, start := 0, job := none, base := 0, last := 0, lastShot := none, status := 0, flags := 0,
    cur := 0, endTick := 0, ended := none, peerEnd := none, slips := 0, decLate := 0, waitLate := 0,
    urun := false }
def Barrier.idle : Barrier :=
  { job := none, members := [], failed := none }
def EnRun.idle : EnRun :=
  { checking := none, powering := none, hadValue := false }
def BiasRun.idle : BiasRun :=
  { code := 0, waiting := [], latched := none, recent := [], placed := 0, span := 0, change := none, safeAt := none,
    clamped := false, changes := [] }
def FluxRun.idle : FluxRun :=
  { span := 0, change := none }
def StreamRun.idle : StreamRun :=
  { n0 := 0, passStart := 0, ringAt := 0, fetched := 0, arrived := 0, buf := [], fixedK := none, pendAt := 0,
    failed := false, missedTo := 0, gone := [], prev := none, hold := none, rate := [], checks := [], rewound := false,
    replay := [] }
def GenRun.idle : GenRun :=
  { i := 0, s := 0 }
def SenseList.idle : SenseList :=
  { scanStart := 0, begun := 0, nextSlot := 0, shifts := 0, using_ := .idle, adc := 0, inj := false, timeDone := false }
def SensePair.idle : SensePair :=
  { lastValid := 0, hasValid := false, upRun := 0, downRun := 0, newRange := none, testDue := false,
    openRun := 0, shortRun := 0, openPass := 0, shortPass := 0 }
def SenseTile.idle : SenseTile :=
  { running := false, stopReq := false, cycle := 0, hand := [], handAt := 0 }
def LineRun.idle : LineRun :=
  { measCount := 0, rotSince := 0, repair := none, gainAt := [] }
def Slot.idle : Slot :=
  { cls := 0, valid := false, late := false, margin := false, src := 0, aged := false, tick := 0, origin := 0,
    vtick := 0 }
def Group.idle : Group :=
  { members := [], map := false, inv := false, fresh := [], dueAt := none, fired := none, waiting := [],
    parity := false, leak := false, marg := false, glate := false, origin := 0 }
def Decoder.idle : Decoder :=
  { owned := false, groups := [], mask := [], rounds := [], out := [] }
def CapEval.start : CapEval :=
  { upArm := false, dnArm := false, pulse := none, since := 0, runtUp := false, last := none }
def CapRun.idle : CapRun :=
  { since := 0, force := none, trig := none, recno := 0, job := none, armTick := 0, wake := none,
    aborted := none,
    set := ⟨0, false, 0, 0, 0⟩, next := 0, ev := .start, past := [], kept := [], gaps := [], scratch := false }
def TdcIn.idle : TdcIn :=
  { lastBin := none, lost := false, seq := 0, dllBad := false, swapAt := 0, swap := false }
def LaneRun.idle : LaneRun :=
  { since := 0, wait := 0, commaOk := false, polls := false, inject := false, errs := [] }
def PortRun.idle : PortRun :=
  { dSent := 0, pSent := 0, dAcked := 0, pAcked := 0, dCount := 0, pCount := 0, dBuf := [], pBuf := [],
    waitD := [], waitP := [], nakAt := none, ackAt := 0, ackDue := false, restripe := none, commaAt := none,
    skips := 0, skipAt := 0, fill := 16, late := 0, tx := [], cur := [], pkt := [], os := [] }
def Qp.idle : Qp :=
  { sqAddr := 0, cqAddr := 0, sqLen := 0, cqLen := 0, sqTail := 0, cqHead := 0, done := [] }
def Plan.idle : Plan :=
  { part := 0, threads := [], pubs := [], strms := [], bars := 0, resPerShot := 0, shotLen := 0, lines := [],
    gens := [], brdSlots := [] }
def Job.idle : Job :=
  { kind := 0, qp := 0, part := 0, start := 0, trigEach := false, irq := false, trigSrc := 0, tag := 0,
    startTime := 0, deadline := 0, plan := 0, entrySet := 0, shots := 0, period := 0, tile := 0, strm := 0,
    first := 0, urun := false, win := 0, rate := 0, ringBase := 0, log2 := 0, firstQ := 0, countQ := 0,
    resAddr := 0, resLen := 0, calReq := [], order := 0, admitAt := 0, floor := 0, startAt := none,
    nextAt := none, begun := false, running := false, shotAt := 0, no := 0, rerun := [], recAt := none, redo := [], struck := 0, pendTrig := none,
    finished := [], shotsRun := 0, shotsOk := 0, firstBad := 0, resBytes := 0, shotBytes := 0, tails := [],
    addedLat := 0, aux := 0, flags := 0, trigOvr := 0, underrun := false, ended := none, abort := false,
    held := false, staged := [], bad := [], sqHead := 0, calDone := 0, calFailed := 0 }
def Part.idle : Part :=
  { chans := [], lines := [], thrs := [], gens := [], inUse := 0 }
def Txn.idle : Txn :=
  { id := 0, entries := [], begin_ := 0, commit := 0, order := 0, applied := false }
def CalUnit.idle : CalUnit :=
  { due := none, stale := false, temp := 0, opsec := 0, source := 0, work := .none, startTemp := 0,
    startOps := 0, result := none, inForce := ⟨false, 0, 0, 0, 0⟩, fits := 0, recA := none,
    recB := none, written := none, unwritten := none, named := false, stepFrom := none }
def Sensor.idle : Sensor :=
  { last := none, warnUp := 0, warnDown := 0, critUp := 0, critDown := 0, hotUp := 0, rateUp := 0,
    rateDown := 0, bad := 0, silent := 0, far := 0, slowAt := 0, recent := [] }
def Hdm.idle : Hdm :=
  { base := 0, size := 0, committed := false, locked := false, err := false }
def Stores.idle : Stores :=
  { sram := [], micro := [], nano := [], env := [], weights := [], table := [], tableMirror := [], capMem := [],
    poison := [], reloaded := [], bankRepl := [], tableRepair := [], tableReload := [], tableMir := [],
    ustage := none, nanoSwap := [], ucodeSvnMin := 0, ucodeApplied := false }
def Clock.idle : Clock :=
  { tick := 0, off := 0, gridValid := true, refFrom := 1, refSince := 0, refFail := none, refInBand := none, refPhase := 0,
    age := 0, strobe := false }
def Outs.idle : Outs :=
  { pulses := [], marks := [], en := [], spares := [], fences := [], paths := [], pathsNew := [], bias := [], flux := [],
    smark := [] }
def Strms.idle : Strms :=
  { streams := [], gens := [] }
def Sense.idle : Sense :=
  { lists := [], pairs := [], tiles := [] }
def Rdo.idle : Rdo :=
  { windows := [], lines := [], avg := [], widx := [] }
def Dec.idle : Dec :=
  { slots := [], badSlots := [], fabric := [], rebuild := none, users := [], exports := [], imports := [],
    queue := [], sentAt := [], groups := [], decoders := [] }
def Tdc.idle : Tdc :=
  { ins := [], log := [], ivs := [], freq := none }
def Bvn.idle : Bvn :=
  { ports := [], lanes := [] }
def TimeSvc.idle : TimeSvc :=
  { exch := [], seq := 0, req := none, reqAt := 0, inWin := 0, outWin := 0, invalid := 0, freqTerm := 0,
    phaseTerm := 0, holdAt := none, epoch := 0, heard := [], annAt := [], epochDue := false, synAt := 0,
    events := [], stamps := [], lastPair := none, cal := none }
def Hif.idle : Hif :=
  { viralEn := false, cacheEn := false, memEn := false, msixEn := false, pba := [], unmasked := [],
    msixTab := [], cfg := [], hdm0 := .idle, hdm1 := .idle, outageAt := none, cfgReady := false,
    memInfo := false, refclk := true, cxlDown := false, ras := 0 }
def Qm.idle : Qm :=
  { admits := 0, qps := [], rr := 0, plans := [], jobs := [], parts := [] }
def Mb.idle : Mb :=
  { boxes := [], open_ := [], committed := [], seq := [], timedOut := [], orders := 0, bells := 0 }
def MemSvc.idle : MemSvc :=
  { initBlocks := [], allInit := false, poison := [], sinterRetired := [] }
def Cal.idle : Cal :=
  { units := [], reqs := [], opTicks := 0, refReq := none, refRec := none, boot := false, coming := [],
    refDue := none }
def Therm.idle : Therm :=
  { sensors := [], dwellAt := none, thermN := false }
def Flt.idle : Flt :=
  { errHold := none, errN := false, advised := 0, standbyLost := false, logBuf := [], log := [], logSeq := 0,
    dropped := 0, bootCount := 0, restart := none, lost := false, silent := [], repairAt := [], usedUp := [],
    usedDown := [] }
def Boot.idle : Boot :=
  { perstN := false, railsAt := none, hvAt := none, seqHold := false, seqLow := false, started := false,
    accepted := false, slotA := none, slotB := none, preferred := false, minSvn := 0, staging := none,
    activating := none, resuming := none }

def noReq : MbxReq := { opcode := 0, flags := 0, cmdId := 0, len := 0, txnId := 0, rsv := 0, payload := [] }

def MbxResp.idle : MbxResp :=
  { opcode := 0, status := 0, cmdId := 0, txnId := 0, reason := 0, detail := 0, tick := 0, payload := [] }

def Mbx.idle : Mbx := { region := [], req := noReq, resp := .idle, record := none, inProg := false, bell := 0 }

/-! ## Stops -/

/-- Why a step could fault. No command raises it: every row of the table has an effect, and every address of the part
either answers, reads 0 or is answered by a master abort (log 6). -/
inductive Fault where
  /-- An access that no rule answers; raised by no command (safe). -/
  | noRule
  deriving DecidableEq, Repr

/-- Why a step could refuse. -/
inductive Refusal where
  /-- The command has no meaning in this model yet; raised by an arm of Dispatch (safe: nothing can be proved of the
  command's effect). -/
  | notModelled (mnemonic : String)
  deriving DecidableEq, Repr

/-! ## Reset -/

/-- The part at power-on, before any rail but VAUX is in range: every register at its reset value, every memory empty,
every unit at rest, PERST_N asserted. The ordering code is SQC7448 (log 2); grid time counts from 0 (log 5); memories
whose contents the manual does not give read 0 (log 10). -/
def State.reset : State :=
  { variant := .sqc7448, pending := [], freeCtr := 0, emitted := [], regs := [], mem := [], stores := .idle,
    clk := .idle, staged := [], couples := [], threads := [], bars := [], outs := .idle, strms := .idle,
    sense := .idle, rdo := .idle, dec := .idle, caps := [], tdc := .idle, bvn := .idle, ts := .idle,
    hif := .idle, qm := .idle, mb := .idle, msvc := .idle, cal := .idle, therm := .idle, flt := .idle,
    boot := .idle }

end Sys2Proof.Machine
end

