-- ==== Sys2Proof/Machine/Regs.lean ====
section
/-! DEFINITION. The register file: the address of a register, its reset word (R12 and the Reset columns), reading and
writing words and fields, and finding the register at an address. -/

namespace Sys2Proof.Machine

/-- Number of tiles present (00 R1, R4): tiles 0 to n - 1. -/
def Variant.tiles : Variant → Nat
  | .sqc7064 => 1
  | .sqc7128 => 2
  | .sqc7256 => 4
  | .sqc7448 => 7

/-- Bits `lo` to `lo + width - 1` of a number. -/
def bits (n lo width : Nat) : Nat := n / 2 ^ lo % 2 ^ width

/-- `n` with those bits replaced by the low bits of `v`. -/
def setBits (n lo width v : Nat) : Nat :=
  n - bits n lo width * 2 ^ lo + v % 2 ^ width * 2 ^ lo

/-- One bit as a Bool. -/
def bit (n i : Nat) : Bool := decide (n / 2 ^ i % 2 = 1)

/-- The signed value of the low `width` bits. -/
def signed (width n : Nat) : Int :=
  if n % 2 ^ width < 2 ^ (width - 1) then (n % 2 ^ width : Nat) else (n % 2 ^ width : Nat) - (2 ^ width : Nat)

/-- The low `width` bits of a signed value. -/
def unsigned (width : Nat) (i : Int) : Nat := (i % (2 ^ width : Nat)).toNat

/-- round(a / b) by R510, for b > 0. -/
def roundDiv (a : Int) (b : Nat) : Int := (2 * a + b) / (2 * b)

/-- Severity of each fault bit of a tile fault block, by bit index; none: the bit is not defined (21 R446). -/
def tileSev (k : Nat) : List (Option Nat) :=
  if k < 64 then [some 3, some 3, some 3, none, some 0, some 0, some 0]
  else if k < 72 then [some 3, some 3, some 3, some 3, some 0, some 0, some 0]
  else if k < 80 then [some 3, some 3, some 3, some 3, some 2, some 0, some 0, some 0, some 0, some 0, some 0]
  else if k < 89 then [some 3, some 3, some 2, some 1, some 1, some 0, some 0]
  else if k < 97 then [some 3, some 3, some 0, some 0, some 0]
  else if k < 105 then [some 3, some 2, some 0, some 0]
  else if k = 105 then [some 3, some 2, some 2, some 2, some 0, some 0, some 0, some 0]
  else if k = 106 then [some 3, some 1, some 0, some 0]
  else if k = 107 then [some 3, some 3, some 2, some 1]
  else []

/-- The same for a spine fault block (21 R447); THERM_RATE's severity with ACT 1 is `faultSev`'s. -/
def spineSev (b : Nat) : List (Option Nat) :=
  match b with
  | 0 => [some 4, some 4, some 2, some 2, some 1, some 1, some 0]
  | 1 => [some 4, some 1, some 0]
  | 2 => [some 4, some 4, some 4, some 2, some 2, some 2, some 3]
  | 3 => [some 3, some 1, some 0, some 0, some 0, some 0]
  | 4 | 5 | 6 | 7 => [some 3, some 2, some 1, some 1, some 0, some 0, some 0]
  | 8 => [some 2, some 2, some 1, some 0, some 0, some 0, some 2]
  | 9 => [some 2, some 2, some 1, some 1, some 0, some 0, some 0, some 0, some 0]
  | 10 => [some 4, some 2, some 2, some 2, some 1, some 1]
  | 11 => [some 2, some 2, some 2, some 1]
  | 12 => [some 4, some 2, some 2, some 1]
  | _ => []

/-- The number whose bit i is set where the i-th entry satisfies `p`. -/
def maskOf {α : Type} (p : α → Bool) : List α → Nat
  | [] => 0
  | a :: t => (if p a then 1 else 0) + 2 * maskOf p t

/-- Defined bits, and the bits of severity 3 and 4 (the reset value of FLT_ACTION), of a block. -/
def definedMask (l : List (Option Nat)) : Nat := maskOf Option.isSome l
def actionMask (l : List (Option Nat)) : Nat := maskOf (fun o => decide (3 ≤ o.getD 0)) l

/-- Reset words that depend on the instance: identity, tile index, sense ADC roles, the identity crosstalk matrix, TDC
input 9, and the constant registers of a fault block (R445). -/
def specialReset (v : Variant) (r : Reg) (ix : List Nat) : Nat :=
  if r.id = R.SPN_ID.id then 0x07000021 + 0x100 * v.tiles + 0x10000 * (2 ^ v.tiles - 1)
  else if r.id = R.TIL_STATUS.id then 0x2000 + ix.headD 0
  else if r.id = R.SNS_ADC.id then (match ix with | [_, 4] => 0x1C | [_, a] => a | _ => 0)
  else if r.id = R.RDO_XT_SHADOW.id ∨ r.id = R.RDO_XT_FORCE.id then
    (match ix with | [_, _, k, j] => if k = j then 0x4000 else 0 | _ => 0)
  else if r.id = R.TDC_IN_CFG.id then (if ix = [9] then 1 else 0)
  else if r.id = R.FLT_ACTION.id then actionMask (spineSev (ix.headD 0))
  else if r.id = R.FLT_DEFINED.id then definedMask (spineSev (ix.headD 0))
  else if r.id = R.FLT_VECTOR.id then 64 + ix.headD 0
  else if r.id = R.TFLT_ACTION.id then (match ix with | [_, k] => actionMask (tileSev k) | _ => 0)
  else if r.id = R.TFLT_DEFINED.id then (match ix with | [_, k] => definedMask (tileSev k) | _ => 0)
  else if r.id = R.TFLT_VECTOR.id then (match ix with | [n, k] => 128 + 128 * n + k | _ => 0)
  else 0

/-- The reset word of word `w` of a register instance. -/
def resetWord (v : Variant) (r : Reg) (ix : List Nat) (w : Nat) : Word :=
  if r.special then BitVec.ofNat 32 (specialReset v r ix) else BitVec.ofNat 32 (r.resets.getD w 0)

/-- Offset of an instance from the register's base. -/
def offsetOf : List (Nat × Nat) → List Nat → Nat
  | (_, st) :: ds, i :: is => i * st + offsetOf ds is
  | _, _ => 0

/-- Every index is within its dimension. -/
def idxOk : List (Nat × Nat) → List Nat → Bool
  | [], [] => true
  | (c, _) :: ds, i :: is => decide (i < c) && idxOk ds is
  | _, _ => false

/-- The register lies in a tile window (R25). -/
def Reg.inTile (r : Reg) : Bool := decide (0x1000000 ≤ r.base) && decide (r.base < 0x8000000)

/-- The instance exists in this variant (00 R5: an absent tile's registers read 0 and discard writes). -/
def Reg.exists_ (r : Reg) (v : Variant) (ix : List Nat) (w : Nat) : Bool :=
  idxOk r.dims ix && decide (w < r.words) && (!r.inTile || decide (ix.headD 0 < v.tiles))

/-- The address of word `w` of an instance. -/
def Reg.addr (r : Reg) (ix : List Nat) (w : Nat) : Nat := r.base + offsetOf r.dims ix + 4 * w

/-- The word held by a register instance; 0 where it does not exist. -/
def State.regWord (s : State) (r : Reg) (ix : List Nat) (w : Nat) : Word :=
  if r.exists_ s.variant ix w then SMap.get 0 s.regs (r.addr ix w) ^^^ resetWord s.variant r ix w else 0

/-- Writes a word of a register instance; nothing where it does not exist. -/
def State.setRegWord (s : State) (r : Reg) (ix : List Nat) (w : Nat) (v : Word) : State :=
  { s with regs :=
      if r.exists_ s.variant ix w then SMap.put 0 s.regs (r.addr ix w) (v ^^^ resetWord s.variant r ix w)
      else s.regs }

/-- The value of a field. -/
def State.rd (s : State) (f : Fld) (ix : List Nat) : Nat := bits (s.regWord f.reg ix f.word).toNat f.lo f.width

/-- A one-bit field as a Bool. -/
def State.rdB (s : State) (f : Fld) (ix : List Nat) : Bool := decide (s.rd f ix = 1)

/-- The signed value of a field. -/
def State.rdI (s : State) (f : Fld) (ix : List Nat) : Int := signed f.width (s.rd f ix)

/-- Writes a field (its low bits). -/
def State.wr (s : State) (f : Fld) (ix : List Nat) (v : Nat) : State :=
  s.setRegWord f.reg ix f.word (BitVec.ofNat 32 (setBits (s.regWord f.reg ix f.word).toNat f.lo f.width v))

def State.wrB (s : State) (f : Fld) (ix : List Nat) (b : Bool) : State := s.wr f ix (if b then 1 else 0)

/-- Writes a signed field. -/
def State.wrI (s : State) (f : Fld) (ix : List Nat) (v : Int) : State := s.wr f ix (unsigned f.width v)

/-- Counts `n` into a field that saturates at its largest value. -/
def State.count (s : State) (f : Fld) (ix : List Nat) (n : Nat) : State :=
  s.wr f ix (min (s.rd f ix + n) (2 ^ f.width - 1))

/-- The indices of the instance that holds offset `off`: greedy division by each stride. -/
def idxAt : List (Nat × Nat) → Nat → List Nat × Nat
  | [], off => ([], off)
  | (c, st) :: ds, off =>
    if off / st < c then
      let (is, r) := idxAt ds (off - off / st * st)
      (off / st :: is, r)
    else ([], 0xFFFFFFFF)

/-- The register instance and word at a word address, within this register. -/
def Reg.find (r : Reg) (addr : Nat) : Option (List Nat × Nat) :=
  if addr < r.base then none
  else
    let (ix, o) := idxAt r.dims (addr - r.base)
    if o % 4 = 0 ∧ o / 4 < r.words then some (ix, o / 4) else none

/-- The register, indices and word at an address of the map. -/
def findReg (addr : Nat) : List Reg → Option (Reg × List Nat × Nat)
  | [] => none
  | r :: rs =>
    match r.find addr with
    | some (ix, w) => some (r, ix, w)
    | none => findReg addr rs

end Sys2Proof.Machine
end

