-- ==== Sys2Proof/Machine/Memory.lean ====
section
/-! DEFINITION. Device memory (18): bytes by device address, the 2 MB blocks that are initialised (R404), and the lines
that carry a poison marker (R402). A byte that nothing has written reads 0 (R404). -/

namespace Sys2Proof.Machine

/-- The canonical form of the memory: addresses strictly rising, no byte listed that reads 0. -/
abbrev Memory.wf (m : List Host.Cell) : Prop := SMap.wf 0 m

/-- The byte at an address. -/
def State.byteAt (s : State) (addr : Nat) : Byte := SMap.get 0 s.mem addr

/-- Reads bytes. -/
def State.memRead (s : State) (addr n : Nat) : List Byte := SMap.getList 0 s.mem addr n

/-- 64-byte lines with a byte of an interval. -/
def linesOf (addr n : Nat) : List Nat :=
  if n = 0 then [] else (List.range ((addr + n - 1) / 64 + 1 - addr / 64)).map (fun i => addr / 64 + i)

/-- A line of the interval carries a poison marker. -/
def State.memPoisoned (s : State) (addr n : Nat) : Bool :=
  s.msvc.poison.any (fun l => decide (0 < n) && decide (addr / 64 ≤ l) && decide (l ≤ (addr + n - 1) / 64))

/-- The initialised blocks after a write: ascending numbers of 2 MB blocks. -/
def addBlock (b : Nat) : List Nat → List Nat
  | [] => [b]
  | c :: rest => if b < c then b :: c :: rest else if b = c then c :: rest else c :: addBlock b rest

/-- Writes bytes: the blocks written become initialised, and a line wholly written loses its poison. -/
def State.memWrite (s : State) (addr : Nat) (bytes : List Byte) : State :=
  let n := bytes.length
  if n = 0 then s
  else
    let bs := (List.range ((addr + n - 1) / 2 ^ 21 + 1 - addr / 2 ^ 21)).map (fun i => addr / 2 ^ 21 + i)
    { s with
      mem := SMap.putList 0 s.mem addr bytes
      msvc :=
        { s.msvc with
          initBlocks := if s.msvc.allInit then s.msvc.initBlocks else bs.foldl (fun l b => addBlock b l) s.msvc.initBlocks
          poison := s.msvc.poison.filter (fun l => !(decide (addr ≤ 64 * l) && decide (64 * l + 64 ≤ addr + n))) } }

end Sys2Proof.Machine
end

