-- ==== Sys2Proof/Machine/Signals.lean ====
section
/-! DEFINITION. Shared operations that every block uses: short time (R39-R41), what leaves the part, interrupt vectors
(R340), the record of a refused write (R15), the event log (R465, R466), and recording a fault without its reaction
(R448 steps 1-3, 5, 6; R449, R463). -/

namespace Sys2Proof.Machine

/-! ## Time -/

/-- Ticks since power-on: what every interval is measured in. -/
def State.now (s : State) : Nat := s.clk.tick

/-- TICK of grid time at a tick of that count, and now (R38); undefined from a loss of lock to the relock (R53). -/
def State.gridAt (s : State) (t : Nat) : Nat :=
  if s.clk.gridValid then (((t : Int) + s.clk.off) % (2 ^ 57 : Nat)).toNat else Config.freeGrid t % 2 ^ 57
def State.grid (s : State) : Nat := s.gridAt s.now

/-- Grid time of a sample, in samples of 50 ps. -/
def State.gridSample (s : State) (n : Nat) : Nat := 128 * s.gridAt (n / 128) + n % 128

/-- Short time: the low 32 bits of the tick count (R39). -/
def short (t : Nat) : Nat := t % 2 ^ 32

/-- The signed 32-bit difference of two short times (R40). -/
def shortDiff (target now : Nat) : Int := signed 32 (unsigned 32 ((target : Int) - (now : Int)))

/-- A short-time target is reached (R40). -/
def reached (target now : Nat) : Bool := decide (shortDiff target now ≤ 0)

/-- A short time expanded to the tick nearest to now (R41), counted from power-on. -/
def State.instant (s : State) (sh : Nat) : Nat := ((s.now : Int) + shortDiff sh (short s.grid)).toNat

/-! ## Modes (R30) -/

def mReset : Nat := 0
def mSafe : Nat := 1
def mIdle : Nat := 2
def mArmed : Nat := 3
def mRun : Nat := 4
def mCalibrate : Nat := 5

def State.mode (s : State) : Nat := s.rd F.SPN_MODE_MODE []

/-! ## What leaves the part -/

def State.emit (s : State) (e : Emit) : State := { s with emitted := s.emitted ++ [e] }

def State.d3hot (s : State) : Bool := s.rdB F.SPN_HIF_STATUS_D3HOT []

/-- Hardware thermal shutdown is in force (20 R441). -/
def State.shutdown (s : State) : Bool := s.rdB F.THM_STATUS_SHUTDOWN []

/-- The link carries the part's requests (R344, R345). -/
def State.linkCarries (s : State) : Bool := s.rdB F.SPN_HIF_STATUS_LINK_UP [] && !s.d3hot

/-- The message of a vector: the address and data that the host wrote in the table (R340). -/
def State.sendMsix (s : State) (v : Nat) : State :=
  let w := fun i => SMap.get 0 s.hif.msixTab (3 * v + i)
  s.emit (.msix v ((w 0).toNat + 2 ^ 32 * (w 1).toNat) (w 2))

/-- Signals an MSI-X vector, or sets its pending bit (R340, R345). -/
def State.signal (s : State) (v : Nat) : State :=
  if s.hif.msixEn && s.hif.unmasked.contains v && s.linkCarries then s.sendMsix v
  else { s with hif := { s.hif with pba := if s.hif.pba.contains v then s.hif.pba else s.hif.pba ++ [v] } }

/-- A fresh free value (log 1): the counter it is drawn with, and the state with the counter advanced. -/
def State.draw (s : State) : Nat × State := (s.freeCtr, { s with freeCtr := s.freeCtr + 1 })

/-! ## Refusals (R15) -/

/-- Records a refused write: the REFUSE register of the block that holds the address, or of its window. -/
def State.refuse (s : State) (addr reason : Nat) : State :=
  if addr < 0x1000000 then
    if 0x20000 ≤ addr ∧ addr < 0x30000 then s.wr F.THM_REFUSE_REASON [] reason
    else if 0x60100 ≤ addr ∧ addr < 0x60200 then
      (s.wr F.SPN_SYN_REFUSE_REASON [] reason).wr F.SPN_SYN_REFUSE_DEC [] ((addr - 0x60100) / 0x40)
    else (s.wr F.SPN_REFUSE_REASON [] reason).wr F.SPN_REFUSE_OFFSET [] addr
  else
    let t := addr / 0x1000000 - 1
    let o := addr % 0x1000000
    if 0x2000 ≤ o ∧ o < 0x3000 then
      (s.wr F.TIL_SEG_REFUSE_REASON [t] reason).wr F.TIL_SEG_REFUSE_SEG [t] ((o - 0x2000) / 0x10)
    else if 0x100000 ≤ o ∧ o < 0x148000 then
      let b := (o - 0x100000) / 0x1000
      (s.wr F.DRV_REFUSE_REASON [t, b] reason).wr F.DRV_REFUSE_OFFSET [t, b] (o % 0x1000)
    else if 0x200000 ≤ o ∧ o < 0x280000 then
      let b := (o - 0x200000) / 0x2000
      (s.wr F.FLX_REFUSE_REASON [t, b] reason).wr F.FLX_REFUSE_OFFSET [t, b] (o % 0x2000)
    else if 0x280000 ≤ o ∧ o < 0x2C0000 then
      let b := (o - 0x280000) / 0x1000
      (s.wr F.BIA_REFUSE_REASON [t, b] reason).wr F.BIA_REFUSE_OFFSET [t, b] (o % 0x1000)
    else if 0x300000 ≤ o ∧ o < 0x340000 then
      let l := (o - 0x300000) / 0x8000
      let r := (o - 0x300000) % 0x8000
      if r < 0x1000 then (s.wr F.PRB_REFUSE_REASON [t, l] reason).wr F.PRB_REFUSE_OFFSET [t, l] r
      else (s.wr F.RDO_REFUSE_REASON [t, l] reason).wr F.RDO_REFUSE_OFFSET [t, l] r
    else if 0x380000 ≤ o ∧ o < 0x3C0000 then s.wr F.CAP_REFUSE_REASON [t] reason
    else (s.wr F.TIL_REFUSE_REASON [t] reason).wr F.TIL_REFUSE_OFFSET [t] o

/-! ## The event log (R465, R466) -/

/-- Same KIND, block, bit and unit within 1 s: the record coalesces (R465; that KIND counts is DEDUCED, log 24). -/
def LogRec.coalesces (r : LogRec) (kind bit : Nat) (block : BitVec 16) (unit now : Nat) : Bool :=
  decide (r.kind = kind) && decide (r.bit = bit) && decide (r.block = block) && decide (r.unit = unit) &&
    decide (now ≤ r.time / 128 + 156250000)

def LogRec.again (r : LogRec) : LogRec := { r with repeat_ := r.repeat_ + 1, flags := r.flags ||| 8 }

/-- Writes an event into the log buffer: coalesced with a recent equal record, dropped when 256 records wait. -/
def State.logEvent (s : State) (kind sev bit : Nat) (flags : BitVec 8) (block : BitVec 16) (unit : Nat) (desc : Word)
    (data : List Byte) : State :=
  let p := fun r : LogRec => r.coalesces kind bit block unit s.grid
  let up := fun r : LogRec => if p r then r.again else r
  if s.flt.logBuf.any p then { s with flt := { s.flt with logBuf := s.flt.logBuf.map up } }
  else if s.flt.log.any p then { s with flt := { s.flt with log := s.flt.log.map up } }
  else if 256 ≤ s.flt.logBuf.length then { s with flt := { s.flt with dropped := s.flt.dropped + 1 } }
  else
    let dat := if kind = 1 then (List.range 4).map (fun i => BitVec.ofNat 8 (s.flt.dropped / 256 ^ i)) else data
    let r : LogRec :=
      { seq := s.flt.logSeq, kind := kind, sev := sev, bit := bit, flags := flags, block := block, unit := unit,
        desc := desc, time := 128 * s.grid, boot := s.flt.bootCount, repeat_ := 0, data := dat }
    { s with flt :=
      { s.flt with
        logBuf := s.flt.logBuf ++ [r], logSeq := (s.flt.logSeq + 1) % 2 ^ 32,
        dropped := if kind = 1 then 0 else s.flt.dropped } }

/-! ## Unit descriptors (R382) -/

/-- The descriptor of R382 a word spells. -/
def unitOfWord (w : Nat) : UnitDesc := ⟨w % 256, w / 256 % 256, w / 65536 % 65536⟩

/-- Highest INDEX of a kind of tile unit, or of spine unit. -/
def unitCount (kind : Nat) : Nat :=
  match kind with
  | 1 => 64 | 2 => 8 | 3 => 8 | 4 => 64 | 5 => 64 | 6 => 5 | 7 => 256 | 8 => 72 | 9 => 9 | 10 => 1 | 11 => 1
  | 12 => 16 | 13 => 10 | 14 => 80
  | _ => 0

end Sys2Proof.Machine

namespace Sys2Proof

open Machine

/-- A descriptor's key in maps and its word in responses: KIND in byte 0, TILE in byte 1, INDEX in bytes 2-3. -/
def UnitDesc.word (u : UnitDesc) : Nat := u.kind % 256 + 256 * (u.tile % 256) + 65536 * (u.index % 65536)
def UnitDesc.key (u : UnitDesc) : Nat := 2 ^ 24 * u.kind + 2 ^ 16 * u.tile + u.index

def UnitDesc.onSpine (u : UnitDesc) : Bool := decide (12 ≤ u.kind)

/-- Kind, tile and index in range (else 0x0501). -/
def UnitDesc.valid (u : UnitDesc) : Bool :=
  decide (u.index < unitCount u.kind) &&
    (if u.onSpine then decide (u.tile = 0xFF) else decide (u.tile < 7)) &&
    (!decide (u.kind = 7) || decide (u.index % 32 ≤ 16))

/-- The tile is fitted (else 0x0102). -/
def UnitDesc.present (u : UnitDesc) (v : Variant) : Bool := u.onSpine || decide (u.tile < v.tiles)

end Sys2Proof

namespace Sys2Proof.Machine

/-! ## Fault blocks (R445-R449) -/

end Sys2Proof.Machine

namespace Sys2Proof

open Machine

/-- A field of a fault block: the same field of the spine's and of a tile's block. -/
def FltBlk.rd (b : FltBlk) (s : State) (f g : Fld) : Nat :=
  match b with
  | .spine k => s.rd f [k]
  | .tile n k => s.rd g [n, k]

def FltBlk.wr (b : FltBlk) (s : State) (f g : Fld) (v : Nat) : State :=
  match b with
  | .spine k => s.wr f [k] v
  | .tile n k => s.wr g [n, k] v

def FltBlk.count (b : FltBlk) (s : State) (f g : Fld) (n : Nat) : State :=
  match b with
  | .spine k => s.count f [k] n
  | .tile t k => s.count g [t, k] n

/-- Severities by bit. -/
def FltBlk.sevs : FltBlk → List (Option Nat)
  | .spine b => spineSev b
  | .tile _ k => tileSev k

/-- The block exists: listed, and not on an absent tile (R445). -/
def FltBlk.live (b : FltBlk) (v : Variant) : Bool :=
  match b with
  | .spine k => decide (k < 13)
  | .tile n k => decide (n < v.tiles) && decide (k < 108)

def FltBlk.vector : FltBlk → Nat
  | .spine b => 64 + b
  | .tile n k => 128 + 128 * n + k

/-- BLOCK of a log record: [7:0] index, [10:8] tile or 7. -/
def FltBlk.code : FltBlk → BitVec 16
  | .spine b => BitVec.ofNat 16 (0x700 + b)
  | .tile n k => BitVec.ofNat 16 (0x100 * n + k)

end Sys2Proof

namespace Sys2Proof.Machine

/-- Severity of a defined bit; THERM_RATE is device-fatal with THM_RATE.ACT 1 (R447). -/
def State.faultSev (s : State) (b : FltBlk) (bit : Nat) : Option Nat :=
  match b, bit with
  | .spine 2, 3 => some (if s.rdB F.THM_RATE_ACT [] then 4 else 2)
  | b, i => (b.sevs.getD i none)

/-- The unit that a unit-fatal fault names (R446, R447, R455). -/
def faultUnit (b : FltBlk) (bit unit : Nat) : Option UnitDesc :=
  match b with
  | .tile n k =>
    if k < 64 then (if bit ≤ 2 then some ⟨1, n, k⟩ else none)
    else if k < 72 then (if bit ≤ 3 then some ⟨2, n, k - 64⟩ else none)
    else if k < 80 then (if bit ≤ 2 then some ⟨3, n, k - 72⟩ else if bit ≤ 4 then some ⟨7, n, 32 * (k - 72) + unit⟩ else none)
    else if k < 89 then
      (if bit = 0 then some ⟨9, n, k - 80⟩
       else if bit = 1 then (if unit = 8 then some ⟨9, n, k - 80⟩ else some ⟨8, n, 8 * (k - 80) + unit⟩)
       else none)
    else if k < 97 then (if bit ≤ 1 then some ⟨4, n, 8 * (k - 89) + unit⟩ else none)
    else if k < 105 then (if bit = 0 then some ⟨5, n, 8 * (k - 97) + unit⟩ else none)
    else if k = 105 then (if bit = 0 then some ⟨6, n, unit⟩ else none)
    else if k = 106 then (if bit = 0 then some ⟨10, n, 0⟩ else none)
    else (if bit ≤ 1 then some ⟨11, n, 0⟩ else none)
  | .spine b =>
    if b = 2 ∧ bit = 6 then some ⟨11, unit, 0⟩
    else if b = 3 ∧ bit = 0 then some ⟨13, 0xFF, unit⟩
    else if 4 ≤ b ∧ b ≤ 7 ∧ bit = 0 then some ⟨12, 0xFF, 4 * (b - 4) + unit⟩
    else none

/-- Largest UNIT of a bit of a block (R446, R447); 0x7F is also a unit of spine blocks 10 and 11. -/
def unitMax (b : FltBlk) (bit : Nat) : Nat :=
  match b with
  | .tile _ k =>
    if k < 72 ∨ k = 106 then 0
    else if k < 80 then (if bit = 3 ∨ bit = 4 then 16 else if bit = 10 then 15 else 0)
    else if k < 89 then 8
    else if k < 105 then 7
    else if k = 105 then (if bit = 0 then 4 else 63)
    else 31
  | .spine b =>
    match b with
    | 2 => if bit = 6 then 6 else 89
    | 3 => 9
    | 4 | 5 | 6 | 7 | 9 => 3
    | 10 => 79
    | 11 => 6
    | 12 => 1
    | _ => 0

def unitOk (b : FltBlk) (bit unit : Nat) : Bool :=
  decide (unit ≤ unitMax b bit) ||
    (decide (unit = 0x7F) && (decide (b = .spine 10) || decide (b = .spine 11)))

/-- One fault to record: its severity, sources, and whether its reaction is taken. -/
structure FaultRec where
  bit  : Nat
  unit : Nat
  sev  : Nat
  real : Bool
  inj  : Bool
  deriving DecidableEq, Repr

/-- `a` comes before `b` for FLT_FIRST: higher severity, then lower bit, then lower unit (R449). -/
def FaultRec.before (a b : FaultRec) : Bool :=
  decide (b.sev < a.sev) || (decide (a.sev = b.sev) &&
    (decide (a.bit < b.bit) || (decide (a.bit = b.bit) && decide (a.unit ≤ b.unit))))

/-- The fault of a cycle that FLT_FIRST takes (R449). -/
def firstFault : List FaultRec → Option FaultRec
  | [] => none
  | f :: fs =>
    match firstFault fs with
    | none => some f
    | some g => if f.before g then some f else some g

/-- Sets one fault's bits, counts it, signals the vector when its bit was clear and unmasked, asserts ERR_N when its
FLT_ACTION bit is 1, and logs it from severity 1 up (R448 steps 1, 3, 5, 6; R463; R465). -/
def State.recordOne (s : State) (b : FltBlk) (f : FaultRec) : State :=
  let was := bit (b.rd s F.FLT_STATUS_STATUS F.TFLT_STATUS_STATUS) f.bit
  let masked := bit (b.rd s F.FLT_MASK_MASK F.TFLT_MASK_MASK) f.bit
  let act := bit (b.rd s F.FLT_ACTION_PIN F.TFLT_ACTION_PIN) f.bit
  let or_ := fun (s : State) (x y : Fld) => b.wr s x y (b.rd s x y ||| 2 ^ f.bit)
  let s := or_ s F.FLT_STATUS_STATUS F.TFLT_STATUS_STATUS
  let s := if f.real then or_ s F.FLT_REAL_REAL F.TFLT_REAL_REAL else s
  let s := if f.inj then or_ s F.FLT_INJ_INJ F.TFLT_INJ_INJ else s
  let s := b.count s F.FLT_COUNT_RECORDED F.TFLT_COUNT_RECORDED 1
  let s := if !was && !masked then s.signal b.vector else s
  let s := if act then { s with flt := { s.flt with errN := true, errHold := some (s.now + 39063) } } else s
  if 1 ≤ f.sev then
    s.logEvent 1 f.sev f.bit (BitVec.ofNat 8 ((if f.real then 1 else 0) + (if f.inj then 2 else 0))) b.code f.unit
      (BitVec.ofNat 32 (match faultUnit b f.bit f.unit with | some u => u.word | none => 0xFFFFFFFF)) []
  else s

/-- Records the faults of one cycle of one block: FLT_FIRST and its tick when VALID is 0, then each fault. -/
def State.record (s : State) (b : FltBlk) (fs : List FaultRec) : State :=
  let s :=
    match firstFault fs with
    | none => s
    | some f =>
      if b.rd s F.FLT_FIRST_VALID F.TFLT_FIRST_VALID = 1 then s
      else
        let s := b.wr s F.FLT_FIRST_VALID F.TFLT_FIRST_VALID 1
        let s := b.wr s F.FLT_FIRST_BIT F.TFLT_FIRST_BIT f.bit
        let s := b.wr s F.FLT_FIRST_SEV F.TFLT_FIRST_SEV f.sev
        let s := b.wr s F.FLT_FIRST_UNIT F.TFLT_FIRST_UNIT f.unit
        let s := b.wr s F.FLT_FIRST_REAL F.TFLT_FIRST_REAL (if f.real then 1 else 0)
        let s := b.wr s F.FLT_FIRST_INJ F.TFLT_FIRST_INJ (if f.inj then 1 else 0)
        b.wr s F.FLT_FIRST_TICK_TICK F.TFLT_FIRST_TICK_TICK (short s.grid)
  fs.foldl (fun s f => s.recordOne b f) s

/-- Records a real fault whose severity (0-2) has no reaction. -/
def State.note (s : State) (b : FltBlk) (bit unit : Nat) : State :=
  if b.live s.variant then s.record b [⟨bit, unit, (s.faultSev b bit).getD 0, true, false⟩] else s

end Sys2Proof.Machine
end

