-- ==== Sys2Proof/Machine/Flags.lean ====
section
/-! DEFINITION. The flags the block computes: the flags of a thread's shot (03 R72, R79, R82, R87, R90, R92) and the FLAGS of
a completion (16 R367). Fault flags are recorded in Machine/Signals.lean (21 R448). -/

namespace Sys2Proof.Machine

/-- Key of an output's enabling in Outs. -/
def kindNum : OutKind → Nat
  | .drive => 0 | .probe => 1 | .flux => 2 | .bias => 3
def outKey (k : OutKind) (t c : Nat) : Nat := 1000 * kindNum k + 100 * t + c

/-- Sets a flag of the running shot: 0 WAIT_LATE, 1 DEC_LATE, 2 MEAS_OVERLAP, 3 LOOP_ZERO, 4 PULSE_CUT. -/
def Thread.flag (t : Thread) (i : Nat) : Thread := { t with cur := t.cur ||| BitVec.ofNat 5 (2 ^ i) }

/-- The thread runs a shot: issuing or waiting. -/
def Thread.active (t : Thread) : Bool := decide (1 ≤ t.st) && decide (t.st ≤ 6)

/-- Sets a flag of the thread's shot that began at a tick: the running one, or the one that ended last. -/
def Thread.flagShot (t : Thread) (shot i : Nat) : Thread :=
  if t.active ∧ t.start = shot then t.flag i
  else if t.lastShot = some shot then { t with flags := t.flags ||| BitVec.ofNat 5 (2 ^ i) }
  else t

/-- Sets a FLAGS bit of the job's completion: 1 UNDERRUN, 2 BUF_FULL, 3 STAGING_FULL, 4 RES_EXCESS, 5 LATE_START,
6 CAP_ABORTED, 7 TRIG_OVERRUN. -/
def Job.flag (b : Job) (i : Nat) : Job := { b with flags := b.flags ||| BitVec.ofNat 8 (2 ^ i) }

end Sys2Proof.Machine
end

