-- ==== Sys2Proof/Machine/Shots.lean ====
section
/-! DEFINITION. Shared operations over threads, shots, jobs and partitions (03 R71-R75; 16 R350, R354, R364, R485;
01 R27) and over mailbox responses (17 R371-R374). -/

namespace Sys2Proof.Machine

/-! ## Threads and jobs -/

def State.thr (s : State) (g : Nat) : Thread := SMap.get .idle s.threads g
def State.setThr (s : State) (g : Nat) (t : Thread) : State := { s with threads := SMap.put .idle s.threads g t }
def State.updThr (s : State) (g : Nat) (f : Thread → Thread) : State := s.setThr g (f (s.thr g))

/-- Tile, cluster and thread of a global thread index. -/
def thrTile (g : Nat) : Nat := g / 72
def thrCluster (g : Nat) : Nat := g % 72 / 8
def thrIndex (g : Nat) : Nat := g % 8
/-- Global cluster index, 9 * tile + cluster. -/
def thrGc (g : Nat) : Nat := g / 8
def gid (tile cluster thr : Nat) : Nat := 72 * tile + 8 * cluster + thr

def State.job (s : State) (j : Nat) : Job := SMap.get .idle s.qm.jobs j
def State.setJob (s : State) (j : Nat) (b : Job) : State :=
  { s with qm := { s.qm with jobs := SMap.put .idle s.qm.jobs j b } }
def State.updJob (s : State) (j : Nat) (f : Job → Job) : State := s.setJob j (f (s.job j))
def State.qp (s : State) (q : Nat) : Qp := SMap.get .idle s.qm.qps q
def State.setQp (s : State) (q : Nat) (v : Qp) : State :=
  { s with qm := { s.qm with qps := SMap.put .idle s.qm.qps q v } }
def State.plan (s : State) (p : Nat) : Plan := SMap.get .idle s.qm.plans p
def State.part (s : State) (p : Nat) : Part := SMap.get .idle s.qm.parts p
def State.setPart (s : State) (p : Nat) (v : Part) : State :=
  { s with qm := { s.qm with parts := SMap.put .idle s.qm.parts p v } }

/-- A job in a slot, in flight (R350). -/
def Job.present (b : Job) : Bool := decide (1 ≤ b.kind)
/-- In flight and not ended. -/
def Job.open_ (b : Job) : Bool := b.present && b.ended.isNone

/-- Partition created. -/
def State.partValid (s : State) (p : Nat) : Bool := s.rdB F.QMG_PART_CFG_VALID [p]
/-- The partition's policy is CONTINUITY. -/
def State.continuity (s : State) (p : Nat) : Bool := s.rdB F.QMG_PART_CFG_POLICY [p]

/-- Partition state by its jobs that have not ended (R350): 0 IDLE, 1 ARMED, 2 RUN. -/
def State.partState (s : State) (p : Nat) : Nat :=
  let js := s.qm.jobs.filter (fun e => e.2.open_ && decide (e.2.part = p))
  if js.any (fun e => e.2.running) then 2 else if js.isEmpty then 0 else 1

/-- Every partition is IDLE. -/
def State.allIdle (s : State) : Bool := s.qm.jobs.all (fun e => !e.2.open_)

/-- Reports each partition's state with the tick of its change (R485). -/
def State.syncPart (s : State) (p : Nat) : State :=
  if s.rd F.QMG_PART_CFG_STATE [p] = s.partState p then s
  else (s.wr F.QMG_PART_CFG_STATE [p] (s.partState p)).wr F.QMG_PART_TICK_TICK [p] (short s.grid)

def State.syncParts (s : State) : State := (List.range 64).foldl State.syncPart s

/-- Threads of a job: global indices, from its plan. -/
def PlanThr.gid (t : PlanThr) : Nat := Machine.gid t.tile t.cluster t.thr
def State.threadsOf (s : State) (b : Job) : List Nat :=
  if b.kind = 1 then (s.plan b.plan).threads.map PlanThr.gid else []
def State.jobThreads (s : State) (j : Nat) : List Nat := s.threadsOf (s.job j)

/-- Readout lines a job measures, as global lines. -/
def State.measured (s : State) (b : Job) : List Nat := if b.kind = 1 then (s.plan b.plan).lines else []
def State.jobLines (s : State) (j : Nat) : List Nat := s.measured (s.job j)

/-- Drive channels a job needs: the partition's channels in the drive groups of its clusters 0-7 (R359), as
64 * tile + local. -/
def State.chansOf (s : State) (b : Job) : List Nat :=
  let thrs := s.threadsOf b
  (s.part b.part).chans.filter (fun c =>
    thrs.any (fun g => decide (thrTile g = c / 64) && decide (thrCluster g = c % 64 / 8)))
def State.jobChans (s : State) (j : Nat) : List Nat := s.chansOf (s.job j)

/-- Windows of a job not yet closed. -/
def State.jobWindows (s : State) (j : Nat) : Bool := s.rdo.windows.any (fun w => decide (w.job = some j))

/-! ## Ending a thread's shot (R72, R73) -/

/-- Every other active thread of the job must stop: its peer ended in tick `e`; 2 ticks later at the latest on the same
tile, 8 on another. -/
def State.markPeers (s : State) (j g e : Nat) : State :=
  { s with threads := s.threads.map (fun p =>
      if decide (p.1 ≠ g) && decide (p.2.job = some j) && p.2.active && p.2.peerEnd.isNone
      then (p.1, { p.2 with peerEnd := some (e + if thrTile p.1 = thrTile g then 2 else 8) }) else p) }

/-- Every barrier of the job fails for the shot. -/
def State.failBars (s : State) (j e : Nat) : State :=
  { s with bars := s.bars.map (fun p =>
      if decide (p.2.job = some j) && p.2.failed.isNone then (p.1, { p.2 with failed := some e }) else p) }

/-- UNDERRUN in place of OK for a shot whose pulse tapped a missing sample under TIMING (06 R176). -/
def Thread.ownStatus (t : Thread) (status : Nat) : Nat := if t.urun && decide (status = 0) then 0x0F else status

/-- Ends a thread's shot with a status in tick `e`: the flags are kept, the job notes it, and for a status of its own
that is not OK its peers stop (R73). A thread without a running shot is unchanged. -/
def State.endThread (s : State) (g status e : Nat) : State :=
  let t := s.thr g
  if t.active then
    let s := s.setThr g { t with
      st := if status = 0x0D then 7 else 0, wait := .none, status := BitVec.ofNat 8 (t.ownStatus status), flags := t.cur,
      lastShot := some t.start,
      endTick := BitVec.ofNat 32 (s.gridAt e), ended := some e, peerEnd := none }
    match t.job with
    | none => s
    | some j =>
      let s := s.updJob j (fun b => { b with finished := b.finished ++ [(g, BitVec.ofNat 8 (t.ownStatus status), e)] })
      if status = 0 ∨ status = 0x0C then s else (s.markPeers j g e).failBars j e
  else s

/-- Ends the shot of every active thread in a list, each with the same status. -/
def State.endThreads (s : State) (gs : List Nat) (status e : Nat) : State :=
  gs.foldl (fun s g => s.endThread g status e) s

/-! ## Results (R365, R366) -/

/-- Sets completion FLAGS bit `i` of a job (R367). -/
def State.jobFlag (s : State) (j i : Nat) : State := s.updJob j (fun b => b.flag i)

/-- Appends result bytes of a job to staging: beyond RES_LEN they are not written (BUF_FULL); under TIMING a record
that finds the partition's staging full is dropped (STAGING_FULL). -/
def State.stageBytes (s : State) (j : Nat) (bytes : List Byte) : State :=
  let b := s.job j
  let p := s.part b.part
  if !s.continuity b.part && decide (s.rd F.QMG_PART_QUOTA_QUOTA [b.part] * 2 ^ 20 < p.inUse + bytes.length) then
    s.jobFlag j 3
  else
    let fit := bytes.take (b.resLen - b.resBytes)
    let s := if fit.length < bytes.length then s.jobFlag j 2 else s
    if fit.isEmpty then s
    else
      let s := s.updJob j (fun b =>
        { b with staged := b.staged ++ [(b.resAddr + b.resBytes, fit)], resBytes := b.resBytes + fit.length })
      s.setPart b.part { p with inUse := p.inUse + fit.length }

/-- Appends a record of a shot of a RUN job: beyond RES_PER_SHOT of that shot it is dropped (RES_EXCESS). -/
def State.stageRecord (s : State) (j shot : Nat) (bytes : List Byte) : State :=
  let b := s.job j
  let n := bytes.length
  match b.tails.find? (fun t => decide (t.start = shot)) with
  | some t =>
    if (s.plan b.plan).resPerShot < t.bytes + n then s.jobFlag j 4
    else
      (s.updJob j (fun b => { b with
        tails := b.tails.map (fun t => if t.start = shot then { t with bytes := t.bytes + n } else t) })).stageBytes j bytes
  | none =>
    if (s.plan b.plan).resPerShot < b.shotBytes + n then s.jobFlag j 4
    else (s.updJob j (fun b => { b with shotBytes := b.shotBytes + n })).stageBytes j bytes

/-- Little-endian bytes of a number, and of words (R10). -/
def leBytes : Nat → Nat → List Byte
  | 0, _ => []
  | n + 1, v => BitVec.ofNat 8 v :: leBytes n (v / 256)

def wordBytes (ws : List Nat) : List Byte := ws.flatMap (leBytes 4)

/-- The little-endian number in `n` bytes from byte `i` on; missing bytes read 0. -/
def leAt (l : List Byte) (i : Nat) : Nat → Nat
  | 0 => 0
  | n + 1 => (l.getD i 0).toNat + 256 * leAt l (i + 1) n

/-- At the end of a job each of its accumulators yields one record (R240). -/
def State.stageAverages (s : State) (j : Nat) : State :=
  let mine := fun (a : AvgAcc) => decide (a.job = j) && a.copy.isNone
  let recs := s.rdo.avg.filter mine
  let s := recs.foldl (fun s a =>
    s.stageBytes j (leBytes 8 (unsigned 64 a.sumI) ++ leBytes 8 (unsigned 64 a.sumQ) ++
      wordBytes [a.n % 2 ^ 32, a.n1 % 2 ^ 32, a.n2 % 2 ^ 32, a.hdr.toNat])) s
  { s with rdo := { s.rdo with avg := s.rdo.avg.filter (fun a => decide (a.job ≠ j)) } }

/-! ## Barriers (R83) -/

def State.bar (s : State) (b : Nat) : Barrier := SMap.get .idle s.bars b

/-- Members of a barrier on a tile as one number: bit 8 * cluster + thread. -/
def Barrier.membersOn (r : Barrier) (t : Nat) : Nat :=
  (r.members.filter (fun g => decide (thrTile g = t))).foldl (fun m g => m + 2 ^ (g % 72)) 0

/-- Sets a barrier and shows its membership; SPANS reads 0 on a tile without a member (R83, log 77). -/
def State.setBar (s : State) (b : Nat) (r : Barrier) : State :=
  let s := { s with bars := SMap.put .idle s.bars b r }
  (List.range s.variant.tiles).foldl (fun s t =>
    let m := r.membersOn t
    let s := (s.wr F.TIL_BAR_MEM_MEM_LO [t, b] m).wr F.TIL_BAR_MEM_MEM_MID [t, b] (m / 2 ^ 32)
    let s := (s.wr F.TIL_BAR_MEM_MEM_C8 [t, b] (m / 2 ^ 64)).wr F.TIL_BAR_MEM_WAITING [t, b] 0
    s.wrB F.TIL_BAR_MEM_SPANS [t, b] (r.members.any (fun g => decide (thrTile g = t)) && r.members.any (fun g => decide (thrTile g ≠ t)))) s

/-! ## Shared resources (R358, R361) -/

def meetsBy {α : Type} [DecidableEq α] (a b : List α) : Bool := a.any (fun x => decide (x ∈ b))

/-- Two plans share a thread, a barrier, a PUB slot, a stream, a line, a generator or a decision slot. -/
def Plan.shares (p q : Plan) : Bool :=
  meetsBy (p.threads.map PlanThr.gid) (q.threads.map PlanThr.gid) || decide (p.bars &&& q.bars ≠ 0) ||
    meetsBy (p.pubs.map Prod.fst) (q.pubs.map Prod.fst) || meetsBy p.strms q.strms || meetsBy p.lines q.lines ||
    meetsBy p.gens q.gens || meetsBy p.brdSlots q.brdSlots

/-- Two jobs share a resource; only RUN jobs hold any (log 50). -/
def State.shares (s : State) (b c : Job) : Bool :=
  decide (b.kind = 1) && decide (c.kind = 1) && (s.plan b.plan).shares (s.plan c.plan)

/-- A job has completed: those admitted after it that share a resource start 157 ticks later at the earliest. -/
def State.holdSharers (s : State) (j : Nat) : State :=
  let b := s.job j
  { s with qm :=
    { s.qm with
      jobs := s.qm.jobs.map (fun (e : Nat × Job) =>
        if e.2.open_ && e.2.startAt.isNone && decide (b.order < e.2.order) && s.shares b e.2 then
          (e.1, { e.2 with floor := max e.2.floor (s.now + 157) })
        else e) } }

/-! ## Ending a job (R350) -/

def State.senseTile (s : State) (t : Nat) : SenseTile := SMap.get .idle s.sense.tiles t
def State.setSenseTile (s : State) (t : Nat) (v : SenseTile) : State :=
  { s with sense := { s.sense with tiles := SMap.put .idle s.sense.tiles t v } }

/-- A tile's scanning stops at the end of its scan (08 R198). -/
def State.stopScan (s : State) (t : Nat) : State :=
  (s.wr F.SNS_CTRL_SCAN_EN [t] 0).setSenseTile t { s.senseTile t with stopReq := true }

/-- The tile lies in a SCAN job's range of pairs. -/
def Job.scansTile (b : Job) (t : Nat) : Bool :=
  decide (b.kind = 6) && decide (b.firstQ / 64 ≤ t) && decide (t ≤ (b.firstQ + b.countQ - 1) / 64)

/-- An ended job with no shot running: its average records are staged, its barriers are free, and the jobs that share its
resources may go on. -/
def State.settleJob (s : State) (j : Nat) : State :=
  let s := s.stageAverages j
  let s := (s.bars.filter (fun p => decide (p.2.job = some j))).foldl (fun s p => s.setBar p.1 .idle) s
  s.holdSharers j

/-- Decides a job's completion status; its completion waits to be posted. A SCAN job's tiles stop scanning, but at
entry to SAFE (22 R483). -/
def State.endJob (s : State) (j status reason : Nat) : State :=
  let b := s.job j
  if b.open_ then
    let live := b.running && decide (b.kind = 1)
    let s := s.setJob j { b with ended := some (status, reason), nextAt := none, rerun := [], recAt := none, redo := [], running := live }
    let q := s.qp b.qp
    let s := s.setQp b.qp { q with done := q.done ++ [⟨some j, b.tag, reason, b.sqHead⟩] }
    let s := if b.running && decide (status ≠ 0x05) then ((List.range 7).filter b.scansTile).foldl State.stopScan s else s
    if live then s else s.settleJob j
  else s

/-- Of two ended threads, the one whose status is the shot's: the earlier, in one tick the lower thread (R74). -/
def endsFirst (a b : Nat × BitVec 8 × Nat) : Bool :=
  decide (a.2.2 < b.2.2) || (decide (a.2.2 = b.2.2) && decide (a.1 ≤ b.1))

/-- The first thread that ended the shot with a status of its own that is not OK. -/
def firstEnding : List (Nat × BitVec 8 × Nat) → Option (Nat × BitVec 8 × Nat)
  | [] => none
  | a :: rest =>
    if a.2.1 = 0 ∨ a.2.1 = 0x0C then firstEnding rest
    else
      match firstEnding rest with
      | none => some a
      | some b => if endsFirst a b then some a else some b

/-- The status of a job's running shot so far (R72, R74). -/
def Job.shotStatus (b : Job) : BitVec 8 :=
  if b.struck ≠ 0 then b.struck else ((firstEnding b.finished).map (fun e => e.2.1)).getD 0

/-- What a re-run awaits is noted beside what it awaits already (R511). -/
def Job.await_ (b : Job) (aw : Await) : Job :=
  { b with rerun := if b.rerun.contains aw then b.rerun else b.rerun ++ [aw], recAt := none }

/-- A struck shot of the job is re-run: CONTINUITY, and the job goes on. -/
def State.reruns (s : State) (b : Job) : Bool := s.continuity b.part && b.open_ && !b.abort

/-- A fault interrupts the running shot of a job (R27): its threads end with SHOT_FAULT, or, with only windows left,
the shot takes that status; under CONTINUITY the shot is to be re-run once `aw` holds. -/
def State.strike (s : State) (j : Nat) (aw : Option Await) : State :=
  let b := s.job j
  if b.present && b.running && decide (b.kind = 1) then
    let live := (s.jobThreads j).filter (fun g => (s.thr g).active && decide ((s.thr g).job = some j))
    let s := if live.isEmpty then s.setJob j { b with struck := 0x0E } else s.endThreads live 0x0E s.now
    match aw with
    | some a => if s.reruns b then s.updJob j (fun b => b.await_ a) else s
    | none => s
  else s

/-- An earlier shot of a job, with windows still open, takes a status in place of OK; where it is re-run this attempt no
longer counts, and it is run again after the shot in progress (R27, log 101). -/
def State.strikeTail (s : State) (j shot : Nat) (status : BitVec 8) (aw : Option Await) : State :=
  let b := s.job j
  match b.tails.find? (fun t => decide (t.start = shot)), aw with
  | none, _ => s
  | some t, some a =>
    if s.reruns b && t.counts then
      s.setJob j { b with
        tails := b.tails.map (fun u => if u.start = shot then { u with status := status, counts := false } else u),
        redo := b.redo ++ [⟨t.no, t.start, a⟩] }
    else
      s.setJob j { b with
        tails := b.tails.map (fun u => if decide (u.start = shot) && decide (u.status = 0) then { u with status := status } else u) }
  | some _, none =>
    s.setJob j { b with
      tails := b.tails.map (fun u => if decide (u.start = shot) && decide (u.status = 0) then { u with status := status } else u) }

/-- The same for the shot that began at a tick, the one in progress or an earlier one. -/
def State.strikeShot (s : State) (j shot : Nat) (aw : Option Await) : State :=
  if (s.job j).tails.any (fun t => decide (t.start = shot)) then s.strikeTail j shot 0x0E aw
  else if (s.job j).shotAt = shot then s.strike j aw else s

/-- The job whose shot, begun at a tick, a thread ran or runs. -/
def State.shotJob (s : State) (g shot : Nat) : Option Nat :=
  (s.qm.jobs.find? (fun e => e.2.present && decide (e.2.kind = 1) && (s.threadsOf e.2).contains g &&
    ((e.2.running && decide (e.2.shotAt = shot)) || e.2.tails.any (fun t => decide (t.start = shot))))).map Prod.fst

/-- The part of R27 for a unit fenced with no spare: the job ends FENCED and its running shot is struck. -/
def State.doom (s : State) (j : Nat) : State :=
  if (s.job j).open_ then (s.endJob j 0x02 0).strike j none else s

/-- The same where the units fenced are threads (R455, R459): those of them still in the job's shot end it with
SHOT_FAULT, and R73 ends it on the others. -/
def State.doomBy (s : State) (fencing : Nat → Bool) (j : Nat) : State :=
  if (s.job j).open_ then
    let hit := (s.jobThreads j).filter (fun g => fencing g && (s.thr g).active && decide ((s.thr g).job = some j))
    let s := s.endJob j 0x02 0
    if hit.isEmpty then s.strike j none else s.endThreads hit 0x0E s.now
  else s

/-! ## Mailbox responses (R371-R374) -/

def State.mbx (s : State) (n : Nat) : Mbx := SMap.get .idle s.mb.boxes n
def State.setMbx (s : State) (n : Nat) (m : Mbx) : State :=
  { s with mb := { s.mb with boxes := SMap.put .idle s.mb.boxes n m } }

def stOk : Nat := 0
def stProgress : Nat := 1
def stRefused : Nat := 2
def stFailed : Nat := 3

/-- Writes a response. IN_PROGRESS leaves the mailbox BUSY; a final response makes it DONE and the record, and signals
vector n after IN_PROGRESS, else when FLAGS.IRQ is 1. -/
def State.respond (s : State) (n status reason detail : Nat) (txn : Word) (payload : List Byte) : State :=
  let m := s.mbx n
  let r : MbxResp :=
    { opcode := m.req.opcode, status := status, cmdId := m.req.cmdId, txnId := txn, reason := reason,
      detail := BitVec.ofNat 32 detail, tick := BitVec.ofNat 32 s.grid, payload := payload }
  if status = stProgress then s.setMbx n { m with resp := r, inProg := true }
  else
    let s := s.setMbx n { m with resp := r, inProg := false, record := some (m.req.opcode, m.req.cmdId, r) }
    let s := s.wr F.MBX_STATUS_STATE [n] 2
    if m.inProg || m.req.flags.getLsbD 0 then s.signal n else s

/-- OK with a payload. -/
def State.ok (s : State) (n : Nat) (payload : List Byte) : State := s.respond n stOk 0 0 0 payload
/-- REFUSED, the reason concerning item `detail` (0xFFFF_FFFF: the whole command). -/
def State.deny (s : State) (n reason detail : Nat) : State := s.respond n stRefused reason detail 0 []
def whole : Nat := 0xFFFFFFFF
def State.fail (s : State) (n reason : Nat) : State := s.respond n stFailed reason whole 0 []
def State.progress (s : State) (n : Nat) : State := s.respond n stProgress 0 0 0 []

end Sys2Proof.Machine
end

