-- ==== Sys2Proof/Machine/Capture.lean ====
section
/-! DEFINITION. The capture engine of a tile (11): the trigger conditions, the engine's states, records, aborted records,
and the commands CAP_ARM to CAP_REARM_END. What is tapped is in Machine/CapTap.lean. -/

namespace Sys2Proof.Machine

/-! ## Taps (R267) -/

def State.cap (s : State) (t : Nat) : CapRun := SMap.get .idle s.caps t
def State.setCap (s : State) (t : Nat) (r : CapRun) : State := { s with caps := SMap.put .idle s.caps t r }
def State.capState (s : State) (t : Nat) : Nat := s.rd F.CAP_STATUS_STATE [t]

def cIdle : Nat := 0
def cRearm : Nat := 1
def cArmed : Nat := 2
def cTriggered : Nat := 3
def cDone : Nat := 4
def cWait : Nat := 5

/-- Bytes of a stored sample. -/
def tapBytes (kind : Nat) : Nat := if kind = 1 then 4 else 2

/-- Grid time, in samples of 50 ps, of tap sample n. -/
def tapTime (kind n : Nat) : Nat := if kind = 0 then 2 * n else if kind = 1 then 16 * n + 8 else n

/-- Index of the first tap sample at or after a grid time in samples. -/
def tapAt (kind t : Nat) : Nat :=
  if kind = 0 then (t + 1) / 2 else if kind = 1 then (t + 7) / 16 else t

/-- The samples of the record that lie in a tick's boundary `b` or later begin here; those before it are written. -/
def tapBoundary (kind b : Nat) : Nat := tapAt kind (128 * b)

/-! ## Conditions (R272-R274) -/

/-- Integer square root by bits from 2^k down. -/
def isqrtBits : Nat → Nat → Nat → Nat
  | 0, n, r => if (r + 1) * (r + 1) ≤ n then r + 1 else r
  | k + 1, n, r => isqrtBits k n (if (r + 2 ^ (k + 1)) * (r + 2 ^ (k + 1)) ≤ n then r + 2 ^ (k + 1) else r)

/-- round(sqrt n) for n below 2^66 (R510). -/
def roundSqrt (n : Nat) : Nat :=
  let r := isqrtBits 32 n 0
  if r * r + r < n then r + 1 else r

/-- The signal a condition works on: I, Q or MAG. -/
def capSignal (sel : Nat) (x : Int × Int) : Int :=
  if sel = 0 then x.1 else if sel = 1 then x.2
  else (min (roundSqrt (x.1 * x.1 + x.2 * x.2).toNat) 65535 : Nat)

/-- A level in the units of the signal: signed for I and Q, unsigned for MAG. -/
def capLevel (sel v : Nat) : Int := if sel = 2 then (v : Int) else signed 16 v

/-- The settings of the evaluators. -/
structure CapCfg where
  edgeEn : Bool
  sig    : Nat
  pol    : Nat
  lvlMode : Bool
  hyst   : Int
  level  : Int
  widthEn : Bool
  wmode  : Nat
  wmin   : Nat
  wmax   : Nat
  runtEn : Bool
  runtSig : Nat
  runtNeg : Bool
  low    : Int
  high   : Int
  tmoEn  : Bool
  tmo    : Nat
  slewEn : Bool
  slewSig : Nat
  ns     : Nat
  delta  : Nat
  deriving DecidableEq, Repr

def State.capCfg (s : State) (t : Nat) : CapCfg :=
  { edgeEn := s.rdB F.CAP_EDGE_EN [t], sig := s.rd F.CAP_EDGE_SIG [t], pol := s.rd F.CAP_EDGE_POL [t],
    lvlMode := s.rdB F.CAP_EDGE_LEVELMODE [t], hyst := (s.rd F.CAP_EDGE_HYST [t] : Nat),
    level := capLevel (s.rd F.CAP_EDGE_SIG [t]) (s.rd F.CAP_EDGE_LEVEL_LEVEL [t]),
    widthEn := s.rdB F.CAP_WIDTH_EN [t], wmode := s.rd F.CAP_WIDTH_WMODE [t], wmin := s.rd F.CAP_WMIN_WMIN [t],
    wmax := s.rd F.CAP_WMAX_WMAX [t], runtEn := s.rdB F.CAP_RUNT_EN [t], runtSig := s.rd F.CAP_RUNT_SIG [t],
    runtNeg := s.rdB F.CAP_RUNT_POL [t],
    low := capLevel (s.rd F.CAP_RUNT_SIG [t]) (s.rd F.CAP_RUNT_THR_LOW [t]),
    high := capLevel (s.rd F.CAP_RUNT_SIG [t]) (s.rd F.CAP_RUNT_THR_HIGH [t]),
    tmoEn := s.rdB F.CAP_TMO_EN [t], tmo := s.rd F.CAP_TMO_T_T [t], slewEn := s.rdB F.CAP_SLEW_EN [t],
    slewSig := s.rd F.CAP_SLEW_SIG [t], ns := s.rd F.CAP_SLEW_NS [t] + 1, delta := s.rd F.CAP_SLEW_DELTA [t] }

/-- One sample through the edge, width, runt and timeout evaluators: what they remember and the causes met (bits of
CAUSES but slew and force). `armed` is the first sample of ARMED, which restarts the timeout. -/
def capStep (c : CapCfg) (e : CapEval) (x : Int × Int) (armed : Bool) : CapEval × Nat :=
  let v := capSignal c.sig x
  let rise := e.upArm && decide (c.level ≤ v)
  let fall := e.dnArm && decide (v ≤ c.level)
  let q := if c.pol = 0 then rise else if c.pol = 1 then fall else rise || fall
  let up := if v ≤ c.level - c.hyst then true else if rise then false else e.upArm
  let dn := if c.level + c.hyst ≤ v then true else if fall then false else e.dnArm
  let back := match e.pulse with
    | some (_, true) => decide (v < c.level)
    | some (_, false) => decide (c.level < v)
    | none => false
  let len := match e.pulse with | some (n, _) => n | none => 0
  let wid := c.widthEn &&
    (if c.wmode = 1 then e.pulse.isSome && !back && decide (len + 1 = c.wmax + 1)
     else back && (if c.wmode = 0 then decide (len < c.wmin) else decide (c.wmin ≤ len) && decide (len ≤ c.wmax)))
  let pulse := if q then some (1, rise) else if back then none else e.pulse.map (fun p => (p.1 + 1, p.2))
  let since := if q then 0 else if armed then 0 else e.since + 1
  let r := capSignal c.runtSig x
  let met := c.runtEn && e.runtUp && (if c.runtNeg then decide (c.high < r) else decide (r < c.low))
  let cross := match e.last with
    | none => false
    | some p => if c.runtNeg then decide (c.high ≤ p) && decide (r < c.high)
                else decide (p ≤ c.low) && decide (c.low < r)
  let out := if c.runtNeg then decide (r ≤ c.low) else decide (c.high ≤ r)
  let runtUp := (e.runtUp || cross) && !met && !out
  let edge := c.edgeEn &&
    (if c.lvlMode then
      (if c.pol = 0 then decide (c.level ≤ v) else if c.pol = 1 then decide (v ≤ c.level) else true)
     else q)
  let tmo := c.tmoEn && decide (c.tmo ≤ since)
  ({ upArm := up, dnArm := dn, pulse := pulse, since := since, runtUp := runtUp, last := some r },
   (if edge then 1 else 0) + (if wid then 2 else 0) + (if met then 4 else 0) + (if tmo then 16 else 0))

/-- Slew: the sample against the one NS before it, `past` newest first. -/
def capSlew (c : CapCfg) (past : List (Int × Int)) (x : Int × Int) : Bool :=
  c.slewEn && (match past[c.ns - 1]? with
    | some y => decide ((c.delta : Int) < |capSignal c.slewSig x - capSignal c.slewSig y|)
    | none => false)

/-- PRIMARY: timeout, then runt, width, slew, edge, force (R274). -/
def capPrimary (causes : Nat) : Nat :=
  if bit causes 4 then 4 else if bit causes 2 then 2 else if bit causes 1 then 1 else if bit causes 3 then 3
  else if bit causes 0 then 0 else 5

/-! ## The engine (R268, R269, R278) -/

/-- The limits of R268 and R272 on the settings in force. CAP_DEST_LO keeps low bits as written; ARM refuses them (log 70). -/
def State.capLimitsOk (s : State) (t : Nat) : Bool :=
  let len := s.rd F.CAP_LEN_LEN [t]
  let pre := s.rd F.CAP_PRE_PRE [t]
  let b := tapBytes (s.rd F.CAP_TAP_KIND [t])
  let c := s.capCfg t
  decide (64 ≤ len) && decide (len ≤ 1048576) && decide (len % 64 = 0) && decide (pre ≤ len / 2) &&
    (if s.rdB F.CAP_CTRL_LONG [t] then
      decide (pre * b ≤ 2 ^ 20) && decide (s.rd F.CAP_DEST_LO_DEST_LO [t] % 4096 = 0)
     else decide (len * b ≤ 2 ^ 21)) &&
    !(decide (c.wmode = 2) && decide (c.wmax < c.wmin)) && !(c.runtEn && decide (c.high ≤ c.low))

/-- The settings in force. -/
def State.capSet (s : State) (t : Nat) : CapSet :=
  { tap := s.rd F.CAP_TAP_KIND [t] + 4 * s.rd F.CAP_TAP_UNIT [t] + 256 * s.rd F.CAP_TAP_TONE [t],
    long := s.rdB F.CAP_CTRL_LONG [t], len := s.rd F.CAP_LEN_LEN [t], pre := s.rd F.CAP_PRE_PRE [t],
    dest := s.rd F.CAP_DEST_LO_DEST_LO [t] + 2 ^ 32 * s.rd F.CAP_DEST_HI_DEST_HI [t] }

/-- KIND of the tap. -/
def CapSet.kind (c : CapSet) : Nat := c.tap % 4

/-- Arms the engine at the present tick boundary, for a job or for the host. The evaluators go on from DONE; from IDLE, or
on another tap, they begin. -/
def State.capStart (s : State) (t : Nat) (job : Option Nat) (wait : Bool) : State :=
  let r := s.cap t
  let c := s.capSet t
  let r := if s.capState t = cIdle ∨ c.tap ≠ r.set.tap then
    { r with next := tapBoundary c.kind s.now, ev := .start, past := [] } else r
  (s.setCap t { r with
    since := s.now, force := none, trig := none, job := job, wake := none, aborted := none, set := c, kept := [],
    gaps := [], scratch := true }).wr F.CAP_STATUS_STATE [t] (if wait then cWait else cRearm)

/-- The engine, or its tile, is fenced (21 R455). -/
def State.fencedEngine (s : State) (t : Nat) : Bool := s.rdB F.CAP_STATUS_FENCED [t] || s.rdB F.TIL_STATUS_FENCED [t]

/-- ARM takes effect at a tick boundary (R268, R269). -/
def State.applyCapArm (s : State) (t : Nat) : State :=
  if s.rdB F.CAP_STATUS_HELD [t] || s.fencedEngine t || s.shutdown ||
      !(decide (s.capState t = cIdle) || decide (s.capState t = cDone)) then s.wr F.CAP_STATUS_ARM_REFUSED [t] 1
  else if s.capLimitsOk t then s.capStart t none (s.rdB F.CAP_CTRL_ARM_AT [t])
  else s.wr F.CAP_REFUSE_REASON [t] 0x0501

/-- The gap list with at most 255 entries: from the 255th on, the last entry reaches to the last unstored sample. -/
def mergeGaps (gaps : List (Nat × Nat)) : List (Nat × Nat) × Bool :=
  if gaps.length ≤ 255 then (gaps, false)
  else
    let lst := gaps.getLastD (0, 0)
    let h := gaps.getD 254 (0, 0)
    (gaps.take 254 ++ [(h.1, lst.1 + lst.2 - h.1)], true)

/-- The header of R277 as words. -/
def State.capHeader (s : State) (t recno last cause : Nat) : List Nat :=
  let r := s.cap t
  let c := r.set
  let (gl, merged) := mergeGaps r.gaps
  let (n, causes, prim, valid, missed) := r.trig.getD (0, 0, 0, 0, 0)
  let time := s.gridSample (tapTime c.kind n)
  [recno,
   c.tap + (if c.long then 4096 else 0) + (if cause = 0 then 0 else 8192) + (if merged then 16384 else 0) + 32768 * cause,
   time % 2 ^ 32, time / 2 ^ 32 % 2 ^ 32, c.len, c.pre, valid,
   causes + 256 * prim, last, gl.length, missed, short (s.gridAt r.armTick),
   (match r.job with | some j => (s.job j).tag.toNat | none => 0), 0, 0, 0]

/-- Writes the header to CAP_HDR and, in long mode, to CAP_DEST. -/
def State.capWriteHeader (s : State) (t : Nat) (hdr : List Nat) : State :=
  let s := (List.range 16).foldl (fun s i => s.setRegWord R.CAP_HDR [t] i (BitVec.ofNat 32 (hdr.getD i 0))) s
  if (s.cap t).set.long then s.memWrite (s.cap t).set.dest (wordBytes hdr) else s

/-- The engine reaches DONE: the header is written, the record counted, the vector signalled with IRQ 1 (R269). -/
def State.capDone (s : State) (t last cause : Nat) : State :=
  let r := s.cap t
  let s := s.capWriteHeader t (s.capHeader t (r.recno + 1) last cause)
  let s := s.setCap t { r with recno := r.recno + 1, force := none }
  let s := s.wr F.CAP_STATUS_STATE [t] cDone
  if s.rdB F.CAP_CTRL_IRQ [t] then s.signal (128 + 128 * t + 121) else s

/-! ## The record in memory (R271, R275, R276) -/

/-- Record index `k` lies in an invalid pretrigger or in a gap: its contents are undefined (R271, R276). -/
def capUndefined (pre valid : Nat) (gaps : List (Nat × Nat)) (k : Nat) : Bool :=
  decide (k < pre - valid) || gaps.any (fun g => decide (g.1 ≤ k) && decide (k < g.1 + g.2))

/-- The bytes of a stored sample of the tap. -/
def sampleBytes (kind : Nat) (x : Int × Int) : List Byte :=
  leBytes 2 (unsigned 16 x.1) ++ (if kind = 1 then leBytes 2 (unsigned 16 x.2) else [])

/-- Bytes of record indices 0 to `last`: the samples kept, free values where the contents are undefined. -/
def recordBytes (ctr kind pre valid last : Nat) (gaps : List (Nat × Nat)) (kept : List (Int × Int)) : List Byte :=
  (List.range (last + 1)).flatMap (fun k =>
    if capUndefined pre valid gaps k then (leBytes 4 (Config.freeSample (ctr + k)).toNat).take (tapBytes kind)
    else sampleBytes kind (kept.getD (k - (pre - valid)) (0, 0)))

/-- Record index of the last sample the record is to have. -/
def CapRun.lastIndex (r : CapRun) : Nat := match r.aborted with | some (_, l) => l | none => r.set.len - 1

/-- Every sample of the record has been taken. -/
def CapRun.allIn (r : CapRun) : Bool :=
  match r.trig with
  | some (n, _) => decide (n + r.lastIndex < r.next + r.set.pre)
  | none => false

/-- The record's samples go to device memory with the gap list, or to capture memory. -/
def State.capStore (s : State) (t : Nat) : State :=
  let r := s.cap t
  let c := r.set
  let valid := (r.trig.getD (0, 0, 0, 0, 0)).2.2.2.1
  let bytes := recordBytes s.freeCtr c.kind c.pre valid r.lastIndex r.gaps r.kept
  let s := { s with freeCtr := s.freeCtr + (r.lastIndex + 1) }
  if c.long then
    (s.memWrite (c.dest + 0x40) ((mergeGaps r.gaps).1.flatMap (fun g => leBytes 4 g.1 ++ leBytes 4 g.2))).memWrite
      (c.dest + 0x1000) bytes
  else
    let s := { s with stores := { s.stores with capMem := SMap.putList 0 s.stores.capMem (2 ^ 21 * t) bytes } }
    s.setCap t { s.cap t with scratch := false }

/-- A job's results of a record: header and, in normal mode, samples (16 R365). -/
def State.capDeliver (s : State) (t : Nat) : State :=
  let r := s.cap t
  match r.job with
  | none => s
  | some j =>
    let hdr := (List.range 16).flatMap (fun i => leBytes 4 (s.regWord R.CAP_HDR [t] i).toNat)
    let bytes := if r.set.long then []
      else SMap.getList 0 s.stores.capMem (2 ^ 21 * t) ((r.lastIndex + 1) * tapBytes r.set.kind)
    let s := s.updJob j (fun b => { b with aux := (mergeGaps r.gaps).1.length })
    ((s.stageBytes j hdr).stageBytes j bytes).endJob j 0 0

/-- The record is complete: its samples are in memory, the engine is DONE and a job that holds it ends with its results
staged; the header of an aborted record, which is DONE already, is completed. -/
def State.capFinish (s : State) (t : Nat) : State :=
  let s := s.capStore t
  match (s.cap t).aborted with
  | some (cause, last) =>
    let s := s.capWriteHeader t (s.capHeader t (s.cap t).recno last cause)
    let s := s.capDeliver t
    s.setCap t { s.cap t with aborted := none }
  | none => (s.capDone t (s.cap t).lastIndex 0).capDeliver t

/-- Ends a record in TRIGGERED early at the present tick (R278): ABORT_CAUSE 1 STOP, 2 SAFE, 3 tap fenced, 4 memory
fault. The samples before the present tick, and the trigger sample, are written. A job that holds the engine ends with
CAP_ABORTED. -/
def State.capAbort (s : State) (t cause : Nat) : State :=
  let r := s.cap t
  if s.capState t = cTriggered then
    let n := (r.trig.getD (0, 0, 0, 0, 0)).1
    let last := min (max r.set.pre (r.set.pre + tapBoundary r.set.kind s.now - 1 - n)) (r.set.len - 1)
    let s := s.capDone t last cause
    let s := s.setCap t { s.cap t with aborted := some (cause, last) }
    let s := match r.job with
      | some j => (s.jobFlag j 6).endJob j 0 0
      | none => s
    if (s.cap t).allIn then s.capFinish t else s
  else s

/-- STOP takes effect at a tick boundary (R269). -/
def State.applyCapStop (s : State) (t : Nat) : State :=
  if s.rdB F.CAP_STATUS_HELD [t] then s.wr F.CAP_STATUS_ARM_REFUSED [t] 1
  else if s.capState t = cTriggered then s.capAbort t 1
  else s.wr F.CAP_STATUS_STATE [t] cIdle

/-- FORCE takes effect at a tick boundary (R270, R272). -/
def State.applyCapForce (s : State) (t : Nat) : State :=
  if s.rdB F.CAP_STATUS_HELD [t] then s.wr F.CAP_STATUS_ARM_REFUSED [t] 1
  else if s.capState t = cRearm ∧ s.now < (s.cap t).since + 8 then s.count F.CAP_MISSED_TRIG_MISSED [t] 1
  else if s.capState t = cArmed ∨ s.capState t = cRearm then s.setCap t { s.cap t with force := some s.now }
  else s

/-- Entry to SAFE (R278): a record in TRIGGERED is aborted, another state returns to IDLE; a record that was DONE stays
readable. -/
def State.capSafe (s : State) (t : Nat) : State :=
  if s.capState t = cTriggered then s.capAbort t 2 else s.wr F.CAP_STATUS_STATE [t] cIdle

/-- A unit the engine taps is fenced during a record (R278, R280): `line` or drive channel `unit`. -/
def State.capTapFenced (s : State) (t : Nat) (line : Bool) (unit : Nat) : State :=
  if s.capState t = cTriggered && decide ((s.cap t).set.tap / 4 % 64 = unit) &&
      (line != decide ((s.cap t).set.kind = 2)) then
    (s.note (.tile t 106) 2 0).capAbort t 3
  else s

/-! ## Commands -/

/-- A write of 1 to a control bit: discarded with ARM_REFUSED while a job holds the engine (R279), else staged. -/
def State.capControl (s : State) (t : Nat) (act : StagedAct) : State :=
  if s.rdB F.CAP_STATUS_HELD [t] then s.wr F.CAP_STATUS_ARM_REFUSED [t] 1
  else { s with staged := s.staged.filter (fun e => decide (e.act ≠ act)) ++ [⟨act, s.now, false⟩] }

/-- CAP_ARM (R269): accepted in IDLE and DONE only. -/
def execCapArm (t : Nat) (s : State) : Host.Outcome State Fault Refusal :=
  if t < s.variant.tiles then
    if decide (s.capState t = cIdle) || decide (s.capState t = cDone) then .next (s.capControl t (.capArm t))
    else .next (s.wr F.CAP_STATUS_ARM_REFUSED [t] 1)
  else .next s

/-- CAP_STOP (R269). -/
def execCapStop (t : Nat) (s : State) : Host.Outcome State Fault Refusal :=
  if t < s.variant.tiles then .next (s.capControl t (.capStop t)) else .next s

/-- CAP_FORCE (R272). -/
def execCapForce (t : Nat) (s : State) : Host.Outcome State Fault Refusal :=
  if t < s.variant.tiles then .next (s.capControl t (.capForce t)) else .next s

/-- CAP_ARM_TIME_REACHED (R269): WAIT_TIME to REARM once CAP_ARM_TIME is reached. -/
def execCapArmTimeReached (t : Nat) (s : State) : Host.Outcome State Fault Refusal :=
  let due := match (s.cap t).wake with
    | some b => decide (b ≤ s.now)
    | none => reached (s.rd F.CAP_ARM_TIME_TICK [t]) (short s.grid)
  if decide (s.capState t = cWait) && due then
    .next ((s.setCap t { s.cap t with since := s.now, wake := none }).wr F.CAP_STATUS_STATE [t] cRearm)
  else .next s

/-- After 8 ticks of REARM the engine is ARMED. -/
def State.rearmEnd (s : State) (t : Nat) : State :=
  let r := s.cap t
  if decide (s.capState t = cRearm) && decide (r.since + 8 ≤ s.now) then
    (s.setCap t { r with since := r.since + 8, armTick := r.since + 8 }).wr F.CAP_STATUS_STATE [t] cArmed
  else s

/-- CAP_REARM_END (R269). -/
def execCapRearmEnd (t : Nat) (s : State) : Host.Outcome State Fault Refusal := .next (s.rearmEnd t)

/-! ## Samples through the engine (R269-R274) -/

/-- Where a tap sample lies: outside the engine's run, in REARM, in ARMED, or among the record's. -/
inductive CapPlace where
  | outside | rearm | armed | record
  deriving DecidableEq, Repr

/-- Tick at which REARM began. -/
def CapRun.rearmAt (r : CapRun) (state : Nat) : Nat := if state = cArmed then r.since - 8 else r.since

def CapRun.place (r : CapRun) (state n : Nat) : CapPlace :=
  let at_ := fun (b : Nat) => tapBoundary r.set.kind b
  if state = cRearm ∨ state = cArmed then
    if n < at_ (r.rearmAt state) then .outside
    else if n < at_ (r.rearmAt state + 8) then .rearm
    else .armed
  else
    match r.trig with
    | some (k, _) =>
      if (state = cTriggered ∨ r.aborted.isSome) ∧ n + r.set.pre ≤ k + r.lastIndex then .record else .outside
    | none => .outside

/-- FORCE is pending at a sample of ARMED: the first one at or after its boundary takes it. -/
def CapRun.forced (r : CapRun) (n : Nat) : Bool :=
  match r.force with
  | some b => decide (tapBoundary r.set.kind b ≤ n)
  | none => false

/-- One tapped sample: the evaluators take it in every state; in REARM a met condition counts as missed, in ARMED the
sample is a pretrigger sample or the trigger, in TRIGGERED it belongs to the record. -/
def State.capTake (s : State) (t : Nat) (x : Int × Int) : State :=
  let r := s.cap t
  let n := r.next
  let pl := r.place (s.capState t) n
  let cfg := s.capCfg t
  let (e, k) := capStep cfg r.ev x (decide (pl = .armed) && decide (n = tapBoundary r.set.kind r.since))
  let causes := k + (if capSlew cfg r.past x then 8 else 0)
  let r' := { r with next := n + 1, ev := e, past := (x :: r.past).take 64 }
  match pl with
  | .outside => s.setCap t r'
  | .rearm =>
    let s := s.setCap t r'
    if causes = 0 then s else s.count F.CAP_MISSED_TRIG_MISSED [t] 1
  | .record => s.setCap t { r' with kept := r.kept ++ [x] }
  | .armed =>
    let causes := causes + (if r.forced n then 32 else 0)
    if causes = 0 then
      let l := r.kept ++ [x]
      s.setCap t { r' with kept := l.drop (l.length - r.set.pre) }
    else
      (s.setCap t { r' with
        force := none, kept := r.kept ++ [x],
        trig := some (n, causes, capPrimary causes, r.kept.length, s.rd F.CAP_MISSED_TRIG_MISSED [t]) }).wr
        F.CAP_STATUS_STATE [t] cTriggered

/-- A run of tap samples from index `first` reaches the engine: what it has taken already is passed over. The samples come
without a break from the start of REARM on; before it they may begin anew (log 105). In REARM no sample of ARMED is taken
before the state is ARMED. -/
def State.capFeed (s : State) (t first : Nat) (xs : List (Int × Int)) : State :=
  let r := s.cap t
  let st := s.capState t
  let run := decide (st = cRearm) || decide (st = cArmed)
  let open_ := (run && decide (first ≤ tapBoundary r.set.kind (r.rearmAt st)) &&
      decide (r.next ≤ tapBoundary r.set.kind (r.rearmAt st))) ||
    decide (st = cWait) || (decide (st = cDone) && r.aborted.isNone)
  let go := fun (s : State) (ys : List (Int × Int)) =>
    (if st = cRearm then ys.take (tapBoundary r.set.kind (r.since + 8) - (s.cap t).next) else ys).foldl
      (fun s x => s.capTake t x) s
  if st = cIdle ∧ r.aborted.isNone then s
  else if first ≤ r.next then go s (xs.drop (r.next - first))
  else if open_ then go (s.setCap t { r with next := first, ev := .start, past := [] }) xs
  else s

/-- A tap sample index of grid time, counted from power-on instead. -/
def State.tapIndex (s : State) (kind n : Nat) : Nat :=
  ((n : Int) - s.clk.off * (if kind = 0 then 64 else if kind = 1 then 8 else 128)).toNat

/-- The gaps among the samples a CAP_RECORD_DONE brings (R276): runs in order of START with a stored sample between them,
behind the pretrigger and within the record; the first cannot come before the 2 MB of capture memory are full. -/
def CapRun.gapsOk (r : CapRun) (new : List (Nat × Nat)) : Bool :=
  let all := r.gaps ++ new
  let valid := (r.trig.getD (0, 0, 0, 0, 0)).2.2.2.1
  (new.isEmpty || r.set.long) &&
    all.all (fun g => decide (r.set.pre ≤ g.1) && decide (1 ≤ g.2) && decide (g.1 + g.2 ≤ r.lastIndex + 1)) &&
    (all.zip (all.drop 1)).all (fun p => decide (p.1.1 + p.1.2 < p.2.1)) &&
    (match all with
     | g :: _ => decide (2 ^ 21 ≤ (g.1 - (r.set.pre - valid)) * tapBytes r.set.kind)
     | [] => true)

end Sys2Proof.Machine
end

