-- ==== Sys2Proof/Machine/Wire.lean ====
section
/-! DEFINITION. What is on the wires of a Borvon port (13 R292-R298): the bytes and check codes of the messages, the
ordered sets, and the transmitter that stripes the message stream over the lanes in the order of R298. -/

namespace Sys2Proof.Machine

/-! ## Check codes (R294, R296) -/

/-- CHK of an ordered set: the XOR of its data bytes. -/
def xorBytes (l : List Byte) : Byte := l.foldl (· ^^^ ·) 0

/-- One byte of a CRC taken most significant bit first (log 107). -/
def crcUp (w : Nat) (poly c : BitVec w) (b : Byte) : BitVec w :=
  (List.range 8).foldl (fun c _ => if c.getLsbD (w - 1) then (c <<< 1) ^^^ poly else c <<< 1)
    (c ^^^ (b.setWidth w <<< (w - 8)))

/-- CRC-8: x^8 + x^2 + x + 1 from 0. -/
def crc8 (l : List Byte) : BitVec 8 := l.foldl (crcUp 8 0x07) 0

/-- CRC-16: x^16 + x^12 + x^5 + 1 from 0xFFFF. -/
def crc16 (l : List Byte) : BitVec 16 := l.foldl (crcUp 16 0x1021) 0xFFFF

/-- One byte of the CRC-32 of IEEE 802.3, bit by bit. -/
def crcByte (c : BitVec 32) (b : Byte) : BitVec 32 :=
  (List.range 8).foldl (fun c _ => if c.getLsbD 0 then (c >>> 1) ^^^ 0xEDB88320 else c >>> 1) (c ^^^ b.setWidth 32)

def crc32 (l : List Byte) : BitVec 32 := ~~~(l.foldl crcByte 0xFFFFFFFF)

/-! ## Bytes of the messages (R296, R300, R315) -/

/-- A stamp: TICK in 8 bytes and FINE in 2. -/
def stampBytes (bins : Nat) : List Byte := leBytes 8 (bins / 5120 % 2 ^ 57) ++ leBytes 2 (bins % 5120)

/-- A decision message without its check. -/
def decBody (m : DecMsg) : List Byte :=
  let f := fun (b : Bool) (k : Nat) => if b then 2 ^ k else 0
  leBytes 2 (m.slot % 1024 + 1024 * m.cls.toNat + f m.late 12 + f m.margin 13 + f m.inval 14) ++
    leBytes 4 m.origin.toNat ++ leBytes 2 m.dtick

/-- ACK and NAK without their check. -/
def countBody (d p : Word) : List Byte := leBytes 4 d.toNat ++ leBytes 4 p.toNat

/-- A TIM message without its check. -/
def timBody (type seq lane stamp : Nat) (echo : List Byte) : List Byte :=
  leBytes 1 type ++ leBytes 2 seq ++ leBytes 1 lane ++ stampBytes stamp ++ echo

/-- ECHO of a DELAY_REQ. -/
def reqEcho (domain : Word) : List Byte := leBytes 4 domain.toNat ++ leBytes 6 0

/-- ECHO of an ANNOUNCE. -/
def annEcho (a : Announce) : List Byte :=
  let f := fun (b : Bool) (k : Nat) => if b then 2 ^ k else 0
  leBytes 4 a.domain.toNat ++ leBytes 4 a.masterId.toNat ++ leBytes 1 (a.hops % 32 + f a.freqTraced 5) ++
    leBytes 1 (f a.inDomain 0 + f a.holdover 1 + 4 * (a.subtree % 64))

def reqBody (seq lane t1 : Nat) (domain : Word) : List Byte := timBody 1 seq lane t1 (reqEcho domain)
def respBody (seq lane t2 t3 : Nat) : List Byte := timBody 2 seq lane t3 (stampBytes t2)
def annBody (seq lane stamp : Nat) (a : Announce) : List Byte := timBody 3 seq lane stamp (annEcho a)

/-- A SYN message without its check. -/
def synBody (id : Nat) (event : Word) (lane stamp : Nat) : List Byte :=
  leBytes 1 id ++ stampBytes stamp ++ leBytes 4 event.toNat ++ leBytes 1 lane

/-- A packet without its check and its END. -/
def pktBody (cls : Nat) (payload : List Byte) : List Byte := leBytes 1 cls ++ leBytes 2 payload.length ++ payload

/-- Nibbles, two in a byte, the first one low; the last byte is padded with 0. -/
def packNibbles : List Nat → List Byte
  | a :: b :: rest => BitVec.ofNat 8 (a % 16 + 16 * (b % 16)) :: packNibbles rest
  | [a] => [BitVec.ofNat 8 (a % 16)]
  | [] => []

/-- Payload of a parity packet: the nibbles belong to the groups in ascending order. -/
def parityPayload (dec : Nat) (round : BitVec 16) (origin : Word) (ns : List (Nat × Nat)) : List Byte :=
  leBytes 1 dec ++ leBytes 2 round.toNat ++ leBytes 4 origin.toNat ++
    leBytes 32 (ns.foldl (fun m e => m ||| 2 ^ e.1) 0) ++
    packNibbles ((List.range 256).filterMap (fun g => (ns.find? (fun e => decide (e.1 = g))).map Prod.snd))

/-- Payload of an answer packet. -/
def answerPayload (dec : Nat) (round : BitVec 16) (classes : Word) : List Byte :=
  leBytes 1 dec ++ leBytes 2 round.toNat ++ leBytes 4 classes.toNat

/-! ## Ordered sets (R294) -/

/-- The data bytes of RST, RPL, TS1 and TS2 between COM and CHK. -/
def rstBody (mask : BitVec 4) (d p : Word) : List Byte := 0x58 :: (leBytes 1 mask.toNat ++ countBody d p)
def rplBody (d p : Word) : List Byte := 0x5B :: countBody d p
def tsBody (second : Bool) (lane port width : Nat) (good : BitVec 4) (id : Word) : List Byte :=
  (if second then 0x45 else 0x4A) :: (leBytes 1 lane ++ leBytes 1 port ++ leBytes 1 width ++ leBytes 1 good.toNat ++
    leBytes 4 id.toNat ++ leBytes 5 0)

/-- CHK of a training set as a lane has received it. -/
def goodChk (o : TrainObs) : Byte :=
  xorBytes (tsBody o.second o.laneSeen o.partnerPort o.partnerWidth o.partnerGood o.partnerId)

/-- The symbols of an ordered set on each lane. -/
def Emit.setSyms : Emit → List Sym
  | .skip _ => [.ctl .com, .ctl .skp, .ctl .skp, .ctl .skp]
  | .rst _ m d p => .ctl .com :: ((rstBody m d p ++ [xorBytes (rstBody m d p)]).map Sym.data)
  | .rpl _ d p => .ctl .com :: ((rplBody d p ++ [xorBytes (rplBody d p)]).map Sym.data)
  | .ts _ l q w g i b => .ctl .com :: ((tsBody b l q w g i ++ [xorBytes (tsBody b l q w g i)]).map Sym.data)
  | _ => []

/-! ## Symbols of a message -/

/-- The rank in which the transmitter sends (R298): 0 ordered sets, 1 DEC, 2 SYN, 3 TIM, 4 ACK and NAK, 5 bulk and 6
management packets; 7 is not sent on a port. -/
def Emit.rank : Emit → Nat
  | .skip _ | .rst _ _ _ _ | .rpl _ _ _ => 0
  | .decMsg _ _ => 1
  | .syn _ _ _ _ _ => 2
  | .announce _ _ _ _ _ | .delayReq _ _ _ _ _ | .delayResp _ _ _ _ _ => 3
  | .ack _ _ _ | .nak _ _ _ => 4
  | .parity _ _ _ _ _ => 5
  | .mgmtSent _ _ => 6
  | _ => 7

/-- TX stamp of a time message. -/
def Emit.stamp : Emit → Option Nat
  | .syn _ _ _ _ t | .announce _ _ _ t _ | .delayReq _ _ _ t _ | .delayResp _ _ _ _ t => some t
  | _ => none

/-- The message with another TX stamp. -/
def Emit.restamp (t : Nat) : Emit → Emit
  | .syn p i v l _ => .syn p i v l t
  | .announce p q l _ a => .announce p q l t a
  | .delayReq p q l _ d => .delayReq p q l t d
  | .delayResp p q l t2 _ => .delayResp p q l t2 t
  | e => e

/-- A message as start symbol, bytes and check. -/
def message (start : Ctl) (body check : List Byte) : List Sym := .ctl start :: ((body ++ check).map Sym.data)

def Emit.symbols : Emit → List Sym
  | .decMsg _ m => message .dec (decBody m) [crc8 (decBody m)]
  | .ack _ d p => message .ack (countBody d p) [crc8 (countBody d p)]
  | .nak _ d p => message .nak (countBody d p) [crc8 (countBody d p)]
  | .delayReq _ q l t d => message .tim (reqBody q l t d) (leBytes 2 (crc16 (reqBody q l t d)).toNat)
  | .delayResp _ q l t2 t3 => message .tim (respBody q l t2 t3) (leBytes 2 (crc16 (respBody q l t2 t3)).toNat)
  | .announce _ q l t a => message .tim (annBody q l t a) (leBytes 2 (crc16 (annBody q l t a)).toNat)
  | .syn _ i v l t => message .syn (synBody i v l t) (leBytes 2 (crc16 (synBody i v l t)).toNat)
  | .parity _ d r o ns =>
    let b := pktBody 1 (parityPayload d r o ns)
    message .pkt b (leBytes 4 (crc32 b).toNat) ++ [.ctl .end_]
  | .mgmtSent _ l =>
    let b := pktBody 0x10 l
    message .pkt b (leBytes 4 (crc32 b).toNat) ++ [.ctl .end_]
  | _ => []

/-- DEC and PKT symbols are those an INJ in ACTIVE inverts a bit of (R309). -/
def Emit.txSyms (e : Emit) : List TxSym :=
  e.symbols.map (fun x => ⟨x, decide (e.rank = 1) || decide (e.rank = 5) || decide (e.rank = 6)⟩)

/-! ## The transmitter (R295, R298) -/

/-- The transmitter of a port in one tick: its run, the lanes in use, the decision messages that may still begin (R254),
whether the D and P streams stand still, the tick of grid time, the free values drawn, the lanes whose INJ waits, and a
DELAY_REQ whose stamp was inserted later than it was handed over. -/
structure Wire where
  r     : PortRun
  lanes : List Nat
  decs  : Nat
  hold  : Bool
  grid  : Nat
  ctr   : Nat
  inj   : List Nat
  late  : Option (Nat × Nat)
  deriving DecidableEq, Repr

/-- First message of a rank that waits. -/
def PortRun.first (r : PortRun) (k : Nat) : Option Emit := r.tx.find? (fun e => decide (e.rank = k))

/-- An RPL waits for the message in transmission to end (log 107). -/
def PortRun.rplWaits (r : PortRun) : Bool := r.tx.any (fun e => match e with | .rpl _ _ _ => true | _ => false)

/-- The stamp is inserted while the message is serialised (R299): a message begun in a later tick than it was handed over
takes a bin of that tick, a free value (log 1). -/
def Wire.stamped (w : Wire) (e : Emit) : Emit × Wire :=
  match e.stamp with
  | some t =>
    if t / 5120 = w.grid then (e, w)
    else
      let t' := 5120 * w.grid + Config.freeNat w.ctr % 5120
      (e.restamp t', { w with
        ctr := w.ctr + 1
        late := match e with | .delayReq _ q _ _ _ => some (q, t') | _ => w.late })
  | none => (e, w)

/-- A message begins: its first symbol, and the rest of it kept. -/
def Wire.start (w : Wire) (e : Emit) : TxSym × Wire :=
  let w := { w with r := { w.r with tx := w.r.tx.erase e } }
  let (e, w) := w.stamped e
  match e.txSyms with
  | x :: rest =>
    (x, { w with
      decs := if e.rank = 1 then w.decs - 1 else w.decs
      r := if e.rank ≤ 4 then { w.r with cur := rest } else { w.r with pkt := rest } })
  | [] => (⟨.ctl .idl, false⟩, w)

/-- The next symbol of the message stream; `aligned`: the lowest lane in use, where TIM and SYN may begin. -/
def Wire.next (w : Wire) (aligned : Bool) : TxSym × Wire :=
  let idle : TxSym × Wire := (⟨.ctl .idl, false⟩, w)
  match w.r.cur with
  | x :: rest => (x, { w with r := { w.r with cur := rest } })
  | [] =>
    if w.r.rplWaits then idle
    else
      match (if w.hold || decide (w.decs = 0) then none else w.r.first 1) with
      | some e => w.start e
      | none =>
        match (w.r.first 2).or (w.r.first 3) with
        | some e => if aligned then w.start e else idle
        | none =>
          match w.r.first 4 with
          | some e => w.start e
          | none =>
            match w.r.pkt with
            | x :: rest => (x, { w with r := { w.r with pkt := rest } })
            | [] =>
              match (if w.hold then none else (w.r.first 5).or (w.r.first 6)) with
              | some e => w.start e
              | none => idle

/-- A symbol for a lane: the message stream's next, with a bit inverted where an INJ waits. -/
def Wire.symbol (w : Wire) (lane : Nat) (aligned : Bool) : (Sym × Bool) × Wire :=
  let (x, w) := w.next aligned
  let hit := x.numbered && w.inj.contains lane
  ((x.sym, hit), if hit then { w with inj := w.inj.erase lane } else w)

/-- An ordered set that can begin in this cycle. -/
def Wire.setReady (w : Wire) : Option Emit :=
  match w.r.first 0 with
  | some (.rpl p d q) => if w.r.cur.isEmpty then some (.rpl p d q) else none
  | o => o

/-- One cycle: the same symbol of an ordered set on every lane in use, or the stream's next symbols in ascending lane
order. -/
def Wire.cycle (w : Wire) : List (Sym × Bool) × Wire :=
  let all := fun (x : Sym) => w.lanes.map (fun _ => (x, false))
  match w.r.os with
  | x :: rest => (all x, { w with r := { w.r with os := rest } })
  | [] =>
    match w.setReady with
    | some e =>
      (all (.ctl .com), { w with r := { w.r with
        tx := w.r.tx.erase e, os := e.setSyms.drop 1,
        pkt := match e with | .rpl _ _ _ => [] | _ => w.r.pkt } })
    | none =>
      w.lanes.foldl (fun a l =>
        let (x, w) := a.2.symbol l a.1.isEmpty
        (a.1 ++ [x], w)) ([], w)

def Wire.run (w : Wire) : Nat → List (List (Sym × Bool)) × Wire
  | 0 => ([], w)
  | n + 1 =>
    let (c, w) := w.cycle
    let (cs, w) := w.run n
    (c :: cs, w)

/-- Cycles in a tick: 16.384 on average (R292). -/
def cyclesIn (tick : Nat) : Nat := (tick + 1) * 2048 / 125 - tick * 2048 / 125

/-- Something is being sent. -/
def PortRun.sending (r : PortRun) : Bool := !(r.tx.isEmpty && r.cur.isEmpty && r.pkt.isEmpty && r.os.isEmpty)

/-- What is handed over of the D and P streams, and a packet begun, are taken back. -/
def PortRun.takeBack (r : PortRun) : PortRun :=
  { r with pkt := [], tx := r.tx.filter (fun e => !(decide (e.rank = 1) || decide (e.rank = 5) || decide (e.rank = 6))) }

end Sys2Proof.Machine
end

