-- ==== Sys2Proof/Machine/CalUnits.lean ====
section
/-! DEFINITION. What calibration knows of a unit, its gap steps (19 R416-R418), its records (19 R427), and the requests that
wait for units (19 R413, R425). -/

namespace Sys2Proof.Machine

def State.calU (s : State) (u : UnitDesc) : CalUnit := SMap.get .idle s.cal.units u.key
def State.setCalU (s : State) (u : UnitDesc) (c : CalUnit) : State :=
  { s with cal := { s.cal with units := SMap.put .idle s.cal.units u.key c } }
def State.updCalU (s : State) (u : UnitDesc) (f : CalUnit → CalUnit) : State := s.setCalU u (f (s.calU u))

/-! ## Records (R427) -/

/-- The body of a record; the spec gives no layout of it (log 90). -/
def corrBytes (c : CalObs) : List Byte :=
  leBytes 4 c.gain ++ leBytes 4 (unsigned 32 c.offset) ++ leBytes 4 c.pad ++ leBytes 4 c.fine

/-- Bytes 0x00 to 0x1B of a record. -/
def CalRec.head (r : CalRec) : List Byte :=
  leBytes 4 0x4C414352 ++ leBytes 2 1 ++ leBytes 2 (corrBytes r.corr).length ++ leBytes 4 r.unit ++ leBytes 4 r.seq ++
    leBytes 4 r.opsec ++ leBytes 2 (unsigned 16 r.temp) ++ leBytes 1 r.stepping ++ leBytes 5 0

/-- The CRC-32 that the header and the body of a record call for. -/
def CalRec.sum (r : CalRec) : Word := crc32 (r.head ++ corrBytes r.corr)

/-- A record passes its CRC and matches UNIT and STEPPING (R428). -/
def CalRec.good (r : CalRec) (u : UnitDesc) : Bool :=
  decide (r.unit = u.word) && decide (r.stepping = 0x21) && decide (r.crc = r.sum)

/-- SEQ of a copy; 0 where nothing has been written. -/
def recSeq (r : Option CalRec) : Nat := (r.map CalRec.seq).getD 0

/-! ## Gap steps (R416-R418) -/

/-- Ticks of a gap step, and of the gap it needs: a line's probe has 64 steps, then its input has its own. -/
def stepTicks (u : UnitDesc) (done : Nat) : Nat :=
  match u.kind with
  | 1 | 4 => 32
  | 3 => if done < 64 then 1250 else 512
  | _ => 1250

def gapTicks (u : UnitDesc) (done : Nat) : Nat :=
  match u.kind with
  | 1 | 4 => 64
  | 3 => if done < 64 then 1563 else 1024
  | _ => 1563

/-- The steps of a gap calibration done by now: one begun counts once its time has passed. -/
def CalUnit.stepsDone (k : CalUnit) (u : UnitDesc) (now : Nat) : Option Nat :=
  match k.work, k.stepFrom with
  | .gap n, some t => some (if t + stepTicks u n ≤ now then n + 1 else n)
  | .gap n, none => some n
  | _, _ => none

/-- A gap step of the unit runs. -/
def State.stepsNow (s : State) (u : UnitDesc) : Bool :=
  let k := s.calU u
  match k.work, k.stepFrom with
  | .gap n, some t => decide (s.now < t + stepTicks u n)
  | _, _ => false

/-- A probe step opens the output switch: the ball is muted (R418). -/
def State.probeStep (s : State) (t l : Nat) : Bool :=
  let u : UnitDesc := ⟨3, t, l⟩
  s.stepsNow u && (match (s.calU u).work with
    | .gap n => decide (n < 64)
    | _ => false)

/-- A step whose time has passed counts; one at work is discarded by `cut` (R417, R418). -/
def State.settleStep (s : State) (u : UnitDesc) (cut : Bool) : State :=
  let k := s.calU u
  match k.work, k.stepFrom with
  | .gap n, some t =>
    if t + stepTicks u n ≤ s.now then s.setCalU u { k with work := .gap (n + 1), stepFrom := none }
    else if cut then s.setCalU u { k with stepFrom := none }
    else s
  | _, _ => s

/-- A pulse, a window, a latch or a level change of the unit is committed. -/
def State.commitOn (s : State) (u : UnitDesc) : State := s.settleStep u true

/-- The corrections of an output or a ball path that calibration has not measured: the registers' reset values (05). -/
def calRest : CalObs := ⟨false, 0x8000, 0, 176, 0⟩

/-! ## Requests that wait for a unit (R425) -/

/-- Position of a unit in a list. -/
def unitIndex (u : UnitDesc) : List UnitDesc → Nat
  | [] => 0
  | v :: vs => if u = v then 0 else unitIndex u vs + 1

/-- Steps of a request still to run on a unit (bits as in STEPS). -/
def CalReq.left (r : CalReq) (u : UnitDesc) : Nat := ((r.todo.find? (fun e => decide (e.1 = u))).map Prod.snd).getD 0

/-- Notes the result of a step (0 converter, 1 lead, 2 fit) of a unit in a request: a unit is done with its last step,
and failed by its first failure. -/
def CalReq.noteUnit (r : CalReq) (u : UnitDesc) (step : Nat) (ok : Bool) (reason : Nat) : CalReq :=
  let left := setBits (r.left u) step 1 0
  let rest := r.todo.filter (fun e => decide (e.1 ≠ u))
  let i := unitIndex u r.units
  if !bit (r.left u) step then r
  else if !ok then
    { r with
      todo := rest, failed := r.failed + 1, firstFail := min r.firstFail i,
      reason := if i < r.firstFail then reason else r.reason }
  else if left = 0 then { r with todo := rest, done := r.done + 1 }
  else { r with todo := r.todo.map (fun e => if e.1 = u then (u, left) else e) }

/-- Ends the CALIBRATE jobs that have nothing left (R350, R367). -/
def State.endCalJobs (s : State) : State :=
  let reqs := s.cal.reqs
  let ended := reqs.filter (fun r => r.todo.isEmpty && r.job.isSome)
  let s := { s with cal := { s.cal with reqs := reqs.filter (fun r => !(r.todo.isEmpty && r.job.isSome)) } }
  ended.foldl (fun s r =>
    match r.job with
    | some j =>
      let s := s.updJob j (fun b => { b with calDone := r.done, calFailed := r.failed })
      if r.failed = 0 then s.endJob j 0 0 else s.endJob j 0x06 r.reason
    | none => s) s

/-- Notes the result of a step of a unit in every request. -/
def State.noteStep (s : State) (u : UnitDesc) (step : Nat) (ok : Bool) (reason : Nat) : State :=
  { s with cal := { s.cal with reqs := s.cal.reqs.map (fun (r : CalReq) => r.noteUnit u step ok reason) } }.endCalJobs

/-- Notes the result of a unit's converter step. -/
def State.noteCal (s : State) (u : UnitDesc) (ok : Bool) (reason : Nat) : State := s.noteStep u 0 ok reason

/-- Fails every step of a unit. -/
def State.failCal (s : State) (u : UnitDesc) (reason : Nat) : State :=
  { s with cal :=
    { s.cal with
      reqs := s.cal.reqs.map (fun (r : CalReq) =>
        ((r.noteUnit u 0 false reason).noteUnit u 1 false reason).noteUnit u 2 false reason) } }.endCalJobs

/-- A calibration in progress on a unit is abandoned; the unit stays due (R413). -/
def State.dropCal (s : State) (u : UnitDesc) : State :=
  { s with cal := { s.cal with coming := s.cal.coming.filter (fun e => decide (e.1 ≠ u)) } }.updCalU u
    (fun k => { k with work := .none, result := none, stepFrom := none })

/-- Corrections of the unit wait for their boundary. -/
def State.isComing (s : State) (u : UnitDesc) : Bool := s.cal.coming.any (fun e => decide (e.1 = u))

end Sys2Proof.Machine
end

