-- ==== Sys2Proof/Machine/Fences.lean ====
section
/-! DEFINITION. Fencing and degraded operation (21 R454-R464, 05 R148-R152, 08 R214, 09 R226, R512, 13 R307, R308, 18
R399): what the fence of each kind of unit does in the cycle in which it is recorded. -/

namespace Sys2Proof.Machine

/-! ## Fence bits (R454, R457) -/

def State.tileFenced (s : State) (t : Nat) : Bool := s.rdB F.TIL_STATUS_FENCED [t]
def State.clusterFenced (s : State) (t c : Nat) : Bool := s.rdB F.CLU_STATUS_CL_FENCED [t, c]

/-- The fence bit of a unit itself. -/
def State.ownFence (s : State) (u : UnitDesc) : Bool :=
  let t := u.tile
  let i := u.index
  match u.kind with
  | 1 => s.rdB F.DRV_STATUS_FENCED [t, i]
  | 2 => s.rdB F.DRV_STATUS_FENCED [t, 64 + i]
  | 3 => s.rdB F.RDO_STATUS_FENCED [t, i]
  | 4 => s.rdB F.FLX_STATUS_FENCED [t, i]
  | 5 => s.rdB F.BIA_STATUS_FENCED [t, i]
  | 6 => s.rdB F.SNS_ADC_FENCED [t, i]
  | 7 => bit (s.rd F.RDO_SLICE_FAILED [t, i / 32]) (i % 32)
  | 8 => bit (s.rd F.CLU_STATUS_FENCED [t, i / 8]) (i % 8)
  | 9 => s.clusterFenced t i
  | 10 => s.rdB F.CAP_STATUS_FENCED [t]
  | 11 => s.tileFenced t
  | 12 => s.rdB F.BVN_LANE_STATUS_FENCED [i / 4, i % 4]
  | 13 => s.rdB F.TDC_IN_STATUS_FENCED [i]
  | 14 => s.rdB F.MEM_DEV_ERR_RETIRED [i]
  | _ => false

/-- The unit's cluster or tile is fenced (R457 rule 5). -/
def State.overFenced (s : State) (u : UnitDesc) : Bool :=
  (decide (u.kind = 8) && s.clusterFenced u.tile (u.index / 8)) ||
    (decide (1 ≤ u.kind) && decide (u.kind ≤ 10) && s.tileFenced u.tile)

def State.fenced (s : State) (u : UnitDesc) : Bool := s.ownFence u || s.overFenced u

/-! ## Jobs that need a unit (R27) -/

/-- Job slots in flight and not ended that satisfy `p`. -/
def State.jobsWhere (s : State) (p : Nat → Job → Bool) : List Nat :=
  (s.qm.jobs.filter (fun e => e.2.open_ && p e.1 e.2)).map Prod.fst

def State.jobsOnChan (s : State) (c : Nat) : List Nat := s.jobsWhere (fun j _ => (s.jobChans j).contains c)
def State.jobsOnLine (s : State) (l : Nat) : List Nat := s.jobsWhere (fun j _ => (s.jobLines j).contains l)
def State.jobsOnThread (s : State) (g : Nat) : List Nat := s.jobsWhere (fun j _ => (s.jobThreads j).contains g)

/-- Every job in the list ends FENCED. -/
def State.doomAll (s : State) (js : List Nat) : State := js.foldl State.doom s

/-- Every job in the list has its running shot struck. -/
def State.strikeAll (s : State) (js : List Nat) (aw : Await) : State := js.foldl (fun s j => s.strike j (some aw)) s

/-! ## REPLACE_N (R464) -/

def State.spare (s : State) (t g : Nat) : SpareJob := SMap.get .none s.outs.spares (8 * t + g)

/-- The channel whose ball the spare has, or is on its way to. -/
def SpareJob.ball (j : SpareJob) : Option Nat :=
  match j with
  | .takeover c _ | .calRun c _ _ | .serve c _ => some c
  | .evict c _ _ | .faultBack c _ => some c
  | .none => Option.none

/-- The spare loads its corrections for a channel's ball path: what has been measured since comes into force (19 R419). -/
def State.loadPath (s : State) (c : Nat) : State :=
  match s.outs.pathsNew.find? (fun e => decide (e.1 = c)) with
  | some (_, r) =>
    { s with outs := { s.outs with paths := SMap.put calRest s.outs.paths c r, pathsNew := SMap.remove s.outs.pathsNew c } }
  | none => s

/-- The spare's work changes; with another ball than before it loads that ball's path. -/
def State.setSpare (s : State) (t g : Nat) (j : SpareJob) : State :=
  let old := (s.spare t g).ball
  let s := { s with outs := { s.outs with spares := SMap.put .none s.outs.spares (8 * t + g) j } }
  match j.ball with
  | some c => if old = some c then s else s.loadPath (64 * t + c)
  | none => s

/-- The spare serves the channel, or is on its way to it. -/
def SpareJob.holds (j : SpareJob) (c : Nat) : Bool :=
  match j with
  | .serve d _ | .takeover d _ => decide (d = c)
  | .evict _ d _ => decide (d = c)
  | _ => false

def State.drvFences (s : State) (t g : Nat) : List DrvFence := SMap.get [] s.outs.fences (8 * t + g)
def State.setDrvFences (s : State) (t g : Nat) (l : List DrvFence) : State :=
  { s with outs := { s.outs with fences := SMap.put [] s.outs.fences (8 * t + g) l } }

/-- Present tiles paired with the numbers below `n`. -/
def State.tilesBy (s : State) (n : Nat) : List (Nat × Nat) :=
  (List.range s.variant.tiles).flatMap (fun t => (List.range n).map (fun i => (t, i)))

/-- A cluster has a bank that failed hard, so no shadow (R120). -/
def State.noShadow (s : State) (t c : Nat) : Bool :=
  s.rdB F.CLU_UCODE_STATUS_U0_FAILED [t, c] || s.rdB F.CLU_UCODE_STATUS_U1_FAILED [t, c] ||
    s.rdB F.CLU_UCODE_STATUS_NA_FAILED [t, c] || s.rdB F.CLU_UCODE_STATUS_NB_FAILED [t, c]

/-- Number of slices of a line that have failed. -/
def State.failedSlices (s : State) (t l : Nat) : Nat :=
  ((List.range 17).filter (fun p => bit (s.rd F.RDO_SLICE_FAILED [t, l]) p)).length

/-- SPN_REPLACE.CAUSES. -/
def State.replaceCauses (s : State) : Nat :=
  let b := fun (i : Nat) (p : Bool) => if p then 2 ^ i else 0
  b 0 (s.outs.fences.any (fun e =>
      e.2.any (fun f => !(s.spare (e.1 / 8) (e.1 % 8)).holds f.chan))) +
  b 1 ((List.range s.variant.tiles).any (fun t => s.rdB F.SNS_STATUS_NO_ADC [t])) +
  b 2 ((s.tilesBy 8).any (fun p => s.rdB F.RDO_STATUS_FENCED [p.1, p.2] && decide (2 ≤ s.failedSlices p.1 p.2))) +
  b 3 ((List.range 80).any (fun d => s.rdB F.MEM_DEV_ERR_RETIRED [d])) +
  b 4 (decide (s.rd F.SPN_TILE_FENCE_FENCED [] ≠ 0)) +
  b 5 s.flt.standbyLost +
  b 6 ((s.tilesBy 9).any (fun p => s.noShadow p.1 p.2))

/-- Logs REPLACEMENT_ADVISED for each cause that has arisen (R464, R466). -/
def State.advise (s : State) : State :=
  let c := s.replaceCauses
  let s' := (List.range 7).foldl (fun s i =>
    if bit c i && !bit s.flt.advised i then
      s.logEvent 7 0 0 (BitVec.ofNat 8 (16 * (i + 1))) 0x700 i 0xFFFFFFFF []
    else s) s
  { s' with flt := { s'.flt with advised := c } }

/-- The pin is driven while a cause holds, once firmware runs (R464, R480). -/
def State.replaceN (s : State) : Bool := s.rdB F.MBX_GLOBAL_FW_READY [] && decide (s.replaceCauses ≠ 0)

/-! ## Drive channels and spares (R148-R152) -/

def State.spareFenced (s : State) (t g : Nat) : Bool := s.rdB F.DRV_STATUS_FENCED [t, 64 + g] || s.tileFenced t

/-- The fenced channel that awaits the spare longest (R148). -/
def firstFence : List DrvFence → Option DrvFence
  | [] => none
  | f :: fs =>
    match firstFence fs with
    | none => some f
    | some g => if f.tick < g.tick ∨ (f.tick = g.tick ∧ f.chan ≤ g.chan) then some f else some g

/-- The spare becomes IDLE: it takes over the first fenced channel of its group, if one waits (R148). -/
def State.spareIdle (s : State) (t g : Nat) : State :=
  match firstFence (s.drvFences t g) with
  | none => s.setSpare t g .none
  | some f => if s.spareFenced t g then s.setSpare t g .none else s.setSpare t g (.takeover f.chan s.now)

/-- Fences a drive channel (local `c`): of the channels fenced in one tick the spare takes the lowest (R148). -/
def State.fenceDrive (s : State) (t c : Nat) : State :=
  let g := c / 8
  let s := s.wr F.DRV_STATUS_FENCED [t, c] 1
  let s := s.setDrvFences t g (s.drvFences t g ++ [⟨c, s.now⟩])
  let s := s.capTapFenced t false c
  let jobs := s.jobsOnChan (64 * t + c)
  if s.spareFenced t g then s.doomAll jobs
  else
    match s.spare t g with
    | .none => (s.setSpare t g (.takeover c s.now)).strikeAll jobs (.spare t c)
    | .calRun a _ _ =>
      if a = c then s.setSpare t g (.serve c false)
      else ((s.dropCal ⟨1, t, a⟩).setSpare t g (.evict a c s.now)).strikeAll jobs (.spare t c)
    | .serve d true => if d = c then s.setSpare t g (.serve c false) else s.doomAll jobs
    | .takeover d f =>
      if f = s.now ∧ c < d ∧ (s.drvFences t g).contains ⟨d, s.now⟩ then
        ((s.doomAll (s.jobsOnChan (64 * t + d))).setSpare t g (.takeover c s.now)).strikeAll jobs (.spare t c)
      else s.doomAll jobs
    | .evict a d f =>
      if f = s.now ∧ c < d ∧ (s.drvFences t g).contains ⟨d, s.now⟩ then
        ((s.doomAll (s.jobsOnChan (64 * t + d))).setSpare t g (.evict a c s.now)).strikeAll jobs (.spare t c)
      else s.doomAll jobs
    | _ => s.doomAll jobs

/-- Fences the spare of a group, or its switch tree (R152). A channel that it served in FENCE and that has been unfenced
since, and awaits its handback, goes back to its own DAC as one served in CAL does (log 84). -/
def State.fenceSpare (s : State) (t g : Nat) : State :=
  let s := s.wr F.DRV_STATUS_FENCED [t, 64 + g] 1
  let back := fun (s : State) (a : Nat) =>
    ((s.dropCal ⟨1, t, a⟩).setSpare t g (.faultBack a s.now)).strikeAll (s.jobsOnChan (64 * t + a)) (.spare t a)
  match s.spare t g with
  | .none => s
  | .calRun a _ _ | .faultBack a _ => back s a
  | .evict a b _ => (back s a).doomAll (s.jobsOnChan (64 * t + b))
  | .takeover c _ | .serve c false => (s.setSpare t g .none).doomAll (s.jobsOnChan (64 * t + c))
  | .serve c true => back s c

/-! ## Readout lines and slices (R221, R226, R231, R512) -/

def State.line (s : State) (t l : Nat) : LineRun := SMap.get .idle s.rdo.lines (8 * t + l)
def State.setLine (s : State) (t l : Nat) (r : LineRun) : State :=
  { s with rdo := { s.rdo with lines := SMap.put .idle s.rdo.lines (8 * t + l) r } }

def State.updWindows (s : State) (f : Window → Window) : State :=
  { s with rdo := { s.rdo with windows := s.rdo.windows.map f } }

def Window.on (w : Window) (t l : Nat) : Bool := decide (w.tile = t) && decide (w.line = l)

/-- The window is open in a tick: from the one containing the MEAS issue until the one containing E (R230). -/
def Window.openAt (w : Window) (t : Nat) : Bool := decide (w.issue ≤ t) && decide (t ≤ w.e / 64)

/-- The shots that opened some windows, as (job, start tick). -/
def shotsOf (ws : List Window) : List (Nat × Nat) := (ws.filterMap (fun w => w.job.map (fun j => (j, w.shot)))).dedup

/-- Fences a readout line (R221, R231): its probe is muted, its open windows produce nothing and their shots are struck,
its jobs end FENCED. -/
def State.fenceLine (s : State) (t l : Nat) : State :=
  let s := (s.wr F.RDO_STATUS_FENCED [t, l] 1).wr F.PRB_STATUS_FENCED [t, l] 1
  let hit := fun (w : Window) => w.on t l && w.openAt s.now && !w.dead
  let shots := shotsOf (s.rdo.windows.filter hit)
  let s := s.updWindows (fun w => if hit w then { w with dead := true } else w)
  let s := s.setLine t l { s.line t l with repair := none }
  let s := shots.foldl (fun s e => s.strikeShot e.1 e.2 none) s
  (s.capTapFenced t true l).doomAll (s.jobsOnLine (8 * t + l))

/-- The window has samples of the line among the ADC samples `a` to `b`; E is the first after them. -/
def Window.meets (w : Window) (t l a b : Nat) : Bool := w.on t l && decide (w.w0 ≤ b) && decide (a < w.e)

/-- Windows with samples in the interval are gapped, and their shots struck (R226). -/
def State.gapWindows (s : State) (t l a b : Nat) : State :=
  let hit := fun (w : Window) => w.meets t l a b && !w.gapped
  let ws := s.rdo.windows.filter hit
  let s := s.updWindows (fun w => if hit w then { w with gapped := true } else w)
  let s := if ws.isEmpty then s else s.wr F.RDO_STATUS_SLICE_GAP [t, l] 1
  (shotsOf ws).foldl (fun s e => s.strikeShot e.1 e.2 (some (.slice t l))) s

/-- The repair of a failed slice still runs: the windows with samples from 8 ticks before its detection until now are
gapped (R226). -/
def State.gapNow (s : State) (t l : Nat) : State :=
  match (s.line t l).repair with
  | some (_, f, _) => s.gapWindows t l (64 * (f - 8)) (64 * s.now + 63)
  | none => s

/-- A failure of slice `p` fences the line: the spare already fills a position or has failed (R226, R512). -/
def State.sliceFatal (s : State) (t l : Nat) : Bool :=
  s.rdB F.RDO_SLICE_SPARE_FIXED [t, l] || bit (s.rd F.RDO_SLICE_FAILED [t, l]) 16

/-- Slice `p` of a line fails, 16 the spare. -/
def State.fenceSlice (s : State) (t l p : Nat) : State :=
  let failed := s.rd F.RDO_SLICE_FAILED [t, l]
  let pos := s.rd F.RDO_SLICE_SPARE_POS [t, l]
  let fatal := s.sliceFatal t l
  if bit failed p then s
  else
    let s := s.wr F.RDO_SLICE_FAILED [t, l] (failed + 2 ^ p)
    let gap := fun (s : State) (q : Nat) (own : Bool) =>
      (s.setLine t l { s.line t l with repair := some (q, s.now, own) }).gapNow t l
    if p = 16 then
      let s := s.wr F.RDO_SLICE_SPARE_POS [t, l] 0x1F
      if fatal then s.fenceLine t l else if pos < 16 then gap s pos true else s
    else if fatal then s.fenceLine t l
    else
      let s := s.wr F.RDO_SLICE_SPARE_FIXED [t, l] 1
      if pos = p then s else gap s p false

/-! ## Sense ADCs (R214) -/

def noList : Nat := 4
def roleOwn : Nat := 0
def roleOther : Nat := 1
def roleCal : Nat := 2
def roleIdle : Nat := 3

def State.adcServes (s : State) (t a k : Nat) : Bool :=
  decide (s.rd F.SNS_ADC_LIST [t, a] = k) && decide (s.rd F.SNS_ADC_ROLE [t, a] < 2) && !s.rdB F.SNS_ADC_FENCED [t, a]

def State.setAdc (s : State) (t a list role : Nat) : State :=
  (s.wr F.SNS_ADC_LIST [t, a] list).wr F.SNS_ADC_ROLE [t, a] role

/-- The ADC that serves a list. -/
def State.adcOf (s : State) (t k : Nat) : Option Nat := (List.range 5).find? (fun a => s.adcServes t a k)

def State.senseList (s : State) (t k : Nat) : SenseList := SMap.get .idle s.sense.lists (4 * t + k)
def State.setSenseList (s : State) (t k : Nat) (l : SenseList) : State :=
  { s with sense := { s.sense with lists := SMap.put .idle s.sense.lists (4 * t + k) l } }

/-- The conversion in flight on a list is lost; a request whose conversion it was is over (R211). -/
def State.loseConversion (s : State) (t k : Nat) : State :=
  let l := s.senseList t k
  let s := s.setSenseList t k { l with using_ := .idle }
  match l.using_ with
  | .injected _ => s.wr F.SNS_INJ_STATUS_BUSY [t, k] (if l.inj then 1 else 0)
  | _ => s

/-- t_c in units of 1/32 tick (625 ns is 3,125 of them). -/
def State.tConv (s : State) (t : Nat) : Nat := 3125 * s.rd F.SNS_CTRL_TCONV [t]

/-- The next slot boundary of a tile, the same on every ADC, in 1/32 tick. -/
def State.nextSlotAt (s : State) (t : Nat) : Nat :=
  let start := (s.senseList t 0).scanStart
  start + ((32 * s.now - start) / s.tConv t + 1) * s.tConv t

/-- ADCs of a tile take lists: at the next slot boundary, or at once while the tile does not scan. -/
def State.handLists (s : State) (t : Nat) (hs : List (Nat × Nat × Nat)) : State :=
  let r := s.senseTile t
  if r.running then s.setSenseTile t { r with hand := hs, handAt := s.nextSlotAt t }
  else hs.foldl (fun s h => s.setAdc t h.1 h.2.1 h.2.2) s

/-- No ADC serves the list or is about to. -/
def State.listLost (s : State) (t k : Nat) : Bool :=
  (s.adcOf t k).isNone && !(s.senseTile t).hand.any (fun h => decide (h.2.1 = k))

/-- Fences sense ADC `a` (R214): the conversion it makes is lost, the spare (4) takes its list where it can, an ADC offline
for calibration resumes its own, and rotation stops. -/
def State.fenceAdc (s : State) (t a : Nat) : State :=
  let mine := (List.range 4).find? (fun k => s.adcServes t a k)
  let other := (List.range 4).find? (fun k => s.adcServes t 4 k)
  let s := (s.wr F.SNS_ADC_FENCED [t, a] 1).setAdc t a noList roleIdle
  let ok := fun b => !s.rdB F.SNS_ADC_FENCED [t, b]
  let r := s.senseTile t
  let waiting := r.hand.filter (fun h => decide (h.1 ≠ a))
  let s := s.setSenseTile t { r with hand := waiting }
  let lost := fun (s : State) =>
    (List.range 4).foldl (fun s k =>
      if (s.senseList t k).adc = a ∧ (s.senseList t k).using_ ≠ .idle then s.loseConversion t k else s) s
  let s := lost s
  let s := match mine, other with
    | some k, some j =>
      if a = 4 then
        -- the spare fails: the ADC it stood in for resumes its list
        if ok k then (s.dropCal ⟨6, t, k⟩).handLists t [(k, k, roleOwn)] else s
      else if ok j then
        -- the ADC offline for calibration resumes; the spare takes the failed ADC's list
        (s.dropCal ⟨6, t, j⟩).handLists t [(j, j, roleOwn), (4, k, roleOther)]
      else s
    | some k, none => if ok 4 then (s.dropCal ⟨6, t, 4⟩).handLists t (waiting ++ [(4, k, roleOther)]) else s
    | none, _ => s
  let s := s.wr F.SNS_STATUS_ROT_STOPPED [t] 1
  s.wrB F.SNS_STATUS_NO_ADC [t] ((List.range 4).any (s.listLost t))

/-! ## Threads, clusters, capture engines, tiles -/

/-- Fences a thread: its shot ends with SHOT_FAULT and it issues nothing. -/
def State.haltThread (s : State) (g : Nat) : State :=
  (s.endThread g 0x0E s.now).updThr g (fun t => { t with st := 8 })

def State.fenceThread (s : State) (g : Nat) : State :=
  let ix := [thrTile g, thrCluster g]
  let s := s.wr F.CLU_STATUS_FENCED ix (s.rd F.CLU_STATUS_FENCED ix ||| 2 ^ thrIndex g)
  ((s.jobsOnThread g).foldl (fun s j => s.doomBy (fun h => decide (h = g)) j) s).haltThread g

/-- Fences a cluster and its 8 threads (R455). -/
def State.fenceCluster (s : State) (t c : Nat) : State :=
  let s := s.wr F.CLU_STATUS_CL_FENCED [t, c] 1
  (List.range 8).foldl (fun s i => s.fenceThread (gid t c i)) s

/-- Fences a capture engine: a record in progress is aborted (cause 4). -/
def State.fenceCapture (s : State) (t : Nat) : State :=
  let s := s.wr F.CAP_STATUS_FENCED [t] 1
  let s := if s.capState t = cTriggered then s.capAbort t 4
           else if s.capState t = cDone then s else s.wr F.CAP_STATUS_STATE [t] cIdle
  s.doomAll (s.jobsWhere (fun _ b => decide (b.kind = 2) && decide (b.tile = t)))

/-- The job has a thread, a measured line, a needed channel, an engine, a scan or a stream on the tile. -/
def State.jobOnTile (s : State) (t j : Nat) (b : Job) : Bool :=
  if b.kind = 1 then
    (s.jobThreads j).any (fun g => decide (thrTile g = t)) || (s.jobLines j).any (fun l => decide (l / 8 = t)) ||
      (s.plan b.plan).strms.any (fun p => decide (p.1 = t))
  else if b.kind = 6 then decide (b.firstQ / 64 ≤ t) && decide (t ≤ (b.firstQ + b.countQ - 1) / 64)
  else decide (b.kind ≠ 3) && decide (b.tile = t)

/-- Fences a tile (R459): every unit of it stops, and the ring is rebuilt without it. -/
def State.fenceTile (s : State) (t : Nat) : State :=
  let s := s.wr F.TIL_STATUS_FENCED [t] 1
  let s := s.wr F.SPN_TILE_FENCE_FENCED [] (s.rd F.SPN_TILE_FENCE_FENCED [] ||| 2 ^ t)
  let s := s.updWindows (fun w => if w.tile = t then { w with dead := true } else w)
  let s := (s.jobsWhere (s.jobOnTile t)).foldl (fun s j => s.doomBy (fun g => decide (thrTile g = t)) j) s
  let s := (List.range 72).foldl (fun s i => s.haltThread (72 * t + i)) s
  let s := if s.capState t = cTriggered then (s.note (.tile t 106) 2 0).capAbort t 3
           else if s.capState t = cDone then s else s.wr F.CAP_STATUS_STATE [t] cIdle
  { s with dec := { s.dec with rebuild := some s.now } }

/-! ## Borvon lanes (R307, R308, R325) -/

def State.port (s : State) (p : Nat) : PortRun := SMap.get .idle s.bvn.ports p
def State.setPort (s : State) (p : Nat) (r : PortRun) : State :=
  { s with bvn := { s.bvn with ports := SMap.put .idle s.bvn.ports p r } }
def State.lane (s : State) (p l : Nat) : LaneRun := SMap.get .idle s.bvn.lanes (4 * p + l)
def State.setLane (s : State) (p l : Nat) (r : LaneRun) : State :=
  { s with bvn := { s.bvn with lanes := SMap.put .idle s.bvn.lanes (4 * p + l) r } }

def pDisabled : Nat := 0
def pTraining : Nat := 1
def pActive : Nat := 2
def pDown : Nat := 3
def pTest : Nat := 4
def pRestripe : Nat := 5

def State.portState (s : State) (p : Nat) : Nat := s.rd F.BVN_PORT_STATUS_STATE [p]

/-- A port enters a state. -/
def State.setPortState (s : State) (p st : Nat) : State :=
  if s.portState p = st then s
  else (s.wr F.BVN_PORT_STATUS_STATE [p] st).wr F.BVN_PORT_TICK_TICK [p] (short s.grid)

/-- A slave loses its master (R325): HOLDOVER, frequency term frozen, phase term 0. -/
def State.tsHoldover (s : State) : State :=
  if decide (s.rd F.TIM_TS_CFG_ROLE [] = 2) &&
      (decide (s.rd F.TIM_TS_STATUS_STATE [] = 3) || decide (s.rd F.TIM_TS_STATUS_STATE [] = 4)) then
    let s := s.wr F.TIM_TS_STATUS_STATE [] 5
    let s := { s with ts := { s.ts with holdAt := some s.now, phaseTerm := 0, req := none } }
    let s := s.wrI F.TIM_TS_RATE_RATE [] s.ts.freqTerm
    s.note (.spine 8) 0 0
  else s

/-- Hands an ordered set or a message to a port's transmitter. -/
def State.transmit (s : State) (p : Nat) (e : Emit) : State :=
  (s.emit e).setPort p { s.port p with tx := (s.port p).tx ++ [e] }

/-- A port is DOWN: no lane carries traffic; what was being sent is lost. -/
def State.portDown (s : State) (p : Nat) : State :=
  let s := s.setPortState p pDown
  let s := (s.wr F.BVN_PORT_STATUS_WIDTH [p] 0).wr F.BVN_PORT_STATUS_IN_USE [p] 0
  let s := s.setPort p { s.port p with restripe := none, tx := [], cur := [], pkt := [], os := [] }
  let s := s.note (.spine (4 + p)) 1 0
  if s.rd F.TIM_TS_CFG_UPSTREAM [] = p then s.tsHoldover else s

/-- The `n` lowest set bits of a lane mask. -/
def lowLanes (mask n : Nat) : Nat :=
  ((List.range 4).filter (fun l => bit mask l)).take n |>.foldl (fun m l => m + 2 ^ l) 0

def laneCount (mask : Nat) : Nat := ((List.range 4).filter (fun l => bit mask l)).length

/-- The mask that the remaining lanes allow: the lowest-numbered good ones, 2 or 1 of them (R308). -/
def dropMask (good : Nat) : Nat := lowLanes good (if 2 ≤ laneCount good then 2 else 1)

/-- The detecting end begins a re-stripe: it sends no D and P messages, and RST four times with the new mask and its
receive counts. -/
def State.startRestripe (s : State) (p mask : Nat) : State :=
  let r := s.port p
  let s := s.setPort p { r.takeBack with restripe := some (BitVec.ofNat 4 mask, s.now, true) }
  let s := s.setPortState p pRestripe
  (List.range 4).foldl (fun s _ => s.transmit p (.rst p (BitVec.ofNat 4 mask) r.dCount r.pCount)) s

/-- Fences a lane of a port; a lane in use drops the width, the last one takes the port down. -/
def State.fenceLane (s : State) (p l : Nat) : State :=
  let inUse := s.rd F.BVN_PORT_STATUS_IN_USE [p]
  let good := s.rd F.BVN_PORT_STATUS_GOOD [p]
  let left := setBits good l 1 0
  let s := (s.wr F.BVN_LANE_STATUS_FENCED [p, l] 1).wr F.BVN_LANE_STATUS_TSTATE [p, l] 9
  let s := s.wr F.BVN_PORT_STATUS_GOOD [p] left
  if bit inUse l then
    let s := s.setPort p { s.port p with cur := [], os := [] }
    if left = 0 then s.portDown p
    else (s.count F.BVN_PORT_COUNT2_WIDTH_DROPS [p] 1).startRestripe p (dropMask left)
  else s

/-! ## DRAM devices (R399-R401) -/

/-- Retires a device: 1 command or FENCE, 2 threshold, 3 boot test. -/
def State.retire (s : State) (d cause : Nat) : State :=
  let s := (s.wr F.MEM_DEV_ERR_RETIRED [d] 1).wr F.MEM_DEV_ERR_CAUSE [d] cause
  let s := s.wr F.MEM_STATUS_RETIRED [] ((List.range 80).filter (fun d => s.rdB F.MEM_DEV_ERR_RETIRED [d])).length
  let s := { s with msvc := { s.msvc with sinterRetired := s.msvc.sinterRetired ++ [d] } }
  s.note (.spine 10) 1 d

/-- Another device of the codeword group is retired (R400). -/
def State.groupRetired (s : State) (d : Nat) : Bool :=
  (List.range 10).any (fun p => s.rdB F.MEM_DEV_ERR_RETIRED [10 * (d / 10) + p])

/-- A device has reached the threshold within a patrol pass: it is retired, unless its group has no erasure left. -/
def State.atThreshold (s : State) (d : Nat) : State :=
  if s.groupRetired d then s.note (.spine 10) 2 d else (s.retire d 2).advise

/-- Corrected symbols of a device are counted against it, `owner` having read the line (R399, R405). -/
def State.countSymbols (s : State) (o : SymObs) (owner : Nat) : State :=
  let n := s.rd F.MEM_DEV_ERR_CE_COUNT [o.dev]
  let thr := s.rd F.MEM_RETIRE_THR_THR []
  let s := (s.count F.MEM_DEV_ERR_CE_COUNT [o.dev] o.n).count F.MEM_CE_TOTAL_COUNT [] o.n
  let s := ((s.wr F.MEM_LAST_ERR_DEVICE [] o.dev).wr F.MEM_LAST_ERR_UE [] 0).wr F.MEM_LAST_ERR_OWNER [] owner
  let line := o.addr / 64
  let s := (s.wr F.MEM_LAST_ERR_LO_ADDR_LO [] (64 * line)).wr F.MEM_LAST_ERR_HI_ADDR_HI [] (64 * line / 2 ^ 32)
  if n < thr ∧ thr ≤ n + o.n ∧ !s.rdB F.MEM_DEV_ERR_RETIRED [o.dev] then s.atThreshold o.dev else s

/-! ## Every unit -/

/-- The fault block that covers a unit, and its UNIT there (R446, R447), for the log. -/
def unitBlock (u : UnitDesc) : FltBlk × Nat :=
  let t := u.tile
  let i := u.index
  match u.kind with
  | 1 => (.tile t i, 0)
  | 2 => (.tile t (64 + i), 0)
  | 3 => (.tile t (72 + i), 0)
  | 4 => (.tile t (89 + i / 8), i % 8)
  | 5 => (.tile t (97 + i / 8), i % 8)
  | 6 => (.tile t 105, i)
  | 7 => (.tile t (72 + i / 32), i % 32)
  | 8 => (.tile t (80 + i / 8), i % 8)
  | 9 => (.tile t (80 + i), 8)
  | 10 => (.tile t 106, 0)
  | 11 => (.tile t 107, 0)
  | 12 => (.spine (4 + i / 4), i % 4)
  | 13 => (.spine 3, i)
  | _ => (.spine 10, i)

/-- Logs a fence or an UNFENCE of a unit. -/
def State.logUnit (s : State) (kind : Nat) (flags : BitVec 8) (u : UnitDesc) (data : List Byte) : State :=
  let (b, i) := unitBlock u
  s.logEvent kind 0 0 flags b.code i (BitVec.ofNat 32 u.word) data

/-- Fences a unit: by a unit-fatal fault, or by FENCE (`host`). A unit that is fenced is unchanged. -/
def State.fenceUnit (s : State) (u : UnitDesc) (host : Bool) : State :=
  if s.fenced u then s
  else
    let t := u.tile
    let i := u.index
    let s := match u.kind with
      | 1 => s.fenceDrive t i
      | 2 => s.fenceSpare t i
      | 3 => s.fenceLine t i
      | 4 => (s.wr F.FLX_STATUS_FENCED [t, i] 1).doomAll (s.jobsOnChan (64 * t + i))
      | 5 => (s.wr F.BIA_STATUS_FENCED [t, i] 1).doomAll (s.jobsOnChan (64 * t + i))
      | 6 => s.fenceAdc t i
      | 7 => s.fenceSlice t (i / 32) (i % 32)
      | 8 => s.fenceThread (72 * t + i)
      | 9 => s.fenceCluster t i
      | 10 => s.fenceCapture t
      | 11 => s.fenceTile t
      | 12 => s.fenceLane (i / 4) (i % 4)
      | 13 => s.wr F.TDC_IN_STATUS_FENCED [i] 1
      | 14 => s.retire i 1
      | _ => s
    let s := if decide (u.kind ≤ 6) || decide (u.kind = 13) then (s.dropCal u).failCal u 0x0401 else s
    let s := s.logUnit 2 (if host then 4 else 0) u []
    s.advise

end Sys2Proof.Machine
end

