-- ==== Sys2Proof/Machine/Ops.lean ====
section
/-! DEFINITION. The operations that change the whole part: the mode (R30-R32, R481-R484), entry to SAFE, and recording a
fault with the reaction of its severity (R448-R453). -/

namespace Sys2Proof.Machine

/-! ## The mode -/

/-- Writes MODE with the tick of the change and its log record. -/
def State.setMode (s : State) (m cause : Nat) : State :=
  let old := s.mode
  let s := s.wr F.SPN_MODE_SAFE_CAUSE [] cause
  let s := if old = m then s
    else (s.wr F.SPN_MODE_MODE [] m).wr F.SPN_MODE_TIME_TICK [] (short s.grid)
  s.logEvent 4 0 0 0 0x700 m 0xFFFFFFFF (leBytes 1 old ++ leBytes 1 m ++ leBytes 1 cause)

/-- The response payload of CAL_RUN (R425). -/
def CalReq.payload (r : CalReq) : List Byte := leBytes 2 r.done ++ leBytes 2 r.failed ++ leBytes 2 r.firstFail ++ leBytes 2 0

/-- Every calibration in progress is abandoned; requests of mailboxes end FAILED with 0x0504 (R413, R482). -/
def State.abandonCal (s : State) : State :=
  let reqs := s.cal.reqs
  let s := { s with cal :=
    { s.cal with
      reqs := [], boot := false, coming := [],
      units := s.cal.units.map (fun (e : Nat × CalUnit) => (e.1, { e.2 with work := .none, result := none, stepFrom := none })) } }
  let s := s.wr F.SPN_CAL_STATUS_FOREGROUND [] 0
  reqs.foldl (fun s r =>
    match r.mbx with
    | some n => s.respond n stFailed 0x0504 whole 0 r.payload
    | none => s) s

/-- A bias output of a tile at an entry to a safe state: code 0; the clamp of a live one follows 3,125 ticks later
(R190). -/
def State.safeBias (s : State) (e : Nat × BiasRun) : Nat × BiasRun :=
  let had := (SMap.get .idle s.outs.en (outKey .bias (e.1 / 64) (e.1 % 64))).hadValue
  (e.1, { e.2 with code := 0, waiting := [], safeAt := if had then some s.now else e.2.safeAt })

/-- Outputs at entry to SAFE (R141, R190): no output has a value. -/
def State.safeOutputs (s : State) : State :=
  { s with outs :=
    { s.outs with
      en := s.outs.en.map (fun (e : Nat × EnRun) => (e.1, { e.2 with hadValue := false })),
      bias := s.outs.bias.map s.safeBias,
      smark := [] } }

/-- The mailboxes whose RESUME has been accepted and not answered. -/
def State.resumers (s : State) : List Nat :=
  (List.range 64).filter (fun n =>
    decide (s.rd F.MBX_STATUS_STATE [n] = 1) && (s.mbx n).inProg && decide ((s.mbx n).req.opcode = 0x02))

/-- Entry to SAFE finds shots that only wait for windows (R71): they too end SAFE_ENTERED, unless they have ended with a
status that is not OK. -/
def State.safeShots (s : State) (b : Job) : Job :=
  let live := (s.threadsOf b).any (fun g => (s.thr g).active)
  { b with
    struck := if b.running && decide (b.kind = 1) && !live && decide (b.shotStatus = 0) then 0x10 else b.struck
    tails := b.tails.map (fun t => if t.status = 0 then { t with status := 0x10 } else t) }

/-- Entry to SAFE (R32, R483): every job that has not ended ends SAFE_ENTERED, running shots end with that status,
partitions are IDLE. In RESET nothing happens; in SAFE a cause other than the host command rewrites SAFE_CAUSE. -/
def State.enterSafe (s : State) (cause : Nat) : State :=
  if s.mode = mReset then s
  else if s.mode = mSafe then
    let s := if cause = 4 then s else s.setMode mSafe cause
    if s.boot.resuming.isNone ∨ cause = 4 then s
    else
      let s := { s with boot := { s.boot with resuming := none } }
      s.resumers.foldl (fun s n => s.fail n 0x0504) (s.wr F.SPN_MODE_CHANGING [] 0)
  else
    let s := (s.setMode mSafe cause).wr F.SPN_MODE_CHANGING [] 0
    let s := { s with qm := { s.qm with jobs := s.qm.jobs.map (fun (e : Nat × Job) => (e.1, s.safeShots e.2)) } }
    let s := (s.qm.jobs.filter (fun e => e.2.open_)).foldl (fun s e => s.endJob e.1 0x05 0) s
    let s := (s.threads.filter (fun e => e.2.active)).foldl (fun s e => s.endThread e.1 0x10 s.now) s
    let s := (List.range s.variant.tiles).foldl State.capSafe s
    let s := (List.range 32).foldl (fun s b => s.setBar b .idle) s
    (s.safeOutputs.abandonCal).syncParts

/-- The device mode by R31, from the states in force after the events of a tick (R482). -/
def State.evalMode (s : State) : State :=
  let m := s.mode
  if m = mReset ∨ m = mSafe then s
  else
    let want :=
      if s.rdB F.SPN_CAL_STATUS_FOREGROUND [] then mCalibrate
      else if s.qm.jobs.any (fun e => e.2.open_ && e.2.running) then mRun
      else if s.qm.jobs.any (fun e => e.2.open_) then mArmed
      else mIdle
    if m = want then s else s.setMode want (s.rd F.SPN_MODE_SAFE_CAUSE [])

/-! ## Faults with their reactions (R448, R450, R509) -/

/-- A real failure of a slice is recorded in the bit that the line's state calls for (R226, R509, R512). -/
def State.sliceBit (s : State) (b : FltBlk) (f : FaultRec) : FaultRec :=
  match b with
  | .tile t k =>
    if 72 ≤ k ∧ k < 80 ∧ (f.bit = 3 ∨ f.bit = 4) then
      if s.sliceFatal t (k - 72) then { f with bit := 3, sev := 3 } else { f with bit := 4, sev := 2 }
    else f
  | .spine _ => f

/-- SAFE_CAUSE of a device-fatal fault: viral 2, thermal shutdown 3, else 1. CACHE_UNCORR counts as viral when it
signals it (15 R342). -/
def State.fatalCause (s : State) (b : FltBlk) (bit : Nat) : Nat :=
  match b with
  | .spine 0 => if bit = 1 ∨ s.hif.viralEn then 2 else 1
  | .spine 2 => if bit = 0 then 3 else 1
  | _ => 1

/-- Viral comes into force: CACHE_UNCORR signals it upstream with Viral_Enable 1 (15 R342). -/
def State.viralOf (s : State) (b : FltBlk) (bit : Nat) : State :=
  if b = .spine 0 ∧ s.hif.viralEn ∧ bit ≤ 1 then
    (if bit = 0 then s.emit .viral else s).wr F.SPN_HIF_STATUS_VIRAL [] 1
  else s

/-- The reaction of a recorded fault: its unit is fenced, or the part enters SAFE. -/
def State.react (s : State) (b : FltBlk) (f : FaultRec) : State :=
  let slice := match b with
    | .tile _ k => decide (72 ≤ k) && decide (k < 80) && decide (f.bit = 4)
    | .spine _ => false
  if f.sev = 4 then (s.viralOf b f.bit).enterSafe (s.fatalCause b f.bit)
  else if f.sev = 3 || slice then
    match faultUnit b f.bit f.unit with
    | some u => s.fenceUnit u false
    | none => s
  else s

/-- One cycle of a block: each fault is recorded, then those marked take their reaction. -/
def State.faultCycle (s : State) (b : FltBlk) (fs : List (FaultRec × Bool)) : State :=
  let fs := fs.map (fun p => (if p.2 then s.sliceBit b p.1 else p.1, p.2))
  let s := s.record b (fs.map Prod.fst)
  (fs.filter Prod.snd).foldl (fun s p => s.react b p.1) s

/-- A real fault. -/
def State.fault (s : State) (b : FltBlk) (bit unit : Nat) : State :=
  if b.live s.variant then s.faultCycle b [(⟨bit, unit, (s.faultSev b bit).getD 0, true, false⟩, true)] else s

end Sys2Proof.Machine
end

