-- ==== Sys2Proof/Machine/Operands.lean ====
section
/-! DEFINITION. What a host write means by the access types of its fields (00 R13, R14): when a unit runs (for RL), the
values a field accepts, staging, and coupled pairs (17 R392, R393). -/

namespace Sys2Proof.Machine

/-! ## Owners and running units -/

/-- The partition is ARMED or RUN. -/
def State.partBusy (s : State) (p : Nat) : Bool := decide (s.partState p ≠ 0)

/-- The partition that owns a unit, by a membership test on its unit lists. -/
def State.ownerBy (s : State) (p : Part → Bool) : Option Nat :=
  (s.qm.parts.find? (fun e => p e.2)).map Prod.fst

def State.chanOwner (s : State) (q : Nat) : Option Nat := s.ownerBy (fun p => p.chans.contains q)
def State.lineOwner (s : State) (l : Nat) : Option Nat := s.ownerBy (fun p => p.lines.contains l)
def State.thrOwner (s : State) (g : Nat) : Option Nat := s.ownerBy (fun p => p.thrs.contains g)
def State.genOwner (s : State) (g : Nat) : Option Nat := s.ownerBy (fun p => p.gens.contains g)

def State.ownerBusy (s : State) (o : Option Nat) : Bool :=
  match o with
  | some p => s.partBusy p
  | none => false

/-- An output counts as running while the partition that owns its channel is ARMED or RUN (07 R192; for drive channels
and delays DEDUCED, log 30). -/
def State.chanRunning (s : State) (q : Nat) : Bool := s.ownerBusy (s.chanOwner q)

/-- A readout line runs while a window is open on it or its partition is ARMED or RUN (09, Registers). -/
def State.lineRunning (s : State) (l : Nat) : Bool :=
  s.rdo.windows.any (fun w => decide (8 * w.tile + w.line = l) && w.openAt s.now) || s.ownerBusy (s.lineOwner l)

/-- A thread of the tile runs a shot: TIL_STATUS.RUNNING (01). -/
def State.tileRunning (s : State) (t : Nat) : Bool :=
  s.threads.any (fun e => decide (thrTile e.1 = t) && e.2.active)

def State.slotUser (s : State) (slot : Nat) : SlotUser := SMap.get .none s.dec.users (slot - 960)
def State.setSlotUser (s : State) (slot : Nat) (u : SlotUser) : State :=
  { s with dec := { s.dec with users := SMap.put .none s.dec.users (slot - 960) u } }

/-- The partition a classical slot is assigned to. -/
def State.userPart (s : State) (slot : Nat) : Option Nat :=
  match s.slotUser slot with
  | .none => none
  | .pub j _ => some (s.job j).part
  | .imp _ p => some p
  | .software p => some p

/-- The partition a decision slot belongs to: its readout line's, its decoder's, or the one it is assigned to. -/
def State.slotOwner (s : State) (slot : Nat) : Option Nat :=
  if slot < 896 then s.lineOwner (slot / 16)
  else if slot < 960 then
    let d := (slot - 896) / 16
    if s.rd F.SPN_SYN_DEC_CFG_MODE [d] = 0 then none else some (s.rd F.SPN_SYN_DEC_CFG_PART [d])
  else s.userPart slot

/-- A Borvon port runs while an export list, an import map or an EXTERNAL decoder of a busy partition names it (13). -/
def State.portRunning (s : State) (p : Nat) : Bool :=
  (SMap.get [] s.dec.exports p).any (fun slot => s.ownerBusy (s.slotOwner slot)) ||
  (SMap.get [] s.dec.imports p).any (fun m => s.ownerBusy (s.slotOwner m.2)) ||
  (List.range 4).any (fun d => decide (s.rd F.SPN_SYN_DEC_CFG_MODE [d] = 3) &&
    decide (s.rd F.SPN_SYN_DEC_CFG_PORT [d] = p) && s.partBusy (s.rd F.SPN_SYN_DEC_CFG_PART [d]))

/-- The unit that owns a register runs (R13, RL). -/
def State.running (s : State) (r : Reg) (ix : List Nat) : Bool :=
  let t := ix.headD 0
  let i := ix.getD 1 0
  let o := r.base % 0x1000000
  if 0x1000000 ≤ r.base ∧ r.base < 0x2000000 then
    if r.id = R.TIL_MARK.id then s.tileRunning t
    else if r.id = R.TIL_GEN_START.id ∨ r.id = R.TIL_GEN_STEP.id ∨ r.id = R.TIL_GEN_LIMIT.id ∨ r.id = R.TIL_GEN_CTRL.id then
      s.rdB F.TIL_GEN_CTRL_EN [t, i]
    else if 0x100000 ≤ o ∧ o < 0x148000 then s.chanRunning (64 * t + i)
    else if 0x200000 ≤ o ∧ o < 0x2C0000 then s.chanRunning (64 * t + i)
    else if 0x2C0000 ≤ o ∧ o < 0x300000 then s.rdB F.SNS_CTRL_SCAN_EN [t]
    else if 0x300000 ≤ o ∧ o < 0x340000 then s.lineRunning (8 * t + i)
    else if 0x380000 ≤ o ∧ o < 0x3C0000 then
      !(decide (s.capState t = cIdle) || decide (s.capState t = cDone))
    else false
  else if r.id = R.TIM_REF_CTRL.id then !(decide (s.mode = mReset) || decide (s.mode = mSafe))
  else if r.id = R.TIM_SYNC_CFG.id then s.rdB F.TIM_TS_CFG_SYNC_OUT []
  else if r.id = R.TIM_EVT_CTRL.id ∨ r.id = R.TIM_EVT_TARGET.id ∨ r.id = R.TIM_EVT_PERIOD.id then
    s.rdB F.TIM_EVT_CTRL_EN [t]
  else if r.id = R.TDC_IV_CFG.id then s.rdB F.TDC_IV_CFG_EN [t]
  else if r.id = R.TDC_FREQ_CFG.id ∨ r.id = R.TDC_FREQ_GATE.id then s.rdB F.TDC_FREQ_STATUS_BUSY []
  else if r.id = R.BVN_LOCAL_ID.id then (List.range 4).any (fun p => decide (s.portState p ≠ pDisabled))
  else if r.id = R.BVN_PORT_CTRL.id then s.portRunning t
  else false

/-! ## Accepted values (R14) -/

def FieldDesc.of (f : FieldDesc) (v : Nat) : Nat := bits v f.lo f.width

/-- The value is listed for the field; RO bits are discarded and not checked. -/
def FieldDesc.accepts (f : FieldDesc) (v : Nat) : Bool :=
  f.allowed.isEmpty || decide (f.access = .ro) || f.allowed.any (fun p => decide (p.1 ≤ f.of v) && decide (f.of v ≤ p.2))

def Reg.fieldsOf (r : Reg) (w : Nat) : List FieldDesc := r.fields.filter (fun f => decide (f.word = w))

/-- Bits of the fields of a word with an access type. -/
def Reg.maskBy (r : Reg) (w : Nat) (p : Access → Bool) : Nat :=
  ((r.fieldsOf w).filter (fun f => p f.access)).foldl (fun m f => m ||| ((2 ^ f.width - 1) * 2 ^ f.lo)) 0

/-- TIL_MARK names a probe output above 7 (05): the one value check of two fields together. -/
def crossOk (r : Reg) (v : Nat) : Bool :=
  if r.id = R.TIL_MARK.id then !(decide (bits v 2 1 = 1) && decide (7 < bits v 3 6)) else true

/-- Every field of the word accepts its value (R14). -/
def Reg.accepts (r : Reg) (w v : Nat) : Bool := (r.fieldsOf w).all (fun f => f.accepts v) && crossOk r v

/-- An RL field of the word would change (R13). -/
def State.changesRl (s : State) (r : Reg) (ix : List Nat) (w v : Nat) : Bool :=
  let m := r.maskBy w (fun a => decide (a = .rl))
  decide ((s.regWord r ix w).toNat &&& m ≠ v &&& m)

/-- The write is refused whole with 0x0501. -/
def State.refusesWrite (s : State) (r : Reg) (ix : List Nat) (w v : Nat) : Bool :=
  !r.accepts w v || (s.changesRl r ix w v && s.running r ix)

/-! ## Staging -/

/-- A staged action takes the place of an earlier one on the same fields (R58). -/
def StagedAct.replaces (a b : StagedAct) : Bool :=
  match a, b with
  | .word x _ m, .word y _ n => decide (x = y) && decide (m = n)
  | .couple x _ _, .couple y _ _ => decide (x = y)
  | .decSw _, .decSw _ => true
  | .synBase x _, .synBase y _ => decide (x = y)
  | .thmCfg _, .thmCfg _ => true
  | .spanChange k t c _ _, .spanChange l u d _ _ => decide (k = l) && decide (t = u) && decide (c = d)
  | a, b => decide (a = b)

/-- Puts an action into staging, to take effect at the next tick boundary, or at a shot boundary of its unit. -/
def State.stage (s : State) (a : StagedAct) (rwh : Bool) : State :=
  { s with staged := s.staged.filter (fun e => !a.replaces e.act) ++ [⟨a, s.now, rwh⟩] }

/-- Replaces the bits of a word under a mask. -/
def maskWord (old new mask : Word) : Word := (old &&& ~~~mask) ||| (new &&& mask)

/-- Writes the bits of a register instance under a mask. -/
def State.setMasked (s : State) (r : Reg) (ix : List Nat) (w : Nat) (v mask : Word) : State :=
  s.setRegWord r ix w (maskWord (s.regWord r ix w) v mask)

/-- The coupled pair a register word belongs to (R392): the address of its first member, and whether this is the
second. -/
def couplePair (r : Reg) (ix : List Nat) (w : Nat) : Option (Nat × Bool) :=
  if r.id = R.DRV_FREQ.id ∨ r.id = R.FLX_FREQ.id then some (r.addr ix 0, decide (w = 1))
  else if r.id = R.RDO_TONE_FTW_LO.id ∨ r.id = R.RDO_TONE_C0_I.id ∨ r.id = R.RDO_TONE_C1_I.id ∨
      r.id = R.RDO_TONE_C2_I.id ∨ r.id = R.SNS_LIMIT_LO.id then some (r.addr ix 0, false)
  else if r.id = R.RDO_TONE_FTW_HI.id ∨ r.id = R.RDO_TONE_C0_Q.id ∨ r.id = R.RDO_TONE_C1_Q.id ∨
      r.id = R.RDO_TONE_C2_Q.id ∨ r.id = R.SNS_LIMIT_HI.id then some (r.addr ix 0 - 4, true)
  else none

def Reg.is (r q : Reg) : Bool := decide (r.id = q.id)

/-- The fault block, bit and unit of COUPLE_TIMEOUT for the pair at an address (21 R446). -/
def coupleFault (addr : Nat) : Option (FltBlk × Nat × Nat) :=
  match findReg addr regTable with
  | some (r, t :: i :: rest, _) =>
    if r.is R.DRV_FREQ then some (.tile t i, 6, 0)
    else if r.is R.FLX_FREQ then some (.tile t (89 + i / 8), 4, i % 8)
    else if r.is R.SNS_LIMIT_LO then some (.tile t 105, 7, i)
    else some (.tile t (72 + i), 10, rest.headD 0)
  | _ => none

/-- A pair's stage whose partner has not come within 1 ms (156,250 ticks) is discarded (R393). -/
def State.expireCouple (s : State) (addr : Nat) : State :=
  if s.couples.any (fun c => decide (c.addr = addr) && decide (c.entry + 156250 ≤ s.now)) then
    let s := ({ s with couples := s.couples.filter (fun c => decide (c.addr ≠ addr)) }).refuse addr 0x0301
    match coupleFault addr with
    | some (b, bit, unit) => s.note b bit unit
    | none => s
  else s

/-- A write to one member of a pair enters staging (R393), where no expired stage of it is left: it opens a stage, replaces the staged value of the same
member, or completes the stage of its partner. -/
def State.stageCouple (s : State) (first : Nat) (second : Bool) (v : Word) : State :=
  let s := s.expireCouple first
  match s.couples.find? (fun c => decide (c.addr = first)) with
  | none => { s with couples := s.couples ++ [⟨first, second, v, s.now⟩] }
  | some c =>
    if c.second = second then
      { s with couples := s.couples.map (fun d => if d.addr = first then { d with value := v } else d) }
    else
      let s := { s with couples := s.couples.filter (fun d => decide (d.addr ≠ first)) }
      s.stage (if second then .couple first c.value v else .couple first v c.value) false

/-- Bits whose writing is an operation and not a store: an enable, a span, a segment's STATE, a jump's TARGET, and words
with a check of their own. -/
def opMask (r : Reg) (w : Nat) : Word :=
  if r.id = R.DRV_CTRL.id ∨ r.id = R.PRB_CTRL.id ∨ r.id = R.BIA_CTRL.id ∨ r.id = R.TIL_GEN_CTRL.id ∨ r.id = R.SNS_CTRL.id then 1
  else if r.id = R.FLX_CTRL.id then 3
  else if r.id = R.TIL_SEG.id ∧ w = 0 then 4
  else if r.id = R.BIA_SPAN.id ∨ r.id = R.TIL_STRM_JUMP.id ∨ r.id = R.THM_CFG.id ∨ r.id = R.SPN_DEC_SW.id ∨
      r.id = R.SPN_SYN_DEC_BASE.id ∨ r.id = R.QMG_STRM_WP.id ∨ r.id = R.TIM_REF_CTRL.id then 0xFFFFFFFF
  else 0

/-- The effect of an accepted write on its fields by their access types: RW and RL at once, RW1C clears, RWS and RWH are
staged, RWC enters its pair's stage. -/
def State.enterWrite (s : State) (r : Reg) (ix : List Nat) (w : Nat) (v : Word) : State :=
  let m := fun p => BitVec.ofNat 32 (r.maskBy w p)
  let now := m (fun a => decide (a = .rw) || decide (a = .rl)) &&& ~~~opMask r w
  let s := s.setMasked r ix w v now
  let s := s.setMasked r ix w 0 (v &&& m (fun a => decide (a = .rw1c)))
  let rws := m (fun a => decide (a = .rws))
  let s := if rws = 0 then s else s.stage (.word (r.addr ix w) v rws) false
  let rwh := m (fun a => decide (a = .rwh))
  let s := if rwh = 0 then s else s.stage (.word (r.addr ix w) v rwh) true
  match couplePair r ix w with
  | some (first, second) => s.stageCouple first second v
  | none => s

end Sys2Proof.Machine
end

