-- ==== Sys2Proof/Machine/Corrections.lean ====
section
/-! DEFINITION. What calibration knows of a unit, and a set of corrections coming into force (19 R409-R413, R419, R425,
R428). -/

namespace Sys2Proof.Machine

/-- Operating seconds (R411, R425). -/
def State.opSec (s : State) : Nat := s.cal.opTicks / 156250000

/-! ## Temperatures (R409, R433, R435) -/

/-- Sensors: spine s as s, sensor k of tile n as 6 + 12 n + k. -/
def sensorDie (n : Nat) : List Nat := if n < 6 then List.range 6 else (List.range 12).map (fun k => 6 + 12 * ((n - 6) / 12) + k)

def State.sensorFailed (s : State) (n : Nat) : Bool :=
  if n < 6 then s.rdB F.THM_SENS_FAILED [n] else s.rdB F.THM_SENS_T_FAILED [(n - 6) / 12, (n - 6) % 12]

def State.sensorReading (s : State) (n : Nat) : Int :=
  if n < 6 then s.rdI F.THM_SENS_TEMP [n] else s.rdI F.THM_SENS_T_TEMP [(n - 6) / 12, (n - 6) % 12]

/-- The temperature at a sensor's place: a failed sensor's place counts as the maximum of its die (R435). -/
def State.placeTemp (s : State) (n : Nat) : Int :=
  if s.sensorFailed n then
    (((sensorDie n).filter (fun m => !s.sensorFailed m)).map s.sensorReading).foldl max (-32768)
  else s.sensorReading n

/-- The relevant sensor of a unit (R409); none for a sense ADC, which has its own monitor. -/
def relSensor (u : UnitDesc) : Option Nat :=
  let t := 6 + 12 * u.tile
  match u.kind with
  | 1 => some (t + u.index / 8)
  | 2 => some (t + u.index)
  | 3 => some (t + 8 + u.index / 4)
  | 4 | 5 => some (t + 10)
  | 13 => some 3
  | _ => none

/-- The relevant temperature of a unit, in 1/128 degree C. -/
def State.relTemp (s : State) (u : UnitDesc) : Int :=
  match relSensor u with
  | some n => s.placeTemp n
  | none => s.rdI F.SNS_ADC_TEMP [u.tile, u.index]

/-- The relevant temperature differs by more than CAL_DT from `t0` (R411). -/
def State.drifted (s : State) (u : UnitDesc) (t0 : Int) : Bool :=
  (match relSensor u with | some n => !s.sensorFailed n | none => true) &&
    decide ((s.rd F.SPN_CAL_CFG_DT [] * 128 : Int) < |s.relTemp u - t0| * 10)

/-! ## Validity and corrections in force -/

/-- Sets or clears the CAL_VALID bit of a unit (R409). -/
def State.setCalValid (s : State) (u : UnitDesc) (b : Bool) : State :=
  let t := u.tile
  let i := u.index
  match u.kind with
  | 1 => s.wrB F.DRV_STATUS_CAL_VALID [t, i] b
  | 2 => s.wrB F.DRV_STATUS_CAL_VALID [t, 64 + i] b
  | 3 => (s.wrB F.RDO_STATUS_CAL_VALID [t, i] b).wrB F.PRB_STATUS_CAL_VALID [t, i] b
  | 4 => s.wrB F.FLX_STATUS_CAL_VALID [t, i] b
  | 5 => s.wrB F.BIA_STATUS_CAL_VALID [t, i] b
  | 6 => s.wrB F.SNS_ADC_CAL_VALID [t, i] b
  | _ => s

def State.calValid (s : State) (u : UnitDesc) : Bool :=
  let t := u.tile
  let i := u.index
  match u.kind with
  | 1 => s.rdB F.DRV_STATUS_CAL_VALID [t, i]
  | 2 => s.rdB F.DRV_STATUS_CAL_VALID [t, 64 + i]
  | 3 => s.rdB F.RDO_STATUS_CAL_VALID [t, i]
  | 4 => s.rdB F.FLX_STATUS_CAL_VALID [t, i]
  | 5 => s.rdB F.BIA_STATUS_CAL_VALID [t, i]
  | 6 => s.rdB F.SNS_ADC_CAL_VALID [t, i]
  | _ => true

/-- Corrections of a unit come into force together at the present tick boundary (R419). -/
def State.putCorr (s : State) (u : UnitDesc) (c : CalObs) : State :=
  let t := u.tile
  let i := u.index
  let now := short s.grid
  match u.kind with
  | 1 =>
    let s := (s.wr F.DRV_CAL_GAIN_GAIN [t, i] c.gain).wrI F.DRV_CAL_OFFSET_OFFSET [t, i] c.offset
    ((s.wr F.DRV_CAL_DELAY_PAD [t, i] c.pad).wr F.DRV_CAL_DELAY_FINE [t, i] c.fine).wr F.DRV_CAL_TICK_TICK [t, i] now
  | 2 =>
    let put := fun m k => SMap.put calRest m (64 * t + 8 * i + k) c
    { s with outs := { s.outs with pathsNew := (List.range 8).foldl put s.outs.pathsNew } }
  | 3 =>
    let s := (s.wr F.PRB_CAL_GAIN_GAIN [t, i] c.gain).wrI F.PRB_CAL_OFFSET_OFFSET [t, i] c.offset
    let s := (s.wr F.PRB_CAL_DELAY_PAD [t, i] c.pad).wr F.PRB_CAL_DELAY_FINE [t, i] c.fine
    (s.wr F.PRB_CAL_TICK_TICK [t, i] now).wr F.RDO_CAL_TICK_TICK [t, i] now
  | 4 =>
    let s := (s.wr F.FLX_CAL_GAIN_GAIN [t, i] c.gain).wrI F.FLX_CAL_OFFSET_OFFSET [t, i] c.offset
    ((s.wr F.FLX_CAL_DELAY_PAD [t, i] c.pad).wr F.FLX_CAL_DELAY_FINE [t, i] c.fine).wr F.FLX_CAL_TICK_TICK [t, i] now
  | 5 =>
    ((s.wr F.BIA_CAL_GAIN_GAIN [t, i] c.gain).wrI F.BIA_CAL_OFFSET_OFFSET [t, i] c.offset).wr F.BIA_CAL_TICK_TICK [t, i] now
  | _ => s

/-- Number of stale units, overall and of a tile. -/
def State.staleUnits (s : State) (t : Option Nat) : Nat :=
  (s.cal.units.filter (fun e => e.2.stale &&
    (match t with | some n => decide (e.1 / 65536 % 256 = n) | none => true))).length

def State.syncStale (s : State) : State := s.wr F.SPN_CAL_STATUS_STALE [] (min (s.staleUnits none) 65535)

/-! ## Calibrations of a unit -/

/-- The tile of a unit for block 11, 0x7F for the spine. -/
def calTile (u : UnitDesc) : Nat := if u.onSpine then 0x7F else u.tile

/-- A calibration of a unit completes: within its limits its corrections come into force and it is valid, neither due
nor stale, unless it has drifted since the start (R412, R413, R419); otherwise CAL_STEP_FAIL and it stays due. -/
def State.completeCal (s : State) (u : UnitDesc) (c : CalObs) : State :=
  let k := s.calU u
  if c.pass then
    let s := (s.putCorr u c).setCalValid u true
    let again := s.rdB F.SPN_CAL_CFG2_AUTO [] && s.drifted u k.startTemp
    let s := s.setCalU u { k with
      due := if again then some s.now else none, stale := false, temp := k.startTemp, opsec := k.startOps, source := 0,
      work := .none, result := none, unwritten := some c, named := false, inForce := c, stepFrom := none }
    let s := s.wr F.SPN_CAL_STATUS_NV_PENDING [] 1
    (s.syncStale).noteCal u true 0
  else
    let s := s.setCalU u { k with work := .none, result := none, stepFrom := none }
    (s.fault (.spine 11) 1 (calTile u)).noteCal u false 0x0602

/-- A calibration of a unit has ended: corrections within their limits come into force at the next tick boundary, in step 1
of R59 (R419). -/
def State.bring (s : State) (u : UnitDesc) (c : CalObs) : State :=
  if c.pass then { s with cal := { s.cal with coming := s.cal.coming ++ [(u, c)] } } else s.completeCal u c

/-- A calibration of a unit begins: its temperature and operating age are recorded. -/
def State.startCal (s : State) (u : UnitDesc) (w : CalWork) : State :=
  s.updCalU u (fun k => { k with work := w, startTemp := s.relTemp u, startOps := s.opSec, result := none, stepFrom := none })

/-- A unit becomes due. -/
def State.makeDue (s : State) (u : UnitDesc) : State :=
  s.updCalU u (fun k => if k.due.isSome then k else { k with due := some s.now })

end Sys2Proof.Machine
end

