-- ==== Sys2Proof/Machine/Drive.lean ====
section
/-! DEFINITION. Outputs and their enabling (05 R141-R144, 07 R190, R191, 09 R221), and the spare drive DACs (05 R145-R152,
19 R414). -/

namespace Sys2Proof.Machine

/-! ## Output records -/

def State.en (s : State) (k : OutKind) (t c : Nat) : EnRun := SMap.get .idle s.outs.en (outKey k t c)
def State.setEn (s : State) (k : OutKind) (t c : Nat) (e : EnRun) : State :=
  { s with outs := { s.outs with en := SMap.put .idle s.outs.en (outKey k t c) e } }

def fEn : OutKind → Fld
  | .drive => F.DRV_CTRL_EN | .probe => F.PRB_CTRL_EN | .flux => F.FLX_CTRL_EN | .bias => F.BIA_CTRL_EN
def fEnabled : OutKind → Fld
  | .drive => F.DRV_STATUS_ENABLED | .probe => F.PRB_STATUS_ENABLED | .flux => F.FLX_STATUS_ENABLED
  | .bias => F.BIA_STATUS_ENABLED
def fEnReason : OutKind → Fld
  | .drive => F.DRV_ENABLE_STATUS_REASON | .probe => F.PRB_ENABLE_STATUS_REASON
  | .flux => F.FLX_ENABLE_STATUS_REASON | .bias => F.BIA_ENABLE_STATUS_REASON
def fMutedPlay : OutKind → Fld
  | .drive => F.DRV_STATUS_MUTED_PLAY | .probe => F.PRB_STATUS_MUTED_PLAY | .flux => F.FLX_STATUS_MUTED_PLAY
  | .bias => F.BIA_STATUS_MUTED_PLAY

/-- The unit descriptor of an output: a probe output's is its line's (R221). -/
def outUnit (k : OutKind) (t c : Nat) : UnitDesc :=
  match k with
  | .drive => ⟨1, t, c⟩ | .probe => ⟨3, t, c⟩ | .flux => ⟨4, t, c⟩ | .bias => ⟨5, t, c⟩

def outMax : OutKind → Nat
  | .probe => 8
  | _ => 64

/-- Fault block, bit and unit of MUTED_PLAY (R446). -/
def mutedFault (k : OutKind) (t c : Nat) : FltBlk × Nat × Nat :=
  match k with
  | .drive => (.tile t c, 5, 0)
  | .probe => (.tile t (72 + c), 9, 0)
  | .flux => (.tile t (89 + c / 8), 3, c % 8)
  | .bias => (.tile t (97 + c / 8), 3, c % 8)

/-! ## The state of a ball (R141, R190) -/

/-- The group's spare drives the channel's ball. -/
def State.served (s : State) (t c : Nat) : Bool :=
  match s.spare t (c / 8) with
  | .serve d _ => decide (d = c)
  | .calRun a _ _ => decide (a = c)
  | .evict a _ _ => decide (a = c)
  | _ => false

/-- The ball of the channel is muted on its way back from a failed spare (R152). -/
def SpareJob.backing (j : SpareJob) (c : Nat) : Bool :=
  match j with
  | .faultBack a _ => decide (a = c)
  | _ => false

/-- Outputs of the part may be live: not in RESET, SAFE, thermal shutdown or foreground calibration. -/
def State.outsOn (s : State) : Bool :=
  !decide (s.mode = mReset) && !decide (s.mode = mSafe) && !s.rdB F.THM_STATUS_SHUTDOWN [] &&
    !s.rdB F.SPN_CAL_STATUS_FOREGROUND []

/-- A channel is fenced and its spare does not serve it, or its own DAC takes it back after a spare fault (R152). The
spares of a fenced tile are fenced with it. -/
def State.unserved (s : State) (k : OutKind) (t c : Nat) : Bool :=
  match k with
  | .drive => s.tileFenced t || (s.fenced ⟨1, t, c⟩ && !s.served t c) || (s.spare t (c / 8)).backing c
  | _ => s.fenced (outUnit k t c)

/-- The ball would be live at a value: every row of R141 or R190 but the wait for a first value. -/
def State.ballOpen (s : State) (k : OutKind) (t c : Nat) : Bool :=
  s.outsOn && !s.unserved k t c && s.rdB (fEnabled k) [t, c] &&
    (match k with
     | .drive => s.rdB F.DRV_STATUS_READY [t, c] && !s.rdB F.DRV_CTRL_MUTE [t, c]
     | .probe => s.rdB F.PRB_STATUS_READY [t, c] && !s.rdB F.PRB_CTRL_MUTE [t, c] && !s.probeStep t c
     | .flux => true
     | .bias => !(SMap.get .idle s.outs.bias (64 * t + c)).clamped)

/-- A bias output that was live at entry to SAFE holds code 0 with its switch closed for 3,125 ticks (R190). -/
def State.safeHold (s : State) (k : OutKind) (t c : Nat) : Bool :=
  match k, (SMap.get .idle s.outs.bias (64 * t + c)).safeAt with
  | .bias, some a =>
    decide (s.now < a + 3125) && decide (s.mode ≠ mReset) && !s.shutdown && !s.unserved .bias t c &&
      s.rdB F.BIA_STATUS_ENABLED [t, c]
  | _, _ => false

/-- LIVE: the ball carries the output's waveform. A change that a setting causes is in force from its tick boundary and
reaches the ball L_OUT plus the user delay after it, as a pulse placed there would (R141, log 102). -/
def State.ballLive (s : State) (k : OutKind) (t c : Nat) : Bool :=
  (s.ballOpen k t c && (s.en k t c).hadValue) || s.safeHold k t c

/-- The output stage of an enabled output is on, but for the ball's own switch. -/
def State.stageOn (s : State) (k : OutKind) (t c : Nat) : Bool :=
  s.outsOn && s.rdB (fEnabled k) [t, c] &&
    (match k with
     | .drive => s.rdB F.DRV_STATUS_READY [t, c]
     | .probe => s.rdB F.PRB_STATUS_READY [t, c]
     | _ => true)

/-- The first sample of a pulse comes: the output has had a value, also under MUTE (R141); a pulse on a muted ball, or on
a flux or bias output that is not enabled, plays muted (R143, R191). A bias ball becomes live at the latch. -/
def State.startOn (s : State) (k : OutKind) (t c : Nat) : State :=
  let muted : Bool := match k with
    | .drive => !s.ballOpen k t c
    | .probe => !s.ballOpen k t c
    | _ => !s.rdB (fEnabled k) [t, c]
  let s := if decide (k ≠ .bias) && s.stageOn k t c then s.setEn k t c { s.en k t c with hadValue := true } else s
  if muted then
    let (b, bit, unit) := mutedFault k t c
    (s.wr (fMutedPlay k) [t, c] 1).note b bit unit
  else s

/-! ## Enabling (R142, R191) -/

/-- A write of 1 to EN that R13 does not refuse: the enable check begins. -/
def State.enableOn (s : State) (k : OutKind) (t c : Nat) : State :=
  let s := if s.rdB (fEn k) [t, c] then s else
    (match k with
     | .bias =>
       let b := SMap.get .idle s.outs.bias (64 * t + c)
       { s with outs := { s.outs with bias := SMap.put .idle s.outs.bias (64 * t + c) { b with clamped := false } } }
     | _ => s)
  let s := s.wr (fEn k) [t, c] 1
  s.setEn k t c { s.en k t c with checking := some s.now }

/-- A write of 0 to EN: the output is off. -/
def State.enableOff (s : State) (k : OutKind) (t c : Nat) : State :=
  let s := (s.wr (fEn k) [t, c] 0).wr (fEnabled k) [t, c] 0
  let s := match k with
    | .drive => s.wr F.DRV_STATUS_READY [t, c] 0
    | .probe => s.wr F.PRB_STATUS_READY [t, c] 0
    | _ => s
  s.setEn k t c .idle

/-- The verdict of the enable check: 0 accepted, else the reason. -/
def State.enableReason (s : State) (k : OutKind) (t c : Nat) : Nat :=
  let u := outUnit k t c
  let fenced := match k with
    | .drive => s.fenced u && !s.served t c
    | _ => s.fenced u
  let valid := match k with
    | .probe => s.rdB F.PRB_STATUS_CAL_VALID [t, c]
    | _ => s.calValid u
  if fenced then 0x0401 else if valid then 0 else 0x0601

/-- The check completes: refused, EN returns to 0; accepted, the output stage is on. -/
def State.enableDone (s : State) (k : OutKind) (t c : Nat) : State :=
  let r := s.enableReason k t c
  let s := s.wr (fEnReason k) [t, c] r
  if r ≠ 0 then s.enableOff k t c
  else
    let e := s.en k t c
    let was := s.rdB (fEnabled k) [t, c]
    let s := s.wr (fEnabled k) [t, c] 1
    let s := match k with
      | .drive => s.wr F.DRV_STATUS_READY [t, c] 1
      | .probe => s.wr F.PRB_STATUS_READY [t, c] 1
      | _ => s
    s.setEn k t c { e with checking := none, hadValue := was && e.hadValue }

/-- The offset of an output's control register within its window, for a refusal. -/
def enReg (k : OutKind) (t c : Nat) : Nat :=
  match k with
  | .drive => R.DRV_CTRL.addr [t, c] 0 | .probe => R.PRB_CTRL.addr [t, c] 0 | .flux => R.FLX_CTRL.addr [t, c] 0
  | .bias => R.BIA_CTRL.addr [t, c] 0

def State.outRunning (s : State) (k : OutKind) (t c : Nat) : Bool :=
  match k with
  | .probe => s.lineRunning (8 * t + c)
  | _ => s.chanRunning (64 * t + c)

/-- A direct write of 1 to EN: refused while the unit runs and EN reads 0 (R13), else the check begins. -/
def State.enableWrite (s : State) (k : OutKind) (t c : Nat) : State :=
  if t < s.variant.tiles ∧ c < outMax k then
    if !s.rdB (fEn k) [t, c] && s.outRunning k t c then s.refuse (enReg k t c) 0x0501
    else s.enableOn k t c
  else s

/-- DRV_ENABLE (R142, R221): a spare's block discards the write with 0x0501 (R146). -/
def execDrvEnable (probe : Bool) (tile chan : Nat) (s : State) : Host.Outcome State Fault Refusal :=
  if !probe && decide (64 ≤ chan) then
    if tile < s.variant.tiles ∧ chan < 72 then .next (s.refuse (enReg .drive tile chan) 0x0501) else .next s
  else .next (s.enableWrite (if probe then .probe else .drive) tile chan)

/-- FLX_ENABLE (R191). -/
def execFlxEnable (tile chan : Nat) (s : State) : Host.Outcome State Fault Refusal :=
  .next (s.enableWrite .flux tile chan)

/-- BIA_ENABLE (R191). -/
def execBiaEnable (tile chan : Nat) (s : State) : Host.Outcome State Fault Refusal :=
  .next (s.enableWrite .bias tile chan)

/-- ENABLE_CHECK_DONE (R142, R191). -/
def execEnableCheckDone (kind : OutKind) (tile chan : Nat) (s : State) : Host.Outcome State Fault Refusal :=
  if (s.en kind tile chan).checking.isSome then .next (s.enableDone kind tile chan) else .next s

/-! ## Spares (R147-R152, R414) -/

/-- Sample after a pulse's last one (R131, R79). -/
def Pulse.stop (p : Pulse) : Nat :=
  match p.cut with
  | some c => min c (p.start + 16 * p.envLen)
  | none => p.start + 16 * p.envLen

/-- A window of `n` ticks from a tick in which no pulse of the output is placed. -/
def State.quietFrom (s : State) (k : OutKind) (t c from_ n : Nat) : Bool :=
  !s.outs.pulses.any (fun p => decide (p.kind = k) && decide (p.tile = t) && decide (p.chan = c) &&
    decide (p.start < 128 * (from_ + n)) && decide (128 * from_ < p.stop))

/-- The same from now. -/
def State.quiet (s : State) (k : OutKind) (t c n : Nat) : Bool := s.quietFrom k t c s.now n

/-- SPARE_TAKEOVER_DONE (R148): the spare serves the fenced channel. -/
def execSpareTakeoverDone (tile group : Nat) (s : State) : Host.Outcome State Fault Refusal :=
  match s.spare tile group with
  | .takeover c _ => .next (s.setSpare tile group (.serve c false))
  | _ => .next s

/-- Channel A is handed back (R150): the spare goes on to B, unless B has been brought back by UNFENCE meanwhile; then it
is idle (log 84). -/
def State.evicted (s : State) (t g b : Nat) : State :=
  if (s.drvFences t g).any (fun f => decide (f.chan = b)) then s.setSpare t g (.takeover b s.now) else s.spareIdle t g

/-- SPARE_HANDBACK (R150, R151, R414): at a quiet window the ball goes back to the channel's own DAC; after an offline
calibration it does so at the next boundary, with the channel's new corrections (R419). -/
def execSpareHandback (tile group : Nat) (s : State) : Host.Outcome State Fault Refusal :=
  match s.spare tile group with
  | .serve c true => if s.quiet .drive tile c 32 then .next (s.spareIdle tile group) else .next s
  | .calRun c _ true =>
    if s.quietFrom .drive tile c (s.now + 1) 32 && !s.isComing ⟨1, tile, c⟩ then
      match (s.calU ⟨1, tile, c⟩).result with
      | some o => .next (s.bring ⟨1, tile, c⟩ o)
      | none => .next ((s.dropCal ⟨1, tile, c⟩).spareIdle tile group)
    else .next s
  | .evict a b f =>
    if s.quiet .drive tile a 32 && decide (s.now ≤ f + 625) then .next (s.evicted tile group b) else .next s
  | _ => .next s

/-- HANDBACK_FORCED (R150 step 3). -/
def execHandbackForced (tile group : Nat) (s : State) : Host.Outcome State Fault Refusal :=
  match s.spare tile group with
  | .evict a b f =>
    if f + 625 ≤ s.now then
      .next ((s.wr F.DRV_STATUS_HANDBACK_FORCED [tile, a] 1).evicted tile group b)
    else .next s
  | _ => .next s

/-- The channel of a group to calibrate next: due, not fenced, not held, the one due first (R413). -/
def State.nextDue (s : State) (t g : Nat) : Option Nat :=
  let cs := (List.range 8).map (fun i => 8 * g + i)
  let due := cs.filter (fun c => (s.calU ⟨1, t, c⟩).due.isSome && !s.fenced ⟨1, t, c⟩ &&
    decide ((s.calU ⟨1, t, c⟩).work = .none))
  due.foldl (fun o c =>
    match o with
    | none => some c
    | some b => if (s.calU ⟨1, t, c⟩).due.getD 0 < (s.calU ⟨1, t, b⟩).due.getD 0 then some c else some b) none

/-- CAL_TAKEOVER (R414 steps 1, 2): the idle spare has loaded the due channel and connects at a quiet window. -/
def execCalTakeover (tile group : Nat) (s : State) : Host.Outcome State Fault Refusal :=
  match s.spare tile group, s.nextDue tile group with
  | .none, some c =>
    if tile < s.variant.tiles ∧ group < 8 ∧ !s.spareFenced tile group ∧ s.quiet .drive tile c 32 then
      .next ((s.startCal ⟨1, tile, c⟩ .takeover).setSpare tile group (.calRun c s.now false))
    else .next s
  | _, _ => .next s

/-- CAL_OFFLINE_DONE (R414 steps 3, 4; R151): the channel's corrections and the spare's on its ball path are measured.
A failure is recorded; a channel without valid calibration is calibrated again while the spare serves it. -/
def execCalOfflineDone (tile group : Nat) (chan spare : CalObs) (s : State) : Host.Outcome State Fault Refusal :=
  match s.spare tile group with
  | .calRun c f false =>
    let u : UnitDesc := ⟨1, tile, c⟩
    if chan.pass then
      let s := s.updCalU u (fun k => { k with result := some chan })
      let s := { s with outs := { s.outs with pathsNew := SMap.put calRest s.outs.pathsNew (64 * tile + c) spare } }
      .next (s.setSpare tile group (.calRun c f true))
    else
      let s := (s.fault (.spine 11) 1 tile).noteCal u false 0x0602
      .next (s.setSpare tile group (.calRun c s.now (s.calValid u)))
  | _ => .next s

/-- SPARE_FAULT_HANDBACK_DONE (R152): the ball is back on its own DAC. -/
def execSpareFaultHandbackDone (tile group : Nat) (s : State) : Host.Outcome State Fault Refusal :=
  match s.spare tile group with
  | .faultBack _ _ => .next (s.setSpare tile group .none)
  | _ => .next s

end Sys2Proof.Machine
end

