-- ==== Sys2Proof/Machine/FluxBias.lean ====
section
/-! DEFINITION. Bias codes and their latches (07 R186, R187), and span changes of flux and bias outputs (07 R192). -/

namespace Sys2Proof.Machine

def State.bias (s : State) (t c : Nat) : BiasRun := SMap.get .idle s.outs.bias (64 * t + c)
def State.setBias (s : State) (t c : Nat) (b : BiasRun) : State :=
  { s with outs := { s.outs with bias := SMap.put .idle s.outs.bias (64 * t + c) b } }
def State.flux (s : State) (t c : Nat) : FluxRun := SMap.get .idle s.outs.flux (64 * t + c)
def State.setFlux (s : State) (t c : Nat) (f : FluxRun) : State :=
  { s with outs := { s.outs with flux := SMap.put .idle s.outs.flux (64 * t + c) f } }

/-! ## Codes (R186, R187) -/

/-- `a` is placed before `b`: by sample, a register write before a pulse, then by thread (R187, R185). -/
def BiasCode.before (a b : BiasCode) : Bool :=
  decide (a.sample < b.sample) || (decide (a.sample = b.sample) &&
    ((a.fromReg && !b.fromReg) || (decide (a.fromReg = b.fromReg) && decide (a.thr ≤ b.thr))))

/-- Inserts a code in placement order. -/
def insertCode (c : BiasCode) : List BiasCode → List BiasCode
  | [] => [c]
  | d :: ds => if d.before c then d :: insertCode c ds else c :: d :: ds

/-- A code is placed on a bias output. During a span change of a live output a write of BIA_CODE replaces CODE_AFTER
(R192); a pulse placed then moves nothing, since the output holds 0 (log 103). -/
def State.placeCode (s : State) (t c : Nat) (code : BiasCode) : State :=
  let s := s.commitOn ⟨5, t, c⟩
  let b := s.bias t c
  match b.change with
  | some r =>
    if !r.live then s.setBias t c { b with waiting := insertCode code b.waiting }
    else if code.fromReg then s.setBias t c { b with change := some { r with after := code.code } }
    else s
  | none => s.setBias t c { b with waiting := insertCode code b.waiting }

/-- The sample at which a placed code is due at the output: placed + L_OUT + the user delay. -/
def State.codeDue (s : State) (t c : Nat) (w : BiasCode) : Nat := w.sample + 1024 + s.rd F.BIA_DELAY_SAMPLES [t, c]

/-- L_OUT plus the user delay after the boundary of tick `n`, as a sample (R127, R192). -/
def State.stepAt (s : State) (t c n : Nat) : Nat := 128 * n + 1024 + s.rd F.BIA_DELAY_SAMPLES [t, c]

/-- The sample at which the next latch falls: when the first code is due, 157 ticks after the previous latch at least;
none while a span change holds the output at 0. -/
def State.nextLatch (s : State) (t c : Nat) : Option Nat :=
  let b := s.bias t c
  let held := fun (l : Nat) => match b.change with
    | some r => r.live && decide (s.stepAt t c r.at_ ≤ l)
    | none => false
  (b.waiting.head?.map (fun w => max (s.codeDue t c w) (match b.latched with | some l => l + 157 * 128 | none => 0))).filter
    (fun l => !held l)

/-- The DAC code of a code under the corrections in force: saturate(round(CODE × GAIN) + OFFSET), GAIN in Q1.23. -/
def State.dacCode (s : State) (t c : Nat) (code : BitVec 20) : BitVec 20 :=
  let v := roundDiv (code.toInt * s.rd F.BIA_CAL_GAIN_GAIN [t, c]) (2 ^ 23) + s.rdI F.BIA_CAL_OFFSET_OFFSET [t, c]
  BitVec.ofInt 20 (max (-524288) (min 524287 v))

/-- A bias output latches a code in a sample; the ball is live from it on (R191). -/
def State.latchCode (s : State) (t c sample : Nat) (code : BitVec 20) : State :=
  let b := s.bias t c
  let s := s.setBias t c
    { b with code := s.dacCode t c code, placed := code, latched := some sample, recent := (sample :: b.recent).take 4 }
  let s := s.wr F.BIA_LATCH_TICK_TICK [t, c] (short (s.gridAt (sample / 128)))
  if s.ballOpen .bias t c then s.setEn .bias t c { s.en .bias t c with hadValue := true } else s

/-- BIAS_LATCH (R187): of the codes due, the last in placement order; a code that had to wait sets DEFERRED. In SAFE the
code stays 0 (R190). -/
def execBiasLatch (tile chan : Nat) (s : State) : Host.Outcome State Fault Refusal :=
  match s.nextLatch tile chan with
  | none => .next s
  | some l =>
    if 128 * (s.now + 1) ≤ l then .next s
    else
      let b := s.bias tile chan
      let due := b.waiting.filter (fun w => decide (s.codeDue tile chan w ≤ l))
      let late := due.any (fun w => decide (s.codeDue tile chan w < l))
      let s := s.setBias tile chan { b with waiting := b.waiting.filter (fun w => decide (l < s.codeDue tile chan w)) }
      if !s.outsOn then .next s
      else
        let s := match due.getLast? with
          | some w => s.latchCode tile chan l w.code
          | none => s
        .next (if late then (s.wr F.BIA_STATUS_DEFERRED [tile, chan] 1).note (.tile tile (97 + chan / 8)) 2 (chan % 8) else s)

/-! ## Span changes (R192) -/

/-- The span change in progress of an output. -/
def State.spanRun (s : State) (k : OutKind) (t c : Nat) : Option SpanRun :=
  match k with
  | .flux => (s.flux t c).change
  | .bias => (s.bias t c).change
  | _ => none

/-- SPAN_CHANGING: from B to B + 3,126 on an output that was live at B. -/
def State.spanChanging (s : State) (k : OutKind) (t c : Nat) : Bool :=
  match s.spanRun k t c with
  | some r => r.live && decide (s.now < r.at_ + 3126)
  | none => false

def spanAddr (k : OutKind) (t c : Nat) : Nat :=
  match k with
  | .flux => R.FLX_CTRL.addr [t, c] 0
  | _ => R.BIA_SPAN.addr [t, c] 0

/-- The span is listed (R14). -/
def spanListed (k : OutKind) (span : Nat) : Bool :=
  match k with
  | .flux => decide (span < 2)
  | .bias => decide (span < 7) && decide (span ≠ 3)
  | _ => false

/-- A direct write of a span: refused with 0x0501 when it is not listed, while the unit runs, or during a span change;
else it takes effect at the next tick boundary. A write that leaves SPAN as it is changes no span (log 31). -/
def State.writeSpan (s : State) (k : OutKind) (t c span : Nat) (after : BitVec 20) : State :=
  let old := match k with
    | .flux => s.rd F.FLX_CTRL_SPAN [t, c]
    | _ => s.rd F.BIA_SPAN_SPAN [t, c]
  let oldAfter := match k with
    | .flux => after.toNat
    | _ => s.rd F.BIA_SPAN_CODE_AFTER [t, c]
  let changes := decide (old ≠ span) || decide (oldAfter ≠ after.toNat)
  if !spanListed k span || (changes && s.outRunning k t c) || s.spanChanging k t c then
    s.refuse (spanAddr k t c) 0x0501
  else
    let s := match k with
      | .flux => s.wr F.FLX_CTRL_SPAN [t, c] span
      | _ => (s.wr F.BIA_SPAN_SPAN [t, c] span).wr F.BIA_SPAN_CODE_AFTER [t, c] after.toNat
    if old = span then s else s.stage (.spanChange k t c span after) false

/-- SPAN_CHANGE (R192): the span write of a flux or bias output. -/
def execSpanChange (kind : OutKind) (tile chan span : Nat) (codeAfter : BitVec 20) (s : State) :
    Host.Outcome State Fault Refusal :=
  match kind with
  | .drive | .probe => .next s
  | k => if tile < s.variant.tiles ∧ chan < 64 then .next (s.writeSpan k tile chan span codeAfter) else .next s

/-- A span change takes effect at the present boundary B; one before it that was to switch by now has switched. -/
def State.applySpan (s : State) (k : OutKind) (t c span : Nat) (after : BitVec 20) : State :=
  let run : SpanRun := ⟨s.now, span, after, s.ballLive k t c⟩
  match k with
  | .flux =>
    let f := s.flux t c
    s.setFlux t c ⟨match f.change with | some r => r.span | none => f.span, some run⟩
  | .bias =>
    let b := s.bias t c
    s.setBias t c
      { b with
        span := (match b.change with | some r => r.span | none => b.span), change := some run,
        changes := ((s.now, if run.live then s.now + 3126 else s.now + 1) :: b.changes).take 4 }
  | _ => s

/-- The steps of a bias output's span change that have come by the present tick: at the ball the code goes to 0, codes
not latched by then are lost, and a tick later the span switches. Off a live output it switches at B + 1 and the change is
over. -/
def State.biasSpan (s : State) (e : Nat × BiasRun) : Nat × BiasRun :=
  match e.2.change with
  | none => e
  | some r =>
    if r.live then
      let at_ := s.stepAt (e.1 / 64) (e.1 % 64) r.at_
      let b := if at_ < 128 * (s.now + 1) then { e.2 with code := 0, waiting := [] } else e.2
      (e.1, if at_ + 128 < 128 * (s.now + 1) then { b with span := r.span } else b)
    else if r.at_ < s.now then (e.1, { e.2 with span := r.span, change := none })
    else e

/-- A flux output's span switches one tick after B (R192). -/
def State.fluxSpan (s : State) (e : Nat × FluxRun) : Nat × FluxRun :=
  match e.2.change with
  | some r => if r.at_ < s.now then (e.1, ⟨r.span, if r.live then some r else none⟩) else e
  | none => e

/-- Span changes go on at the present boundary. -/
def State.spanTicks (s : State) : State :=
  { s with outs :=
    { s.outs with
      bias := (s.outs.bias.map s.biasSpan).filter (fun e => decide (e.2 ≠ .idle)),
      flux := (s.outs.flux.map s.fluxSpan).filter (fun e => decide (e.2 ≠ .idle)) } }

/-- SPAN_CHANGE_END (R192 step 4): at B + 3,126 the new code is applied; a bias output latches it L_OUT plus the user
delay later. In SAFE it is discarded, since the code is 0 (R190). -/
def execSpanChangeEnd (kind : OutKind) (tile chan : Nat) (s : State) : Host.Outcome State Fault Refusal :=
  match kind, s.spanRun kind tile chan with
  | .bias, some r =>
    if r.at_ + 3126 ≤ s.now then
      let b := s.bias tile chan
      let code : BiasCode := ⟨128 * (r.at_ + 3126), r.after, true, 0⟩
      .next (s.setBias tile chan
        { b with change := none, span := r.span, waiting := if r.live && s.outsOn then insertCode code b.waiting else b.waiting })
    else .next s
  | .flux, some r => if r.at_ + 3126 ≤ s.now then .next (s.setFlux tile chan ⟨r.span, none⟩) else .next s
  | _, _ => .next s

end Sys2Proof.Machine
end

