-- ==== Sys2Proof/Machine/SenseFE.lean ====
section
/-! DEFINITION. The bias sense front end (08): scans, conversions and their checks, ranges, open-wire tests, the current
check, injected conversions and the rotation of the spare ADC. -/

namespace Sys2Proof.Machine

def State.sensePair (s : State) (t p : Nat) : SensePair := SMap.get .idle s.sense.pairs (64 * t + p)
def State.setSensePair (s : State) (t p : Nat) (v : SensePair) : State :=
  { s with sense := { s.sense with pairs := SMap.put .idle s.sense.pairs (64 * t + p) v } }

/-! ## Scans (R197, R198, R210, R213) -/

/-- Slots of a list's scan: 25, stretched once no service slot remains for a displacement (R210). -/
def SenseList.slots (l : SenseList) : Nat := 20 + max 5 l.shifts

/-- Time at which the next slot of a list begins. -/
def State.slotAt (s : State) (t k : Nat) : Nat :=
  (s.senseList t k).scanStart + (s.senseList t k).begun * s.tConv t

/-- Slots of the scan in progress: those of its longest list, since the next scan starts on every list together. -/
def State.scanSlots (s : State) (t : Nat) : Nat :=
  (List.range 4).foldl (fun m k => if (s.adcOf t k).isSome then max m (s.senseList t k).slots else m) 25

/-- A list has begun every slot of the scan and nothing is converting. -/
def State.listOver (s : State) (t k : Nat) : Bool :=
  let l := s.senseList t k
  (s.adcOf t k).isNone ||
    (decide (s.scanSlots t ≤ l.begun) && decide (l.using_ = .idle) && decide (s.slotAt t k ≤ 32 * s.now))

/-- The scan of a tile is over on every list that has an ADC. -/
def State.scanOver (s : State) (t : Nat) : Bool := (List.range 4).all (fun k => s.listOver t k)

/-- Scans done of a SCAN job on a tile, once its first scan there has begun. -/
def Job.scansDone (b : Job) (t : Nat) : Option Nat := (b.finished.find? (fun e => decide (e.1 = t))).map (fun e => e.2.2)

/-- The spare's place in the rotation: phases 0-3 a list, 4 its own calibration (R213). -/
def State.rotate (s : State) (t phase : Nat) : State :=
  let s := (List.range 4).foldl (fun s a =>
    if a = phase then s.setAdc t a noList roleCal else s.setAdc t a a roleOwn) s
  if phase < 4 then s.setAdc t 4 phase roleOther else s.setAdc t 4 noList roleCal

/-- All five ADCs are in service and the rotation has not stopped. -/
def State.rotates (s : State) (t : Nat) : Bool :=
  !s.rdB F.SNS_STATUS_ROT_STOPPED [t] && (List.range 5).all (fun a => !s.rdB F.SNS_ADC_FENCED [t, a])

/-- Every list begins a scan at a time. -/
def State.beginScan (s : State) (t start seq : Nat) : State :=
  let s := (List.range 4).foldl (fun s k =>
    s.setSenseList t k { s.senseList t k with scanStart := start, begun := 0, nextSlot := 0, shifts := 0 }) s
  let s := ((s.wr F.SNS_SCAN_SEQ [t] seq).wr F.SNS_SCAN_TICK_TICK [t] (short (s.gridAt (start / 32)))).wr F.SNS_STATUS_SCANNING [t] 1
  let mark := fun (b : Job) =>
    if b.running && b.scansTile t && (b.scansDone t).isNone then { b with finished := b.finished ++ [(t, 0, 0)] } else b
  { s with qm := { s.qm with jobs := s.qm.jobs.map (fun e => (e.1, mark e.2)) } }

/-- SCAN_EN takes effect at a tick boundary (R198): scan 0 starts, or scanning stops at the end of its scan. -/
def State.applyScanEn (s : State) (t : Nat) (on : Bool) : State :=
  let on := on && !s.shutdown
  let s := s.wrB F.SNS_CTRL_SCAN_EN [t] on
  let r := s.senseTile t
  if on then
    if r.running then s.setSenseTile t { r with stopReq := false }
    else
      let s := s.setSenseTile t { r with running := true, stopReq := false, cycle := 0 }
      let s := if s.rotates t then s.rotate t 0 else s
      s.beginScan t (32 * s.now) 0
  else s.setSenseTile t { r with stopReq := true }

/-- SCAN_ENABLE (R198): the write is staged. -/
def execScanEnable (tile : Nat) (on : Bool) (s : State) : Host.Outcome State Fault Refusal :=
  if tile < s.variant.tiles then
    .next (s.stage (.word (R.SNS_CTRL.addr [tile] 0) (if on then 1 else 0) 1) false)
  else .next s

/-- A finished scan counts for the SCAN jobs that cover the tile; one that has all its scans stops the tile's scanning,
and ends when every tile of its range is done (R356). -/
def State.countScan (s : State) (t : Nat) : State :=
  let js := (s.qm.jobs.filter (fun e => e.2.running && e.2.open_ && (e.2.scansDone t).isSome)).map Prod.fst
  js.foldl (fun s j =>
    let b := s.job j
    let b := { b with finished := b.finished.map (fun e => if e.1 = t then (e.1, e.2.1, e.2.2 + 1) else e) }
    let s := s.setJob j b
    let full := (b.scansDone t).getD 0 = b.shots
    let s := if full then s.stopScan t else s
    let tiles := (List.range 7).filter b.scansTile
    if tiles.all (fun n => decide (b.shots ≤ (b.scansDone n).getD 0)) then s.endJob j 0 0 else s) s

/-- The end of a scan: it counts, and scanning stops or the next scan starts where the longest list ended. -/
def State.endScan (s : State) (t : Nat) : State :=
  let next := (List.range 4).foldl (fun m k => if (s.adcOf t k).isSome then max m (s.slotAt t k) else m) 0
  let stretched := (List.range 4).any (fun k => decide (5 < (s.senseList t k).shifts))
  let s := if stretched then s.count F.SNS_STATUS_STRETCH_COUNT [t] 1 else s
  let s := s.countScan t
  let r := s.senseTile t
  if r.stopReq then
    (s.setSenseTile t .idle).wr F.SNS_STATUS_SCANNING [t] 0
  else
    let s := s.setSenseTile t { r with cycle := (r.cycle + 1) % 160 }
    s.beginScan t next ((s.rd F.SNS_SCAN_SEQ [t] + 1) % 65536)

/-! ## Slots (R205, R206, R210, R212) -/

/-- The use of a pair's scan slot: a pending range change takes it; a test when one is due. -/
def State.pairSlot (s : State) (t k p : Nat) : State :=
  let l := s.senseList t k
  if !s.rdB F.SNS_PAIR_CFG_EN [t, p] then s.setSenseList t k { l with using_ := .idle }
  else
    let n := s.rd F.SNS_CTRL_OW_N [t]
    let due := s.rdB F.SNS_PAIR_STATUS_SUSPECT [t, p] || (s.sensePair t p).testDue ||
      (s.rdB F.SNS_PAIR_CFG_OW_EN [t, p] && decide (s.rd F.SNS_SCAN_SEQ [t] % n = n - 1))
    match (s.sensePair t p).newRange with
    | some r =>
      let s := s.wr F.SNS_PAIR_STATUS_RANGE [t, p] r
      let s := s.setSensePair t p { s.sensePair t p with newRange := none, testDue := due, upRun := 0, downRun := 0 }
      s.setSenseList t k { l with using_ := .pair p false true }
    | none =>
      let s := s.setSensePair t p { s.sensePair t p with testDue := false }
      s.setSenseList t k { l with using_ := .pair p due false }

/-- The next slot of a list begins: an injected conversion, the scan slot, or a calibration step (R212). Past the list's own
slots, while another list is stretched, an injected conversion displaces none. -/
def State.beginSlot (s : State) (t k a : Nat) : State :=
  let own := s.senseList t k
  let l := { own with begun := own.begun + 1, adc := a }
  if l.inj then
    s.setSenseList t k { l with inj := false, shifts := if own.begun < own.slots then l.shifts + 1 else l.shifts,
                                using_ := .injected (16 * k + s.rd F.SNS_INJ_CTRL_PAIR [t, k]) }
  else if l.nextSlot < 20 then
    let i := l.nextSlot
    let s := s.setSenseList t k { l with nextSlot := i + 1, using_ := if i < 16 then .idle else .monitor i }
    if i < 16 then s.pairSlot t k (16 * k + i) else s
  else
    let u : UnitDesc := ⟨6, t, a⟩
    let c := s.calU u
    let go := s.rdB F.SNS_STATUS_ROT_STOPPED [t] && c.due.isSome && (match c.work with | .held _ => false | _ => true)
    let s := s.setSenseList t k { l with using_ := if go then .cal else .idle }
    if go && decide (c.work = .none) then s.startCal u (.gap 0) else s

/-- ADCs that wait for a slot boundary take their lists once it has come (R214). -/
def State.takeLists (s : State) (t : Nat) : State :=
  let r := s.senseTile t
  if r.handAt ≤ 32 * s.now then r.hand.foldl (fun s h => s.setAdc t h.1 h.2.1 h.2.2) (s.setSenseTile t { r with hand := [] })
  else s

/-- SENSE_SLOT_START (R197, R212): at a slot boundary the list's ADC starts what is due; after the last slot of every
list the scan ends first. -/
def execSenseSlotStart (tile list : Nat) (s : State) : Host.Outcome State Fault Refusal :=
  if list < 4 ∧ (s.senseTile tile).running ∧ (s.senseList tile list).using_ = .idle then
    let s := s.takeLists tile
    let s := if s.scanOver tile then s.endScan tile else s
    let l := s.senseList tile list
    match s.adcOf tile list with
    | some a =>
      if (s.senseTile tile).running ∧ l.begun < s.scanSlots tile ∧ s.slotAt tile list ≤ 32 * s.now then
        .next (s.beginSlot tile list a)
      else .next s
    | none => .next s
  else .next s

/-! ## From conversion to result (R199-R203) -/

/-- Full scale of a range in microvolt. -/
def fullScale (range : Nat) : Int :=
  if range = 0 then 250000 else if range = 1 then 1250000 else if range = 2 then 5000000 else 10000000

/-- Lead-corrected value in volts (R200): R_LEAD in 1/32 ohm, the current in microampere. -/
def leadCorrect (v : Rat) (rLead : Nat) (imon : Int) : Rat := v - (rLead : Rat) / 32 * (imon : Rat) / 1000000

/-- The polynomial of R201, in volts. -/
def linearise (tile adc range fits : Nat) (v : Rat) (temp : Int) : Rat :=
  let fs : Rat := (fullScale range : Rat) / 1000000
  let u := v / fs
  let t := ((temp : Rat) / 128 - 25) / 100
  fs * ((List.range 6).flatMap (fun i => (List.range 3).map (fun j =>
    Config.senseCoef tile adc range fits i j * u ^ i * t ^ j))).sum

/-- Nearest microvolt of a value in volts (R510's rounding; log 14). -/
def microvolts (v : Rat) : Int := (v * 1000000 + 1 / 2).floor

/-- The linearised value of a conversion by an ADC, in microvolt. -/
def State.senseValue (s : State) (t a p : Nat) (o : SenseObs) : Int :=
  let range := s.rd F.SNS_PAIR_STATUS_RANGE [t, p]
  let c := s.calU ⟨6, t, a⟩
  let lead := if s.rdB F.SNS_LEAD_LEAD_VALID [t, p] then s.rd F.SNS_LEAD_R_LEAD [t, p] else 0
  let v := leadCorrect
    (Config.senseVolts ((s.cal.refRec.map RefRec.measured).getD []) range c.inForce.gain c.inForce.offset o.raw) lead o.imon
  microvolts (linearise t a range c.fits v (s.rdI F.SNS_ADC_TEMP [t, a]))

/-- A latch of the bias output within the conversion or SETTLE before it, or a span change in progress during it (R203).
Times in 1/32 tick. -/
def State.settling (s : State) (t p start : Nat) : Bool :=
  let b := s.bias t p
  let stop := start + s.tConv t
  b.recent.any (fun l => decide (start ≤ l / 4 + 50000 * s.rd F.SNS_CTRL_SETTLE [t]) && decide (l / 4 ≤ stop)) ||
    b.changes.any (fun c => decide (32 * c.1 ≤ stop) && decide (start < 32 * c.2))

/-- Commanded current of the bias output as a fraction, numerator in microampere, or none (R208). -/
def State.commanded (s : State) (t p : Nat) : Option (Nat × Nat) :=
  let b := s.bias t p
  let code := b.code.toInt.natAbs
  let r := s.rd F.SNS_LOAD_R_LOAD [t, p]
  match b.span with
  | 4 => some (code * 2000, 524287)
  | 5 => some (code * 10000, 524287)
  | 6 => some (code * 20000, 524287)
  | sp =>
    if r = 0 then none
    else some (code * (if sp = 0 then 1250000 else if sp = 1 then 2500000 else 5000000), 524287 * r)

/-- One run of the current check: a set or a pass counts toward two in a row. -/
def checkRun (set_ : Bool) (runs passes : Nat) : Nat × Nat := if set_ then (runs + 1, 0) else (0, passes + 1)

/-- The current check of a scan conversion (R208): LOAD_OPEN and LOAD_SHORT after two scans in a row. -/
def State.currentCheck (s : State) (t p : Nat) (imon : Int) : State :=
  let lim := s.rd F.SNS_ILIM_LIMIT [t, p]
  match s.commanded t p with
  | none => s
  | some (n, d) =>
    if !s.rdB F.SNS_PAIR_CFG_ICHK_EN [t, p] || decide (lim = 0) then s
    else
      let r := s.sensePair t p
      let op := decide ((imon.natAbs + lim) * d < n)
      let sh := decide (n + lim * d < imon.natAbs * d)
      let (or_, opass) := checkRun op r.openRun r.openPass
      let (sr, spass) := checkRun sh r.shortRun r.shortPass
      let s := s.setSensePair t p { r with openRun := or_, openPass := opass, shortRun := sr, shortPass := spass }
      let s := if or_ = 2 then (s.wr F.SNS_PAIR_STATUS_LOAD_OPEN [t, p] 1).note (.tile t 105) 2 p
        else if opass = 2 then s.wr F.SNS_PAIR_STATUS_LOAD_OPEN [t, p] 0 else s
      if sr = 2 then
        let s := (s.wr F.SNS_PAIR_STATUS_LOAD_SHORT [t, p] 1).note (.tile t 105) 3 p
        if s.rdB F.SNS_CTRL_SHORT_ACT [t] then s.stage (.shortClamp t p) false else s
      else if spass = 2 then s.wr F.SNS_PAIR_STATUS_LOAD_SHORT [t, p] 0 else s

/-- The bias output is clamped by SHORT_ACT at a tick boundary (R209). -/
def State.applyShortClamp (s : State) (t p : Nat) : State :=
  (s.setBias t p { s.bias t p with clamped := true }).setEn .bias t p { s.en .bias t p with hadValue := false }

/-- The range rules of R204 on a scan result. -/
def State.rangeRule (s : State) (t p : Nat) (v : Int) : State :=
  let range := s.rd F.SNS_PAIR_STATUS_RANGE [t, p]
  let r := s.sensePair t p
  let up := decide (range < 3) && decide (fullScale range * 95 ≤ |v| * 100)
  let down := (decide (range = 1) && decide (|v| ≤ 200000)) || (decide (range = 2) && decide (|v| ≤ 1000000)) ||
    (decide (range = 3) && decide (|v| ≤ 4000000))
  let u := if up then r.upRun + 1 else 0
  let d := if down then r.downRun + 1 else 0
  if s.rdB F.SNS_PAIR_CFG_AUTO [t, p] then
    s.setSensePair t p
      (if 3 ≤ u then { r with upRun := 0, downRun := 0, newRange := some (range + 1) }
       else if 3 ≤ d then { r with upRun := 0, downRun := 0, newRange := some (range - 1) }
       else { r with upRun := u, downRun := d })
  else s

/-- What R202 and R203 find of a conversion: its value and its flags. -/
structure SenseCheck where
  v        : Int
  over_    : Bool
  clamp    : Bool
  suspect  : Bool
  outside  : Bool
  settling : Bool
  invalid  : Bool
  deriving DecidableEq, Repr

def State.senseCheck (s : State) (t a p start : Nat) (o : SenseObs) : SenseCheck :=
  let v := s.senseValue t a p o
  let fs := fullScale (s.rd F.SNS_PAIR_STATUS_RANGE [t, p])
  let r := s.sensePair t p
  let ov := o.overload || decide (fs * 105 < |v| * 100) || (!s.rdB F.SNS_PAIR_CFG_AUTO [t, p] && decide (fs ≤ |v|))
  let st := s.settling t p start
  let step := s.rd F.SNS_STEP_STEP_MAX [t, p]
  { v := v, over_ := ov, clamp := o.clamp,
    suspect := !st && r.hasValid && decide (step ≠ 0) && decide ((step : Int) < |v - r.lastValid|),
    outside := decide (v < s.rdI F.SNS_LIMIT_LO_LO [t, p]) || decide (s.rdI F.SNS_LIMIT_HI_HI [t, p] < v),
    settling := st, invalid := ov || o.clamp || s.rdB F.SNS_PAIR_STATUS_OPEN_PAIR [t, p] }

/-- The four words of a result record (R216). -/
def State.senseRecord (s : State) (t a p : Nat) (o : SenseObs) (c : SenseCheck) (inj : Bool) : List Nat :=
  let b := fun (x : Bool) (i : Nat) => if x then 2 ^ i else 0
  let imon := max (-32767) (min 32767 o.imon)
  [unsigned 32 c.v,
   unsigned 16 imon + p * 2 ^ 16 + b inj 22 + b (!s.rdB F.SNS_LEAD_LEAD_VALID [t, p]) 23 +
     s.rd F.SNS_PAIR_STATUS_RANGE [t, p] * 2 ^ 24 + b c.invalid 26 + b c.settling 27 + b c.suspect 28 +
     b c.outside 29 + b c.over_ 30 + b c.clamp 31,
   short s.grid,
   s.rd F.SNS_SCAN_SEQ [t] + a * 2 ^ 16 + b (s.rdB F.SNS_PAIR_STATUS_OPEN_PAIR [t, p]) 19 +
     b (s.rdB F.SNS_PAIR_STATUS_LOAD_OPEN [t, p]) 20 + b (s.rdB F.SNS_PAIR_STATUS_LOAD_SHORT [t, p]) 21]

/-- The sticky flags and faults of any conversion of a pair, delivered or not: the clamp conducted, it overloaded (R195,
R202, R217). -/
def State.senseSticky (s : State) (t p : Nat) (clamp over_ : Bool) : State :=
  let blk := FltBlk.tile t 105
  let s := if clamp then (s.wr F.SNS_PAIR_STATUS_CLAMP [t, p] 1).note blk 4 p else s
  if over_ then (s.wr F.SNS_PAIR_STATUS_OVERLOAD [t, p] 1).note blk 6 p else s

/-- Sticky flags, SUSPECT, faults and the last valid result of a delivered conversion (R202). -/
def State.senseFlags (s : State) (t p : Nat) (c : SenseCheck) : State :=
  let s := s.senseSticky t p c.clamp c.over_
  let s := if c.outside then (s.wr F.SNS_PAIR_STATUS_OUT_OF_LIMIT [t, p] 1).note (.tile t 105) 5 p else s
  let s := if c.clamp || c.over_ || c.suspect then s.wr F.SNS_PAIR_STATUS_SUSPECT [t, p] 1 else s
  if c.invalid || c.suspect || c.settling then s
  else s.setSensePair t p { s.sensePair t p with lastValid := c.v, hasValid := true }

/-- Writes four words of a record register. -/
def State.putRecord (s : State) (r : Reg) (ix : List Nat) (ws : List Nat) : State :=
  (List.range 4).foldl (fun s i => s.setRegWord r ix i (BitVec.ofNat 32 (ws.getD i 0))) s

/-- A scan result is delivered: to SNS_RESULT and to the SCAN jobs that cover the pair and have begun on the tile. -/
def State.deliverSense (s : State) (t p : Nat) (ws : List Nat) : State :=
  let s := s.putRecord R.SNS_RESULT [t, p] ws
  let q := 64 * t + p
  let js := (s.qm.jobs.filter (fun e => e.2.running && e.2.open_ && (match e.2.scansDone t with
    | some n => decide (n < e.2.shots) | none => false) && decide (e.2.firstQ ≤ q) &&
      decide (q < e.2.firstQ + e.2.countQ))).map Prod.fst
  js.foldl (fun s j => s.stageBytes j (wordBytes ws)) s

/-- A test conversion (R206): a failure sets OPEN_PAIR; a pass clears it and SUSPECT. -/
def State.openTest (s : State) (t p : Nat) (c : SenseCheck) : State :=
  let r := s.sensePair t p
  let near := !r.hasValid || decide (|c.v - r.lastValid| ≤ 1000 * s.rd F.SNS_PAIR_CFG_OW_THRESH [t, p])
  if !c.over_ && !c.clamp && near then
    (s.wr F.SNS_PAIR_STATUS_OPEN_PAIR [t, p] 0).wr F.SNS_PAIR_STATUS_SUSPECT [t, p] 0
  else
    let was := s.rdB F.SNS_PAIR_STATUS_OPEN_PAIR [t, p]
    let s := s.wr F.SNS_PAIR_STATUS_OPEN_PAIR [t, p] 1
    if was then s else s.note (.tile t 105) 1 p

/-- A conversion of a list's slot ends, made by ADC `a` in the slot that began at `start`. -/
def State.endSlot (s : State) (t k a start : Nat) (o : SenseObs) : State :=
  match (s.senseList t k).using_ with
  | .idle => s
  | .monitor i => if i = 16 then s.wrI F.SNS_ADC_TEMP [t, a] o.raw else s
  | .cal =>
    s.updCalU ⟨6, t, a⟩ (fun c => match c.work with | .gap n => { c with work := .gap (n + 1) } | _ => c)
  | .pair p test discard =>
    if discard then s.senseSticky t p o.clamp o.overload
    else
      let c := s.senseCheck t a p start o
      if test then
        let s := s.senseSticky t p c.clamp c.over_
        let s := if c.clamp || c.over_ then s.wr F.SNS_PAIR_STATUS_SUSPECT [t, p] 1 else s
        let s := s.openTest t p c
        if c.settling then s else s.currentCheck t p o.imon
      else
        let s := s.senseFlags t p c
        let s := if c.settling then s else s.currentCheck t p o.imon
        let s := s.deliverSense t p (s.senseRecord t a p o c false)
        s.rangeRule t p c.v
  | .injected p =>
    let c := s.senseCheck t a p start o
    let s := s.senseFlags t p c
    let s := s.putRecord R.SNS_INJ_RESULT [t, k] (s.senseRecord t a p o c true)
    let s := (s.wr F.SNS_INJ_STATUS_BUSY [t, k] (if (s.senseList t k).inj then 1 else 0)).wr F.SNS_INJ_STATUS_DONE [t, k] 1
    if s.rdB F.SNS_INJ_CTRL_IRQ [t, k] then s.signal (128 + 128 * t + 120) else s

/-- SENSE_CONVERSION_DONE (R199): the conversion of a list's slot has ended. -/
def execSenseConversionDone (tile list : Nat) (obs : SenseObs) (s : State) : Host.Outcome State Fault Refusal :=
  let l := s.senseList tile list
  if l.using_ ≠ .idle ∧ s.slotAt tile list ≤ 32 * s.now then
    let s := s.endSlot tile list l.adc (s.slotAt tile list - s.tConv tile) obs
    .next (s.setSenseList tile list { s.senseList tile list with using_ := .idle })
  else .next s

/-! ## Injected requests (R210, R211) -/

/-- A request for a list's injected conversion: ignored while one is pending or converting. -/
def State.raiseInj (s : State) (t k : Nat) : State :=
  if s.rdB F.SNS_INJ_STATUS_BUSY [t, k] then s.count F.SNS_INJ_STATUS_IGNORED [t, k] 1
  else (s.setSenseList t k { s.senseList t k with inj := true }).wr F.SNS_INJ_STATUS_BUSY [t, k] 1

/-- SNS_INJ_GO (R210): the write takes effect at the next tick boundary with the rest of its word. -/
def execSnsInjGo (tile list : Nat) (s : State) : Host.Outcome State Fault Refusal :=
  if tile < s.variant.tiles ∧ list < 4 then .next (s.stage (.snsInj tile list) false) else .next s

/-- SNS_INJ_TIME (R210): with SRC 0xA the short time of the register is reached. -/
def execSnsInjTime (tile list : Nat) (s : State) : Host.Outcome State Fault Refusal :=
  let l := s.senseList tile list
  if s.rd F.SNS_INJ_CTRL_SRC [tile, list] = 0xA ∧ !l.timeDone ∧
      reached (s.rd F.SNS_INJ_TIME_TICK [tile, list]) (short s.grid) then
    .next ((s.setSenseList tile list { l with timeDone := true }).raiseInj tile list)
  else .next s

/-- A stamped edge of a TDC input raises the requests that select it (R210). -/
def State.injEdge (s : State) (inp : Nat) : State :=
  (s.tilesBy 4).foldl (fun s p =>
    if s.rd F.SNS_INJ_CTRL_SRC [p.1, p.2] = inp + 1 then s.raiseInj p.1 p.2 else s) s

/-! ## Rotation (R213) -/

/-- SENSE_ROTATE: after 32 scans, at a scan boundary, the spare moves on; the ADC it stood in for returns with its new
corrections. -/
def execSenseRotate (tile : Nat) (s : State) : Host.Outcome State Fault Refusal :=
  let r := s.senseTile tile
  let phase := r.cycle / 32
  if r.running ∧ s.rotates tile ∧ s.scanOver tile ∧ (r.cycle + 1) % 32 = 0 ∧
      s.rd F.SNS_ADC_LIST [tile, 4] = (if phase < 4 then phase else noList) then
    let u : UnitDesc := ⟨6, tile, if phase < 4 then phase else 4⟩
    let s := match (s.calU u).result with
      | some o => s.bring u o
      | none => s
    .next (s.rotate tile ((phase + 1) % 5))
  else .next s

end Sys2Proof.Machine
end

