-- ==== Sys2Proof/Machine/Streams.lean ====
section
/-! DEFINITION. Segments, streams, rings and under-runs (06 R157-R176), and the sweep generators (06 R177-R180). Stream
samples count from the first tap; a sample lasts 16 DAC samples. -/

namespace Sys2Proof.Machine

/-! ## Segments (R157-R161) -/

/-- TYPE of a segment: 1 resident, 2 ring. -/
def State.segType (s : State) (t g : Nat) : Nat := s.rd F.TIL_SEG_TYPE [t, g]
def State.segSealed (s : State) (t g : Nat) : Bool := s.rdB F.TIL_SEG_STATE [t, g]
def State.segLen (s : State) (t g : Nat) : Nat := s.rd F.TIL_SEG_LEN [t, g]

/-- A resident segment covers a page. -/
def State.segCovers (s : State) (t g page : Nat) : Bool :=
  decide (s.segType t g = 1) && decide (s.rd F.TIL_SEG_PAGE_BASE [t, g] ≤ page) &&
    decide (page < s.rd F.TIL_SEG_PAGE_BASE [t, g] + s.rd F.TIL_SEG_PAGES [t, g])

/-- A page of a SEALED, or of an OPEN, resident segment. -/
def State.pageSealed (s : State) (t page : Nat) : Bool :=
  (List.range 256).any (fun g => s.segSealed t g && s.segCovers t g page)
def State.pageOpen (s : State) (t page : Nat) : Bool :=
  (List.range 256).any (fun g => !s.segSealed t g && s.segCovers t g page)

/-- Stream states. -/
def kClosed : Nat := 0
def kOpen : Nat := 1
def kPlaying : Nat := 2
def kEnded : Nat := 3
def kBroken : Nat := 4

def State.strmState (s : State) (t k : Nat) : Nat := s.rd F.TIL_STRM_STATUS_STATE [t, k]
def State.strmCur (s : State) (t k : Nat) : Nat := s.rd F.TIL_STRM_STATUS_CUR [t, k]
def State.strm (s : State) (t k : Nat) : StreamRun := SMap.get .idle s.strms.streams (64 * t + k)
def State.setStrm (s : State) (t k : Nat) (r : StreamRun) : State :=
  { s with strms := { s.strms with streams := SMap.put .idle s.strms.streams (64 * t + k) r } }

/-- A pulse of the tile reads a page of envelope memory at the boundary before tick `now` or later (R160). -/
def Pulse.reads (p : Pulse) (t now : Nat) (page : Nat) : Bool :=
  !p.stream && decide (p.tile = t) && decide (128 * now < p.stop) && decide (p.envBase / 1024 ≤ page) &&
    decide (page * 1024 < p.envBase + p.envLen)

/-- A segment is in use (R160). -/
def State.segInUse (s : State) (t g : Nat) : Bool :=
  s.outs.pulses.any (fun p => (List.range (s.rd F.TIL_SEG_PAGES [t, g])).any (fun i =>
    s.segCovers t g (s.rd F.TIL_SEG_PAGE_BASE [t, g] + i) &&
      p.reads t s.now (s.rd F.TIL_SEG_PAGE_BASE [t, g] + i))) ||
  (List.range 64).any (fun k =>
    (decide (1 ≤ s.strmState t k) && decide (s.strmState t k ≤ 2) && decide (s.strmCur t k = g)) ||
    (s.rdB F.TIL_STRM_NEXT_FIXED [t, k] && decide (s.rd F.TIL_STRM_NEXT_SUCC [t, k] = g)))

/-- The verdict of a seal (R161): 0, or the reason of the first failing check. -/
def State.sealReason (s : State) (t g : Nat) : Nat :=
  let ty := s.segType t g
  let len := s.segLen t g
  let base := s.rd F.TIL_SEG_PAGE_BASE [t, g]
  let pages := s.rd F.TIL_SEG_PAGES [t, g]
  if ty ≠ 1 ∧ ty ≠ 2 then 0x0501
  else if len % 8 ≠ 0 ∨ len < 128 ∨ 1048568 < len then 0x0501
  else if ty = 1 ∧ (pages < 1 ∨ 1024 < pages ∨ 1024 < base + pages ∨ 1024 * pages < len) then 0x0501
  else if ty = 1 ∧ (List.range 256).any (fun h => decide (h ≠ g) && decide (s.segType t h = 1) &&
      decide (s.rd F.TIL_SEG_PAGE_BASE [t, h] < base + pages) &&
      decide (base < s.rd F.TIL_SEG_PAGE_BASE [t, h] + s.rd F.TIL_SEG_PAGES [t, h])) then 0x0106
  else if !s.rdB F.TIL_SEG_INF [t, g] && decide (s.rd F.TIL_SEG_REPEAT [t, g] = 0) then 0x0501
  else 0

/-- A write of STATE takes effect at the present boundary (R160, R161). -/
def State.applySegState (s : State) (t g : Nat) (sealed : Bool) : State :=
  if sealed then
    if s.segSealed t g then s
    else if s.sealReason t g = 0 then s.wr F.TIL_SEG_STATE [t, g] 1
    else s.refuse (R.TIL_SEG.addr [t, g] 0) (s.sealReason t g)
  else if s.segSealed t g && s.segInUse t g then s.refuse (R.TIL_SEG.addr [t, g] 0) 0x0106
  else s.wr F.TIL_SEG_STATE [t, g] 0

/-- A write of STATE enters staging. -/
def State.stageSeal (s : State) (t g : Nat) (sealed : Bool) : State :=
  s.stage (.word (R.TIL_SEG.addr [t, g] 0) (if sealed then 4 else 0) 4) false

/-- SEG_OPEN (R160): the write enters staging. -/
def execSegOpen (tile seg : Nat) (s : State) : Host.Outcome State Fault Refusal :=
  if tile < s.variant.tiles ∧ seg < 256 then .next (s.stageSeal tile seg false) else .next s

/-- SEG_SEAL (R161): the write enters staging. -/
def execSegSeal (tile seg : Nat) (s : State) : Host.Outcome State Fault Refusal :=
  if tile < s.variant.tiles ∧ seg < 256 then .next (s.stageSeal tile seg true) else .next s

/-- A write to the envelope memory (R129, R158, R508): accepted in a page of an OPEN resident segment. -/
def State.envWrite (s : State) (t sample : Nat) (v : Word) : State :=
  let page := sample / 1024
  if s.pageOpen t page && !s.pageSealed t page then
    { s with stores := { s.stores with env := SMap.put 0 s.stores.env (2 ^ 20 * t + sample) v } }
  else (s.wr F.TIL_ENV_STATUS_WR_REFUSED [t] 1).wr F.TIL_ENV_STATUS_WR_PAGE [t] page

/-- ENV_MEM_WRITE (R129, R158). -/
def execEnvMemWrite (tile sample : Nat) (value : Word) (s : State) : Host.Outcome State Fault Refusal :=
  if tile < s.variant.tiles ∧ sample < 2 ^ 20 then .next (s.envWrite tile sample value) else .next s

/-- The envelope sample a pulse renders (R159): as stored in a page of a SEALED segment, else zero. -/
def State.envSample (s : State) (t sample : Nat) : Word :=
  if s.pageSealed t (sample / 1024) then SMap.get 0 s.stores.env (2 ^ 20 * t + sample) else 0

/-- A committed pulse reads a page that is OPEN or of no segment (R159): the last such page is recorded. -/
def State.envRead (s : State) (t base len : Nat) : State :=
  let first := base / 1024
  let pages := (List.range ((base + len - 1) / 1024 + 1 - first)).map (fun i => first + i)
  match (pages.filter (fun p => !s.pageSealed t p)).getLast? with
  | some p => (s.wr F.TIL_ENV_STATUS_OPEN_READ [t] 1).wr F.TIL_ENV_STATUS_RD_PAGE [t] p
  | none => s

/-! ## Positions (R163-R165, R169) -/

/-- More than one pass is declared. -/
def State.segMulti (s : State) (t g : Nat) : Bool :=
  s.rdB F.TIL_SEG_INF [t, g] || decide (1 < s.rd F.TIL_SEG_REPEAT [t, g])

/-- W in samples. -/
def State.strmWin (s : State) (t k : Nat) : Nat := 1024 * s.rd F.QMG_STRM_CFG_WIN [t, k]

/-- DAC sample after the current pass (R163). -/
def State.passStop (s : State) (t k : Nat) : Nat :=
  (s.strm t k).n0 + 16 * ((s.strm t k).passStart + s.segLen t (s.strmCur t k))

/-- The commit point, 2,048 DAC samples before the pass ends (R165). -/
def State.commitSample (s : State) (t k : Nat) : Nat := s.passStop t k - 2048

/-- Stream samples that have begun to play by the end of the present tick. -/
def State.strmPos (s : State) (t k : Nat) : Nat := (128 * (s.now + 1) - (s.strm t k).n0 + 15) / 16

/-- Samples of the current pass that have begun to play. -/
def State.passPlayed (s : State) (t k : Nat) : Nat :=
  min (s.strmPos t k - (s.strm t k).passStart) (s.segLen t (s.strmCur t k))

/-- The current pass is the segment's last (R164). -/
def State.lastPass (s : State) (t k : Nat) : Bool :=
  let g := s.strmCur t k
  (match (s.strm t k).fixedK with | some f => decide (256 ≤ f) | none => false) ||
    (!s.rdB F.TIL_SEG_INF [t, g] && decide (s.rd F.TIL_SEG_REPEAT [t, g] ≤ s.rd F.TIL_STRM_PASS_PASS [t, k] + 1))

/-- Ring count up to which samples have been played or discarded (R170): a block that has not arrived when its samples
play is discarded as it arrives. -/
def State.strmReleased (s : State) (t k : Nat) : Nat :=
  let r := s.strm t k
  min r.arrived
    (if decide (s.strmState t k = kPlaying) && decide (s.segType t (s.strmCur t k) = 2) && s.lastPass t k && !r.rewound then
      r.ringAt + s.passPlayed t k
    else r.ringAt)

/-- The ring count at a checkpoint. -/
def Checkpoint.ring (c : Checkpoint) (isRing : Bool) : Nat := if isRing then c.ringAt + (c.pos - c.passStart) else c.ringAt

/-- CP (R169, R176): held back to the checkpoint of the oldest uncompleted shot under CONTINUITY. -/
def State.strmCp (s : State) (t k : Nat) : Nat :=
  (s.strm t k).checks.foldl (fun m c =>
    min m (if s.segMulti t c.cur then c.ringAt else c.ring (decide (s.segType t c.cur = 2)))) (s.strmReleased t k)

/-- STALL (R170): nothing to fetch and a credit free. -/
def State.strmStall (s : State) (t k : Nat) : Bool :=
  decide (s.rd F.QMG_STRM_WP_WP [t, k] = (s.strm t k).fetched % 2 ^ 32) &&
    decide ((s.strm t k).fetched < s.strmReleased t k / 64 * 64 + s.strmWin t k)

/-- A segment fails the check of R167: not SEALED, or a ring segment of several passes longer than the window. -/
def State.succBad (s : State) (t k g : Nat) : Bool :=
  !s.segSealed t g || (decide (s.segType t g = 2) && s.segMulti t g && decide (s.strmWin t k < s.segLen t g))

/-! ## Samples (R163, R164, R168, R171) -/

def cLate : Nat := 1
def cBroken : Nat := 2
def cClosed : Nat := 3

/-- The stream buffer holds `m` ring samples from a count on. -/
def StreamRun.holds (r : StreamRun) (n m : Nat) : Bool :=
  decide (n + m ≤ r.arrived) && !r.gone.any (fun e => decide (e.1 < n + m) && decide (n < e.2) && decide (e.1 < e.2))

/-- Sample `x` of a stream in a pass: of a resident segment as envelope memory holds it, of a ring segment as the buffer
holds it, none where it does not. -/
def State.passSample (s : State) (t k : Nat) (p : PassRec) (x : Nat) : Option Word :=
  let i := x - p.start
  let r := s.strm t k
  if s.segType t p.seg = 2 then
    if r.holds (p.ring + i) 1 then some (SMap.get 0 r.buf (p.ring + i)) else none
  else some (SMap.get 0 s.stores.env (2 ^ 20 * t + 1024 * s.rd F.TIL_SEG_PAGE_BASE [t, p.seg] + i))

/-- The pass in progress. -/
def State.curPass (s : State) (t k : Nat) : PassRec :=
  let r := s.strm t k
  ⟨r.passStart, s.strmCur t k, r.ringAt, r.hold⟩

/-- The pass that a fixed successor begins when the one in progress ends. -/
def State.nextPass (s : State) (t k f : Nat) : PassRec :=
  let p := s.curPass t k
  let len := s.segLen t p.seg
  if f < 256 then { p with start := p.start + len }
  else ⟨p.start + len, f % 256, if s.segType t p.seg = 2 then p.ring + len else p.ring, p.hold⟩

/-- Stream sample `x`; none where it is missing: of a CLOSED stream, past the end of a BROKEN one, not in the buffer.
Past the end of an ENDED stream it is zero. -/
def State.strmSample (s : State) (t k x : Nat) : Option Word :=
  let r := s.strm t k
  let st := s.strmState t k
  let p := s.curPass t k
  if st = kClosed ∨ r.rewound then none
  else if x < r.passStart then
    match r.prev with
    | some q => s.passSample t k q x
    | none => some 0
  else if st = kBroken then none
  else if st = kEnded then some 0
  else if x < p.start + s.segLen t p.seg then s.passSample t k p x
  else
    match r.fixedK with
    | some f => if r.failed then none else if f < 512 then s.passSample t k (s.nextPass t k f) x else some 0
    | none => some 0

/-- The sample received last among `n` stream samples up to `x`, else the one received before them (05 R132). A stream
that has received none holds a value the manual does not give (log 1). -/
def State.lastReceived (s : State) (t k : Nat) (before : Option Word) : Nat → Nat → Word
  | 0, _ => before.getD (Config.unreceived (64 * t + k))
  | n + 1, x =>
    match s.strmSample t k x with
    | some w => w
    | none => s.lastReceived t k before n (x - 1)

/-- What a lane that holds plays for the missing sample `x`. -/
def State.heldSample (s : State) (t k x : Nat) : Word :=
  let r := s.strm t k
  let p := r.prev.getD (s.curPass t k)
  if s.strmState t k = kClosed ∨ r.rewound ∨ x ≤ p.start then r.hold.getD (Config.unreceived (64 * t + k))
  else s.lastReceived t k p.hold (x - p.start) (x - 1)

/-! ## Missing samples (R174-R176) -/

/-- The missing samples among stream samples `a` to `b - 1` with their cause. -/
def State.missing (s : State) (t k a b : Nat) : List Nat × Nat :=
  let st := s.strmState t k
  let cause := if st = kClosed then cClosed else if st = kBroken then cBroken else cLate
  (((List.range (b - a)).map (fun i => a + i)).filter (fun x => (s.strmSample t k x).isNone), cause)

/-- The stream samples a pulse taps, first and one past the last (R163). -/
def State.tapped (s : State) (p : Pulse) : Nat × Nat :=
  let n0 := (s.strm p.tile p.envBase).n0
  ((p.start - n0) / 16, (p.start - n0) / 16 + (p.stop - p.start + 15) / 16)

def Pulse.taps (p : Pulse) (t k : Nat) : Bool := p.stream && decide (p.tile = t) && decide (p.envBase = k)

/-- The checkpoint of a job's shot that began at a tick. -/
def StreamRun.checkOf (r : StreamRun) (j shot : Nat) : Option Checkpoint :=
  r.checks.find? (fun c => decide (c.job = j) && decide (c.tick = shot))

/-- Returns a stream to the checkpoint of a job's shot (R176): it waits there for the re-run. -/
def State.rewind (s : State) (t k j shot : Nat) : State :=
  let r := s.strm t k
  match r.checkOf j shot with
  | none => s
  | some c =>
    let ring := if s.segMulti t c.cur then c.ringAt else c.ring (decide (s.segType t c.cur = 2))
    let s := s.setStrm t k { r with
      n0 := c.n0, passStart := c.passStart, ringAt := c.ringAt, fetched := ring, arrived := ring, buf := [],
      fixedK := c.fixedK, failed := false, missedTo := c.pos, hold := some (s.heldSample t k c.pos), prev := none,
      gone := r.gone.filter (fun e => decide (e.2 ≤ ring)), rewound := true, replay := c.log ++ r.replay }
    let s := (s.wr F.TIL_STRM_STATUS_STATE [t, k] (if c.opened then kOpen else kPlaying)).wr F.TIL_STRM_STATUS_CUR [t, k] c.cur
    let s := (s.wr F.TIL_STRM_PASS_PASS [t, k] c.pass).wr F.QMG_STRM_FP_FP [t, k] (short ring)
    match c.fixedK with
    | some f => (s.wr F.TIL_STRM_NEXT_FIXED [t, k] 1).wr F.TIL_STRM_NEXT_SUCC [t, k] (f % 256)
    | none => s.wr F.TIL_STRM_NEXT_FIXED [t, k] 0

/-- UNDERRUN in place of OK for a thread whose part of the running shot has ended. -/
def State.lateUnderrun (s : State) (j g : Nat) : State :=
  (s.updThr g (fun th => { th with status := if th.status = 0 then 0x0F else th.status })).updJob j (fun b =>
    { b with finished := b.finished.map (fun e => if decide (e.1 = g) && decide (e.2.1 = 0) then (g, 0x0F, e.2.2) else e) })

/-- A shot of a thread, begun at a tick, suffers an under-run of a stream (R176), under its partition's policy: TIMING,
its status is UNDERRUN in place of OK; CONTINUITY, it ends with UNDERRUN, the stream is rewound, and the shot is to be
re-run. An earlier shot that has only windows left is run again after the shot in progress. -/
def State.underrunShot (s : State) (t k g shot : Nat) : State :=
  match s.shotJob g shot with
  | none => s
  | some j =>
    let s := s.updJob j (fun b => { b with underrun := true })
    let b := s.job j
    let th := s.thr g
    let mine := th.active && decide (th.job = some j) && decide (th.start = shot)
    if !(b.running && decide (b.shotAt = shot)) then s.strikeTail j shot 0x0F (some (.stream t k))
    else if s.continuity b.part then
      let s := if mine then s.endThread g 0x0F s.now else ((s.lateUnderrun j g).markPeers j g s.now).failBars j s.now
      if s.reruns b then (s.updJob j (fun b => b.await_ (.stream t k))).rewind t k j shot else s
    else if mine then s.updThr g (fun th => { th with urun := true })
    else s.lateUnderrun j g

/-- The missing samples of the stream up to a stream sample are counted, the first recorded, and the tapping pulses
handled (R174-R176). A CLOSED stream has no samples but the tapped ones; a rewound one has none until its re-run. -/
def State.countMissing (s : State) (t k upto : Nat) : State :=
  let r := s.strm t k
  if r.rewound then s
  else
    let taps := s.outs.pulses.filter (fun p => p.taps t k)
    let (all, cause) := s.missing t k r.missedTo upto
    let within := fun (p : Pulse) (x : Nat) => let (a, b) := s.tapped p; decide (a ≤ x) && decide (x < b)
    let xs := if cause = cClosed then all.filter (fun x => taps.any (fun p => within p x)) else all
    let s := s.setStrm t k { r with missedTo := max r.missedTo upto }
    match xs with
    | [] => s
    | x :: _ =>
      let s := if s.rdB F.TIL_STRM_STATUS_UNDERRUN [t, k] then s else
        ((s.wr F.TIL_STRM_STATUS_UNDERRUN [t, k] 1).wr F.TIL_STRM_STATUS_CAUSE [t, k] cause).wr F.TIL_STRM_MISS_TICK_TICK [t, k]
          (short (s.gridAt ((r.n0 + 16 * x) / 128)))
      let s := s.count F.TIL_STRM_MISS_COUNT [t, k] xs.length
      (taps.filter (fun p => xs.any (within p))).foldl (fun s p =>
        let s := if p.urun ≠ s.rdB F.TIL_STRM_STATUS_URUN [t, k] then s.wr F.TIL_STRM_STATUS_URUN_MISMATCH [t, k] 1 else s
        s.underrunShot t k p.thr p.shot) s

/-- Samples of a stream played by the present tick that were not in its buffer. -/
def State.noteUnderrun (s : State) (t k : Nat) : State :=
  let upto := if s.strmState t k = kPlaying then
      min (s.strmPos t k) ((s.strm t k).passStart + s.segLen t (s.strmCur t k))
    else s.strmPos t k
  s.countMissing t k upto

/-- STREAM_UNDERRUN (R174-R176). -/
def execStreamUnderrun (tile strm : Nat) (s : State) : Host.Outcome State Fault Refusal :=
  if tile < s.variant.tiles ∧ strm < 64 then .next (s.noteUnderrun tile strm) else .next s

/-! ## Taps (R163, R164, R167) -/

/-- A pulse with ESRC 1 on a stream by a thread of a partition: the state after the tap, or none for REACH. The first
tap makes an OPEN stream PLAYING. -/
def State.tapStream (s : State) (t k start part : Nat) : Option State :=
  let st := s.strmState t k
  if st = kClosed then some s
  else if s.rd F.TIL_STRM_STATUS_PART [t, k] ≠ part then none
  else if st = kOpen then
    let r := s.strm t k
    some ((s.setStrm t k { r with n0 := start, passStart := 0, missedTo := 0, fixedK := none, failed := false, rewound := false, prev := none }).wr
      F.TIL_STRM_STATUS_STATE [t, k] kPlaying)
  else if st = kEnded then some (s.wr F.TIL_STRM_STATUS_TAP_ENDED [t, k] 1)
  else some s

/-! ## Jumps, commit points and passes (R164-R168) -/

/-- STRM_JUMP_REQUEST (R165, R166): the request enters staging. -/
def execStrmJumpRequest (tile strm target : Nat) (s : State) : Host.Outcome State Fault Refusal :=
  if tile < s.variant.tiles ∧ strm < 64 ∧ target < 256 then
    .next (s.stage (.word (R.TIL_STRM_JUMP.addr [tile, strm] 0) (BitVec.ofNat 32 target) 0xFF) false)
  else .next s

/-- A jump request comes into force at the present boundary: it replaces a pending one. -/
def State.applyJump (s : State) (t k target : Nat) : State :=
  let s := s.wr F.TIL_STRM_JUMP_TARGET [t, k] target
  let s := (s.wr F.TIL_STRM_NEXT_PEND [t, k] target).wr F.TIL_STRM_NEXT_PENDING [t, k] 1
  s.setStrm t k { s.strm t k with pendAt := s.now }

/-- What the commit point fixes: 256 * kind + segment, and whether the pending request is consumed. -/
def State.successor (s : State) (t k : Nat) : Nat × Bool :=
  let g := s.strmCur t k
  match (s.strm t k).replay with
  | f :: _ => (f, false)
  | [] =>
    if s.rdB F.TIL_STRM_NEXT_PENDING [t, k] && decide (128 * (s.strm t k).pendAt < s.commitSample t k) then
      (256 + s.rd F.TIL_STRM_NEXT_PEND [t, k], true)
    else if s.rdB F.TIL_SEG_INF [t, g] || decide (s.rd F.TIL_STRM_PASS_PASS [t, k] + 1 < s.rd F.TIL_SEG_REPEAT [t, g]) then
      (g, false)
    else if s.rdB F.TIL_SEG_END [t, g] then (512, false)
    else (256 + s.rd F.TIL_SEG_NEXT [t, g], false)

/-- COMMIT_POINT (R165, R167): the pass's successor is fixed and checked. -/
def execCommitPoint (tile strm : Nat) (s : State) : Host.Outcome State Fault Refusal :=
  let r := s.strm tile strm
  if s.strmState tile strm = kPlaying ∧ r.fixedK = none ∧ !r.rewound ∧ s.commitSample tile strm < 128 * (s.now + 1) then
    let (f, jump) := s.successor tile strm
    let s := if jump then s.wr F.TIL_STRM_NEXT_PENDING [tile, strm] 0 else s
    let s := s.setStrm tile strm { r with
      fixedK := some f, replay := r.replay.tail, failed := decide (f < 512) && s.succBad tile strm (f % 256),
      checks := r.checks.map (fun c => { c with log := c.log ++ [f] }) }
    .next (if f < 512 then (s.wr F.TIL_STRM_NEXT_SUCC [tile, strm] (f % 256)).wr F.TIL_STRM_NEXT_FIXED [tile, strm] 1 else s)
  else .next s

/-- PASS_END (R164, R167, R168): the next pass begins, or the stream becomes ENDED or BROKEN. -/
def execPassEnd (tile strm : Nat) (s : State) : Host.Outcome State Fault Refusal :=
  let r := s.strm tile strm
  match r.fixedK with
  | none => .next s
  | some f =>
    if s.strmState tile strm = kPlaying ∧ !r.rewound ∧ s.passStop tile strm < 128 * (s.now + 1) then
      let g := s.strmCur tile strm
      let stop := r.passStart + s.segLen tile g
      let s := s.countMissing tile strm stop
      let r := s.strm tile strm
      if r.rewound then .next s
      else
        let ring := if s.segType tile g = 2 ∧ f ≥ 256 then r.ringAt + s.segLen tile g else r.ringAt
        let pass := s.rd F.TIL_STRM_PASS_PASS [tile, strm]
        let s := s.wr F.TIL_STRM_NEXT_FIXED [tile, strm] 0
        let s := s.setStrm tile strm { r with
          passStart := stop, ringAt := ring, fixedK := none, failed := false, prev := some (s.curPass tile strm),
          hold := some (s.heldSample tile strm stop), buf := r.buf.filter (fun e => decide (r.ringAt ≤ e.1)),
          gone := r.gone.filter (fun e => decide (r.ringAt < e.2)) }
        if r.failed then .next (s.wr F.TIL_STRM_STATUS_STATE [tile, strm] kBroken)
        else if f ≥ 512 then
          let s := (s.wr F.TIL_STRM_STATUS_STATE [tile, strm] kEnded).wr F.TIL_STRM_PASS_PASS [tile, strm] (pass + 1)
          let beyond := s.outs.pulses.any (fun p => p.taps tile strm && decide (stop < (s.tapped p).2))
          .next (if beyond then s.wr F.TIL_STRM_STATUS_TAP_ENDED [tile, strm] 1 else s)
        else if f < 256 then .next (s.wr F.TIL_STRM_PASS_PASS [tile, strm] (pass + 1))
        else .next ((s.wr F.TIL_STRM_STATUS_CUR [tile, strm] (f % 256)).wr F.TIL_STRM_PASS_PASS [tile, strm] 0)
    else .next s

/-! ## Rings and the stream buffer (R169-R173) -/

def State.ringBase (s : State) (t k : Nat) : Nat :=
  s.rd F.QMG_STRM_BASE_LO_BASE_LO [t, k] + 2 ^ 32 * s.rd F.QMG_STRM_BASE_HI_BASE_HI [t, k]
def State.ringSize (s : State) (t k : Nat) : Nat := 2 ^ s.rd F.QMG_STRM_CFG_LOG2SIZE [t, k]

/-- A write of WP (R169). -/
def State.wpWrite (s : State) (t k : Nat) (v : Word) : State :=
  let q := [t, k]
  let cp : Word := BitVec.ofNat 32 (s.strmCp t k)
  let wp : Word := BitVec.ofNat 32 (s.rd F.QMG_STRM_WP_WP q)
  if s.ringSize t k < (v - cp).toNat ∨ (v - cp).toNat < (wp - cp).toNat then s.wr F.QMG_STRM_STATUS_RING_ERR q 1
  else s.wr F.QMG_STRM_WP_WP q v.toNat

/-- STRM_WP_WRITE (R169). -/
def execStrmWpWrite (tile strm : Nat) (value : Word) (s : State) : Host.Outcome State Fault Refusal :=
  if tile < 7 ∧ strm < 64 then .next (s.wpWrite tile strm value) else .next s

/-- The four bytes of a device memory word, little-endian. -/
def State.memWord (s : State) (addr : Nat) : Word :=
  BitVec.ofNat 32 ((s.memRead addr 4).foldr (fun b n => b.toNat + 256 * n) 0)

/-- Ring samples fetched into the buffer. -/
def State.ringWords (s : State) (t k n : Nat) (m : SMap Word) : Nat → SMap Word
  | 0 => m
  | c + 1 => s.ringWords t k (n + 1) (SMap.put 0 m n (s.memWord (s.ringBase t k + 4 * (n % s.ringSize t k)))) c

/-- A fetch of `n` samples keeps the stream within RATE over W × 0.8 ns (R170): RATE is in units of 25 samples a
microsecond, so at most W × RATE ÷ 50 samples in W ÷ 8 ticks. -/
def State.rateOk (s : State) (t k n : Nat) : Bool :=
  let w := s.strmWin t k
  let recent := (s.strm t k).rate.filter (fun e => decide (s.now < e.1 + w / 8))
  decide (50 * ((recent.map Prod.snd).sum + n) ≤ w * s.rd F.QMG_STRM_CFG_RATE [t, k])

/-- STREAM_FETCH (R169, R170): the next block up to WP, while a credit is free and the rate allows it; a block with a
poisoned line is not placed in the buffer (18 R402). -/
def execStreamFetch (tile strm : Nat) (s : State) : Host.Outcome State Fault Refusal :=
  let r := s.strm tile strm
  let st := s.strmState tile strm
  let ahead := ((BitVec.ofNat 32 (s.rd F.QMG_STRM_WP_WP [tile, strm]) : Word) - BitVec.ofNat 32 r.fetched).toNat
  let n := min ahead (64 - r.fetched % 64)
  if (st = kOpen ∨ st = kPlaying) ∧ 0 < n ∧ !s.shutdown ∧ s.rateOk tile strm n ∧
      (r.fetched % 64 ≠ 0 ∨ r.fetched + 64 ≤ s.strmReleased tile strm / 64 * 64 + s.strmWin tile strm) then
    let bad := s.memPoisoned (s.ringBase tile strm + 4 * (r.fetched % s.ringSize tile strm)) (4 * n)
    let s := s.setStrm tile strm { r with
      fetched := r.fetched + n, buf := s.ringWords tile strm r.fetched r.buf n,
      gone := if bad then r.gone ++ [(r.fetched, r.fetched + n)] else r.gone,
      rate := r.rate.filter (fun e => decide (s.now < e.1 + s.strmWin tile strm / 8)) ++ [(s.now, n)] }
    .next (s.wr F.QMG_STRM_FP_FP [tile, strm] (short (r.fetched + n)))
  else .next s

/-- Ring samples of the current segment whose play time has come by the end of the present tick, up to a count. -/
def State.playedRing (s : State) (t k : Nat) : Nat :=
  let r := s.strm t k
  if s.strmState t k = kPlaying ∧ s.segType t (s.strmCur t k) = 2 ∧ !r.rewound then
    r.ringAt + (if 0 < s.rd F.TIL_STRM_PASS_PASS [t, k] then s.segLen t (s.strmCur t k) else s.passPlayed t k)
  else r.ringAt

/-- STREAM_BLOCK_ARRIVE (R170, R171, R174): the oldest fetched block is in the stream buffer; the samples whose play time
has come are missing, and are discarded. -/
def execStreamBlockArrive (tile strm : Nat) (s : State) : Host.Outcome State Fault Refusal :=
  if (s.strm tile strm).arrived < (s.strm tile strm).fetched then
    let s := s.noteUnderrun tile strm
    let r := s.strm tile strm
    let end_ := min r.fetched (64 * (r.arrived / 64 + 1))
    let late := min end_ (s.playedRing tile strm)
    .next (s.setStrm tile strm { r with
      arrived := max r.arrived end_, gone := if r.arrived < late then r.gone ++ [(r.arrived, late)] else r.gone })
  else .next s

/-- The next segment of a stream is ready (R173). -/
def State.strmReady (s : State) (t k : Nat) : Bool :=
  let r := s.strm t k
  let st := s.strmState t k
  let ready := fun (p : PassRec) =>
    if s.segType t p.seg = 2 then r.holds p.ring (min (s.strmWin t k) (s.segLen t p.seg)) else true
  if st = kOpen then ready (s.curPass t k)
  else if st = kPlaying then
    match r.fixedK with
    | some f => decide (f < 512) && !r.failed && ready (s.nextPass t k f)
    | none => false
  else false

/-- Ring samples from a segment's remaining pass to the chain's END: by the successors fixed already, then by NEXT and
REPEAT; none when it does not end within the fuel. -/
def State.chainRing (s : State) (t : Nat) : Nat → Nat → List Nat → Nat → Option Nat
  | 0, _, _, _ => none
  | fuel + 1, g, fixed, acc =>
    let len := if s.segType t g = 2 then s.segLen t g else 0
    match fixed with
    | f :: rest =>
      if f < 256 then s.chainRing t fuel g rest acc
      else if f < 512 then s.chainRing t fuel (f % 256) rest (acc + len)
      else some (acc + len)
    | [] =>
      if s.rdB F.TIL_SEG_INF [t, g] then none
      else if s.rdB F.TIL_SEG_END [t, g] then some (acc + len)
      else s.chainRing t fuel (s.rd F.TIL_SEG_NEXT [t, g]) [] (acc + len)

/-- The buffer of a rewound stream holds W samples from the checkpoint of a job's shot, or every sample up to END
(R176). -/
def State.refilled (s : State) (t k j shot : Nat) : Bool :=
  let r := s.strm t k
  match r.checkOf j shot with
  | none => true
  | some c =>
    let at_ := if s.segMulti t c.cur then c.ringAt else c.ring (decide (s.segType t c.cur = 2))
    let pend := if s.rdB F.TIL_STRM_NEXT_PENDING [t, k] then [256 + s.rd F.TIL_STRM_NEXT_PEND [t, k]] else []
    let fixed := c.fixedK.toList ++ r.replay ++ pend
    r.rewound && (r.holds at_ (s.strmWin t k) ||
      (match s.chainRing t (256 + fixed.length) c.cur fixed 0 with
       | some n => r.holds at_ (c.ringAt + n - at_)
       | none => false))

/-- The re-run of a job's shot, begun before at a tick, begins at tick `at_`: its rewound stream goes on from the
checkpoint (R176). -/
def State.resumeStream (s : State) (t k j shot at_ : Nat) : State :=
  let r := s.strm t k
  match r.checkOf j shot with
  | none => s
  | some c =>
    let d := 128 * (at_ - c.tick)
    s.setStrm t k { r with
      n0 := if c.opened then r.n0 else c.n0 + d, rewound := false,
      checks := r.checks.map (fun e => if e = c then { c with n0 := c.n0 + d, tick := at_, log := [] } else e) }

/-- Streams of a partition that are not CLOSED, as (tile, stream). -/
def State.partStrms (s : State) (p : Nat) : List (Nat × Nat) :=
  (s.tilesBy 64).filter (fun e => decide (s.strmState e.1 e.2 ≠ kClosed) && decide (s.rd F.TIL_STRM_STATUS_PART [e.1, e.2] = p))

/-- Shots of a job begun before the present one that have not completed. -/
def Job.earlier (b : Job) : List Nat := (b.tails.filter (fun t => t.counts)).map (fun t => t.start) ++ b.redo.map (fun r => r.start)

/-- A shot of a CONTINUITY job starts at a tick: the position of every stream of its partition is kept, beside those of
its earlier shots that have not completed. -/
def State.keepStreams (s : State) (j at_ : Nat) : State :=
  let b := s.job j
  if s.continuity b.part then
    (s.partStrms b.part).foldl (fun s e =>
      let r := s.strm e.1 e.2
      let keep := fun (d : Checkpoint) => decide (d.job ≠ j) || b.earlier.contains d.tick || decide (d.tick = at_)
      let checks := r.checks.filter keep
      if r.rewound ∨ (r.checkOf j at_).isSome then s.setStrm e.1 e.2 { r with checks := checks }
      else
        let c : Checkpoint :=
          { job := j, opened := decide (s.strmState e.1 e.2 = kOpen), n0 := r.n0, passStart := r.passStart,
            ringAt := r.ringAt, cur := s.strmCur e.1 e.2, pass := s.rd F.TIL_STRM_PASS_PASS [e.1, e.2],
            pos := if s.strmState e.1 e.2 = kOpen then 0 else (128 * at_ - r.n0) / 16, tick := at_, fixedK := r.fixedK, log := [] }
        s.setStrm e.1 e.2 { r with checks := checks ++ [c] }) s
  else s

/-- A shot of the job, begun at a tick, has completed: its checkpoints are released. -/
def State.freeStreams (s : State) (j shot : Nat) : State :=
  (s.partStrms (s.job j).part).foldl (fun s e =>
    let r := s.strm e.1 e.2
    s.setStrm e.1 e.2 { r with checks := r.checks.filter (fun d => !(decide (d.job = j) && decide (d.tick = shot))) }) s

/-! ## Opening and closing (R162, R167) -/

/-- A STREAM_OPEN job takes effect at its start tick; FIRST is checked as a successor (R162, R167): 0 or the reason. -/
def State.strmOpen (s : State) (b : Job) : State × Nat :=
  let t := b.tile
  let k := b.strm
  let q := [t, k]
  let s1 := (s.wr F.QMG_STRM_BASE_LO_BASE_LO q b.ringBase).wr F.QMG_STRM_BASE_HI_BASE_HI q (b.ringBase / 2 ^ 32)
  let s1 := ((s1.wr F.QMG_STRM_CFG_LOG2SIZE q b.log2).wr F.QMG_STRM_CFG_WIN q b.win).wr F.QMG_STRM_CFG_RATE q b.rate
  if s1.succBad t k b.first then (s, 0x0501)
  else
    let s1 := ((s1.wr F.QMG_STRM_WP_WP q 0).wr F.QMG_STRM_FP_FP q 0).wr F.QMG_STRM_CP_CP q 0
    let s1 := s1.setRegWord R.TIL_STRM_STATUS [t, k] 0 0
    let s1 := (s1.wr F.TIL_STRM_STATUS_STATE [t, k] kOpen).wrB F.TIL_STRM_STATUS_URUN [t, k] b.urun
    let s1 := (s1.wrB F.TIL_STRM_STATUS_POLICY [t, k] (s.continuity b.part)).wr F.TIL_STRM_STATUS_PART [t, k] b.part
    let s1 := (s1.wr F.TIL_STRM_STATUS_CUR [t, k] b.first).setRegWord R.TIL_STRM_NEXT [t, k] 0 0
    let s1 := (s1.wr F.TIL_STRM_MISS_COUNT [t, k] 0).wr F.TIL_STRM_PASS_PASS [t, k] 0
    (s1.setStrm t k .idle, 0)

/-- A stream becomes CLOSED: its buffer space and bandwidth are released (R167). -/
def State.strmClose (s : State) (t k : Nat) : State :=
  if s.strmState t k = kClosed then s
  else
    let s := s.noteUnderrun t k
    let pos := s.strmPos t k
    let r := s.strm t k
    let hold := s.heldSample t k pos
    let s := ((s.wr F.TIL_STRM_STATUS_STATE [t, k] kClosed).wr F.TIL_STRM_NEXT_FIXED [t, k] 0).wr F.TIL_STRM_NEXT_PENDING [t, k] 0
    s.setStrm t k { StreamRun.idle with n0 := r.n0, missedTo := pos, hold := some hold }

/-! ## Generators (R177-R180) -/

def State.gen (s : State) (t g : Nat) : GenRun := SMap.get .idle s.strms.gens (32 * t + g)
def State.setGen (s : State) (t g : Nat) (r : GenRun) : State :=
  { s with strms := { s.strms with gens := SMap.put .idle s.strms.gens (32 * t + g) r } }

/-- The 32-bit value of linear, march and gray modes (R178). -/
def genValue (mode : Nat) (start step limit : Word) (i : Nat) : Word :=
  if mode = 0 then start + step * BitVec.ofNat 32 (i % limit.toNat)
  else if mode = 1 then
    let n := (limit - start).toNat / step.toNat + 1
    let k := i % (2 * n)
    start + step * BitVec.ofNat 32 (if k < n then k else 2 * n - 1 - k)
  else
    let j : Word := BitVec.ofNat 32 (i % 2 ^ (step.toNat % 32))
    start + (j ^^^ (j >>> 1))

/-- One advance of the lfsr (R178). -/
def lfsrNext (poly s : Word) : Word := if s.getLsbD 0 then (s >>> 1) ^^^ poly else s >>> 1

def lfsrValue (range s : Word) : Word :=
  if range = 0 then s else BitVec.ofNat 32 (s.toNat * range.toNat / 2 ^ 32)

/-- Advances a generator: its value and the state after (R177, R178). -/
def State.genAdvance (s : State) (t g : Nat) : Word × State :=
  let ix := [t, g]
  let r := s.gen t g
  let w := fun f => (BitVec.ofNat 32 (s.rd f ix) : Word)
  let mode := s.rd F.TIL_GEN_CTRL_MODE ix
  let r' : GenRun := { i := r.i + 1, s := if mode = 3 then lfsrNext (w F.TIL_GEN_STEP_STEP) r.s else r.s }
  let v := if mode = 3 then lfsrValue (w F.TIL_GEN_LIMIT_LIMIT) r'.s
    else genValue mode (w F.TIL_GEN_START_START) (w F.TIL_GEN_STEP_STEP) (w F.TIL_GEN_LIMIT_LIMIT) r.i
  let s := s.setGen t g r'
  (v, (s.wr F.TIL_GEN_VALUE_VALUE ix v.toNat).count F.TIL_GEN_ADV_ADV ix 1)

/-- A restart at the present boundary (R178, R180). -/
def State.genReset (s : State) (t g : Nat) : State :=
  let seed := if s.rd F.TIL_GEN_CTRL_MODE [t, g] = 3 then BitVec.ofNat 32 (s.rd F.TIL_GEN_START_START [t, g])
    else (s.gen t g).s
  (s.setGen t g ⟨0, seed⟩).wr F.TIL_GEN_ADV_ADV [t, g] 0

/-- The enable check of R179. -/
def State.genOk (s : State) (t g : Nat) : Bool :=
  let ix := [t, g]
  let start := s.rd F.TIL_GEN_START_START ix
  let step := s.rd F.TIL_GEN_STEP_STEP ix
  let limit := s.rd F.TIL_GEN_LIMIT_LIMIT ix
  match s.rd F.TIL_GEN_CTRL_MODE ix with
  | 0 => decide (limit ≠ 0)
  | 1 => decide (step ≠ 0) && decide (start ≤ limit)
  | 2 => decide (1 ≤ step % 32)
  | _ => decide (start ≠ 0)

/-- A write of 1 to EN at the present boundary (R179). -/
def State.applyGenEnable (s : State) (t g : Nat) : State :=
  if s.genOk t g then
    ((s.wr F.TIL_GEN_CTRL_EN [t, g] 1).wr F.TIL_GEN_CTRL_REASON [t, g] 0).genReset t g
  else (s.wr F.TIL_GEN_CTRL_REASON [t, g] 0x0501).refuse (R.TIL_GEN_CTRL.addr [t, g] 0) 0x0501

/-- GEN_ENABLE (R179): the write enters staging. -/
def execGenEnable (tile gen : Nat) (s : State) : Host.Outcome State Fault Refusal :=
  if tile < s.variant.tiles ∧ gen < 32 then .next (s.stage (.word (R.TIL_GEN_CTRL.addr [tile, gen] 0) 1 1) false) else .next s

/-- GEN_RESTART (R180): the write enters staging. -/
def execGenRestart (tile gen : Nat) (s : State) : Host.Outcome State Fault Refusal :=
  if tile < s.variant.tiles ∧ gen < 32 then .next (s.stage (.genRestart tile gen) false) else .next s

end Sys2Proof.Machine
end

