-- ==== Sys2Proof/Machine/Render.lean ====
section
/-! DEFINITION. What the outputs render: the drive path of 05 R126-R139, the flux path of 07 R181-R185, the probe sum of
09 R220, the markers of 05 R153-R155, and what leaves a ball and when (05 R127, R141, 07 R190). Samples are DAC samples
of 50 ps, 128 a tick, counted from power-on; NCO phases take the grid time of a sample. -/

namespace Sys2Proof.Machine

/-! ## Sine and cosine (R135, 07 R183, 09 R232) -/

/-- 2 pi in units of 2^-64, rounded. -/
def twoPi64 : Nat := 115904311329233965478

/-- Terms `n`, `n + 2`, ... of the alternating power series of sine (n = 1) and cosine (n = 0), the angle's square given in
units of 2^-64. -/
def trigSeries (sq : Int) : Nat → Nat → Int
  | 0, _ => 2 ^ 64
  | fuel + 1, n => 2 ^ 64 - sq * trigSeries sq fuel (n + 2) / ((n + 1) * (n + 2) * 2 ^ 64)

/-- Cosine and sine of a phase in the first quarter turn, in units of 2^-64; the phase in units of 2^-20 turn. -/
def quarterTrig (r : Nat) : Int × Int :=
  let a : Int := (r * twoPi64 / 2 ^ 20 : Nat)
  let sq := a * a / 2 ^ 64
  (trigSeries sq 14 0, a * trigSeries sq 14 1 / 2 ^ 64)

/-- Cosine of a phase in units of 2^-20 turn, to the nearest multiple of 2^-17. -/
def cosNear (phase : Nat) : Int :=
  let r := phase % 2 ^ 18
  let v := match phase / 2 ^ 18 % 4 with
    | 0 => (quarterTrig r).1
    | 1 => -(quarterTrig r).2
    | 2 => -(quarterTrig r).1
    | _ => (quarterTrig r).2
  roundDiv v (2 ^ 47)

/-- Sine: the cosine a quarter turn before. -/
def sinNear (phase : Nat) : Int := cosNear (phase + 3 * 2 ^ 18)

/-- An error of at most one unit that the manual leaves open. -/
def unitErr (n : Nat) : Int := (n % 3 : Nat) - 1

/-- The 18-bit cosine and sine of the 20-bit lookup, in units of 2^-17 (log 100). -/
def cos18 (phase : Nat) : Int := cosNear phase + unitErr (Config.cosErr (phase % 2 ^ 20))
def sin18 (phase : Nat) : Int := sinNear phase + unitErr (Config.sinErr (phase % 2 ^ 20))

/-- Entry of the flux outputs' table: one turn of sine in 4,096 entries. -/
def fluxEntry (i : Nat) : Int := sinNear (256 * (i % 4096)) + unitErr (Config.fluxErr (i % 4096))

/-- The table interpolated linearly at a 24-bit phase: index in the upper 12 bits, fraction in the lower (07 R183). -/
def fluxSin (phase : Nat) : Int :=
  let f : Int := (phase % 4096 : Nat)
  roundDiv (fluxEntry (phase / 4096) * (4096 - f) + fluxEntry (phase / 4096 + 1) * f) 4096
def fluxCos (phase : Nat) : Int := fluxSin (phase + 1024 * 4096)

/-! ## Phase (R135, R136) -/

/-- The NCO phase at grid time `n` in samples: a function of n and the latched values alone. -/
def phi48 (ftw frame phase n : Nat) : Nat := (ftw * n + frame * 2 ^ 16 + phase * 2 ^ 32) % 2 ^ 48

def State.pulsePhase (s : State) (p : Pulse) (n : Nat) : Nat :=
  phi48 p.ftw.toNat p.frame.toNat p.phase.toNat (s.gridSample n)

/-! ## Envelope (R129, R131, R132; 06 R163, R164, R175) -/

/-- I and Q of a stored sample, in Q1.15. -/
def iq (w : Word) : Int × Int := (signed 16 (bits w.toNat 0 16), signed 16 (bits w.toNat 16 16))

/-- Stream sample that a tapping pulse's envelope sample `j` is. -/
def State.tapAt_ (s : State) (p : Pulse) (j : Nat) : Nat := (p.start + 16 * j - (s.strm p.tile p.envBase).n0) / 16

/-- Envelope sample `j` of a pulse: from envelope memory, or from its stream, a missing one under the pulse's own under-run
action. -/
def State.pulseWord (s : State) (p : Pulse) (j : Nat) : Word :=
  if p.stream then
    match s.strmSample p.tile p.envBase (s.tapAt_ p j) with
    | some w => w
    | none => if p.urun then s.heldSample p.tile p.envBase (s.tapAt_ p j) else 0
  else s.envSample p.tile (p.envBase + j)

/-- A part of the envelope scaled by a part of the amplitude: 18 bits, full scale 1.0, rounded (stage 3). -/
def scaleAmp (x a : Int) : Int :=
  let v := roundDiv (x * a) (2 ^ 13)
  if v = 2 ^ 17 then Config.scaleTop.toInt else v

/-- The scaled envelope: zero before sample 0 and from sample ENV_LEN on. -/
def State.scaled (s : State) (p : Pulse) (j : Int) : Int × Int :=
  if 0 ≤ j ∧ j < p.envLen then
    let e := iq (s.pulseWord p j.toNat)
    (scaleAmp e.1 p.ampI.toInt, scaleAmp e.2 p.ampQ.toInt)
  else (0, 0)

/-! ## Interpolation (R133, 07 R182) -/

/-- e[j] + (e[j + 1] - e[j]) * m / 16, rounded to the format of stage 4. -/
def lerp16 (a b : Int) (m : Nat) : Int := roundDiv (16 * a + (b - a) * m) 16

/-- The scaled envelope from 15 samples before the governing sample to 16 after it. -/
def State.envWindow (s : State) (p : Pulse) (j : Nat) : List (Int × Int) :=
  (List.range 32).map (fun i => s.scaled p ((j : Int) - 15 + i))

/-- The interpolated envelope of a pulse at DAC sample `n`: linear, or the filter of its output. -/
def State.interpAt (s : State) (p : Pulse) (n : Nat) : Int × Int :=
  let j := (n - p.start) / 16
  let m := (n - p.start) % 16
  if p.interp = 0 then
    let a := s.scaled p j
    let b := s.scaled p (j + 1 : Nat)
    (lerp16 a.1 b.1 m, lerp16 a.2 b.2 m)
  else
    let w := s.envWindow p j
    if p.kind = .flux then
      ((Config.polyphase (w.map Prod.fst) m).toInt, (Config.polyphase (w.map Prod.snd) m).toInt)
    else ((Config.halfBand (w.map Prod.fst) m).toInt, (Config.halfBand (w.map Prod.snd) m).toInt)

/-! ## Lanes (R131, R135, 07 R183) -/

/-- A value in the 18-bit lane format. -/
def lane18 (v : Int) : Int := if -(2 ^ 17) ≤ v ∧ v < 2 ^ 17 then v else (Config.laneOver v).toInt

/-- What a pulse's lane plays at DAC sample `n`: Is cos - Qs sin, in units of 2^-17; zero outside the pulse's window. -/
def State.laneOut (s : State) (p : Pulse) (n : Nat) : Int :=
  if p.start ≤ n ∧ n < p.stop then
    let e := s.interpAt p n
    let phi := s.pulsePhase p n
    let (c, q) := if p.kind = .flux then (fluxCos (phi / 2 ^ 24), fluxSin (phi / 2 ^ 24))
      else (cos18 (phi / 2 ^ 28), sin18 (phi / 2 ^ 28))
    lane18 (roundDiv (e.1 * c - e.2 * q) (2 ^ 17))
  else 0

def Pulse.on (p : Pulse) (k : OutKind) (t c : Nat) : Bool := decide (p.kind = k) && decide (p.tile = t) && decide (p.chan = c)

/-- The lanes of an output summed at DAC sample `n` (R138, 07 R185, 09 R220): at most one pulse plays on a lane. -/
def State.laneSum (s : State) (k : OutKind) (t c n : Nat) : Int :=
  ((s.outs.pulses.filter (fun p => p.on k t c)).map (fun p => s.laneOut p n)).sum

/-! ## Gain, offset and code (R138, R139, R146, 07 R185, 09 R220) -/

/-- The codes of 1.0 and of the most negative value. -/
def fullCode : OutKind → Int
  | .flux => 32767
  | _ => 8191

/-- Gain of an output in units of 2^-30 and offset in codes: the channel's settings times the corrections in force, of a
ball that the spare drives those measured for the spare on the ball's path. -/
def State.gainOffset (s : State) (k : OutKind) (t c : Nat) : Int × Int :=
  let ix := [t, c]
  match k with
  | .drive =>
    let g := s.rd F.DRV_GAIN_GAIN ix
    let o := s.rdI F.DRV_OFFSET_OFFSET ix
    if s.served t c then
      let r := SMap.get calRest s.outs.paths (64 * t + c)
      (g * r.gain, o + r.offset)
    else (g * s.rd F.DRV_CAL_GAIN_GAIN ix, o + s.rdI F.DRV_CAL_OFFSET_OFFSET ix)
  | .probe => (s.rd F.PRB_GAIN_GAIN ix * s.rd F.PRB_CAL_GAIN_GAIN ix, s.rdI F.PRB_OFFSET_OFFSET ix + s.rdI F.PRB_CAL_OFFSET_OFFSET ix)
  | .flux => (s.rd F.FLX_GAIN_GAIN ix * s.rd F.FLX_CAL_GAIN_GAIN ix, s.rdI F.FLX_LEVEL_LEVEL ix + s.rdI F.FLX_CAL_OFFSET_OFFSET ix)
  | .bias => (0, 0)

/-- A flux output on a span change holds code 0 from B on (07 R192). -/
def State.fluxHeld (s : State) (t c n : Nat) : Bool :=
  match (s.flux t c).change with
  | some r => r.live && decide (128 * r.at_ ≤ n) && decide (n < 128 * (r.at_ + 3126))
  | none => false

/-- round(y * full scale) of an output at DAC sample `n`, before saturation. -/
def State.rawCode (s : State) (k : OutKind) (t c n : Nat) : Int :=
  if decide (k = .flux) && s.fluxHeld t c n then 0
  else
    let (g, o) := s.gainOffset k t c
    roundDiv (s.laneSum k t c n * g * fullCode k + o * 2 ^ 47) (2 ^ 47)

/-- The DAC code of an output at a sample. -/
def State.outCode (s : State) (k : OutKind) (t c n : Nat) : Int :=
  max (-(fullCode k) - 1) (min (fullCode k) (s.rawCode k t c n))

/-- The sample saturates. -/
def State.saturates (s : State) (k : OutKind) (t c n : Nat) : Bool := decide (s.outCode k t c n ≠ s.rawCode k t c n)

/-- Samples of a tick that an output converts: every one, or one in eight on a flux output (07 R181). -/
def tickSamples (k : OutKind) (tick : Nat) : List Nat :=
  match k with
  | .flux => (List.range 16).map (fun i => 128 * tick + 8 * i)
  | _ => (List.range 128).map (fun i => 128 * tick + i)

/-- Outputs whose offset or level is listed in the register map: their code between pulses is not 0. -/
def State.offsetOuts (s : State) : List (OutKind × Nat × Nat) :=
  s.regs.filterMap (fun e =>
    match findReg e.1 regTable with
    | some (r, [t, c], _) =>
      if r.id = R.DRV_OFFSET.id ∨ r.id = R.DRV_CAL_OFFSET.id then some (.drive, t, c)
      else if r.id = R.PRB_OFFSET.id ∨ r.id = R.PRB_CAL_OFFSET.id then some (.probe, t, c)
      else if r.id = R.FLX_LEVEL.id ∨ r.id = R.FLX_CAL_OFFSET.id then some (.flux, t, c)
      else none
    | _ => none)

/-- Outputs that may saturate in the present tick: those a pulse plays on, and those with an offset. -/
def State.clipOuts (s : State) : List (OutKind × Nat × Nat) :=
  ((s.outs.pulses.filter (fun p => decide (p.start < 128 * (s.now + 1)) && decide (128 * s.now < p.stop))).map
    (fun p => (p.kind, p.tile, p.chan)) ++ s.offsetOuts).dedup

/-- Fault block, bit and unit of CLIP (R446), the status bit and the counter. -/
def clipFault (k : OutKind) (t c : Nat) : FltBlk × Nat × Nat :=
  match k with
  | .drive => (.tile t c, 4, 0)
  | .probe => (.tile t (72 + c), 8, 0)
  | _ => (.tile t (89 + c / 8), 2, c % 8)
def fClip : OutKind → Fld
  | .drive => F.DRV_STATUS_CLIP | .probe => F.PRB_STATUS_CLIP | _ => F.FLX_STATUS_CLIP
def fClipCount : OutKind → Fld
  | .drive => F.DRV_CLIP_COUNT_COUNT | .probe => F.PRB_CLIP_COUNT_COUNT | _ => F.FLX_CLIP_COUNT_COUNT

/-- The tick that ends contains a saturated sample of an output (R138, 07 R185, 09 R220). -/
def State.clipOne (s : State) (o : OutKind × Nat × Nat) : State :=
  let (k, t, c) := o
  if (tickSamples k s.now).any (s.saturates k t c) then
    let (b, bit, unit) := clipFault k t c
    ((s.wr (fClip k) [t, c] 1).count (fClipCount k) [t, c] 1).note b bit unit
  else s

/-- The tick ends: every output with a saturated sample in it is flagged and counted. -/
def State.clipTick (s : State) : State := s.clipOuts.foldl State.clipOne s

/-- Nothing plays and no code saturates between pulses: the ticks to come render alike. -/
def State.quietOuts (s : State) : Bool :=
  s.outs.pulses.isEmpty && s.offsetOuts.all (fun o => !s.saturates o.1 o.2.1 o.2.2 (128 * s.now))

/-! ## What leaves a ball (R127, R141, 07 R190) -/

/-- User delay of an output: samples, and the fine part in units of 50 / 64 ps. -/
def State.userDelay (s : State) (k : OutKind) (t c : Nat) : Nat × Nat :=
  match k with
  | .drive => (s.rd F.DRV_DELAY_SAMPLES [t, c], s.rd F.DRV_DELAY_FINE [t, c])
  | .probe => (s.rd F.PRB_DELAY_SAMPLES [t, c], s.rd F.PRB_DELAY_FINE [t, c])
  | .flux => (s.rd F.FLX_DELAY_SAMPLES [t, c], s.rd F.FLX_DELAY_FINE [t, c])
  | .bias => (s.rd F.BIA_DELAY_SAMPLES [t, c], 0)

/-- When an effect placed at DAC sample `n` leaves its ball, in units of 50 / 64 ps: L_OUT, 8 ticks, plus the user delay
after it (R127). -/
def ballTime (n : Nat) (delay : Nat × Nat) : Nat := 64 * (n + 1024 + delay.1) + delay.2

def State.outBallTime (s : State) (k : OutKind) (t c n : Nat) : Nat := ballTime n (s.userDelay k t c)

/-- What a ball carries. -/
inductive Ball where
  /-- the output switch of an RF output is open -/
  | muted
  /-- 0 V at a flux ball, its output stage on or off -/
  | zero (stageOn : Bool)
  /-- a bias ball clamped to ground through 1 kOhm, its output switch open -/
  | clamped
  /-- the waveform: a DAC code -/
  | code (value : Int)
  deriving DecidableEq, Repr

/-- What an output's ball carries of DAC sample `n` of the present tick; it leaves the ball at `outBallTime`. A bias ball
carries the code latched last. -/
def State.ball (s : State) (k : OutKind) (t c n : Nat) : Ball :=
  match k with
  | .flux =>
    if s.ballLive .flux t c then .code (s.outCode .flux t c n)
    else .zero (!decide (s.mode = mReset) && !s.shutdown && s.rdB F.FLX_STATUS_ENABLED [t, c])
  | .bias => if s.ballLive .bias t c then .code (s.bias t c).code.toInt else .clamped
  | k => if s.ballLive k t c then .code (s.outCode k t c n) else .muted

/-! ## Markers (R153-R155, 03 R95) -/

/-- The static level of a marker of an output at a DAC sample: what the last edge placed up to it left. -/
def State.staticLevel (s : State) (probe : Bool) (t c b n : Nat) : Bool :=
  (s.outs.marks.foldl (fun (o : Nat × Bool) e =>
    if decide (e.probe = probe) && decide (e.tile = t) && decide (e.chan = c) && bit e.mask.toNat b &&
        decide (e.sample ≤ n) && decide (o.1 ≤ e.sample) then (e.sample, bit e.levels.toNat b)
    else o) (0, false)).2

/-- A marker's level: its static level or the MARK bit of a pulse playing on the output, on any lane, from its first
sample to its last or its cut. -/
def State.markLevel (s : State) (probe : Bool) (t c b n : Nat) : Bool :=
  s.staticLevel probe t c b n ||
    s.outs.pulses.any (fun p => p.on (if probe then .probe else .drive) t c && bit p.mark.toNat b &&
      decide (p.start ≤ n) && decide (n < p.stop))

/-- The marker that a marker ball of a tile selects, at a DAC sample (R154). -/
def State.selectedMark (s : State) (t m n : Nat) : Bool :=
  s.markLevel (s.rdB F.TIL_MARK_KIND [t, m]) t (s.rd F.TIL_MARK_CHAN [t, m]) (s.rd F.TIL_MARK_BIT [t, m]) n

/-- A high level shorter than 4 samples lasts 4. -/
def widened (level : Nat → Bool) (n : Nat) : Bool :=
  level n || [1, 2, 3].any (fun d => decide (d ≤ n) && level (n - d) && (decide (n = d) || !level (n - d - 1)))

/-- A low gap shorter than 4 samples is held high. -/
def bridged (level : Nat → Bool) (n : Nat) : Bool :=
  level n || [1, 2, 3].any (fun a => decide (a ≤ n) && level (n - a) &&
    [1, 2, 3].any (fun b => decide (a + b ≤ 4) && level (n + b)))

/-- What a tile's marker ball carries of DAC sample `n` of the present tick (R155). -/
def State.markBall (s : State) (t m n : Nat) : Bool :=
  let low := decide (s.mode = mReset) || decide (s.mode = mSafe) || s.shutdown || !s.rdB F.TIL_MARK_EN [t, m] || s.tileFenced t
  !low && Bool.xor (bridged (widened (s.selectedMark t m)) n) (s.rdB F.TIL_MARK_INV [t, m])

/-- When it leaves the ball: L_OUT plus the ball's delay (R154). -/
def State.markBallTime (s : State) (t m n : Nat) : Nat :=
  ballTime n (s.rd F.TIL_MARK_DELAY [t, m], s.rd F.TIL_MARK_FINE [t, m])

end Sys2Proof.Machine
end

