-- ==== Sys2Proof/Machine/Links.lean ====
section
/-! DEFINITION. What a Borvon port sends (13 R294-R301): the D and P streams, their replay buffer and the messages that
wait; and when a port's partner is in this package's time domain (14 R313). -/

namespace Sys2Proof.Machine

/-! ## The two streams (R296, R300, R301) -/

/-- Symbols of a packet in the replay buffer. -/
def TxMsg.size : TxMsg → Nat
  | .parity _ _ _ ns => 9 + 39 + (ns.length + 1) / 2
  | .mgmt l => 9 + l.length

/-- Bytes of the 64 KB replay buffer in use, counted as symbols (log 40). -/
def PortRun.held (r : PortRun) : Nat := 10 * r.dBuf.length + (r.pBuf.map TxMsg.size).sum

/-- The port carries traffic: ACTIVE, or re-striping, when messages wait (R308; log 41). -/
def State.portCarries (s : State) (p : Nat) : Bool :=
  decide (s.portState p = pActive) || decide (s.portState p = pRestripe)

/-- Puts a message of the D stream into the replay buffer and hands it to the transmitter. -/
def State.putD (s : State) (p : Nat) (m : DecMsg) : State :=
  let r := s.port p
  (s.setPort p { r with dSent := r.dSent + 1, dBuf := r.dBuf ++ [m] }).transmit p (.decMsg p m)

/-- What a packet puts on the wire. -/
def TxMsg.emit (m : TxMsg) (p : Nat) : Emit :=
  match m with
  | .parity d r o ns => .parity p d r o ns
  | .mgmt l => .mgmtSent p l

def State.putP (s : State) (p : Nat) (m : TxMsg) : State :=
  let r := s.port p
  (s.setPort p { r with pSent := r.pSent + 1, pBuf := r.pBuf ++ [m] }).transmit p (m.emit p)

/-- A message finds the replay buffer full (R301). -/
def State.replayFull (s : State) (p : Nat) : State :=
  (s.count F.BVN_PORT_COUNT2_REPLAY_FULL [p] 1).note (.spine (4 + p)) 6 0

/-- Sends a decision message: at once, or after those that wait; a port that carries no traffic drops it (log 41). -/
def State.sendD (s : State) (p : Nat) (m : DecMsg) : State :=
  let r := s.port p
  if s.portState p = pActive ∧ r.waitD = [] ∧ r.held + 10 ≤ 65536 then s.putD p m
  else if s.portCarries p then
    let s := s.setPort p { r with waitD := r.waitD ++ [m] }
    if 65536 < r.held + 10 then s.replayFull p else s
  else s

/-- Sends a packet of external-decoder traffic, which ranks as bulk (R264, R298). -/
def State.sendP (s : State) (p : Nat) (m : TxMsg) : State :=
  let r := s.port p
  if s.portState p = pActive ∧ r.waitP = [] ∧ r.held + m.size ≤ 65536 then s.putP p m
  else if s.portCarries p then
    let s := s.setPort p { r with waitP := r.waitP ++ [m] }
    if 65536 < r.held + m.size then s.replayFull p else s
  else s

/-- Decision messages a port carries in one tick, by its width (10 R254). -/
def State.perTick (s : State) (p : Nat) : Nat :=
  match s.rd F.BVN_PORT_STATUS_WIDTH [p] with
  | 4 => 6
  | 2 => 3
  | _ => 1

/-- Decision messages sent on a port in the present tick. -/
def State.sentNow (s : State) (p : Nat) : Nat :=
  let e := SMap.get (0, 0) s.dec.sentAt p
  if e.1 = s.now then e.2 else 0

def State.noteSent (s : State) (p n : Nat) : State :=
  { s with dec := { s.dec with sentAt := SMap.put (0, 0) s.dec.sentAt p (s.now, s.sentNow p + n) } }

/-- Of messages that wait, those for which the buffer has room but the tick has none, each counted once (10 R254). -/
def State.holdBack (s : State) (p n : Nat) : State :=
  let r := s.port p
  let due := min n ((65536 - r.held) / 10)
  (s.setPort p { r with late := max due r.late }).count F.SPN_DEC_PORT_QUEUE_QUEUED [p] (due - r.late)

/-- Sends what waits, in order, while the buffer and the tick have room. -/
def State.flushD (s : State) (p : Nat) : List DecMsg → State
  | [] => s.setPort p { s.port p with waitD := [], late := 0 }
  | m :: rest =>
    if (s.port p).held + 10 ≤ 65536 then
      if s.sentNow p < s.perTick p then
        (((s.noteSent p 1).setPort p { s.port p with late := (s.port p).late - 1 }).putD p m).flushD p rest
      else (s.setPort p { s.port p with waitD := m :: rest }).holdBack p (rest.length + 1)
    else s.setPort p { s.port p with waitD := m :: rest, late := 0 }

def State.flushP (s : State) (p : Nat) : List TxMsg → State
  | [] => s.setPort p { s.port p with waitP := [] }
  | m :: rest =>
    if (s.port p).held + m.size ≤ 65536 then (s.putP p m).flushP p rest
    else s.setPort p { s.port p with waitP := m :: rest }

def State.flushPort (s : State) (p : Nat) : State :=
  if s.portState p = pActive then
    let s := s.flushD p (s.port p).waitD
    s.flushP p (s.port p).waitP
  else s

/-! ## The transmitter at work (R294, R295, R298) -/

/-- The lanes in use that still carry symbols. -/
def State.lanesUsed (s : State) (p : Nat) : List Nat :=
  (List.range 4).filter (fun l => bit (s.rd F.BVN_PORT_STATUS_IN_USE [p]) l && !s.rdB F.BVN_LANE_STATUS_FENCED [p, l])

/-- The transmitter of a port as the present tick begins for it; the end that re-stripes repeats its RST (R308). -/
def State.wireOf (s : State) (p : Nat) : Wire :=
  let r := s.port p
  let again := match r.restripe with
    | some (m, _, true) => if r.os.isEmpty && (r.first 0).isNone then [Emit.rst p m r.dCount r.pCount] else []
    | _ => []
  { r := { r with tx := again ++ r.tx }, lanes := s.lanesUsed p, decs := s.perTick p,
    hold := decide (s.portState p ≠ pActive), grid := s.grid, ctr := s.freeCtr,
    inj := (s.lanesUsed p).filter (fun l => (s.lane p l).inject), late := none }

/-- What the transmitter of a port sends in the present tick. -/
def State.sendPort (s : State) (p : Nat) : State :=
  let w := s.wireOf p
  if s.portCarries p && w.r.sending && !w.lanes.isEmpty then
    let (cs, v) := w.run (cyclesIn s.now)
    let hits := w.inj.filter (fun l => !v.inj.contains l)
    let s := ({ s with freeCtr := v.ctr }.setPort p v.r).emit (.wire p w.lanes cs)
    let s := hits.foldl (fun s l => (s.setLane p l { s.lane p l with inject := false }).emit (.inverted p l)) s
    match v.late, s.ts.req with
    | some (q, t), some (seq, t1, l, at_) => { s with ts := { s.ts with req := some (seq, if q = seq then t else t1, l, at_) } }
    | _, _ => s
  else s

def State.sendPorts (s : State) : State := (List.range 4).foldl State.sendPort s

/-- No port has anything to send. -/
def State.portsQuiet (s : State) : Bool :=
  (List.range 4).all (fun p => !(s.portCarries p && (s.wireOf p).r.sending))

/-! ## Time domain of a partner (14 R313) -/

/-- This package is IN_DOMAIN. -/
def State.selfInDomain (s : State) : Bool := s.rdB F.TIM_TS_STATUS_IN_DOMAIN []

/-- The last ANNOUNCE of a port's partner. -/
def State.heard (s : State) (p : Nat) : Option Heard :=
  (s.ts.heard.find? (fun e => decide (e.1 = p))).map Prod.snd

/-- The ANNOUNCE came within 3 ms. -/
def State.heardFresh (s : State) (p : Nat) : Bool :=
  match s.heard p with
  | some h => decide (s.now ≤ h.tick + 468750)
  | none => false

/-- The port's partner is in the same time domain (R313). -/
def State.sameDomain (s : State) (p : Nat) : Bool :=
  s.selfInDomain && s.heardFresh p &&
    (match s.heard p with
     | some h => h.ann.inDomain && decide (h.ann.domain.toNat = s.rd F.TIM_TS_DOMAIN_DOMAIN []) &&
         decide (h.ann.masterId.toNat = s.rd F.TIM_TS_MASTER_MASTER_ID [])
     | none => false)

/-- NO_TIME of every port follows the domain. -/
def State.syncDomains (s : State) : State :=
  (List.range 4).foldl (fun s p => s.wrB F.SPN_DEC_PORT_NO_TIME [p] (!s.sameDomain p)) s

end Sys2Proof.Machine
end

