-- ==== Sys2Proof/Machine/Decisions.lean ====
section
/-! DEFINITION. Decision slots, their replicas and the fabric between them (10 R244-R254), and the syndrome unit (10
R257-R264). Replicas: 0-6 a tile's, 7 the hub's. -/

namespace Sys2Proof.Machine

def hub : Nat := 7

/-! ## Replicas (R244, R247, R248) -/

def State.slot (s : State) (r i : Nat) : Slot := SMap.get .idle s.dec.slots (1024 * r + i)
def State.setSlot (s : State) (r i : Nat) (v : Slot) : State :=
  { s with dec := { s.dec with slots := SMap.put .idle s.dec.slots (1024 * r + i) v } }

/-- SRC codes of R244. -/
def srcReadout : Nat := 1
def srcPub : Nat := 2
def srcTable : Nat := 3
def srcPass : Nat := 4
def srcExternal : Nat := 5
def srcImport : Nat := 6
def srcSoftware : Nat := 7

/-- VTICK lies more than 2^30 ticks in the past (R247). -/
def State.vtickOld (s : State) (v : Slot) : Bool := decide ((2 ^ 30 : Int) < shortDiff (short s.grid) v.vtick.toNat)

/-- A write is accepted (R247). -/
def State.accepts (s : State) (v : Slot) (u : Update) : Bool :=
  v.aged || s.vtickOld v || decide (0 ≤ shortDiff u.origin.toNat v.vtick.toNat)

/-- An update reaches one replica: the entry after it, or none when the write is not accepted. -/
def State.updated (s : State) (v : Slot) (u : Update) : Option Slot :=
  if u.inval then some { v with valid := false, aged := false, vtick := u.vtick }
  else if s.accepts v u then
    some { v with cls := u.cls, valid := true, late := u.late, margin := u.margin, src := u.src, tick := u.tick, origin := u.origin }
  else none

/-- The slot is valid in a replica, for a BRD and for DEC (R89, R109, R266). -/
def State.slotValid (s : State) (r i : Nat) : Bool := (s.slot r i).valid && !s.dec.badSlots.contains (1024 * r + i)

/-- Slots a BRD names. -/
def brdSlots (slot num : Nat) : List Nat :=
  (List.range (if num = 0 then 1 else if num = 1 then 2 else 4)).map (fun i => slot + i)

/-- The key of R88. -/
def State.brdKey (s : State) (tile slot num : Nat) : Nat :=
  let c := fun i => (s.slot tile (slot + i)).cls.toNat
  if num = 0 then c 0
  else if num = 1 then c 0 + 3 * c 1
  else (List.range 4).foldl (fun k i => if c i ≠ 0 then k + 2 ^ i else k) 0

/-- Every slot a BRD names is valid in a tile's replica: the tick, and the key (R90). -/
def State.brdGot (s : State) (tile slot num tick : Nat) : Option (Nat × Nat) :=
  if (brdSlots slot num).all (s.slotValid tile) then some (tick, s.brdKey tile slot num) else none

/-- The threads of a tile that wait in a BRD note the first tick up to their deadline in which every named slot is
valid (R90). -/
def State.watchBrd (s : State) (tile : Nat) : State :=
  { s with threads := s.threads.map (fun (e : Nat × Thread) =>
      match e.2.wait with
      | .brd slot num take tgt dl lact issue custom none =>
        if thrTile e.1 = tile ∧ issue ≤ s.now ∧ s.now ≤ issue + dl then
          (e.1, { e.2 with wait := .brd slot num take tgt dl lact issue custom (s.brdGot tile slot num s.now) })
        else e
      | _ => e) }

/-- Applies an update to a replica; a replica entry that failed its parity is good again after an accepted write (R266). -/
def State.applyAt (s : State) (r : Nat) (u : Update) : State :=
  match s.updated (s.slot r u.slot) u with
  | some v =>
    let s := s.setSlot r u.slot v
    if u.inval then s
    else
      { s with dec := { s.dec with badSlots := s.dec.badSlots.filter (fun k => decide (k ≠ 1024 * r + u.slot)) } }.watchBrd r
  | none => s

/-- An update on its way to a replica. -/
def State.send (s : State) (dest src : Nat) (u : Update) : State :=
  { s with dec := { s.dec with fabric := s.dec.fabric ++ [⟨dest, s.now, src, .upd u⟩] } }

/-- A write and an invalidation. -/
def writeOf (slot cls src : Nat) (late margin : Bool) (tick origin : Nat) : Update :=
  { slot := slot, inval := false, cls := BitVec.ofNat 2 cls, late := late, margin := margin, src := src,
    tick := BitVec.ofNat 32 tick, origin := BitVec.ofNat 32 origin, vtick := 0 }
def invalOf (slot vtick : Nat) : Update :=
  { slot := slot, inval := true, cls := 0, late := false, margin := false, src := 0, tick := 0, origin := 0,
    vtick := BitVec.ofNat 32 vtick }

/-! ## Exports (R252, R254) -/

/-- The message of an update (R296). -/
def Update.msg (u : Update) : DecMsg :=
  { slot := u.slot, cls := u.cls, late := u.late, margin := u.margin, inval := u.inval,
    origin := if u.inval then u.vtick else u.origin,
    dtick := if u.inval then 0 else min 65535 (u.tick - u.origin).toNat }

def State.decQueue (s : State) (p : Nat) : List DecMsg := SMap.get [] s.dec.queue p
def State.setDecQueue (s : State) (p : Nat) (q : List DecMsg) : State :=
  { s with dec := { s.dec with queue := SMap.put [] s.dec.queue p q } }

/-- An exported update on a port: sent in this tick, or queued for a later one and counted. -/
def State.exportOn (s : State) (p : Nat) (m : DecMsg) : State :=
  if s.portCarries p && !(s.port p).waitD.isEmpty && (s.decQueue p).isEmpty then
    let s := s.sendD p m
    if (s.port p).late = 0 then s else s.holdBack p (s.port p).waitD.length
  else if s.portCarries p && (!(s.decQueue p).isEmpty || decide (s.perTick p ≤ s.sentNow p)) then
    (s.setDecQueue p (s.decQueue p ++ [m])).count F.SPN_DEC_PORT_QUEUE_QUEUED [p] 1
  else (s.noteSent p 1).sendD p m

def State.exportUpd (s : State) (u : Update) : State :=
  (List.range 4).foldl (fun s p =>
    if (SMap.get [] s.dec.exports p).contains u.slot then s.exportOn p u.msg else s) s

/-- The next group of the messages that wait for a tick: as many as the tick has room for. -/
def State.sendQueue (s : State) (p : Nat) : State :=
  let n := s.perTick p - s.sentNow p
  let q := s.decQueue p
  (q.take n).foldl (fun s m => s.sendD p m) ((s.setDecQueue p (q.drop n)).noteSent p (min n q.length))

/-- DEC_QUEUE_SEND (R254): the next group of the messages that wait, the earlier ones first. -/
def execDecQueueSend (port : Nat) (s : State) : Host.Outcome State Fault Refusal :=
  if port < 4 then .next ((s.flushPort port).sendQueue port) else .next s

/-! ## Groups (R257, R258) -/

def State.group (s : State) (g : Nat) : Group := SMap.get .idle s.dec.groups g
def State.setGroup (s : State) (g : Nat) (v : Group) : State :=
  { s with dec := { s.dec with groups := SMap.put .idle s.dec.groups g v } }
def State.decoder (s : State) (d : Nat) : Decoder := SMap.get .idle s.dec.decoders d
def State.setDecoder (s : State) (d : Nat) (v : Decoder) : State :=
  { s with dec := { s.dec with decoders := SMap.put .idle s.dec.decoders d v } }

/-- MODE of a decoder: 0 OFF, 1 TABLE, 2 PASS, 3 EXTERNAL. -/
def State.decMode (s : State) (d : Nat) : Nat := s.rd F.SPN_SYN_DEC_CFG_MODE [d]

/-- The groups a decoder uses. -/
def State.decGroups (s : State) (d : Nat) : List Nat :=
  if s.decMode d = 3 then (s.decoder d).mask else if s.decMode d = 0 then [] else (s.decoder d).groups

/-- The decoders that use a group. -/
def State.groupUsers (s : State) (g : Nat) : List Nat := (List.range 4).filter (fun d => (s.decGroups d).contains g)

/-- Shows a group's state in its registers. -/
def State.showGroup (s : State) (g : Nat) : State :=
  let v := s.group g
  (s.wr F.SPN_SYN_GRP_STATE_FRESH [g] v.fresh.length).wrB F.SPN_SYN_GRP_STATE_FIRED [g] (!v.waiting.isEmpty)

def State.putGroup (s : State) (g : Nat) (v : Group) : State := (s.setGroup g v).showGroup g

/-- An accepted write to a member's slot at the hub makes it fresh; the last one makes the group due. -/
def Group.freshen (v : Group) (slot now : Nat) : Group :=
  if v.members.contains slot && !v.fresh.contains slot then
    let f := v.fresh ++ [slot]
    { v with fresh := f, dueAt := if v.members.all f.contains then some now else v.dueAt }
  else v

/-- An invalidation clears its flag and cancels a firing not yet consumed. -/
def Group.stale (v : Group) (slot : Nat) : Group :=
  if v.members.contains slot then
    { v with fresh := v.fresh.filter (fun m => decide (m ≠ slot)), dueAt := none, fired := none, waiting := [] }
  else v

/-- The groups with a slot as a member. -/
def State.groupsOf (s : State) (slot : Nat) : List Nat :=
  (s.dec.groups.filter (fun e => e.2.members.contains slot)).map Prod.fst

/-- Output slots of a decoder. -/
def decOutputs (d : Nat) : List Nat := (List.range 16).map (fun i => 896 + 16 * d + i)

/-! ## The hub (R250, R252, R258, R263) -/

/-- Present tiles still on the ring. -/
def State.ringTiles (s : State) : List Nat := (List.range s.variant.tiles).filter (fun t => !s.tileFenced t)

/-- Forwards an update from the hub to every tile but its source. -/
def State.forward (s : State) (src : Nat) (u : Update) : State :=
  (s.ringTiles.filter (fun t => decide (t ≠ src))).foldl (fun s t => s.send t hub u) s

/-- Counts a write that the hub does not accept (R247): an import, or another. -/
def State.countRejected (s : State) (u : Update) : State :=
  if u.src = srcImport then
    ((s.count F.SPN_DEC_COUNT_STALE_IMPORT [] 1).wr F.SPN_DEC_STATUS_STALE [] 1).note (.spine 9) 7 0
  else (s.count F.SPN_DEC_COUNT_SUPERSEDED [] 1).note (.spine 9) 8 0

/-- An update at the hub alone: the replica, the parity groups and the exports. -/
def State.hubApply (s : State) (u : Update) : State :=
  let ok := (s.updated (s.slot hub u.slot) u).isSome
  let s := s.applyAt hub u
  if !ok then s.countRejected u
  else
    let s := (s.groupsOf u.slot).foldl (fun s g =>
      s.putGroup g (if u.inval then (s.group g).stale u.slot else (s.group g).freshen u.slot s.now)) s
    s.exportUpd u

/-- Decoders that use a group of which the slot is a member. -/
def State.decodersOf (s : State) (slot : Nat) : List Nat :=
  (List.range 4).filter (fun d => (s.decGroups d).any (fun g => (s.group g).members.contains slot))

/-- An update reaches the hub: it is applied, forwarded and exported; an invalidation of a decoder's input invalidates its
outputs in the same tick (R263). -/
def State.hubUpdate (s : State) (src : Nat) (u : Update) : State :=
  let s := (s.hubApply u).forward src u
  if u.inval then
    ((s.decodersOf u.slot).flatMap decOutputs).foldl (fun s o =>
      let v := invalOf o u.vtick.toNat
      (s.hubApply v).forward hub v) s
  else s

/-- A decision or an invalidation of a tile: its own replica and its spine link in the same tick (R249). -/
def State.publish (s : State) (tile : Nat) (u : Update) : State := (s.applyAt tile u).send hub tile u

/-- The first message on its way to a replica. -/
def takeMsg (r : Nat) : List FabMsg → Option (FabMsg × List FabMsg)
  | [] => none
  | m :: ms => if m.dest = r then some (m, ms) else (takeMsg r ms).map (fun p => (p.1, m :: p.2))

/-- SLOT_AGED (R247). -/
def execSlotAged (replica slot : Nat) (s : State) : Host.Outcome State Fault Refusal :=
  let v := s.slot replica slot
  if replica ≤ hub ∧ slot < 1024 ∧ s.vtickOld v ∧ !v.aged then .next (s.setSlot replica slot { v with aged := true })
  else .next s

/-- RING_REBUILD_DONE (R250, R459): the held updates flow again. -/
def execRingRebuildDone (s : State) : Host.Outcome State Fault Refusal :=
  .next { s with dec := { s.dec with rebuild := none } }

/-- SPINE_LINK_RETRY (R21): a flit is retried. -/
def execSpineLinkRetry (tile lane : Nat) (s : State) : Host.Outcome State Fault Refusal :=
  if tile < s.variant.tiles ∧ lane < 32 then .next (s.note (.tile tile 107) 3 lane) else .next s

/-! ## Software writes (R251) -/

/-- A write of SPN_DEC_SW: refused under R14, discarded when the slot is not assigned to software, else staged; a later
write replaces it (R58). -/
def State.decSwWrite (s : State) (v : Word) : State :=
  let n := v.toNat
  if bits n 6 2 = 3 then s.refuse (R.SPN_DEC_SW.addr [] 0) 0x0501
  else
    match s.slotUser (960 + bits n 0 6) with
    | .software _ =>
      s.stage (.decSw v) false
    | _ => s.wr F.SPN_DEC_STATUS_SW_REFUSED [] 1

/-- DEC_SW_WRITE. -/
def execDecSwWrite (value : Word) (s : State) : Host.Outcome State Fault Refusal := .next (s.decSwWrite value)

/-- The software write takes effect at the present boundary in the hub replica. -/
def State.applyDecSw (s : State) (v : Word) : State :=
  let n := v.toNat
  let s := s.setRegWord R.SPN_DEC_SW [] 0 (v &&& 0x1FF)
  s.hubUpdate hub (writeOf (960 + bits n 0 6) (bits n 6 2) srcSoftware false (bit n 8) s.grid s.grid)

/-! ## Slots of a job (R89, R248, R258) -/

/-- Tone slots of the lines a job measures, and its PUB slots. -/
def State.jobInputs (s : State) (j : Nat) : List Nat :=
  (s.jobLines j).flatMap (fun l => (List.range 16).map (fun k => 16 * l + k)) ++
    (if (s.job j).kind = 1 then (s.plan (s.job j).plan).pubs.map (fun p => 960 + p.1) else [])

/-- The decoders a job owns: an owned slot is a member of a group the decoder uses. -/
def State.jobDecoders (s : State) (j : Nat) : List Nat :=
  let own := s.jobInputs j
  (List.range 4).filter (fun d => (s.decGroups d).any (fun g => (s.group g).members.any own.contains))

/-- Every slot the job owns. -/
def State.jobSlots (s : State) (j : Nat) : List Nat := s.jobInputs j ++ (s.jobDecoders j).flatMap decOutputs

/-- At a shot start of a job every slot it owns is invalid in every replica, with the start tick as VTICK, and the groups
of its decoders are cleared. -/
def State.decShotStart (s : State) (j t : Nat) : State :=
  let ds := s.jobDecoders j
  let s := (s.jobSlots j).foldl (fun s i =>
    let u := invalOf i (s.gridAt t)
    s.ringTiles.foldl (fun s t => s.applyAt t u) (s.hubApply u)) s
  (ds.flatMap s.decGroups).foldl (fun s g =>
    s.putGroup g { s.group g with fresh := [], dueAt := none, fired := none, waiting := [] }) s

/-! ## Firing of groups (R257, R258) -/

/-- Latest of short times (R40). -/
def latest : List Nat → Nat
  | [] => 0
  | [a] => a
  | a :: b :: t => let m := latest (b :: t); if 0 ≤ shortDiff a m then a else m

/-- A member's bit. -/
def memberBit (map : Bool) (cls : BitVec 2) : Bool := decide (cls = 1) || (map && decide (cls = 2))

/-- GROUP_FIRE (R258): in the tick after the last member became fresh. -/
def execGroupFire (group : Nat) (s : State) : Host.Outcome State Fault Refusal :=
  let v := s.group group
  match v.dueAt with
  | none => .next s
  | some h =>
    if h < s.now ∧ !s.shutdown then
      let es := v.members.map (s.slot hub)
      let parity := es.foldl (fun b e => b != memberBit v.map e.cls) v.inv
      let v := { v with
        fresh := [], dueAt := none, fired := some s.now, waiting := s.groupUsers group, parity := parity,
        leak := es.any (fun e => decide (e.cls = 2)), marg := es.any (fun e => e.margin), glate := es.any (fun e => e.late),
        origin := BitVec.ofNat 32 (latest (es.map (fun e => e.origin.toNat))) }
      let s := s.putGroup group v
      let s := (s.wrB F.SPN_SYN_GRP_STATE_PARITY [group] v.parity).wrB F.SPN_SYN_GRP_STATE_LEAK [group] v.leak
      let s := (s.wrB F.SPN_SYN_GRP_STATE_MARG [group] v.marg).wrB F.SPN_SYN_GRP_STATE_GLATE [group] v.glate
      .next (s.wr F.SPN_SYN_GRP_ORIGIN_GORIGIN [group] v.origin.toNat)
    else .next s

/-! ## Decoders (R259-R264) -/

/-- Every group of a list has fired for the decoder since its previous firing, the last one in tick `some f`. -/
def State.lastFired (s : State) (d : Nat) (gs : List Nat) : Option Nat :=
  if gs ≠ [] ∧ gs.all (fun g => (s.group g).waiting.contains d) then
    some (gs.foldl (fun m g => max m ((s.group g).fired.getD 0)) 0)
  else none

/-- The decoder consumes its groups' firings. -/
def State.consume (s : State) (d : Nat) (gs : List Nat) : State :=
  gs.foldl (fun s g => s.putGroup g { s.group g with waiting := (s.group g).waiting.filter (fun e => decide (e ≠ d)) }) s

/-- Class of output i from a table entry or the parities: none where it is not written. -/
def State.decClass (s : State) (d entry i : Nat) : Option Nat :=
  if s.decMode d = 1 then (if bits entry (2 * i) 2 = 3 then none else some (bits entry (2 * i) 2))
  else
    match (s.decoder d).groups[i]? with
    | some g => some (if (s.group g).parity then 1 else 0)
    | none => none

/-- Index of a TABLE decoder: bit j is the parity of the j-th group. -/
def State.decIndex (s : State) (gs : List Nat) : Nat := maskOf (fun g => (s.group g).parity) gs

/-- A parity error at a lookup (R261): the running shot of the decoder's job ends, the entry is reloaded; a second error
within 1 s of the reload is served from the mirror from then on. -/
def State.tableError (s : State) (d e : Nat) : State :=
  let again := s.stores.tableReload.any (fun r => decide (r.1 = e) && decide (s.now ≤ r.2 + 156250000))
  let s := s.wr F.SPN_SYN_PARITY_ENTRY_ENTRY [] e
  let mir := if again then
      if s.stores.tableMir.contains e then s.stores.tableMir else s.stores.tableMir ++ [e]
    else s.stores.tableMir
  let s := { s with stores := { s.stores with tableMir := mir, tableRepair := s.stores.tableRepair ++ [(e, s.now)] } }
  let s := s.wrB F.SPN_SYN_PARITY_ENTRY_MIRROR [] again
  let s := s.record (.spine 9) [⟨2, d, if again then 2 else 1, true, false⟩]
  let js := s.jobsWhere (fun j b => b.running && (s.jobDecoders j).contains d)
  js.foldl (fun s j => s.strike j (some (.table e))) s

/-- DECODER_FIRE (R261, R262): in the tick after the last of its index groups fired; the outputs are published in the hub
one tick later, or four for an entry served from the mirror. `parityErr`: the entry read fails its parity. -/
def execDecoderFire (dec : Nat) (parityErr : Bool) (s : State) : Host.Outcome State Fault Refusal :=
  let gs := (s.decoder dec).groups
  if s.decMode dec = 1 ∨ s.decMode dec = 2 then
    match s.lastFired dec gs with
    | none => .next s
    | some f =>
      if f < s.now then
        let table := decide (s.decMode dec = 1)
        let e := s.rd F.SPN_SYN_DEC_BASE_BASE [dec] + s.decIndex gs
        let mir := table && s.stores.tableMir.contains e
        let entry := (SMap.get 0 (if mir then s.stores.tableMirror else s.stores.table) e).toNat
        let at_ := s.now + (if mir then 4 else 1)
        let late := gs.any (fun g => (s.group g).glate)
        let margin := gs.any (fun g => (s.group g).marg || (s.group g).leak)
        let origin := latest (gs.map (fun g => (s.group g).origin.toNat))
        let out := (List.range 16).filterMap (fun i =>
          (s.decClass dec entry i).map (fun c =>
            (at_, writeOf (896 + 16 * dec + i) c (if table then srcTable else srcPass) late margin (s.gridAt at_) origin)))
        let s := (s.consume dec gs).count F.SPN_SYN_DEC_FIRES_FIRES [dec] 1
        let s := s.wr F.SPN_SYN_DEC_FIRE_TICK_TICK [dec] (short s.grid)
        if table && parityErr && !mir then .next (s.tableError dec e)
        else .next (s.setDecoder dec { s.decoder dec with out := (s.decoder dec).out ++ out })
      else .next s
  else .next s

/-- Outputs due at the present tick are published in the hub replica. -/
def State.publishDecoders (s : State) : State :=
  (List.range 4).foldl (fun s d =>
    let v := s.decoder d
    let due := v.out.filter (fun p => decide (p.1 ≤ s.now))
    if due.isEmpty then s
    else
      let s := s.setDecoder d { v with out := v.out.filter (fun p => decide (s.now < p.1)) }
      due.foldl (fun s p => s.hubUpdate hub p.2) s) s

/-- TABLE_RELOAD_DONE (R261): the entry is reloaded from the mirror and verified. -/
def execTableReloadDone (entry : Nat) (s : State) : Host.Outcome State Fault Refusal :=
  if s.stores.tableRepair.any (fun r => decide (r.1 = entry)) then
    let good := SMap.get 0 s.stores.tableMirror entry
    .next { s with stores := { s.stores with
      table := SMap.put 0 s.stores.table entry good,
      tableRepair := s.stores.tableRepair.filter (fun r => decide (r.1 ≠ entry)),
      tableReload := s.stores.tableReload.filter (fun r => decide (r.1 ≠ entry)) ++ [(entry, s.now)] } }
  else .next s

/-- The entry lies in the region of a TABLE decoder whose partition is ARMED or RUN (R260). -/
def State.tableBusy (s : State) (e : Nat) : Bool :=
  (List.range 4).any (fun d => decide (s.decMode d = 1) && s.partBusy (s.rd F.SPN_SYN_DEC_CFG_PART [d]) &&
    decide (s.rd F.SPN_SYN_DEC_BASE_BASE [d] ≤ e) &&
    decide (e < s.rd F.SPN_SYN_DEC_BASE_BASE [d] + 2 ^ s.rd F.SPN_SYN_DEC_CFG_K [d]))

/-- A write to the decode table (R260, R261): the mirror takes it too. -/
def State.tableWrite (s : State) (e : Nat) (v : Word) : State :=
  if s.tableBusy e then s.wr F.SPN_DEC_STATUS_TBL_WR_REFUSED [] 1
  else
    { s with stores := { s.stores with
      table := SMap.put 0 s.stores.table e v, tableMirror := SMap.put 0 s.stores.tableMirror e v } }

/-- DECODE_TABLE_WRITE. -/
def execDecodeTableWrite (entry : Nat) (value : Word) (s : State) : Host.Outcome State Fault Refusal :=
  if entry < 2 ^ 18 then .next (s.tableWrite entry value) else .next s

/-- SYN_BASE_WRITE (R260): RWH. -/
def State.synBaseWrite (s : State) (d : Nat) (v : Word) : State := s.stage (.synBase d v) true

def execSynBaseWrite (dec : Nat) (value : Word) (s : State) : Host.Outcome State Fault Refusal :=
  if dec < 4 then .next (s.synBaseWrite dec value) else .next s

/-- The region fits the table (R260, R265). -/
def baseOk (base k : Nat) : Bool := decide (base % 2 ^ k = 0) && decide (base + 2 ^ k ≤ 262144)

/-- BASE takes effect at the present boundary, or is refused. -/
def State.applySynBase (s : State) (d : Nat) (v : Word) : State :=
  let base := bits v.toNat 0 18
  if s.decMode d = 1 ∧ !baseOk base (s.rd F.SPN_SYN_DEC_CFG_K [d]) then s.refuse (R.SPN_SYN_DEC_BASE.addr [d] 0) 0x0501
  else s.wr F.SPN_SYN_DEC_BASE_BASE [d] base

/-! ## External decoder (R264) -/

/-- A round is lost. -/
def State.extLost (s : State) (d : Nat) : State := (s.count F.SPN_SYN_DEC_EXT_EXT_LOST [d] 1).note (.spine 9) 5 d

def State.setRounds (s : State) (d : Nat) (rs : List Round) : State :=
  (s.setDecoder d { s.decoder d with rounds := rs }).wr F.SPN_SYN_DEC_STATE_OUTSTANDING [d] rs.length

/-- EXT_DECODER_FIRE (R264 steps 1-3, 7). -/
def execExtDecoderFire (dec : Nat) (s : State) : Host.Outcome State Fault Refusal :=
  let gs := (s.decoder dec).mask
  if s.decMode dec = 3 then
    match s.lastFired dec gs with
    | none => .next s
    | some _ =>
      let port := s.rd F.SPN_SYN_DEC_CFG_PORT [dec]
      let b := fun (x : Bool) (n : Nat) => if x then n else 0
      let ns := gs.map (fun g => let v := s.group g; (g, b v.parity 1 + b v.leak 2 + b v.marg 4 + b v.glate 8))
      let origin := BitVec.ofNat 32 (latest (gs.map (fun g => (s.group g).origin.toNat)))
      let margin := gs.any (fun g => (s.group g).leak || (s.group g).marg)
      let round : BitVec 16 := BitVec.ofNat 16 (s.rd F.SPN_SYN_DEC_STATE_ROUND [dec] + 1)
      let s := ((s.consume dec gs).count F.SPN_SYN_DEC_FIRES_FIRES [dec] 1).wr F.SPN_SYN_DEC_FIRE_TICK_TICK [dec] (short s.grid)
      let s := s.wr F.SPN_SYN_DEC_STATE_ROUND [dec] round.toNat
      if s.portCarries port then
        let rs := (s.decoder dec).rounds
        let s := if 8 ≤ rs.length then s.extLost dec else s
        let rs := (if 8 ≤ rs.length then rs.drop 1 else rs) ++ [⟨round, origin, margin, s.now⟩]
        .next ((s.setRounds dec rs).sendP port (.parity dec round origin ns))
      else .next ((s.extLost dec).note (.spine 9) 0 dec)
  else .next s

/-- An answer reaches the hub (R264 steps 4-6). -/
def State.extAnswer (s : State) (d : Nat) (round : BitVec 16) (classes : Word) : State :=
  let rs := (s.decoder d).rounds
  match rs.find? (fun r => decide (r.round = round)) with
  | none => (s.count F.SPN_SYN_DEC_EXT_EXT_STRAY [d] 1).note (.spine 9) 6 d
  | some r =>
    let late := decide (r.fired + s.rd F.SPN_SYN_DEC_DEADLINE_DEADLINE [d] < s.now)
    let s := s.setRounds d (rs.filter (fun r => decide (r.round ≠ round)))
    let s := if late then (s.count F.SPN_SYN_DEC_EXT_EXT_LATE [d] 1).note (.spine 9) 4 d else s
    (List.range 16).foldl (fun s i =>
      let c := bits classes.toNat (2 * i) 2
      if c = 3 then s
      else s.hubUpdate hub (writeOf (896 + 16 * d + i) c srcExternal late r.margin s.grid r.origin.toNat)) s

/-! ## Imports (R253, R297) -/

/-- A received decision of a port: applied to its mapped local slot, or discarded and counted. -/
def State.importDec (s : State) (p : Nat) (m : DecMsg) : State :=
  if !s.sameDomain p then
    ((s.count F.SPN_DEC_PORT_UNMAPPED [p] 1).wr F.SPN_DEC_PORT_NO_TIME [p] 1).note (.spine 9) 1 p
  else
    match (SMap.get [] s.dec.imports p).find? (fun e => decide (e.1 = m.slot)) with
    | none => s.count F.SPN_DEC_PORT_UNMAPPED [p] 1
    | some (_, loc) =>
      let tick := if m.dtick < 65535 then (m.origin + BitVec.ofNat 32 m.dtick).toNat else short s.grid
      s.hubUpdate hub (if m.inval then invalOf loc m.origin.toNat
        else writeOf loc m.cls.toNat srcImport m.late m.margin tick m.origin.toNat)

end Sys2Proof.Machine
end

