-- ==== Sys2Proof/Machine/Borvon.lean ====
section
/-! DEFINITION. The Borvon ports (13): training, lane failures, re-striping, acknowledgement and replay, and the messages
received. 1 ms is 156,250 ticks. -/

namespace Sys2Proof.Machine

/-! ## Lane states (BVN_LANE_STATUS.TSTATE) -/

def lDeep : Nat := 0
def lDetect : Nat := 1
def lBitLock : Nat := 2
def lComma : Nat := 3
def lDeskew : Nat := 4
def lParam : Nat := 5
def lActive : Nat := 6
def lStandby : Nat := 7
def lAbsent : Nat := 8
def lFenced : Nat := 9
def lTest : Nat := 10

def State.laneState (s : State) (p l : Nat) : Nat := s.rd F.BVN_LANE_STATUS_TSTATE [p, l]

/-- A lane enters a state at the present tick. -/
def State.putLane (s : State) (p l st : Nat) : State :=
  (s.wr F.BVN_LANE_STATUS_TSTATE [p, l] st).setLane p l { LaneRun.idle with since := s.now }

/-- A training lane sends TS1, or TS2, from now on: the width offered is WIDTH_MAX, GOOD the lanes past COMMA (log 107). -/
def State.sendTs (s : State) (p l : Nat) (second : Bool) : State :=
  let good := ((List.range 4).filter (fun k => decide (4 ≤ s.laneState p k) && decide (s.laneState p k ≤ 7))).foldl
    (fun m k => m + 2 ^ k) 0
  s.emit (.ts p l p (s.rd F.BVN_PORT_CTRL_WIDTH_MAX [p]) (BitVec.ofNat 4 good)
    (BitVec.ofNat 32 (s.rd F.BVN_LOCAL_ID_ID [])) second)

/-- A lane begins to train: it sends TS1 (R303). -/
def State.startLane (s : State) (p l : Nat) : State := (s.putLane p l lDetect).sendTs p l false

/-- Lanes of a port that may train: LANE_EN 1 and not fenced. -/
def State.trainable (s : State) (p : Nat) : List Nat :=
  (List.range 4).filter (fun l => bit (s.rd F.BVN_PORT_CTRL_LANE_EN [p]) l && !s.rdB F.BVN_LANE_STATUS_FENCED [p, l])

/-- Lanes of a port in a state. -/
def State.lanesIn (s : State) (p st : Nat) : List Nat := (List.range 4).filter (fun l => decide (s.laneState p l = st))

/-- The width and the lanes in use (R304, R308); the tick of a change of WIDTH is kept. -/
def State.putWidth (s : State) (p mask : Nat) : State :=
  let n := laneCount mask
  let s := if s.rd F.BVN_PORT_STATUS_WIDTH [p] = n then s
    else (s.wr F.BVN_PORT_STATUS_WIDTH [p] n).wr F.BVN_PORT_TICK_TICK [p] (short s.grid)
  s.wr F.BVN_PORT_STATUS_IN_USE [p] mask

/-- The lanes of a list leave the deep state, which takes 2 ms (R307). -/
def State.wakeLanes (s : State) (p : Nat) (ls : List Nat) : State :=
  ls.foldl (fun s l => (s.putLane p l lDeep).setLane p l { LaneRun.idle with since := s.now, wait := s.now + 312500 }) s

/-- A lane returns to DETECT with ATTEMPTS 0. -/
def State.detectLane (s : State) (p l : Nat) : State := (s.startLane p l).wr F.BVN_LANE_STATUS_ATTEMPTS [p, l] 0

/-- The port trains from the start: its streams are closed. -/
def State.portTrains (s : State) (p : Nat) : State :=
  let s := (s.setPortState p pTraining).putWidth p 0
  (s.wr F.BVN_PORT_STATUS_GOOD [p] 0).setPort p .idle

/-- RETRAIN: all unfenced lanes return to DETECT with ATTEMPTS 0. -/
def State.retrain (s : State) (p : Nat) : State :=
  if s.rdB F.BVN_PORT_CTRL_EN [p] && !s.rdB F.BVN_PORT_CTRL_TEST [p] then
    (s.trainable p).foldl (fun s l => s.detectLane p l) (s.portTrains p)
  else s

/-- The control register of a port as written: EN, LANE_EN and TEST take their effect (R305, R307, R309). -/
def State.portCtrl (s : State) (p : Nat) (oldEn oldTest : Bool) (oldLanes : Nat) : State :=
  let en := s.rdB F.BVN_PORT_CTRL_EN [p]
  let test := s.rdB F.BVN_PORT_CTRL_TEST [p]
  let lanes := s.rd F.BVN_PORT_CTRL_LANE_EN [p]
  let ls := s.trainable p
  if !en then
    let s := (List.range 4).foldl (fun s l => if s.rdB F.BVN_LANE_STATUS_FENCED [p, l] then s else s.putLane p l lDeep) s
    (s.portTrains p).setPortState p pDisabled
  else if test then
    if oldEn && oldTest then s
    else (ls.foldl (fun s l => s.putLane p l lTest) (s.portTrains p)).setPortState p pTest
  else if !oldEn then (s.portTrains p).wakeLanes p ls
  else if oldTest then s.retrain p
  else if lanes ≠ oldLanes then
    let s := ((List.range 4).filter (fun l => bit oldLanes l && !bit lanes l && !s.rdB F.BVN_LANE_STATUS_FENCED [p, l])).foldl
      (fun s l => s.putLane p l lDeep) s
    s.wakeLanes p (ls.filter (fun l => !bit oldLanes l))
  else s

/-! ## Training (R303-R306) -/

/-- No lane of the port trains: it is DOWN (R305). -/
def State.checkDown (s : State) (p : Nat) : State :=
  if s.portState p = pTraining ∧ (s.trainable p).all (fun l => decide (s.laneState p l = lAbsent)) then s.portDown p else s

/-- The lane is ABSENT, in the deep state (R305). -/
def State.absentLane (s : State) (p l cause : Nat) : State :=
  ((s.putLane p l lAbsent).wr F.BVN_LANE_STATUS_ABSENT_CAUSE [p, l] cause).note (.spine (4 + p)) 4 l

/-- The lanes that have reached COMMA enter DESKEW together (R304). -/
def State.enterDeskew (s : State) (p : Nat) : State :=
  let ls := (s.trainable p).filter (fun l => decide (s.laneState p l = lComma) && (s.lane p l).commaOk)
  if ls.isEmpty then s
  else (ls.foldl (fun s l => s.putLane p l lDeskew) s).setPort p { s.port p with commaAt := none }

/-- The port enters DESKEW when every enabled lane has reached COMMA or is ABSENT. -/
def State.tryDeskew (s : State) (p : Nat) : State :=
  if s.portState p = pTraining ∧ s.lanesIn p lDeskew = [] ∧ s.lanesIn p lParam = [] ∧ (s.trainable p).all (fun l =>
      decide (s.laneState p l = lAbsent) || (decide (s.laneState p l = lComma) && (s.lane p l).commaOk)) then
    s.enterDeskew p
  else s

/-- An attempt of a lane fails: it waits 1 to 64 ms, or is ABSENT after the eighth (R305). -/
def State.failAttempt (s : State) (p l cause : Nat) : State :=
  let k := s.rd F.BVN_LANE_STATUS_ATTEMPTS [p, l] + 1
  let s := (s.wr F.BVN_LANE_STATUS_FAIL_STEP [p, l] cause).wr F.BVN_LANE_STATUS_ATTEMPTS [p, l] (min k 8)
  if 8 ≤ k then s.absentLane p l 1
  else s.setLane p l { LaneRun.idle with since := s.now, wait := s.now + 156250 * 2 ^ (k - 1) }

/-- Largest of 4, 2 and 1 that does not exceed a count. -/
def widthFor (n : Nat) : Nat := if 4 ≤ n then 4 else if 2 ≤ n then 2 else if 1 ≤ n then 1 else 0

/-- PARAM is done: the lanes good at both ends, the lanes in use, the partner; the streams start from 0 (R301, R304). -/
def State.enterActive (s : State) (p : Nat) (o : TrainObs) : State :=
  let cand := s.lanesIn p lParam
  let good := (cand.filter (fun l => o.partnerGood.getLsbD l)).foldl (fun m l => m + 2 ^ l) 0
  let w := widthFor (min (laneCount good) (min (s.rd F.BVN_PORT_CTRL_WIDTH_MAX [p]) o.partnerWidth))
  if w = 0 then s
  else
    let use := lowLanes good w
    let s := cand.foldl (fun s l => s.putLane p l (if bit use l then lActive else lStandby)) s
    let s := (s.setPort p { PortRun.idle with skipAt := 2 * s.now + 125 }).setPortState p pActive
    let s := ((s.putWidth p use).wr F.BVN_PORT_STATUS_GOOD [p] good).wr F.BVN_PORT_STATUS_PARTNER_PORT [p] o.partnerPort
    s.wr F.BVN_PARTNER_ID_ID [p] o.partnerId.toNat

/-- The set that ends PARAM is a TS2; what is good at this end is sent in TS1, then in TS2 (R303, R304). -/
def State.enterParam (s : State) (p : Nat) : State :=
  let ls := s.lanesIn p lDeskew
  let s := ls.foldl (fun s k => s.putLane p k lParam) s
  (ls.foldl (fun s k => s.sendTs p k false) s)

/-- A lane's step succeeds with what it observed. -/
def State.trainStep (s : State) (p l : Nat) (o : TrainObs) : State :=
  match s.laneState p l with
  | 1 =>
    let s := if (s.lane p l).polls then s.wr F.BVN_LANE_STATUS_ATTEMPTS [p, l] 0 else s
    let s := (s.putLane p l lBitLock).wr F.BVN_LANE_STATUS_ABSENT_CAUSE [p, l] 0
    if s.portState p = pDown then s.setPortState p pTraining else s
  | 2 =>
    let s := s.wr F.BVN_LANE_STATUS_FOM [p, l] o.fom
    let s := (s.wr F.BVN_LANE_EQ_CTLE [p, l] o.ctle).wrI F.BVN_LANE_EQ_DFE1 [p, l] o.dfe1
    let s := (s.wrI F.BVN_LANE_EQ_DFE2 [p, l] o.dfe2).wrI F.BVN_LANE_EQ_DFE3 [p, l] o.dfe3
    if s.rd F.BVN_FOM_MIN [] ≤ o.fom then s.putLane p l lComma else s
  | 3 =>
    if (s.lane p l).commaOk then s
    else if o.laneSeen = l then
      let s := (s.wrB F.BVN_LANE_STATUS_POL_INV [p, l] o.polInv).setLane p l { s.lane p l with commaOk := true }
      let s := if (s.port p).commaAt.isNone then s.setPort p { s.port p with commaAt := some s.now } else s
      s.tryDeskew p
    else (s.failAttempt p l 6).tryDeskew p
  | 4 => if o.skew ≤ 16 then s.enterParam p else s
  | 5 =>
    if o.second then ((s.lanesIn p lParam).foldl (fun s k => s.sendTs p k true) s).enterActive p o else s
  | _ => s

/-- Whether a step may end now: DETECT takes 100 us of signal energy (15,625 ticks). -/
def State.stepDue (s : State) (p l : Nat) : Bool :=
  decide ((s.lane p l).wait = 0) &&
    decide ((s.lane p l).since + (if s.laneState p l = lDetect then 15625 else 0) ≤ s.now)

/-- The step of the lane ends by training sets, and the one it has received fails its CHK (R294). -/
def State.setFails (s : State) (p l : Nat) (o : TrainObs) : Bool :=
  (decide (s.laneState p l = lComma) || decide (s.laneState p l = lParam)) && decide (o.chk ≠ goodChk o)

/-- LANE_TRAIN_STEP (R303, R304, R306); a set that fails its CHK is discarded and counted (R294). -/
def execLaneTrainStep (port lane : Nat) (obs : TrainObs) (s : State) : Host.Outcome State Fault Refusal :=
  if port < 4 ∧ lane < 4 ∧ s.stepDue port lane then
    .next (if s.setFails port lane obs then s.count F.BVN_LANE_ERR_CODE_ERR [port, lane] 1 else s.trainStep port lane obs)
  else .next s

/-- TRAIN_STEP_TIMEOUT (R303, R305): 10 ms in a step. DESKEW and PARAM fail every lane in them. -/
def execTrainStepTimeout (port lane : Nat) (s : State) : Host.Outcome State Fault Refusal :=
  let st := s.laneState port lane
  let r := s.lane port lane
  if port < 4 ∧ lane < 4 ∧ 1 ≤ st ∧ st ≤ 5 ∧ r.wait = 0 ∧ r.since + 1562500 ≤ s.now ∧ !(st = 3 && r.commaOk) then
    let s := if r.polls then s.putLane port lane lAbsent
      else if st = 4 ∨ st = 5 then (s.lanesIn port st).foldl (fun s l => s.failAttempt port l st) s
      else s.failAttempt port lane st
    .next ((s.tryDeskew port).checkDown port)
  else .next s

/-- TRAIN_RETRY (R305, R307): the wait is over and the lane enters DETECT. -/
def execTrainRetry (port lane : Nat) (s : State) : Host.Outcome State Fault Refusal :=
  let r := s.lane port lane
  if port < 4 ∧ lane < 4 ∧ r.wait ≠ 0 ∧ r.wait ≤ s.now then .next (s.startLane port lane) else .next s

/-- DEEP_POLL (R305): every 100 ms an ABSENT lane leaves the deep state and runs DETECT. -/
def execDeepPoll (port lane : Nat) (s : State) : Host.Outcome State Fault Refusal :=
  if port < 4 ∧ lane < 4 ∧ s.laneState port lane = lAbsent ∧ (s.lane port lane).since + 15625000 ≤ s.now then
    .next (((s.wr F.BVN_LANE_STATUS_TSTATE [port, lane] lDetect).setLane port lane
      { LaneRun.idle with since := s.now + 312500, polls := true }).sendTs port lane false)
  else .next s

/-- TRAINING_SIGNAL_LOSS (R305): loss of signal in a step after DETECT is a removal. -/
def execTrainingSignalLoss (port lane : Nat) (s : State) : Host.Outcome State Fault Refusal :=
  if port < 4 ∧ lane < 4 ∧ 2 ≤ s.laneState port lane ∧ s.laneState port lane ≤ 5 then
    .next (((s.absentLane port lane 2).tryDeskew port).checkDown port)
  else .next s

/-- DESKEW_WAIT_EXPIRE (R304): 10 ms after the first lane reached COMMA. -/
def execDeskewWaitExpire (port : Nat) (s : State) : Host.Outcome State Fault Refusal :=
  match (s.port port).commaAt with
  | some t => if port < 4 ∧ t + 1562500 ≤ s.now ∧ s.portState port = pTraining then .next (s.enterDeskew port) else .next s
  | none => .next s

/-- BVN_RETRAIN. -/
def execBvnRetrain (port : Nat) (s : State) : Host.Outcome State Fault Refusal :=
  if port < 4 then .next (s.retrain port) else .next s

/-! ## Lane failure and width (R307, R308) -/

/-- Removal of the partner: the port is DOWN and each trained lane ABSENT (R307). -/
def State.removal (s : State) (p : Nat) : State :=
  let s := ((s.lanesIn p lActive) ++ (s.lanesIn p lStandby)).foldl (fun s l => s.absentLane p l 2) s
  (s.portDown p).wr F.BVN_PORT_STATUS_GOOD [p] 0

/-- Each lane of a mask fails: it is fenced. -/
def State.failLanes (s : State) (p mask : Nat) : State :=
  ((List.range 4).filter (fun l => bit mask l)).foldl (fun s l => s.fault (.spine (4 + p)) 0 l) s

/-- LANE_FAIL (R306-R308): all lanes in use that lose signal at once are a removal; else each failed lane is fenced. -/
def execLaneFail (port : Nat) (loss : LaneLoss) (s : State) : Host.Outcome State Fault Refusal :=
  let use := s.rd F.BVN_PORT_STATUS_IN_USE [port]
  let bad := loss.lanes.toNat &&& use
  if port < 4 ∧ bad ≠ 0 ∧ s.portCarries port then
    .next (if loss.lost ∧ bad = use then s.removal port else s.failLanes port bad)
  else .next s

/-- A code or disparity error on a lane is counted; more than 16 within 1 ms (156,250 ticks) fail a lane in use (R307). -/
def State.lineError (s : State) (p l : Nat) (disp : Bool) : State :=
  let s := if disp then s.count F.BVN_LANE_ERR_DISP_ERR [p, l] 1 else s.count F.BVN_LANE_ERR_CODE_ERR [p, l] 1
  if s.portCarries p && bit (s.rd F.BVN_PORT_STATUS_IN_USE [p]) l && !s.rdB F.BVN_LANE_STATUS_FENCED [p, l] then
    let es := s.now :: (s.lane p l).errs.filter (fun t => decide (s.now < t + 156250))
    if 16 < es.length then (s.setLane p l { s.lane p l with errs := [] }).failLanes p (2 ^ l)
    else s.setLane p l { s.lane p l with errs := es }
  else s

/-- An ordered set that fails its CHK on the lanes in use is discarded and counted as a code error (R294). -/
def State.badSet (s : State) (p : Nat) : State := (s.lanesUsed p).foldl (fun s l => s.lineError p l false) s

/-- The port re-stripes to a mask: dropped lanes are STANDBY unless fenced. -/
def State.applyMask (s : State) (p mask : Nat) : State :=
  let s := ((List.range 4).filter (fun l => bit mask l)).foldl (fun s l => s.putLane p l lActive) s
  let s := ((s.lanesIn p lActive).filter (fun l => !bit mask l)).foldl (fun s l => s.putLane p l lStandby) s
  s.putWidth p mask

/-! ## Acknowledgement and replay (R301, R302) -/

/-- Messages of a stream up to a count are acknowledged. -/
def PortRun.ack (r : PortRun) (d p : Word) : PortRun :=
  let nd := (d - r.dAcked).toNat
  let np := (p - r.pAcked).toNat
  let r := if nd ≤ r.dBuf.length then { r with dAcked := d, dBuf := r.dBuf.drop nd } else r
  if np ≤ r.pBuf.length then { r with pAcked := p, pBuf := r.pBuf.drop np } else r

/-- Each stream is sent again from what is not acknowledged. -/
def State.resend (s : State) (p : Nat) : State :=
  let r := s.port p
  let s := r.dBuf.foldl (fun s m => s.transmit p (.decMsg p m)) s
  r.pBuf.foldl (fun s m => s.transmit p (m.emit p)) s

/-- RPL with counts, then the replay, then what waits. -/
def State.replay (s : State) (p : Nat) (d q : Word) : State :=
  let s := (s.setPort p ((s.port p).ack d q).takeBack).transmit p (.rpl p d q)
  (s.resend p).flushPort p

/-- RST_RECEIVE (R308): the partner's re-stripe is answered, or our own is; both directions go to the mask. -/
def execRstReceive (port : Nat) (mask : BitVec 4) (dcount : Word) (pcount : Checked Word 8) (s : State) :
    Host.Outcome State Fault Refusal :=
  if port < 4 ∧ s.portCarries port ∧ pcount.sum ≠ xorBytes (rstBody mask dcount pcount.val) then .next (s.badSet port)
  else if port < 4 ∧ s.portCarries port ∧ mask ≠ 0 then
    let r := { s.port port with cur := [], os := [], tx := (s.port port).tx.filter (fun e => decide (e.rank ≠ 0)) }
    let mine := match r.restripe with | some (_, _, b) => b | none => false
    let narrow := decide (laneCount mask.toNat < s.rd F.BVN_PORT_STATUS_WIDTH [port])
    let s := if narrow && !mine then s.count F.BVN_PORT_COUNT2_WIDTH_DROPS [port] 1 else s
    let s := (s.applyMask port mask.toNat).setPort port { r with restripe := none, nakAt := none }
    let s := if mine then s else s.transmit port (.rst port mask r.dCount r.pCount)
    .next ((s.setPortState port pActive).replay port dcount pcount.val)
  else .next s

/-- RPL_RECEIVE (R302): the receiver accepts again. -/
def execRplReceive (port : Nat) (dcount : Word) (pcount : Checked Word 8) (s : State) : Host.Outcome State Fault Refusal :=
  let r := s.port port
  if port < 4 ∧ s.portCarries port ∧ pcount.sum ≠ xorBytes (rplBody dcount pcount.val) then .next (s.badSet port)
  else if port < 4 ∧ s.portCarries port ∧ dcount = r.dCount ∧ pcount.val = r.pCount then
    .next (s.setPort port { r with nakAt := none })
  else .next s

/-- A message error (R302): a NAK carries the counts; D and P messages are discarded until an RPL. -/
def State.msgFails (s : State) (p : Nat) : State :=
  let r := s.port p
  if s.portState p = pActive ∧ r.nakAt = none then
    (s.setPort p { r with nakAt := some s.now }).transmit p (.nak p r.dCount r.pCount)
  else s

/-- ACK_RECEIVE (R301, R302). -/
def execAckReceive (port : Nat) (dcount : Word) (pcount : Checked Word 8) (s : State) : Host.Outcome State Fault Refusal :=
  if port < 4 ∧ s.portCarries port ∧ pcount.sum ≠ crc8 (countBody dcount pcount.val) then .next (s.msgFails port)
  else if port < 4 ∧ s.portCarries port then
    .next ((s.setPort port ((s.port port).ack dcount pcount.val)).flushPort port)
  else .next s

/-- NAK_RECEIVE (R302). -/
def execNakReceive (port : Nat) (dcount : Word) (pcount : Checked Word 8) (s : State) : Host.Outcome State Fault Refusal :=
  if port < 4 ∧ s.portState port = pActive ∧ pcount.sum ≠ crc8 (countBody dcount pcount.val) then .next (s.msgFails port)
  else if port < 4 ∧ s.portState port = pActive then
    let s := (s.count F.BVN_PORT_COUNT_REPLAYS [port] 1).note (.spine (4 + port)) 3 0
    .next (s.replay port dcount pcount.val)
  else .next s

/-- NAK_REPEAT (R302): every 1 us until the RPL. -/
def execNakRepeat (port : Nat) (s : State) : Host.Outcome State Fault Refusal :=
  let r := s.port port
  match r.nakAt with
  | some t =>
    if port < 4 ∧ s.portCarries port ∧ t + 157 ≤ s.now then
      .next ((s.setPort port { r with nakAt := some s.now }).transmit port (.nak port r.dCount r.pCount))
    else .next s
  | none => .next s

/-- ACK_SEND (R302): while a count has changed since the last ACK. -/
def execAckSend (port : Nat) (s : State) : Host.Outcome State Fault Refusal :=
  let r := s.port port
  if port < 4 ∧ s.portState port = pActive ∧ r.ackDue then
    .next ((s.setPort port { r with ackDue := false, ackAt := s.now }).transmit port (.ack port r.dCount r.pCount))
  else .next s

/-! ## What is received and sent (R293, R296-R300, R309) -/

/-- SKIP_SEND (R293): every 1,024 symbols, which are 62.5 ticks. -/
def execSkipSend (port : Nat) (s : State) : Host.Outcome State Fault Refusal :=
  let r := s.port port
  if port < 4 ∧ s.portCarries port ∧ r.skipAt ≤ 2 * s.now + 1 then
    .next ((s.setPort port { r with skips := r.skips + 1, skipAt := r.skipAt + 125 }).transmit port (.skip port))
  else .next s

/-- The lanes that carry SKIP: in use and STANDBY (R293, R304). -/
def State.lanesTrained (s : State) (p : Nat) : List Nat :=
  (List.range 4).filter (fun l => decide (s.laneState p l = lActive) || decide (s.laneState p l = lStandby))

/-- The elastic buffers hold `fill` symbols as a SKIP arrives: one SKP is deleted above half fill and one inserted below,
on every lane in the same cycle. -/
def State.refill (s : State) (p fill : Nat) : State :=
  if 16 < fill then
    (s.lanesTrained p).foldl (fun s l => s.count F.BVN_LANE_SKIP_DELETED [p, l] 1) (s.setPort p { s.port p with fill := fill - 1 })
  else if fill < 16 then
    (s.lanesTrained p).foldl (fun s l => s.count F.BVN_LANE_SKIP_INSERTED [p, l] 1) (s.setPort p { s.port p with fill := fill + 1 })
  else s.setPort p { s.port p with fill := fill }

/-- SKIP_RECEIVE (R293): the buffers of 32 symbols have drifted since the last SKIP; an overflow or underflow is a code
error and leaves them at half fill (log 107). -/
def execSkipReceive (port : Nat) (drift : Int) (s : State) : Host.Outcome State Fault Refusal :=
  if port < 4 ∧ s.portCarries port then
    let f := (s.port port).fill + drift
    .next (if f < 0 ∨ 32 < f then
        (s.lanesTrained port).foldl (fun s l => s.lineError port l false) (s.setPort port { s.port port with fill := 16 })
      else s.refill port f.toNat)
  else .next s

/-- The port takes messages of the D and P streams. -/
def State.portTakes (s : State) (p : Nat) : Bool :=
  decide (p < 4) && decide (s.portState p = pActive) && (s.port p).nakAt.isNone

/-- A packet is received in order. -/
def State.countP (s : State) (p : Nat) : State :=
  s.setPort p { s.port p with pCount := (s.port p).pCount + 1, ackDue := true }

def State.badMsg (s : State) (p : Nat) : State := (s.count F.BVN_PORT_COUNT_BAD_MSG [p] 1).note (.spine (4 + p)) 5 0

/-- The control symbols that the part uses (R292), and those that start a message. -/
def controlKnown (x y : Nat) : Bool :=
  [(28, 5), (28, 0), (28, 6), (27, 7), (29, 7), (30, 7), (23, 7), (28, 3), (28, 2), (28, 4)].contains (x, y)
def controlStarts (x y : Nat) : Bool := [(27, 7), (29, 7), (30, 7), (23, 7), (28, 2), (28, 4)].contains (x, y)

/-- A line error, and with it the message it lies in. -/
def State.lineErrorIn (s : State) (p l : Nat) (disp inside : Bool) : State :=
  let s := s.lineError p l disp
  if inside then s.msgFails p else s

/-- The PRBS checker of a lane in TEST: it locks after 64 error-free bits, then counts each errored bit (R309). -/
def State.checkPrbs (s : State) (p l good bad : Nat) : State :=
  if s.rdB F.BVN_LANE_PRBS_CHK_EN [p, l] && (s.rdB F.BVN_LANE_PRBS_LOCK [p, l] || decide (64 ≤ good)) then
    (s.wr F.BVN_LANE_PRBS_LOCK [p, l] 1).count F.BVN_LANE_PRBS_ERR_COUNT [p, l] bad
  else s

/-- MSG_ERROR (R292, R300, R302, R315): what the receiver found wrong. A start symbol that lies inside a message is an
error; of the other listed control symbols nothing follows here. -/
def execMsgError (found : MsgFault) (s : State) : Host.Outcome State Fault Refusal :=
  if found.port < 4 ∧ s.portCarries found.port then
    match found.err with
    | .crc | .badStart => .next (s.msgFails found.port)
    | .control l x y inside =>
      if controlKnown x y then .next (if inside && controlStarts x y then s.msgFails found.port else s)
      else .next (s.lineErrorIn found.port l false inside)
    | .code l inside => .next (s.lineErrorIn found.port l false inside)
    | .disparity l inside => .next (s.lineErrorIn found.port l true inside)
    | .packetClass => .next (if s.portTakes found.port then (s.countP found.port).badMsg found.port else s)
    | .timeType => .next (s.badMsg found.port)
    | .prbs _ _ _ => .next s
  else if found.port < 4 ∧ s.portState found.port = pTest then
    match found.err with
    | .prbs l good bad => .next (s.checkPrbs found.port l good bad)
    | _ => .next s
  else .next s

/-- DEC_RECEIVE (R253, R296, R297, R302). -/
def execDecReceive (port : Nat) (msg : Checked DecMsg 8) (s : State) : Host.Outcome State Fault Refusal :=
  if s.portTakes port ∧ msg.sum ≠ crc8 (decBody msg.val) then .next (s.msgFails port)
  else if s.portTakes port then
    let s := s.setPort port { s.port port with dCount := (s.port port).dCount + 1, ackDue := true }
    .next (s.importDec port msg.val)
  else .next s

/-- PKT_ANSWER_RECEIVE (R264, R300). -/
def execPktAnswerReceive (port dec : Nat) (round : BitVec 16) (classes : Checked Word 32) (s : State) :
    Host.Outcome State Fault Refusal :=
  if s.portTakes port ∧ classes.sum ≠ crc32 (pktBody 2 (answerPayload dec round classes.val)) then .next (s.msgFails port)
  else if s.portTakes port then
    let s := s.countP port
    if dec < 4 ∧ s.decMode dec = 3 ∧ s.rd F.SPN_SYN_DEC_CFG_PORT [dec] = port then .next (s.extAnswer dec round classes.val)
    else .next (s.badMsg port)
  else .next s

/-- PKT_MANAGEMENT_RECEIVE (R300): 1 to 512 bytes, delivered to firmware unchanged. -/
def execPktManagementReceive (port : Nat) (bytes : Checked (List Byte) 32) (s : State) :
    Host.Outcome State Fault Refusal :=
  if s.portTakes port ∧ bytes.sum ≠ crc32 (pktBody 0x10 bytes.val) then .next (s.msgFails port)
  else if s.portTakes port then
    let s := s.countP port
    if 1 ≤ bytes.val.length ∧ bytes.val.length ≤ 512 then .next (s.emit (.mgmt port bytes.val)) else .next (s.badMsg port)
  else .next s

/-- WIDEN (R308): to the widest W that the STANDBY and in-use lanes allow; without a wider one it has no effect. -/
def State.widen (s : State) (p : Nat) : State :=
  let good := ((List.range 4).filter (fun l => bit (s.rd F.BVN_PORT_STATUS_GOOD [p]) l &&
    (decide (s.laneState p l = lActive) || decide (s.laneState p l = lStandby)))).foldl (fun m l => m + 2 ^ l) 0
  let w := widthFor (min (laneCount good) (s.rd F.BVN_PORT_CTRL_WIDTH_MAX [p]))
  if s.portState p = pActive ∧ s.rd F.BVN_PORT_STATUS_WIDTH [p] < w then s.startRestripe p (lowLanes good w) else s

/-- BVN_WIDEN. -/
def execBvnWiden (port : Nat) (s : State) : Host.Outcome State Fault Refusal :=
  if port < 4 then .next (s.widen port) else .next s

/-- INJ (R309): one PRBS bit at once in TEST, one bit of the next symbol in ACTIVE. -/
def State.laneInject (s : State) (p l : Nat) : State :=
  if s.portState p = pTest then s.emit (.inverted p l)
  else if s.portState p = pActive ∧ s.laneState p l = lActive then s.setLane p l { s.lane p l with inject := true }
  else s

/-- BVN_INJ. -/
def execBvnInj (port lane : Nat) (s : State) : Host.Outcome State Fault Refusal :=
  if port < 4 ∧ lane < 4 then .next (s.laneInject port lane) else .next s

end Sys2Proof.Machine
end

