-- ==== Sys2Proof/Machine/Calibration.lean ====
section
/-! DEFINITION. Calibration (19 R409-R428): due and stale units, gap steps, calibrations that complete, requests and
their hold, the record of a unit, and boot calibration. -/

namespace Sys2Proof.Machine

/-! ## Which units calibrate, and how (R409, R410, R415) -/

/-- A class with corrections that a converter step measures. -/
def converterKind (k : Nat) : Bool := (decide (1 ≤ k) && decide (k ≤ 6)) || decide (k = 13)

/-- The unit's corrections come by rotation or line swap, so it is never due and never stale (R410). -/
def State.rotating (s : State) (u : UnitDesc) : Bool :=
  decide (u.kind = 13) || (decide (u.kind = 6) && !s.rdB F.SNS_STATUS_ROT_STOPPED [u.tile])

/-- A drive group's spare is in FENCE or UNUSABLE: its channels are on gap calibration (R415). -/
def State.wideTol (s : State) (t g : Nat) : Bool :=
  s.spareFenced t g || (match s.spare t g with | .serve _ _ => true | .takeover _ _ => true | _ => false)

/-- Gap steps of one calibration (R416): a line's probe, and its input once the spare slice is fixed or has failed (09 R512); none for a unit
that does not calibrate in gaps now. -/
def State.gapTotal (s : State) (u : UnitDesc) : Option Nat :=
  match u.kind with
  | 1 => if s.wideTol u.tile (u.index / 8) then some 256 else none
  | 3 => some (64 + if s.sliceFatal u.tile u.index then 128 else 0)
  | 4 => some 128
  | 5 => some 32
  | 6 => if s.rdB F.SNS_STATUS_ROT_STOPPED [u.tile] then some 40 else none
  | _ => none

/-- A change of FLX_LEVEL is staged. -/
def State.levelStaged (s : State) (t c : Nat) : Bool :=
  s.staged.any (fun e => match e.act with
    | .word a _ _ => decide (a = R.FLX_LEVEL.addr [t, c] 0)
    | _ => false)

/-- The unit's gap for its next step has begun and nothing is committed in it (R416). A sense ADC's steps are its service
slots. -/
def State.inGap (s : State) (u : UnitDesc) : Bool :=
  let t := u.tile
  let i := u.index
  let n := ((s.calU u).stepsDone u s.now).getD 0
  let gap := gapTicks u n
  match u.kind with
  | 1 => s.quiet .drive t i gap
  | 3 => (decide (64 ≤ n) || s.quiet .probe t i gap) &&
      !s.rdo.windows.any (fun w => decide (w.tile = t) && decide (w.line = i))
  | 4 => s.quiet .flux t i gap && !s.levelStaged t i
  | 5 => (match s.nextLatch t i with
      | none => true
      | some l => decide (128 * (s.now + gap) ≤ l))
  | _ => false

/-- The unit is the one of its drive group to calibrate (R413); other units calibrate in parallel. -/
def State.calTurn (s : State) (u : UnitDesc) : Bool :=
  if u.kind = 1 then
    match (s.calU u).work with
    | .gap _ => true
    | _ =>
      let g := u.index / 8
      !(List.range 8).any (fun i => match (s.calU ⟨1, u.tile, 8 * g + i⟩).work with | .gap _ => true | _ => false) &&
        decide (s.nextDue u.tile g = some u.index)
  else true

/-! ## Due and stale (R411, R412) -/

/-- Drift or age since the last calibration makes the unit due. -/
def State.aged (s : State) (u : UnitDesc) : Bool :=
  let k := s.calU u
  s.rdB F.SPN_CAL_CFG2_AUTO [] &&
    (s.drifted u k.temp || decide (k.opsec + 60 * s.rd F.SPN_CAL_CFG_MAXAGE [] ≤ s.opSec))

/-- CAL_DUE (R411): by temperature or by age. Commands and fallback make a unit due where they happen. -/
def execCalDue (unit : UnitDesc) (s : State) : Host.Outcome State Fault Refusal :=
  if unit.valid ∧ unit.present s.variant ∧ converterKind unit.kind ∧ !s.rotating unit ∧ s.mode ≠ mReset ∧
      s.aged unit then .next (s.makeDue unit)
  else .next s

/-- CAL_STALE (R412). -/
def execCalStale (unit : UnitDesc) (s : State) : Host.Outcome State Fault Refusal :=
  let k := s.calU unit
  match k.due with
  | some d =>
    if d + 156250000 * s.rd F.SPN_CAL_CFG2_GRACE [] ≤ s.now ∧ !k.stale ∧ converterKind unit.kind then
      let s := (s.setCalU unit { k with stale := true }).setCalValid unit false
      .next (s.syncStale.fault (.spine 11) 0 (calTile unit))
    else .next s
  | none => .next s

/-! ## Gap steps (R416-R418) -/

/-- GAP_CAL_STEP: a step begins in the unit's gap, none being at work. What is committed before its time has passed
discards it; `disturbed` says that it is discarded though no command of the queue shows why (log 106). -/
def execGapCalStep (unit : UnitDesc) (disturbed : Bool) (s : State) : Host.Outcome State Fault Refusal :=
  let s := s.settleStep unit false
  let k := s.calU unit
  if k.due.isSome ∧ !s.fenced unit ∧ (s.gapTotal unit).isSome ∧ s.inGap unit ∧ s.calTurn unit ∧ k.stepFrom.isNone then
    let begun := if disturbed then none else some s.now
    match k.work with
    | .none => .next ((s.startCal unit (.gap 0)).updCalU unit (fun k => { k with stepFrom := begun }))
    | .gap _ => .next (s.setCalU unit { k with stepFrom := begun })
    | _ => .next s
  else .next s

/-! ## Requests (R422-R425) -/

/-- The step a request still wants of a unit, the lowest first. -/
def State.stepWanted (s : State) (u : UnitDesc) : Option Nat :=
  match s.cal.reqs.find? (fun r => decide (r.left u ≠ 0)) with
  | some r => if bit (r.left u) 0 then some 0 else if bit (r.left u) 1 then some 1 else some 2
  | none => none

/-- A step of the unit has ended with a result: in a request with HOLD its next step waits for release again. -/
def State.rehold (s : State) (u : UnitDesc) : State :=
  if s.cal.reqs.any (fun r => r.hold && decide (r.left u ≠ 0)) then
    s.updCalU u (fun k => { k with work := .held s.now })
  else s

/-- +1.000 mA and -1.000 mA in the 2 mA span (08 R215). -/
def leadCode (neg : Bool) : BitVec 20 := BitVec.ofInt 20 (roundDiv (if neg then -524287 else 524287) 2)

/-- The lead step of a bias output begins: it moves to the 2 mA span, to drive +1 mA there (08 R215 steps 2, 3). -/
def State.beginLead (s : State) (u : UnitDesc) : State :=
  let b := s.bias u.tile u.index
  let s := s.updCalU u (fun k => { k with work := .lead 0 b.span b.placed })
  s.applySpan .bias u.tile u.index 4 (leadCode false)

/-- The output has held the latest of its codes for 4 conversions of its pair. -/
def State.leadHeld (s : State) (u : UnitDesc) : Bool :=
  let b := s.bias u.tile u.index
  b.waiting.isEmpty && b.change.isNone &&
    (match b.latched with
     | some l => decide (l / 4 + 4 * s.tConv u.tile ≤ 32 * s.now)
     | none => false)

/-- A lead step goes on at a boundary: once the span has changed it drives +1 mA (a live output latches it by the span
change itself), after 4 conversions -1 mA, and after 4 more it is measured. -/
def State.leadTick (s : State) (u : UnitDesc) : State :=
  let t := u.tile
  let c := u.index
  let drive := fun (s : State) (neg : Bool) => s.placeCode t c ⟨128 * s.now, leadCode neg, true, 0⟩
  match (s.calU u).work with
  | .lead 0 sp code =>
    let b := s.bias t c
    if b.change.isSome then s
    else
      let s := s.updCalU u (fun k => { k with work := .lead 1 sp code })
      if b.waiting.isEmpty && decide (b.placed ≠ leadCode false) then drive s false else s
  | .lead 1 sp code =>
    if s.leadHeld u then drive (s.updCalU u (fun k => { k with work := .lead 2 sp code })) true else s
  | .lead 2 sp code => if s.leadHeld u then s.updCalU u (fun k => { k with work := .lead 3 sp code }) else s
  | _ => s

/-- R_LEAD in 1/32 ohm: the voltage difference, in microvolt, divided by 2.000 mA (08 R215 step 4). -/
def leadOhms (o : CalObs) : Int := roundDiv (32 * o.offset) 2000

/-- The output of a lead step goes back to the span and code it had (08 R215 step 5). -/
def State.leadBack (s : State) (u : UnitDesc) : State :=
  let t := u.tile
  let c := u.index
  let s := match (s.calU u).work with
    | .lead _ sp code => (s.updCalU u (fun k => { k with work := .none })).applySpan .bias t c sp code
    | _ => s
  if (s.bias t c).change.any (fun r => !r.live) then
    s.placeCode t c ⟨128 * s.now, ((s.bias t c).change.map SpanRun.after).getD 0, true, 0⟩
  else s

/-- The lead step ends (08 R215): above 1,000 ohm it fails and the old value stays. -/
def State.leadStep (s : State) (u : UnitDesc) (o : CalObs) : State :=
  let s := s.leadBack u
  if o.pass && decide (leadOhms o ≤ 32000) then
    let s := (s.wr F.SNS_LEAD_R_LEAD [u.tile, u.index] (leadOhms o).toNat).wr F.SNS_LEAD_LEAD_VALID [u.tile, u.index] 1
    s.noteStep u 1 true 0
  else (s.fault (.spine 11) 1 (calTile u)).noteStep u 1 false 0x0602

/-- The lead step of the unit has been measured. -/
def State.leadReady (s : State) (u : UnitDesc) : Bool :=
  match (s.calU u).work with
  | .lead 3 _ _ => true
  | _ => false

/-- The linearisation fit (R423). -/
def State.fitStep (s : State) (u : UnitDesc) (o : CalObs) : State :=
  if o.pass then (s.updCalU u (fun k => { k with fits := k.fits + 1 })).noteStep u 2 true 0
  else (s.fault (.spine 11) 1 (calTile u)).noteStep u 2 false 0x0602

/-- The unit belongs to a foreground or boot calibration (R420, R421). -/
def State.foreground (s : State) (u : UnitDesc) : Bool :=
  s.cal.reqs.any (fun r => decide (r.scope = 1) && bit (r.left u) 0)

def State.isHeld (s : State) (u : UnitDesc) : Bool :=
  match (s.calU u).work with
  | .held _ => true
  | _ => false

/-- The unit's converter calibration has come to its end: in the foreground, by its gap steps at a gap (R419), as the idle spare, as a
TDC input a request names, or as a sense ADC of a tile that does not scan. -/
def State.calReady (s : State) (u : UnitDesc) : Bool :=
  s.foreground u ||
    (match (s.calU u).stepsDone u s.now, s.gapTotal u with
     | some n, some m => decide (m ≤ n) && (decide (u.kind = 6) || s.inGap u)
     | _, _ => false) ||
    (decide (u.kind = 2) && (s.calU u).due.isSome && decide (s.spare u.tile u.index = .none)) ||
    (s.stepWanted u = some 0 && (decide (u.kind = 13) ||
      (decide (u.kind = 6) && s.rotating u && !(s.senseTile u.tile).running)))

/-- A unit's corrections come into force at the present boundary: a request in HOLD waits for its next step again, and the
ball of a channel calibrated by its spare is handed back (R414). -/
def State.bringOne (s : State) (u : UnitDesc) (c : CalObs) : State :=
  let s := (s.completeCal u c).rehold u
  let g := u.index / 8
  match s.spare u.tile g with
  | .calRun a _ true => if u.kind = 1 ∧ a = u.index then s.spareIdle u.tile g else s
  | _ => s

/-- A valid reference record is loaded: its value shows and DC_TRACED stays set (R429). -/
def State.loadRef (s : State) : State :=
  match s.cal.refRec with
  | some r => (s.wr F.SPN_CAL_REF_VALUE [] r.value).wr F.SPN_CAL_STATUS_DC_TRACED [] 1
  | none => s

/-- Boot calibration is over with its last unit: IDLE_READY is set (R421). -/
def State.bootOver (s : State) : State :=
  if s.cal.boot && !s.cal.reqs.any (fun r => decide (r.scope = 1) && r.mbx.isNone) then
    let s := { s with cal := { s.cal with boot := false } }
    (s.wr F.SPN_CAL_STATUS_FOREGROUND [] 0).wr F.MBX_GLOBAL_IDLE_READY [] 1
  else s

/-- Step 1 of a boundary (R59): the corrections that are due, and a reference transfer on every unit together (R429). -/
def State.bringCorrections (s : State) : State :=
  let due := s.cal.coming
  let s := { s with cal := { s.cal with coming := [] } }
  let s := due.foldl (fun s e => s.bringOne e.1 e.2) s
  let s := match s.cal.refDue with
    | some r => { s with cal := { s.cal with refRec := some r, refDue := none } }.loadRef
    | none => s
  s.bootOver

/-- CAL_COMPLETE (R412, R413, R419, 08 R213, R215): a unit's step ends with what it measured. A sense ADC out of service
in the rotation keeps its result until it returns. -/
def execCalComplete (unit : UnitDesc) (obs : CalObs) (s : State) : Host.Outcome State Fault Refusal :=
  if unit.valid ∧ unit.present s.variant ∧ !s.fenced unit ∧ !s.isHeld unit ∧ !s.isComing unit then
    if s.calReady unit then
      let s := if (s.calU unit).work = .none ∧ !s.foreground unit then s.startCal unit .none else s
      .next (if obs.pass then s.bring unit obs else (s.completeCal unit obs).rehold unit)
    else if unit.kind = 6 ∧ s.rotating unit ∧ s.rd F.SNS_ADC_ROLE [unit.tile, unit.index] = roleCal ∧
        s.stepWanted unit ≠ some 2 then
      let s := s.startCal unit .none
      .next (s.updCalU unit (fun k => { k with result := some obs }))
    else
      match s.stepWanted unit with
      | some 1 => if s.leadReady unit then .next ((s.leadStep unit obs).rehold unit) else .next s
      | some 2 => .next ((s.fitStep unit obs).rehold unit)
      | _ => .next s
  else .next s

/-- Lead steps at a boundary: those requested and not held begin on outputs that change no span, those at work go on. -/
def State.leadTicks (s : State) : State :=
  s.cal.reqs.foldl (fun s r =>
    r.units.foldl (fun s u =>
      if u.kind ≠ 5 ∨ s.fenced u then s
      else if s.stepWanted u = some 1 ∧ (s.calU u).work = .none ∧ (s.bias u.tile u.index).change.isNone then s.beginLead u
      else s.leadTick u) s) s

/-- A timed event with ACTION 4 fires on a tile: the steps that wait for it begin (R424). -/
def State.releaseHeld (s : State) (t : Nat) : State :=
  { s with cal :=
    { s.cal with
      units := (s.cal.units.map (fun (e : Nat × CalUnit) =>
        match e.2.work with
        | .held _ => if e.1 / 65536 % 256 = t then (e.1, { e.2 with work := .none }) else e
        | _ => e)).filter (fun e => decide (e.2 ≠ CalUnit.idle)) } }

/-- CAL_HOLD_TIMEOUT (R424). -/
def execCalHoldTimeout (unit : UnitDesc) (s : State) : Host.Outcome State Fault Refusal :=
  match (s.calU unit).work with
  | .held since =>
    if since + 9375000000 ≤ s.now then
      .next ((s.updCalU unit (fun k => { k with work := .none })).failCal unit 0x0602)
    else .next s
  | _ => .next s

/-- The 44-byte request (R422). -/
structure CalAsk where
  scope : Nat
  steps : Nat
  flags : Nat
  rsv   : Bool
  first : UnitDesc
  count : Nat
  deriving DecidableEq, Repr

def calAsk (p : List Byte) (i : Nat) : CalAsk :=
  { scope := leAt p i 1, steps := leAt p (i + 1) 1, flags := leAt p (i + 2) 1,
    rsv := decide (leAt p (i + 3) 1 = 0) && decide (leAt p (i + 10) 34 = 0), first := unitOfWord (leAt p (i + 4) 4),
    count := leAt p (i + 8) 2 }

/-- The units it names: with SCOPE 1 every present, unfenced unit of every class (R420). -/
def State.calUnits (s : State) (a : CalAsk) : List UnitDesc :=
  if a.scope = 1 then
    let tiles := List.range s.variant.tiles
    let of := fun (k n : Nat) => tiles.flatMap (fun t => (List.range n).map (fun i => (⟨k, t, i⟩ : UnitDesc)))
    (of 1 64 ++ of 2 8 ++ of 3 8 ++ of 4 64 ++ of 5 64 ++ of 6 5 ++
      (List.range 10).map (fun i => (⟨13, 0xFF, i⟩ : UnitDesc))).filter (fun u => !s.fenced u)
  else (List.range a.count).map (fun i => (⟨a.first.kind, a.first.tile, a.first.index + i⟩ : UnitDesc))

/-- The fields of a request are in range and fit together. -/
def CalAsk.fieldsOk (a : CalAsk) (job : Bool) : Bool :=
  a.rsv &&
  if a.scope = 1 then !job && decide (a.steps = 1) && decide (a.flags = 0) && decide (a.first.word = 0) && decide (a.count = 0)
  else
    decide (a.scope = 0) && decide (1 ≤ a.steps) && decide (a.steps ≤ 7) && decide (a.flags ≤ 1) &&
      decide (1 ≤ a.count) && decide (a.count ≤ 64) && a.first.valid &&
      (⟨a.first.kind, a.first.tile, a.first.index + a.count - 1⟩ : UnitDesc).valid &&
      (!bit a.steps 0 || converterKind a.first.kind) && (!bit a.steps 1 || decide (a.first.kind = 5)) &&
      (!bit a.steps 2 || decide (a.first.kind = 6)) && (!decide (a.flags = 1) || !decide (a.first.kind = 13))

/-- The first check of R423 that fails; 0 none. -/
def State.calRefusal (s : State) (a : CalAsk) (job : Bool) : Nat :=
  let us := s.calUnits a
  if !a.fieldsOk job then 0x0501
  else if us.any (fun u => !u.present s.variant) then 0x0102
  else if us.any s.fenced then 0x0401
  else if (bit a.steps 1 && us.any (fun u => s.chanRunning (64 * u.tile + u.index))) ||
      (decide (a.scope = 1) && !s.allIdle) then 0x0502
  else if a.scope = 1 ∧ s.mode = mReset then 0x0504
  else 0

/-- A request begins: a converter step makes its units due, unless they rotate; with HOLD each unit's first step waits;
in the foreground drive and probe balls wait for a value again (R144). -/
def State.beginCal (s : State) (a : CalAsk) (mbx job : Option Nat) : State :=
  let us := s.calUnits a
  let r : CalReq :=
    { mbx := mbx, job := job, scope := a.scope, steps := a.steps, hold := bit a.flags 0, units := us,
      todo := us.map (fun u => (u, a.steps)), done := 0, failed := 0, firstFail := 0xFFFF, since := s.now, reason := 0 }
  let s := { s with cal := { s.cal with reqs := s.cal.reqs ++ [r] } }
  let s := us.foldl (fun s u =>
    let s := if bit a.steps 0 && !s.rotating u then (s.makeDue u).updCalU u (fun k => { k with named := true }) else s
    let k := s.calU u
    if a.scope = 1 then s.startCal u .none
    else if bit a.flags 0 && decide (k.work = .none) then s.setCalU u { k with work := .held s.now }
    else s) s
  if a.scope = 1 then
    let s := s.wr F.SPN_CAL_STATUS_FOREGROUND [] 1
    { s with outs :=
      { s.outs with
        smark := [],
        en := s.outs.en.map (fun (e : Nat × EnRun) => if e.1 < 2000 then (e.1, { e.2 with hadValue := false }) else e) } }
  else s

/-! ## The store (R426-R428) -/

/-- The record of a unit's last result (R427). -/
def newRec (u : UnitDesc) (k : CalUnit) (c : CalObs) : CalRec :=
  let r : CalRec :=
    { unit := u.word, seq := max (recSeq k.recA) (recSeq k.recB) + 1, opsec := k.opsec, temp := k.temp, stepping := 0x21,
      crc := 0, corr := c }
  { r with crc := r.sum }

/-- CAL_RECORD_WRITE: the waiting result goes to the copy with the lower SEQ, once 10 operating minutes have passed
since the unit's last write. -/
def execCalRecordWrite (unit : UnitDesc) (s : State) : Host.Outcome State Fault Refusal :=
  let k := s.calU unit
  match k.unwritten with
  | some c =>
    if !s.shutdown && (match k.written with | some w => decide (w + 600 ≤ s.opSec) | none => true) then
      let r := newRec unit k c
      let k := if recSeq k.recA ≤ recSeq k.recB then { k with recA := some r } else { k with recB := some r }
      let s := s.setCalU unit { k with unwritten := none, written := some s.opSec }
      .next (s.wrB F.SPN_CAL_STATUS_NV_PENDING [] (s.cal.units.any (fun e => e.2.unwritten.isSome)))
    else .next s
  | none => .next s

/-- The factory record of a unit (log 16). -/
def factoryRec (u : UnitDesc) : CalRec :=
  let f := Config.factoryCal u.key
  { unit := u.word, seq := 0, opsec := f 4, temp := (f 5 : Int) - 32768, stepping := 0x21, crc := 0,
    corr := { pass := true, gain := f 0, offset := (f 1 : Int) - 32768, pad := f 2, fine := f 3 } }

/-- Loads the corrections of a unit (R428): the newest copy that passes its CRC and matches UNIT and STEPPING, else the
other, else the factory record, else nothing. What Sinter has lost is outside the part's control: a free value says which
of the three read damaged. `valid` says whether a loaded unit counts as calibrated (at boot it waits for boot calibration,
R421). -/
def State.loadUnit (s : State) (u : UnitDesc) (valid : Bool) : State :=
  let (n, s) := s.draw
  let bad := Config.freeNat n
  let k := s.calU u
  let aNew := decide (recSeq k.recB < recSeq k.recA)
  let read := fun (r : Option CalRec) (i : Nat) => r.filter (fun r => !bit bad i && r.good u)
  let newest := read (if aNew then k.recA else k.recB) 0
  let older := read (if aNew then k.recB else k.recA) 1
  let (r, src) : Option CalRec × Nat :=
    match newest, older with
    | some r, _ => (some r, 1)
    | none, some r => (some r, 2)
    | none, none => if bit bad 2 then (none, 4) else (some (factoryRec u), 3)
  let s := match r with
    | some r => ((s.putCorr u r.corr).setCalValid u valid).updCalU u (fun k =>
        { k with inForce := r.corr, source := src, stale := false, temp := r.temp, opsec := r.opsec })
    | none => (s.setCalValid u false).updCalU u (fun k => { k with source := 3 })
  if src = 1 then s
  else
    let s := if s.rotating u then s else s.makeDue u
    let s := (s.wr F.SPN_CAL_STATUS_FALLBACK [] 1).wr F.SPN_CAL_FALLBACK_UNIT [] u.word
    let s := (s.wr F.SPN_CAL_FALLBACK_SRC_SOURCE [] (src - 1)).fault (.spine 11) 3 (calTile u)
    if src = 4 then s.fault (.spine 11) 2 (calTile u) else s

/-- Loads every unit at boot. -/
def State.loadAll (s : State) : State :=
  (s.calUnits ⟨1, 1, 0, true, ⟨0, 0, 0⟩, 0⟩).foldl (fun s u => if u.kind = 13 then s else s.loadUnit u false) s

/-! ## Boot calibration (R421) -/

/-- Firmware starts boot calibration in SAFE: the whole part in the foreground, for no mailbox; never without device
memory (22 R479). -/
def State.beginBootCal (s : State) : State :=
  if !s.rdB F.SPN_HIF_STATUS_MEM_ACTIVE [] then s
  else
    let s := s.beginCal ⟨1, 1, 0, true, ⟨0, 0, 0⟩, 0⟩ none none
    { s with cal := { s.cal with boot := true } }

/-- Corrections that a boot calibration measured, with no value known. -/
def bootCorr (n : Nat) : CalObs :=
  { pass := true, gain := Config.freeNat n, offset := (Config.freeNat (n + 1) : Int), pad := Config.freeNat (n + 2),
    fine := Config.freeNat (n + 3) }

/-- A unit's part in a boot calibration: its corrections are free values (log 1), or it fails. -/
def State.bootUnit (s : State) (failed : List UnitDesc) (u : UnitDesc) : State :=
  if failed.contains u then (s.setCalValid u false).fault (.spine 11) 1 (calTile u)
  else
    let n := s.freeCtr
    { s with freeCtr := n + 4 }.bring u (bootCorr n)

/-- BOOT_CAL_DONE: the units still at work end, those named having failed; with the next boundary the others' corrections
are in force and IDLE_READY is set (R419, R421). -/
def execBootCalDone (failed : List UnitDesc) (s : State) : Host.Outcome State Fault Refusal :=
  if s.cal.boot then
    let us := (s.cal.reqs.filter (fun r => decide (r.scope = 1) && r.mbx.isNone)).flatMap (fun r => r.todo.map Prod.fst)
    let s := us.foldl (fun s u => s.bootUnit failed u) s
    let reqs := s.cal.reqs.filter (fun r => !(decide (r.scope = 1) && r.mbx.isNone))
    .next { s with cal := { s.cal with reqs := reqs } }
  else .next s

end Sys2Proof.Machine
end

