-- ==== Sys2Proof/Machine/TimeService.lean ====
section
/-! DEFINITION. The time service (14): roles, the ANNOUNCE and delay exchanges, lock and the single step, holdover, SYNC and
its skew calibration, and timed events. -/

namespace Sys2Proof.Machine

/-! ## Roles and the domain (R311-R314) -/

def roleMaster : Nat := 1
def roleSlave : Nat := 2

def tsOff : Nat := 0
def tsAcquire : Nat := 1
def tsStepWait : Nat := 2
def tsFine : Nat := 3
def tsLocked : Nat := 4
def tsHoldoverSt : Nat := 5
def tsMaster : Nat := 6

def State.tsRole (s : State) : Nat := s.rd F.TIM_TS_CFG_ROLE []
def State.tsState (s : State) : Nat := s.rd F.TIM_TS_STATUS_STATE []
def State.setTsState (s : State) (v : Nat) : State := s.wr F.TIM_TS_STATUS_STATE [] v
def State.tsUp (s : State) : Nat := s.rd F.TIM_TS_CFG_UPSTREAM []
def State.tsDown (s : State) : List Nat := (List.range 4).filter (fun p => bit (s.rd F.TIM_TS_CFG_DOWNSTREAM []) p)
def State.setTs (s : State) (t : TimeSvc) : State := { s with ts := t }

/-- Lowest lane in use of a port (R295). -/
def State.lowLane (s : State) (p : Nat) : Nat :=
  ((List.range 4).find? (fun l => bit (s.rd F.BVN_PORT_STATUS_IN_USE [p]) l)).getD 0

/-- The upstream partner's last ANNOUNCE names this package's DOMAIN and MASTER_ID; none heard: not known. -/
def State.upstreamIds (s : State) : Option Bool :=
  (s.heard s.tsUp).map (fun h =>
    decide (h.ann.domain.toNat = s.rd F.TIM_TS_DOMAIN_DOMAIN []) &&
      decide (h.ann.masterId.toNat = s.rd F.TIM_TS_MASTER_MASTER_ID []))

/-- Holdover has lasted less than TIM_TS_HOLD. -/
def State.holdShort (s : State) : Bool :=
  match s.ts.holdAt with
  | some h => decide (s.now < h + 156250 * s.rd F.TIM_TS_HOLD_HOLD [])
  | none => false

/-- IN_DOMAIN by R313. -/
def State.inDomain (s : State) : Bool :=
  if s.tsRole = roleMaster then s.rdB F.TIM_TS_STATUS_STEPPED []
  else if s.tsRole = roleSlave then
    decide (s.upstreamIds = some true) && (match s.heard s.tsUp with | some h => h.ann.inDomain | none => false) &&
      (decide (s.tsState = tsLocked) || (decide (s.tsState = tsHoldoverSt) && s.holdShort))
  else false

/-- The package's subtree (R314). -/
def State.subtree (s : State) : Nat :=
  let own := if s.tsRole = roleMaster ∨ s.inDomain then 1 else 0
  min 63 ((s.tsDown.map (fun p =>
    match s.heard p with
    | some h => if s.heardFresh p then h.ann.subtree else 0
    | none => 0)).foldl (· + ·) own)

/-- The master's count and DOMAIN_OVER. -/
def State.syncSize (s : State) : State :=
  if s.tsRole = roleMaster then
    let n := s.subtree
    let was := s.rdB F.TIM_TS_STATUS_DOMAIN_OVER []
    let s := (s.wr F.TIM_TS_STATUS_SIZE [] n).wrB F.TIM_TS_STATUS_DOMAIN_OVER [] (decide (32 < n))
    if 32 < n ∧ !was then s.note (.spine 8) 6 0 else s
  else (s.wr F.TIM_TS_STATUS_SIZE [] 0).wr F.TIM_TS_STATUS_DOMAIN_OVER [] 0

/-- IN_DOMAIN follows R313; TS_LEFT_DOMAIN is recorded when it clears (R328). -/
def State.syncInDomain (s : State) : State :=
  let was := s.selfInDomain
  let is_ := s.inDomain
  let s := s.wrB F.TIM_TS_STATUS_IN_DOMAIN [] is_
  let s := if was && !is_ then s.note (.spine 8) 1 0 else s
  s.syncDomains.syncSize

/-- Frequency is traced to a REFIN (19 R431). -/
def State.freqTraced (s : State) : Bool :=
  decide (s.rd F.TIM_REF_STATUS_STATE [] = 4) ||
    (decide (s.tsRole = roleSlave) && decide (s.tsState = tsLocked) &&
      (match s.heard s.tsUp with | some h => h.ann.freqTraced | none => false))

/-- The service starts anew: after TIME_CONFIG, TIME_REINIT or a relock of the main PLL (R319-R321). -/
def State.tsRestart (s : State) (epoch : Nat) : State :=
  let s := s.wr F.TIM_TS_STATUS_STEPPED [] 0
  let s := s.setTs { s.ts with
    exch := [], req := none, reqAt := s.now, inWin := 0, outWin := 0, invalid := 0, freqTerm := 0, phaseTerm := 0,
    holdAt := none, epoch := epoch, epochDue := decide (s.tsRole = roleMaster), events := [], stamps := [] }
  let s := s.wr F.TIM_TS_RATE_RATE [] 0
  (s.setTsState (if s.tsRole = roleSlave then tsAcquire else tsOff)).syncInDomain

/-! ## ANNOUNCE (R313, R315) -/

/-- Bins of 1.25 ps within the present tick are not known: a free value (log 1). -/
def State.binNow (s : State) : Nat × State :=
  let (n, s) := s.draw
  (5120 * s.grid + Config.freeNat n % 5120, s)

/-- ANNOUNCE_SEND: every 156,250 ticks on an ACTIVE port. Its SEQ has no stated value: a free value (log 107). -/
def execAnnounceSend (port : Nat) (s : State) : Host.Outcome State Fault Refusal :=
  if port < 4 ∧ s.portState port = pActive ∧ SMap.get 0 s.ts.annAt port ≤ s.now then
    let (n, s) := s.draw
    let (t, s) := s.binNow
    let a : Announce :=
      { domain := BitVec.ofNat 32 (s.rd F.TIM_TS_DOMAIN_DOMAIN []),
        masterId := BitVec.ofNat 32 (s.rd F.TIM_TS_MASTER_MASTER_ID []), hops := s.rd F.TIM_TS_STATUS_HOPS [],
        freqTraced := s.freqTraced, inDomain := s.selfInDomain, holdover := decide (s.tsState = tsHoldoverSt),
        subtree := if s.tsRole = roleSlave ∧ s.tsUp = port then s.subtree else 0 }
    let s := s.setTs { s.ts with annAt := SMap.put 0 s.ts.annAt port (s.now + 156250) }
    .next (s.transmit port (.announce port (Config.freeNat n % 65536) (s.lowLane port) t a))
  else .next s

/-- HOPS of a slave: one more than its upstream partner's; at 31 the slave never locks, and HOP_LIMIT is set (R311). -/
def State.hearHops (s : State) (a : Announce) : State :=
  if 31 ≤ a.hops then
    let was := s.rdB F.TIM_TS_STATUS_HOP_LIMIT []
    let s := (s.wr F.TIM_TS_STATUS_HOPS [] 31).wr F.TIM_TS_STATUS_HOP_LIMIT [] 1
    if was then s else s.note (.spine 8) 4 0
  else s.wr F.TIM_TS_STATUS_HOPS [] (a.hops + 1)

/-- ANNOUNCE_RECEIVE. -/
def execAnnounceReceive (port : Nat) (msg : AnnounceMsg) (s : State) :
    Host.Outcome State Fault Refusal :=
  if port < 4 ∧ s.portCarries port ∧ msg.crc ≠ crc16 (annBody msg.seq msg.lane msg.stamp msg.ann) then .next (s.badMsg port)
  else if port < 4 ∧ s.portCarries port then
    let s := s.setTs { s.ts with heard := s.ts.heard.filter (fun e => decide (e.1 ≠ port)) ++ [(port, ⟨msg.ann, s.now⟩)] }
    let s := if s.tsRole = roleSlave ∧ s.tsUp = port ∧ s.upstreamIds = some true then s.hearHops msg.ann else s
    .next s.syncInDomain
  else .next s

/-- ANNOUNCE_TIMEOUT: 3 ms without an ANNOUNCE. -/
def execAnnounceTimeout (port : Nat) (s : State) : Host.Outcome State Fault Refusal :=
  if port < 4 ∧ (s.heard port).isSome ∧ !s.heardFresh port then .next s.syncDomains.syncSize else .next s

/-! ## The delay exchange (R315, R316) -/

/-- An exchange is not valid: LOST counts; 16 in a row lose the master (R316, R325). -/
def State.exchLost (s : State) : State :=
  let n := s.ts.invalid + 1
  let s := (s.setTs { s.ts with invalid := n, req := none }).count F.TIM_TS_COUNT_LOST [] 1
  if 16 ≤ n then s.tsHoldover.syncInDomain else s

/-- DELAY_REQ_SEND: every 2^PERIOD ticks; a request still unanswered counts as lost. -/
def execDelayReqSend (s : State) : Host.Outcome State Fault Refusal :=
  let p := s.tsUp
  if s.tsRole = roleSlave ∧ s.portState p = pActive ∧ s.ts.reqAt ≤ s.now then
    let s := if s.ts.req.isSome then s.exchLost else s
    let (t1, s) := s.binNow
    let lane := s.lowLane p
    let seq := (s.ts.seq + 1) % 65536
    let s := s.setTs { s.ts with
      seq := seq, req := some (seq, t1, lane, s.now), reqAt := s.now + 2 ^ s.rd F.TIM_TS_CFG_PERIOD [] }
    .next (s.transmit p (.delayReq p seq lane t1 (BitVec.ofNat 32 (s.rd F.TIM_TS_DOMAIN_DOMAIN []))))
  else .next s

/-- DELAY_REQ: answered on a downstream port, for this package's DOMAIN, by the master or an IN_DOMAIN slave. -/
def execDelayReq (port seq lane : Nat) (sent : Checked (Nat × Word) 16) (t2 : Nat) (s : State) :
    Host.Outcome State Fault Refusal :=
  if port < 4 ∧ s.portCarries port ∧ sent.sum ≠ crc16 (reqBody seq lane sent.val.1 sent.val.2) then .next (s.badMsg port)
  else if s.tsDown.contains port ∧ s.portState port = pActive ∧
      (s.tsRole = roleMaster ∨ (s.tsRole = roleSlave ∧ s.selfInDomain)) ∧
      sent.val.2.toNat = s.rd F.TIM_TS_DOMAIN_DOMAIN [] then
    let (t3, s) := s.binNow
    .next (s.transmit port (.delayResp port seq lane t2 t3))
  else .next s

/-- Sorted insertion, for the median. -/
def insertSorted (x : Int) : List Int → List Int
  | [] => [x]
  | y :: ys => if x ≤ y then x :: y :: ys else y :: insertSorted x ys

def sortInts (l : List Int) : List Int := l.foldr insertSorted []

/-- Twice the median of a list: the sum of its two middle values, or twice the middle one (log 42). -/
def median2 (l : List Int) : Int :=
  let v := sortInts l
  let n := v.length
  if n = 0 then 0 else v.getD ((n - 1) / 2) 0 + v.getD (n / 2) 0

/-- A signed value within 32 bits. -/
def clamp32 (v : Int) : Int := max (-2147483648) (min 2147483647 v)

/-- Mean theta of the valid exchanges, in half bins times their number, and their number. -/
def TimeSvc.thetaSum (t : TimeSvc) : Int := (t.exch.map Prod.fst).sum

/-- TIM_TS_OFFSET and TIM_TS_DELAY show the mean theta and the median d in bins. -/
def State.showExch (s : State) : State :=
  let n := s.ts.exch.length
  if n = 0 then s
  else
    let s := s.wrI F.TIM_TS_OFFSET_THETA [] (clamp32 (roundDiv s.ts.thetaSum (2 * n)))
    s.wrI F.TIM_TS_DELAY_D [] (clamp32 (roundDiv (median2 (s.ts.exch.map Prod.snd)) 4))

/-- The two terms of R317: how the loops weigh the exchanges is not given, so both are free values within their limits
(log 43). -/
def State.steer (s : State) : State :=
  if s.tsState = tsFine ∨ s.tsState = tsLocked then
    let (n, s) := s.draw
    let f := (Config.freeNat n % 400001 : Int) - 200000
    let p := (Config.freeNat (n + 1) % 1001 : Int) - 500
    let s := { s with freeCtr := n + 2 }
    (s.setTs { s.ts with freqTerm := f, phaseTerm := p }).wrI F.TIM_TS_RATE_RATE [] (f + p)
  else s

/-- Spread of theta over the valid exchanges, in half bins. -/
def TimeSvc.spread (t : TimeSvc) : Int :=
  (t.exch.map Prod.fst).foldl max ((t.exch.map Prod.fst).headD 0) - (t.exch.map Prod.fst).foldl min ((t.exch.map Prod.fst).headD 0)

/-- The upstream partner announces 31 hops. -/
def State.hopBlocked (s : State) : Bool :=
  match s.heard s.tsUp with
  | some h => decide (31 ≤ h.ann.hops)
  | none => false

/-- The lock state after a valid exchange with theta in half bins (R318, R320). -/
def State.lockStep (s : State) (theta : Int) : State :=
  let inW := decide (|theta| * 625 ≤ 1000 * s.rd F.TIM_TS_WINDOW_WINDOW [])
  let s :=
    if s.rdB F.TIM_TS_STATUS_STEPPED [] && decide (1600000 < |theta|) then
      let was := s.rdB F.TIM_TS_STATUS_OFFSET_LARGE []
      let s := s.wr F.TIM_TS_STATUS_OFFSET_LARGE [] 1
      if was then s else s.note (.spine 8) 2 0
    else s
  if s.tsState = tsAcquire then
    if 16 ≤ s.ts.exch.length ∧ s.ts.spread ≤ 1600 then
      s.setTsState (if s.rdB F.TIM_TS_STATUS_STEPPED [] then tsFine else tsStepWait)
    else s
  else if s.tsState = tsFine then
    let n := if inW then s.ts.inWin + 1 else 0
    let s := s.setTs { s.ts with inWin := n, outWin := 0 }
    if 16 ≤ n ∧ !s.hopBlocked then s.setTsState tsLocked else s
  else if s.tsState = tsLocked then
    let n := if inW then 0 else s.ts.outWin + 1
    let s := s.setTs { s.ts with outWin := n, inWin := 0 }
    if 16 ≤ n then s.setTsState tsFine else s
  else if s.tsState = tsHoldoverSt then
    (s.setTs { s.ts with holdAt := none, inWin := 0, outWin := 0 }).setTsState tsFine
  else s

/-- DELAY_RESP (R316-R318, R320, R325): the exchange is valid or lost; a foreign partner's is ignored. -/
def execDelayResp (seq lane t2 : Nat) (t3 : Checked Nat 16) (t4 : Nat) (s : State) : Host.Outcome State Fault Refusal :=
  if s.portCarries s.tsUp ∧ t3.sum ≠ crc16 (respBody seq lane t2 t3.val) then .next (s.badMsg s.tsUp)
  else
  match s.ts.req with
  | none => .next s
  | some (q, t1, l, at_) =>
    if s.tsRole = roleSlave ∧ seq = q then
      if s.upstreamIds = some false then
        let was := s.rdB F.TIM_TS_STATUS_FOREIGN []
        let s := (s.setTs { s.ts with req := none }).wr F.TIM_TS_STATUS_FOREIGN [] 1
        .next (if was then s else s.note (.spine 8) 3 0)
      else
        let back : Int := (t4 : Int) - t3.val
        let forth : Int := (t2 : Int) - t1
        let theta := back - forth - 2 * s.rdI F.TIM_TS_ASYM_ASYM [lane]
        let d := back + forth
        let near := s.ts.exch.isEmpty || decide (|2 * d - median2 (s.ts.exch.map Prod.snd)| ≤ 320)
        if lane = l ∧ s.now ≤ at_ + 2 ^ s.rd F.TIM_TS_CFG_PERIOD [] ∧ near then
          let s := s.setTs { s.ts with req := none, invalid := 0, exch := (theta, d) :: s.ts.exch.take 15 }
          let s := (s.count F.TIM_TS_COUNT_EXCH [] 1).showExch
          .next ((s.lockStep theta).steer.syncInDomain)
        else .next s.exchLost
    else .next s

/-! ## The single step (R319) -/

/-- What every step does beside TICK: timed events disabled, captures in WAIT_TIME back to IDLE, injected requests of
SRC 0xA not raised. -/
def State.afterStep (s : State) : State :=
  let s := (List.range 8).foldl (fun s e => s.wr F.TIM_EVT_CTRL_EN [e] 0) s
  let s := (List.range s.variant.tiles).foldl (fun s t =>
    if s.capState t = cWait then (s.wr F.CAP_STATUS_STATE [t] cIdle).wr F.CAP_STATUS_ARM_REFUSED [t] 1 else s) s
  let s := (s.tilesBy 4).foldl (fun s p =>
    if s.rd F.SNS_INJ_CTRL_SRC [p.1, p.2] = 0xA then
      s.setSenseList p.1 p.2 { s.senseList p.1 p.2 with timeDone := true } else s) s
  let s := (s.wr F.TIM_TS_STATUS_CANCELLED [] 1).wr F.TIM_TS_STATUS_STEPPED [] 1
  (s.wr F.TIM_TS_STEP_TICK_TICK [] (short s.grid)).syncInDomain

/-- TIME_STEP: the master takes its EPOCH; a slave in STEP_WAIT moves TICK by its mean theta, in IDLE or SAFE. -/
def execTimeStep (s : State) : Host.Outcome State Fault Refusal :=
  if s.tsRole = roleMaster ∧ s.ts.epochDue then
    let s := { s with clk := { s.clk with off := (s.ts.epoch : Int) - s.now } }
    let s := (s.setTs { s.ts with epochDue := false }).setTsState tsMaster
    .next s.afterStep
  else if s.tsRole = roleSlave ∧ s.tsState = tsStepWait ∧ (s.mode = mIdle ∨ s.mode = mSafe) ∧ !s.ts.exch.isEmpty then
    let n := roundDiv s.ts.thetaSum (10240 * s.ts.exch.length)
    let s := { s with clk := { s.clk with off := s.clk.off - n } }
    let s := s.setTs { s.ts with
      exch := s.ts.exch.map (fun e => (e.1 - 10240 * n, e.2)), inWin := 0, outWin := 0,
      req := s.ts.req.map (fun r => (r.1, ((r.2.1 : Int) - 5120 * n).toNat, r.2.2.1, r.2.2.2)) }
    .next ((s.setTsState tsFine).showExch.afterStep)
  else .next s

/-- TS_HOLD_EXPIRE (R325). -/
def execTsHoldExpire (s : State) : Host.Outcome State Fault Refusal :=
  if s.tsState = tsHoldoverSt ∧ !s.holdShort then .next s.syncInDomain else .next s

/-! ## SYNC (R322, R323) -/

/-- Sends a SYN on every ACTIVE downstream port. -/
def State.sendSyn (s : State) (id : Nat) (event : Word) : State :=
  (s.tsDown.filter (fun p => decide (s.portState p = pActive))).foldl (fun s p =>
    let (t, s) := s.binNow
    s.transmit p (.syn p id event (s.lowLane p) t)) s

/-- SYNC_OUT_PULSE: at a tick whose number PERIOD divides. The SYNC ID has no stated value: a free value (log 1). -/
def execSyncOutPulse (s : State) : Host.Outcome State Fault Refusal :=
  let period := s.rd F.TIM_SYNC_CFG_PERIOD []
  if s.tsRole = roleMaster ∧ s.rdB F.TIM_TS_CFG_SYNC_OUT [] ∧ s.grid % period = 0 ∧ s.ts.synAt ≤ s.now then
    let (n, s) := s.draw
    let s := s.setTs { s.ts with synAt := s.now + 1 }
    .next ((s.emit (.syncOut (s.grid + 8))).sendSyn (Config.freeNat n % 256) (BitVec.ofNat 32 s.grid))
  else .next s

/-- The residual of a pair, in bins: the stamp against the EVENT, L_OUT and the declared path delay. -/
def State.residual (s : State) (bins : Nat) (event : Word) : Int :=
  shortDiff (bins / 5120) event.toNat * 5120 + (bins % 5120 : Nat) - 40960 - s.rd F.TIM_SYNC_DELAY_DELAY []

/-- A pair is complete: the residual is shown, and SYNC_CAL sums theta - r. -/
def State.syncPair (s : State) (bins : Nat) (event : Word) : State :=
  let r := s.residual bins event
  let s := s.wrI F.TIM_SYNC_RESID_R [] (clamp32 r)
  let theta := (s.ts.exch.headD (0, 0)).1
  s.setTs { s.ts with
    lastPair := some s.now,
    cal := s.ts.cal.map (fun c => if c.2.1 < 4096 then (c.1, c.2.1 + 1, c.2.2.1 + (theta - 2 * r), c.2.2.2) else c) }

/-- Two arrivals within 2 ms. -/
def near2ms (a b : Nat) : Bool := decide (a ≤ b + 312500) && decide (b ≤ a + 312500)

/-- A SYNCIN stamp (TDC input 8): pairs with the oldest EVENT within 2 ms, or waits. -/
def State.syncStamp (s : State) (bins : Nat) : State :=
  if s.tsRole = roleSlave ∧ s.rdB F.TIM_SYNC_CFG_IN_EN [] then
    let es := s.ts.events.filter (fun e => near2ms e.2 s.now)
    match es with
    | e :: rest => (s.setTs { s.ts with events := rest }).syncPair bins e.1
    | [] => s.setTs { s.ts with events := [], stamps := s.ts.stamps ++ [(bins, s.now)] }
  else s

/-- SYN_RECEIVE: forwarded unchanged by an IN_DOMAIN slave, and paired with a stamp. -/
def execSynReceive (port id : Nat) (event : Word) (sent : Checked (Nat × Nat) 16) (s : State) :
    Host.Outcome State Fault Refusal :=
  if port < 4 ∧ s.portCarries port ∧ sent.sum ≠ crc16 (synBody id event sent.val.1 sent.val.2) then .next (s.badMsg port)
  else if s.tsRole = roleSlave ∧ port = s.tsUp ∧ s.portCarries port then
    let s := if s.selfInDomain then s.sendSyn id event else s
    if s.rdB F.TIM_SYNC_CFG_IN_EN [] then
      match s.ts.stamps.find? (fun t => near2ms t.2 s.now) with
      | some t => .next ((s.setTs { s.ts with stamps := s.ts.stamps.erase t }).syncPair t.1 event)
      | none => .next (s.setTs { s.ts with events := s.ts.events ++ [(event, s.now)] })
    else .next s
  else .next s

/-- SYNC_MISSING: 2 ms have passed since a stamp and no EVENT came. -/
def execSyncMissing (s : State) : Host.Outcome State Fault Refusal :=
  match s.ts.stamps with
  | t :: rest =>
    if t.2 + 312500 < s.now then .next ((s.setTs { s.ts with stamps := rest }).note (.spine 8) 5 0) else .next s
  | [] => .next s

/-- SYNC_CAL_DONE (R323): after 4,096 pairs the mean of theta - r is added to the lane's ASYM. -/
def execSyncCalDone (s : State) : Host.Outcome State Fault Refusal :=
  match s.ts.cal with
  | some (n, pairs, sum, lane) =>
    if 4096 ≤ pairs then
      let v := clamp32 (s.rdI F.TIM_TS_ASYM_ASYM [lane] + roundDiv sum 8192)
      let s := (s.setTs { s.ts with cal := none }).wrI F.TIM_TS_ASYM_ASYM [lane] v
      .next (s.ok n (leBytes 1 lane ++ leBytes 4 (unsigned 32 v)))
    else .next s
  | none => .next s

/-! ## Timed events (R326) -/

/-- The spine marker balls are low in RESET, in SAFE and during thermal shutdown. -/
def State.marksOn (s : State) : Bool :=
  !decide (s.mode = mReset) && !decide (s.mode = mSafe) && !s.rdB F.THM_STATUS_SHUTDOWN []

/-- A spine marker ball is driven for WIDTH ticks, L_OUT after the firing. -/
def State.spineMark (s : State) (m width : Nat) : State :=
  if s.marksOn then
    let l := (SMap.get [] s.outs.smark m).filter (fun e => decide (s.now < e.2))
    { s with outs := { s.outs with smark := SMap.put [] s.outs.smark m (l ++ [(s.now + 8, s.now + 8 + width)]) } }
  else s

/-- The level of a spine marker ball: the OR of its pulses; low in RESET, SAFE and thermal shutdown. -/
def State.spineMarkLevel (s : State) (m t : Nat) : Bool :=
  s.marksOn && (SMap.get [] s.outs.smark m).any (fun e => decide (e.1 ≤ t) && decide (t < e.2))

/-- ARM by a timed event: an ARM of the host at the same boundary counts as the same. -/
def State.eventArm (s : State) (t : Nat) : State :=
  if (s.capState t = cWait ∨ s.capState t = cRearm) ∧ (s.cap t).since = s.now ∧ !s.rdB F.CAP_STATUS_HELD [t] then s
  else s.applyCapArm t

/-- The ACTION of an event on the tiles it names. -/
def State.eventAction (s : State) (e : Nat) : State :=
  let ts := (List.range s.variant.tiles).filter (fun t => bit (s.rd F.TIM_EVT_CTRL_TILES [e]) t)
  match s.rd F.TIM_EVT_CTRL_ACTION [e] with
  | 1 => s.spineMark (s.rd F.TIM_EVT_CTRL_MARK [e]) (s.rd F.TIM_EVT_CTRL_WIDTH [e])
  | 2 => ts.foldl (fun s t => s.applyScanEn t true) s
  | 3 => ts.foldl State.eventArm s
  | 4 => ts.foldl State.releaseHeld s
  | _ => s

/-- EN takes effect at a boundary: LATE when the target is already reached. -/
def State.eventArmed (s : State) (e : Nat) : State :=
  if reached (s.rd F.TIM_EVT_TARGET_TICK [e]) (short s.grid) then s.wr F.TIM_EVT_CTRL_LATE [e] 1 else s

/-- TIMED_EVENT_FIRE. -/
def execTimedEventFire (ev : Nat) (s : State) : Host.Outcome State Fault Refusal :=
  if ev < 8 ∧ s.rdB F.TIM_EVT_CTRL_EN [ev] ∧ reached (s.rd F.TIM_EVT_TARGET_TICK [ev]) (short s.grid) then
    let s := (s.eventAction ev).wr F.TIM_EVT_CTRL_FIRED [ev] 1
    let period := s.rd F.TIM_EVT_PERIOD_PERIOD [ev]
    if period = 0 then .next (s.wr F.TIM_EVT_CTRL_EN [ev] 0)
    else .next (s.wr F.TIM_EVT_TARGET_TICK [ev] ((s.rd F.TIM_EVT_TARGET_TICK [ev] + period) % 2 ^ 32))
  else .next s

end Sys2Proof.Machine
end

