-- ==== Sys2Proof/Machine/Readout.lean ====
section
/-! DEFINITION. Readout (09): the ends of integration windows with demodulation, crosstalk correction, classification,
decisions and results; input gain; the slices of the ADC; the crosstalk matrix and the weights. -/

namespace Sys2Proof.Machine

/-! ## Windows (R230, R231) -/

/-- RDO_STATUS.OPEN. -/
def State.openTones (s : State) (t l : Nat) : Nat :=
  (List.range 16).foldl (fun m k =>
    if s.rdo.windows.any (fun w => w.on t l && decide (w.tone = k) && w.openAt s.now && !w.dead) then m + 2 ^ k else m) 0

/-- The settings of a tone in force that a window latches. -/
def State.toneLatch (s : State) (t l k : Nat) : WinLatch :=
  let ix := [t, l, k]
  { ftw := BitVec.ofNat 48 (s.rd F.RDO_TONE_FTW_LO_FTW_LO ix + 2 ^ 32 * s.rd F.RDO_TONE_FTW_HI_FTW_HI ix),
    dphase := BitVec.ofNat 16 (s.rd F.RDO_TONE_DPHASE_DPHASE ix), shift := s.rd F.RDO_TONE_CFG_SHIFT ix,
    resMode := s.rd F.RDO_TONE_CFG_RES_MODE ix, calOk := s.rdB F.RDO_STATUS_CAL_VALID [t, l] }

/-- What a window latches at W0 (R231). -/
def State.latchOf (s : State) (w : Window) : WinLatch := s.toneLatch w.tile w.line w.tone

/-- Every window whose W0 lies before ADC sample `n` latches the settings in force. -/
def State.latchBefore (s : State) (n : Nat) : State :=
  s.updWindows (fun w => if w.latch.isNone ∧ w.w0 < n then { w with latch := some (s.latchOf w) } else w)

/-- Windows latch their settings as the tick of their W0 ends. -/
def State.latchWindows (s : State) : State := s.latchBefore (64 * (s.now + 1))

/-! ## Samples (R225, R227) -/

/-- The input gain of a line in force at ADC sample `n`. -/
def State.gainOf (s : State) (t l n : Nat) : Nat :=
  let past := (s.line t l).gainAt.filter (fun e => decide (64 * e.1 ≤ n))
  match past.getLast?, (s.line t l).gainAt with
  | some e, _ => e.2.2
  | none, e :: _ => e.2.1
  | none, [] => s.rd F.RDO_STATUS_GAIN [t, l]

/-- The slice that takes ADC sample `n` of a line: the spare stands in for one position. -/
def State.sliceOf (s : State) (t l n : Nat) : Nat :=
  if s.rd F.RDO_SLICE_SPARE_POS [t, l] = n % 16 then 16 else n % 16

/-- The corrected, gain-compensated sample of ADC sample `n`, place `i` of the raw codes, in Q1.17 of full scale at 0 dB. -/
def State.sample (s : State) (t l n : Nat) (codes : List Int) (i : Nat) : Int :=
  let v := (Config.sliceSample (8 * t + l) (s.sliceOf t l n) n codes i).toInt
  let g := s.gainOf t l n
  if g = 0 then v else (Config.gainRefer g v).toInt

/-- The corrected samples of a window's raw codes, which begin 20 ADC samples before W0. -/
def State.samples (s : State) (w : Window) (codes : List Int) : List Int :=
  (List.range codes.length).map (fun i => s.sample w.tile w.line (w.w0 + i - 20) codes i)

/-- A raw code that reads full scale (R229). -/
def overCode (c : Int) : Bool := decide (c = 2047) || decide (c = -2048)

/-! ## Demodulation and integration (R232-R234) -/

/-- The 20-bit phase of the demodulator at a grid time in samples. -/
def demodPhase (ftw dphase n : Nat) : Nat := (ftw * n + dphase * 2 ^ 32) % 2 ^ 48 / 2 ^ 28

/-- One sample mixed to baseband. -/
def mix (phase : Nat) (x : Int) : Int × Int := (x * cos18 phase, -(x * sin18 phase))

/-- Decimated sample d of a window, from the ADC samples that begin 20 before W0. -/
def State.decimated (s : State) (w : Window) (v : WinLatch) (x : List Int) (d : Nat) : Int × Int :=
  let z := Config.firOut ((List.range 48).map (fun i =>
    mix (demodPhase v.ftw.toNat v.dphase.toNat (s.gridSample (2 * (w.w0 + 8 * d + i) - 40))) (x.getD (8 * d + i) 0)))
  (z.1.toInt, z.2.toInt)

/-- The decimated sample's centre lies in the settling range of a gain change at boundary b (R228). -/
def settles (w0 d b : Nat) : Bool := decide (64 * b ≤ w0 + 8 * d + 28) && decide (w0 + 8 * d + 4 ≤ 64 * b + 39)

def State.masked (s : State) (w : Window) (d : Nat) : Bool := (s.line w.tile w.line).gainAt.any (fun e => settles w.w0 d e.1)

/-- Key of a weight in the store. -/
def weightKey (gline tone set d : Nat) : Nat := 4096 * (2 * (16 * gline + tone) + set) + d

/-- Weight d of a window: as it was when the window was open. -/
def State.weight (s : State) (w : Window) (d : Nat) : Word :=
  match w.oldW.find? (fun e => decide (e.1 = d)) with
  | some e => e.2
  | none => SMap.get 0x7FFF s.stores.weights (weightKey (8 * w.tile + w.line) w.tone w.set d)

/-- Complex product, parts exact. -/
def cmul (a b : Int × Int) : Int × Int := (a.1 * b.1 - a.2 * b.2, a.1 * b.2 + a.2 * b.1)
def cadd (a b : Int × Int) : Int × Int := (a.1 + b.1, a.2 + b.2)

/-- The two signed halves of a word. -/
def halves (w : Word) : Int × Int := (signed 16 w.toNat, signed 16 (w.toNat / 65536))

/-- Rounds each part of a sum over 2^k and saturates it to 32 bits; whether a part saturated. -/
def scale32 (a : Int × Int) (k : Nat) : (Int × Int) × Bool :=
  let r := (roundDiv a.1 (2 ^ k), roundDiv a.2 (2 ^ k))
  let c := (clamp32 r.1, clamp32 r.2)
  (c, decide (c ≠ r))

/-- IQraw of a window and whether it saturated (R234). -/
def State.integrate (s : State) (w : Window) (v : WinLatch) (x : List Int) : (Int × Int) × Bool :=
  let acc := (List.range w.wlen).foldl (fun a d =>
    if s.masked w d then a else cadd a (cmul (halves (s.weight w d)) (s.decimated w v x d))) (0, 0)
  scale32 acc v.shift

/-! ## Correction and classification (R235, R237) -/

/-- Matrix element in force. -/
def State.xtForce (s : State) (t l k j : Nat) : Int × Int :=
  (s.rdI F.RDO_XT_FORCE_RE [t, l, k, j], s.rdI F.RDO_XT_FORCE_IM [t, l, k, j])

/-- IQc of tone k from the raw points of the group. -/
def State.correct (s : State) (t l k : Nat) (raws : List (Nat × Int × Int)) : (Int × Int) × Bool :=
  scale32 (raws.foldl (fun a r => cadd a (cmul (s.xtForce t l k r.1) (r.2.1, r.2.2))) (0, 0)) 14

def dist2 (a b : Int × Int) : Nat := ((a.1 - b.1) * (a.1 - b.1) + (a.2 - b.2) * (a.2 - b.2)).toNat

/-- Index of the least value of a list from index i on, the lowest on a tie, leaving out one index. -/
def nearest (skip : Option Nat) : Nat → List Nat → Option (Nat × Nat)
  | _, [] => none
  | i, v :: vs =>
    match nearest skip (i + 1) vs with
    | none => if skip = some i then none else some (i, v)
    | some (j, u) => if skip = some i then some (j, u) else if v ≤ u then some (i, v) else some (j, u)

/-- Class and margin flag of a point against centroids (R237). The margin test compares squares, so it is exact. -/
def classify (cs : List (Int × Int)) (margin : Nat) (p : Int × Int) : Nat × Bool :=
  let ds := cs.map (dist2 p)
  match nearest none 0 ds with
  | none => (0, true)
  | some (a, da) =>
    match nearest (some a) 0 ds with
    | none => (a, true)
    | some (b, db) =>
      let q := dist2 (cs.getD a (0, 0)) (cs.getD b (0, 0))
      (a, decide (q = 0) || decide ((db - da) * (db - da) < 4 * margin * margin * q))

/-- The centroids of a tone that take part. -/
def State.centroids (s : State) (ix : List Nat) : List (Int × Int) :=
  let c0 := (s.rdI F.RDO_TONE_C0_I_C0_I ix, s.rdI F.RDO_TONE_C0_Q_C0_Q ix)
  let c1 := (s.rdI F.RDO_TONE_C1_I_C1_I ix, s.rdI F.RDO_TONE_C1_Q_C1_Q ix)
  let c2 := (s.rdI F.RDO_TONE_C2_I_C2_I ix, s.rdI F.RDO_TONE_C2_Q_C2_Q ix)
  if s.rdB F.RDO_TONE_CFG_THREE ix then [c0, c1, c2] else [c0, c1]

/-! ## Results (R239, R240) -/

/-- Word 1 of the tag. -/
def Window.tagWord (w : Window) (cls : Nat) (margin calStale : Bool) : Nat :=
  let b := fun (x : Bool) (i : Nat) => if x then 2 ^ i else 0
  w.tone + 16 * (8 * w.tile + w.line) + 1024 * (if w.gapped then 0 else cls) + b margin 12 + b w.rangeSettle 13 +
    b w.overrange 14 + b w.sat 15 + b w.gapped 16 + b calStale 17 + 2 ^ 18 * w.widx

/-- The shot's status when the record is written: 0 while it runs. -/
def State.shotStatus (s : State) (w : Window) : Nat :=
  match w.job with
  | none => 0
  | some j =>
    match (s.job j).tails.find? (fun t => decide (t.start = w.shot)) with
    | some t => t.status.toNat
    | none => (s.job j).shotStatus.toNat

/-- One window joins an average accumulator (R240). -/
def addAvg (new : AvgAcc) : List AvgAcc → List AvgAcc
  | [] => [new]
  | a :: as =>
    if a.job = new.job ∧ a.line = new.line ∧ a.widx = new.widx ∧ a.tone = new.tone ∧ a.copy = new.copy then
      { a with sumI := a.sumI + new.sumI, sumQ := a.sumQ + new.sumQ, n := a.n + new.n, n1 := a.n1 + new.n1,
               n2 := a.n2 + new.n2, hdr := a.hdr ||| new.hdr } :: as
    else a :: addAvg new as

/-- The results of a window: a class record, an IQ record, or a contribution to the shot's copy of an average. -/
def State.windowResults (s : State) (w : Window) (v : WinLatch) (iq : Int × Int) (raw : Int × Int) (cls : Nat)
    (margin : Bool) : State :=
  match w.job with
  | none => s
  | some j =>
    let tag := [w.shotNo % 2 ^ 32, w.tagWord cls margin (!v.calOk), short (s.gridAt (w.e / 64)), s.shotStatus w]
    if w.nores then s
    else if v.resMode = 0 then s.stageRecord j w.shot (wordBytes tag)
    else if v.resMode = 1 then
      s.stageRecord j w.shot (wordBytes (tag ++ [unsigned 32 iq.1, unsigned 32 iq.2, unsigned 32 raw.1, unsigned 32 raw.2]))
    else if w.widx ≤ 63 then
      let cls := if w.gapped then 0 else cls
      let a : AvgAcc :=
        { job := j, line := 8 * w.tile + w.line, widx := w.widx, tone := w.tone, copy := some w.shot, sumI := iq.1, sumQ := iq.2,
          n := 1, n1 := if cls = 1 then 1 else 0, n2 := if cls = 2 then 1 else 0,
          hdr := BitVec.ofNat 32 (w.tagWord 0 margin (!v.calOk)) }
      { s with rdo := { s.rdo with avg := addAvg a s.rdo.avg } }
    else s.updJob j (fun b => { b with aux := min 65535 (b.aux + 1) })

/-- Records the results of the windows that no slice failure can gap any more, and drops dead ones: at the tick boundary
9 ticks after the one containing E, when detection (R226) would have come. -/
def State.finishWindows (s : State) : State :=
  let over_ := fun (w : Window) => w.dead || (w.out.isSome && decide (w.e / 64 + 9 ≤ s.now))
  let fin := s.rdo.windows.filter over_
  let s := { s with rdo := { s.rdo with windows := s.rdo.windows.filter (fun w => !over_ w) } }
  fin.foldl (fun s w =>
    match w.out, w.raw, w.latch with
    | some (i, q, cls, margin), some raw, some v =>
      if w.dead then s
      else
        let s := s.windowResults w v (i, q) raw cls margin
        (List.range 4).foldl (fun s k => s.setRegWord R.RDO_TONE_LAST [w.tile, w.line, w.tone] k
          (BitVec.ofNat 32 ([unsigned 32 i, unsigned 32 q, w.tagWord cls margin (!v.calOk),
            short (s.gridAt (w.e / 64))].getD k 0))) s
    | _, _, _ => s) s

/-! ## The end of a window (R238, R241) -/

/-- Internal tick at which the decision of windows ending at ADC sample e is written (L_DEC is 800 samples of 50 ps). -/
def decisionTick (e : Nat) : Nat := (2 * e + 800) / 128

def Window.same (a b : Window) : Bool := a.on b.tile b.line && decide (a.tone = b.tone) && decide (a.w0 = b.w0)

/-- Replaces a window by a changed one. -/
def State.putWindow (s : State) (w : Window) : State := s.updWindows (fun v => if v.same w then w else v)

/-- SAT: flagged, a severity 0 fault of the line. -/
def State.noteSat (s : State) (w : Window) (sat : Bool) : State :=
  if sat then (s.wr F.RDO_STATUS_SAT [w.tile, w.line] 1).note (.tile w.tile (72 + w.line)) 7 0 else s

/-- A window's corrected point is classified; its decision is published unless the MEAS or a slice gap forbids it. -/
def State.classifyWindow (s : State) (w : Window) (iq : Int × Int) (sat : Bool) (eLast : Nat) : State :=
  let ix := [w.tile, w.line, w.tone]
  let s := s.noteSat w sat
  let (cls, margin) := classify (s.centroids ix) (s.rd F.RDO_TONE_MARGIN_MARGIN ix) iq
  let s := s.gapNow w.tile w.line
  let w := ((s.rdo.windows.find? (fun v => v.same w)).map (fun v => { w with gapped := v.gapped })).getD w
  let w := { w with sat := w.sat || sat, out := some (iq.1, iq.2, cls, margin) }
  let s := s.putWindow w
  if w.nodec || w.gapped then s
  else
    s.publish w.tile (writeOf (128 * w.tile + 16 * w.line + w.tone) cls srcReadout false margin
      (s.gridAt (decisionTick eLast)) (s.gridAt w.issue))

/-- The windows of one MEAS that has crosstalk correction on, once each has its raw point: all are corrected together. -/
def State.correctGroup (s : State) (w : Window) : State :=
  let grp := s.rdo.windows.filter (fun v => v.on w.tile w.line && decide (v.group = w.group))
  let eLast := grp.foldl (fun m v => max m v.e) 0
  if grp.all (fun v => v.raw.isSome) && decide (decisionTick eLast ≤ s.now) then
    let raws := grp.filterMap (fun v => v.raw.map (fun r => (v.tone, r.1, r.2)))
    grp.foldl (fun s v =>
      let (iq, sat) := s.correct v.tile v.line v.tone raws
      s.classifyWindow v iq sat eLast) s
  else s

/-- WINDOW_END (R225-R241): the window has ended and its decision is due; `codes` are the raw codes of the line's ADC from
20 samples before W0 to 19 after E. -/
def execWindowEnd (tile line tone : Nat) (codes : List Int) (s : State) : Host.Outcome State Fault Refusal :=
  match s.rdo.windows.find? (fun w => w.on tile line && decide (w.tone = tone) && w.raw.isNone && !w.dead) with
  | none => .next s
  | some w =>
    if decisionTick w.e ≤ s.now ∧ codes.length = 8 * w.wlen + 40 ∧ codes.all (fun c => decide (-2048 ≤ c) && decide (c ≤ 2047)) then
      let v := w.latch.getD (s.latchOf w)
      let (raw, sat) := s.integrate w v (s.samples w codes)
      let s := s.noteSat w sat
      let settle := (List.range w.wlen).any (s.masked w)
      let over_ := ((codes.drop 20).take (8 * w.wlen)).any overCode
      let w := { w with raw := some raw, latch := some v, sat := sat, rangeSettle := settle, overrange := over_ }
      let s := s.putWindow w
      if w.xt then .next (s.correctGroup w) else .next (s.classifyWindow w raw false w.e)
    else .next s

/-! ## Input gain (R228, R229) -/

/-- The gain changes at the present boundary: the windows open on the line have a settling range. -/
def State.setGain (s : State) (t l g : Nat) : State :=
  if s.rd F.RDO_STATUS_GAIN [t, l] = g then s
  else
    let r := s.line t l
    let from_ := s.rdo.windows.foldl (fun m w => if w.on t l then min m w.w0 else m) (64 * s.now)
    let old := s.rd F.RDO_STATUS_GAIN [t, l]
    let s := s.wr F.RDO_STATUS_GAIN [t, l] g
    s.setLine t l { r with gainAt := r.gainAt.filter (fun e => decide (from_ ≤ 64 * e.1 + 64)) ++ [(s.now, old, g)] }

/-- AGC_STEP: three overrange samples in a row ask for a step down at the next tick boundary. -/
def execAgcStep (tile line : Nat) (s : State) : Host.Outcome State Fault Refusal :=
  if tile < s.variant.tiles ∧ line < 8 ∧ s.rdB F.RDO_IN_CTRL_AUTO [tile, line] ∧ s.rd F.RDO_STATUS_GAIN [tile, line] ≠ 0 then
    .next (s.stage (.agcStep tile line) false)
  else .next s

def State.applyAgcStep (s : State) (t l : Nat) : State :=
  let g := s.rd F.RDO_STATUS_GAIN [t, l]
  if g = 0 then s
  else
    let s := ((s.setGain t l (g - 1)).count F.RDO_COUNT_AGC [t, l] 1).wr F.RDO_STATUS_AGC_STEPPED [t, l] 1
    s.note (.tile t (72 + l)) 6 0

/-- A tick of a line holds an overrange sample (R229). The windows that contain one carry OVERRANGE (WINDOW_END). -/
def State.overrangeTick (s : State) (t l : Nat) : State :=
  (s.count F.RDO_COUNT_OVERRANGE [t, l] 1).wr F.RDO_STATUS_OVERRANGE [t, l] 1

/-! ## Slices (R225, R226, R512) -/

/-- SLICE_ROTATE: after 2^20 ticks the spare moves to the next position, 16 its own calibration. -/
def execSliceRotate (tile line : Nat) (s : State) : Host.Outcome State Fault Refusal :=
  let r := s.line tile line
  if tile < s.variant.tiles ∧ line < 8 ∧ s.rdB F.RDO_SLICE_ROT_EN [tile, line] ∧ s.rd F.RDO_SLICE_FAILED [tile, line] = 0 ∧
      r.rotSince + 2 ^ 20 ≤ s.now then
    let s := s.wr F.RDO_SLICE_SPARE_POS [tile, line] ((s.rd F.RDO_SLICE_SPARE_POS [tile, line] + 1) % 17)
    .next ((s.setLine tile line { r with rotSince := s.now }).wr F.RDO_CAL_TICK_TICK [tile, line] (short s.grid))
  else .next s

/-- SLICE_SPARE_IN_PLACE: the failed position is filled, by the spare or by the slice that was offline; windows with
samples in the interval are gapped. -/
def execSliceSpareInPlace (tile line : Nat) (s : State) : Host.Outcome State Fault Refusal :=
  match (s.line tile line).repair with
  | some (p, _, own) =>
    let s := s.gapNow tile line
    let s := if own then s else s.wr F.RDO_SLICE_SPARE_POS [tile, line] p
    .next (s.setLine tile line { s.line tile line with repair := none })
  | none => .next s

/-! ## The crosstalk matrix (R236) and the weights (R242) -/

/-- XT_SWAP: a write of 1 to SWAP. -/
def execXtSwap (tile line : Nat) (s : State) : Host.Outcome State Fault Refusal :=
  if tile < s.variant.tiles ∧ line < 8 then
    .next ((s.wr F.RDO_XT_CTRL_PENDING [tile, line] 1).stage (.xtSwap tile line) false)
  else .next s

/-- The shadow matrix comes into force. -/
def State.applyXtSwap (s : State) (t l : Nat) : State :=
  let s := (List.range 256).foldl (fun s i =>
    s.setRegWord R.RDO_XT_FORCE [t, l, i / 16, i % 16] 0 (s.regWord R.RDO_XT_SHADOW [t, l, i / 16, i % 16] 0)) s
  s.wr F.RDO_XT_CTRL_PENDING [t, l] 0

/-- A write to the weights of the tone and set that RDO_WSEL selects: discarded while a window that latched the set is
open. -/
def State.weightWrite (s : State) (t l d : Nat) (v : Word) : State :=
  let tone := s.rd F.RDO_WSEL_TONE [t, l]
  let set := s.rd F.RDO_WSEL_SET [t, l]
  let mine := fun (w : Window) => w.on t l && decide (w.tone = tone) && decide (w.set = set) && w.latch.isSome
  if s.rdo.windows.any (fun w => mine w && w.openAt s.now) then s.wr F.RDO_STATUS_W_REFUSED [t, l] 1
  else
    let key := weightKey (8 * t + l) tone set d
    let old := SMap.get 0x7FFF s.stores.weights key
    let s := s.updWindows (fun w =>
      if mine w && w.raw.isNone && !w.oldW.any (fun e => decide (e.1 = d)) then { w with oldW := w.oldW ++ [(d, old)] } else w)
    { s with stores := { s.stores with weights := SMap.put 0x7FFF s.stores.weights key v } }

/-- WEIGHT_WRITE. -/
def execWeightWrite (tile line d : Nat) (value : Word) (s : State) : Host.Outcome State Fault Refusal :=
  if tile < s.variant.tiles ∧ line < 8 ∧ d < 4096 then .next (s.weightWrite tile line d value) else .next s

end Sys2Proof.Machine
end

