-- ==== Sys2Proof/Machine/CapTap.lean ====
section
/-! DEFINITION. What a capture engine taps (11 R267): the readout input, a demodulator, or the codes that a drive or probe
output renders; and the commands CAP_TRIGGER and CAP_RECORD_DONE, which carry the raw codes of the line's ADC. -/

namespace Sys2Proof.Machine

/-! ## Taps (R267) -/

/-- A Q1.17 value as a stored Q1.15 sample: rounded (R510), within 16 bits. -/
def toQ15 (v : Int) : Int := max (-32768) (min 32767 (roundDiv v 4))

/-- Tap sample `m` of a demodulator, from raw codes that begin at ADC sample `first`: centred on ADC sample 8m + 4, with
the frequency word and DPHASE in force. -/
def State.demodTap (s : State) (t l tone first : Nat) (codes : List Int) (m : Nat) : Int × Int :=
  let v := s.toneLatch t l tone
  let z := Config.firOut ((List.range 48).map (fun i =>
    let n := 8 * m + i - 20
    mix (demodPhase v.ftw.toNat v.dphase.toNat (s.gridSample (2 * n))) (s.sample t l n codes (n - first))))
  (toQ15 z.1.toInt, toQ15 z.2.toInt)

/-- The tap samples that raw codes of the tapped line from ADC sample `first` on give: the index of the first, and the
samples. -/
def State.tapInput (s : State) (t first : Nat) (codes : List Int) : Nat × List (Int × Int) :=
  let c := (s.cap t).set
  let l := c.tap / 4 % 64
  if c.kind = 0 then
    (first, (List.range codes.length).map (fun i => (toQ15 (s.sample t l (first + i) codes i), 0)))
  else
    let m := (first + 27) / 8
    let k := (first + codes.length + 4) / 8 - (m + 3)
    (m, (List.range k).map (fun i => s.demodTap t l (c.tap / 256) first codes (m + i)))

/-- Raw codes of the tapped line reach the engine, from ADC sample `first` of grid time on. None lies in the future; in
WAIT_TIME none in the present tick, in which REARM may begin. -/
def State.tapCodes (s : State) (t first : Nat) (codes : List Int) : State :=
  let n := s.tapIndex 0 first
  let limit := if s.capState t = cWait then s.now else s.now + 1
  if t < s.variant.tiles ∧ (s.cap t).set.kind < 2 ∧ codes.all (fun c => decide (-2048 ≤ c) && decide (c ≤ 2047)) ∧
      n + codes.length ≤ 64 * limit then
    let p := s.tapInput t n codes
    s.capFeed t p.1 p.2
  else s

/-- The codes of the present tick of a tapped output reach the engine of a tile: those its samples are rendered to,
whether the ball is muted or not. -/
def State.tapLoop (s : State) (t : Nat) : State :=
  let c := (s.cap t).set
  if s.capState t = cIdle ∨ c.kind < 2 then s
  else
    let s := s.rearmEnd t
    let k : OutKind := if c.kind = 2 then .drive else .probe
    s.capFeed t (128 * s.now) ((List.range 128).map (fun i => (s.outCode k t (c.tap / 4 % 64) (128 * s.now + i), 0)))

def State.tapLoops (s : State) : State := (List.range s.variant.tiles).foldl State.tapLoop s

/-- No engine that runs taps an output. -/
def State.loopsQuiet (s : State) : Bool :=
  (List.range s.variant.tiles).all (fun t => decide (s.capState t = cIdle) || decide ((s.cap t).set.kind < 2))

/-! ## Commands -/

/-- CAP_TRIGGER (R270-R274): tapped samples reach the evaluators; the first of ARMED that meets an enabled condition
triggers the engine. -/
def execCapTrigger (t first : Nat) (codes : List Int) (s : State) : Host.Outcome State Fault Refusal :=
  .next (s.tapCodes t first codes)

/-- CAP_RECORD_DONE (R269, R275-R277): further samples, and the gaps among them. Once the record's last sample is taken its
samples are in memory and the engine is DONE; a job that holds it ends with its results staged. -/
def execCapRecordDone (t : Nat) (late : Samples) (gaps : List (Nat × Nat)) (s : State) :
    Host.Outcome State Fault Refusal :=
  let s := s.tapCodes t late.first late.codes
  let r := s.cap t
  if (s.capState t = cTriggered ∨ r.aborted.isSome) ∧ r.gapsOk gaps then
    let s := gaps.foldl (fun s _ => s.note (.tile t 106) 3 0) (s.setCap t { r with gaps := r.gaps ++ gaps })
    .next (if (s.cap t).allIn then s.capFinish t else s)
  else .next s

end Sys2Proof.Machine
end

