-- ==== Sys2Proof/Machine/Threads.lean ====
section
/-! DEFINITION. What gate-level instructions and microcode share (03, 04): issuing an instruction within the slots of its
tick, machine checks, nano-words and pulses, windows, waits and barriers. -/

namespace Sys2Proof.Machine

/-! ## Small helpers -/

def vget {n : Nat} (v : Vector Word n) (i : Nat) : Word := v[i]?.getD 0

/-- A thread's general register. -/
def Thread.reg (t : Thread) (i : Nat) : Word := vget t.g i
def Thread.setReg (t : Thread) (i : Nat) (v : Word) : Thread := { t with g := t.g.setIfInBounds i v }
def Thread.frameAt (t : Thread) (i : Nat) : Word := vget t.fr i
def Thread.setFrame (t : Thread) (i : Nat) (v : Word) : Thread := { t with fr := t.fr.setIfInBounds i v }
def Thread.counter (t : Thread) (i : Nat) : Word := vget t.lc i
def Thread.setCounter (t : Thread) (i : Nat) (v : Word) : Thread := { t with lc := t.lc.setIfInBounds i v }

/-- Numbers of the bits set in an 8-bit mask. -/
def maskBits (n m : Nat) : List Nat := (List.range n).filter (fun i => bit m i)

/-- Indices of a thread's cluster, for its registers. -/
def clIx (g : Nat) : List Nat := [thrTile g, thrCluster g]

/-- Banks a thread reads. -/
def State.uBank (s : State) (g : Nat) : Bool := bit (s.rd F.CLU_UCODE_STATUS_UBANK (clIx g)) (thrIndex g)
def State.nBank (s : State) (g : Nat) : Bool := bit (s.rd F.CLU_UCODE_STATUS_NBANK (clIx g)) (thrIndex g)

def bankKey (gc : Nat) (b : Bool) : Nat := 2 * gc + if b then 1 else 0
/-- A micro-store word: 0 where nothing has filled it, in the user region too (R100, log 10). -/
def State.microAt (s : State) (gc : Nat) (b : Bool) (a : Nat) : Word := SMap.get 0 s.stores.micro (16384 * bankKey gc b + a)
def State.nanoAt (s : State) (gc : Nat) (b : Bool) (i : Nat) : NanoWord := SMap.get 0 s.stores.nano (4096 * bankKey gc b + i)

/-- The instruction at an address of a cluster's program SRAM. -/
def State.gateAt (s : State) (gc a : Nat) : GateWord := SMap.get 0 s.stores.sram (65536 * gc + a)

/-- The error status that ends a shot. -/
def stSlip : Nat := 0x01
def stIllegalOp : Nat := 0x02
def stOperand : Nat := 0x03
def stReach : Nat := 0x04
def stStack : Nat := 0x05
def stPcRange : Nat := 0x06
def stBrdLate : Nat := 0x07
def stTrigTimeout : Nat := 0x08
def stSyncTimeout : Nat := 0x09
def stSyncMiss : Nat := 0x0A
def stOverrun : Nat := 0x0B
def stPeer : Nat := 0x0C
def stMchk : Nat := 0x0D
def stUnderrun : Nat := 0x0F

/-! ## Issue (R65-R68, R103) -/

/-- The thread can issue an instruction now. -/
def Thread.issues (t : Thread) (now : Nat) : Bool :=
  decide (t.st = 1) && decide (t.issue ≤ now) &&
    (match t.peerEnd with | some d => decide (t.issue ≤ d) | none => true)

/-- PC lies in the thread's region. -/
def Thread.inRegion (t : Thread) : Bool := decide (t.base ≤ t.pc) && decide (t.pc ≤ t.last)

/-- An issuing thread whose PC has left its region ends its shot (R91). -/
def State.checkPc (s : State) (g : Nat) : State :=
  let t := s.thr g
  if t.st = 1 ∧ !t.inRegion then s.endThread g stPcRange t.issue else s

/-- The instruction does not fit in its tick (R68). -/
def State.slip (s : State) (g : Nat) : State :=
  let s := s.updThr g (fun t => { t with slips := min 65535 (t.slips + 1) })
  (s.note (.tile (thrTile g) (80 + thrCluster g)) 6 (thrIndex g)).endThread g stSlip (s.thr g).issue

/-- Charges microwords to the issue tick. -/
def Thread.charge (t : Thread) (n : Nat) : Thread := { t with used := t.used + n, peak := max t.peak (t.used + n) }

/-- Why an instruction ends its shot: a status, a machine check that the microcode causes at a micro address, or a store
word that fails (R72, R119, R118). -/
inductive Ending where
  | status (st : Nat)
  | code (addr cause : Nat)
  | store (kind : StoreKind) (addr : Nat)
  deriving DecidableEq, Repr

/-- Operand bits of an instruction. -/
def opr (w : GateWord) (lo width : Nat) : Nat := bits w.toNat lo width

def opcode (w : GateWord) : Nat := opr w 58 6

/-! ## Machine checks (R118-R120) -/

/-- CAUSE of a store's error. -/
def storeCause : StoreKind → Nat
  | .micro => 1
  | .nano => 2

/-- CLU_MCHK and its tick. -/
def State.showMchk (s : State) (g addr cause : Nat) (bank reload hard : Bool) : State :=
  let ix := clIx g
  let s := (s.wr F.CLU_MCHK_ADDR ix addr).wrB F.CLU_MCHK_BANK ix bank
  let s := (s.wr F.CLU_MCHK_THREAD ix (thrIndex g)).wr F.CLU_MCHK_CAUSE ix cause
  let s := (s.wrB F.CLU_MCHK_RELOADING ix reload).wrB F.CLU_MCHK_HARD ix hard
  (s.count F.CLU_MCHK_COUNT ix 1).wr F.CLU_MCHK_TICK_TICK ix (short s.grid)

/-- A machine check that the microcode causes (R119): MSTACK 3, COST 4, ADV 5, MFETCH 6. -/
def State.codeCheck (s : State) (g addr cause : Nat) : State :=
  let s := s.showMchk g addr cause (s.uBank g) false false
  (s.note (.tile (thrTile g) (80 + thrCluster g)) 5 (thrIndex g)).endThread g stMchk (s.thr g).issue

/-- The bank of a store that serves in place of one: it has not failed. -/
def State.bankFailed (s : State) (t c : Nat) (store : StoreKind) (b : Bool) : Bool :=
  match store, b with
  | .micro, false => s.rdB F.CLU_UCODE_STATUS_U0_FAILED [t, c]
  | .micro, true => s.rdB F.CLU_UCODE_STATUS_U1_FAILED [t, c]
  | .nano, false => s.rdB F.CLU_UCODE_STATUS_NA_FAILED [t, c]
  | .nano, true => s.rdB F.CLU_UCODE_STATUS_NB_FAILED [t, c]

/-- A stage loses one cluster: the image staged there is discarded and reported, and with the last one the stage is
empty (R120, log 104). -/
def State.unstage (s : State) (gc : Nat) : State :=
  match s.stores.ustage with
  | some u =>
    if !u.clusters.contains gc then s
    else
      let rest := u.clusters.filter (fun c => decide (c ≠ gc))
      let s := s.emit (.patchDiscarded gc)
      if rest.isEmpty then
        let s := { s with stores := { s.stores with ustage := none } }
        ((s.wr F.SPN_MCODE_STAGE_STATE [] 0).wr F.SPN_MCODE_STAGE_VENDOR [] 0).wr F.SPN_MCODE_STAGE_USER [] 0
      else
        { s with stores := { s.stores with ustage := some { u with
            clusters := rest, userClusters := u.userClusters.filter (fun c => decide (c ≠ gc)),
            targets := u.targets.filter (fun e => decide (e.1 ≠ gc)) } } }
  | none => s

/-- A bank is hard-failed (R120): an image staged in the cluster's other bank is discarded and the other bank is being
filled; where the other bank has failed too, or is itself being filled for a failed one, the cluster is fenced. Other
clusters keep what is staged in them (log 104). -/
def State.hardFail (s : State) (g : Nat) (store : StoreKind) (b : Bool) : State :=
  let t := thrTile g
  let c := thrCluster g
  let beside := s.stores.bankRepl.any (fun r => decide (r.cluster = thrGc g) && decide (r.store = store) && decide (r.bank ≠ b))
  if s.bankFailed t c store (!b) || beside then s.fault (.tile t (80 + c)) 0 8
  else
    let s := if store = .micro then s.unstage (thrGc g) else s
    { s with stores := { s.stores with bankRepl := s.stores.bankRepl ++ [⟨thrGc g, store, b, s.now, false⟩] } }

/-- A store word of a thread's cluster is poisoned. -/
def State.poisoned (s : State) (gc : Nat) (store : StoreKind) (b : Bool) (a : Nat) : Bool :=
  s.stores.poison.any (fun w => decide (w.cluster = gc) && decide (w.store = store) && decide (w.bank = b) &&
    decide (w.addr = a))

/-- A store word fails on a thread's fetch (R118-R120): the shot ends with MCHK, the word is poisoned and its reload
begins; under CONTINUITY the shot is to be re-run once the reload is verified. -/
def State.storeCheck (s : State) (g : Nat) (store : StoreKind) (a : Nat) : State :=
  let gc := thrGc g
  let b := match store with | .micro => s.uBank g | .nano => s.nBank g
  let cause := storeCause store
  let again := s.stores.reloaded.any (fun w => decide (w.cluster = gc) && decide (w.store = store) && decide (w.bank = b) &&
    decide (w.addr = a) && decide (s.now ≤ w.tick + 156250000))
  let new := !s.poisoned gc store b a
  let s := s.showMchk g a cause b true (again && new)
  let s := if new then
      { s with stores := { s.stores with poison := s.stores.poison ++ [⟨gc, store, b, a, s.now, g, cause⟩] } }
    else s
  let job := (s.thr g).job
  let s := s.endThread g stMchk (s.thr g).issue
  let s := match job with
    | some j => if s.reruns (s.job j) then s.updJob j (fun r => r.await_ (.reload gc store b a)) else s
    | none => s
  if again && new then s.hardFail g store b else s

/-- A nano-word quarter had one bit error, corrected on the fly. -/
def State.nanoCorrected (s : State) (g : Nat) : State :=
  (s.count F.CLU_NANO_CORR_COUNT (clIx g) 1).note (.tile (thrTile g) (80 + thrCluster g)) 4 (thrIndex g)

/-! ## Carrying out an instruction (R68, R103-R105) -/

def State.endBy (s : State) (g : Nat) (e : Ending) : State :=
  match e with
  | .status st => s.endThread g st (s.thr g).issue
  | .code addr cause => s.codeCheck g addr cause
  | .store kind addr => s.storeCheck g kind addr

/-- Issues a thread's next instruction when its word is one that `ok` accepts: it slips, or is charged and runs `body`,
which answers the state after it or why the shot ends, in which case nothing of it is committed (R105). `fetch` is what
the stores' error correction does on its fetches. -/
def State.issueWord (s : State) (g : Nat) (ok : GateWord → Bool) (cost : State → GateWord → Nat)
    (fetch : State → GateWord → State) (body : State → GateWord → Except Ending State) : State :=
  let t := s.thr g
  let w := s.gateAt (thrGc g) t.pc
  if t.issues s.now && ok w then
    if !t.inRegion then s.endThread g stPcRange t.issue
    else if 8 < t.used + cost s w then s.slip g
    else
      let s := fetch (s.setThr g (t.charge (cost s w))) w
      match body s w with
      | .ok s' => s'.checkPc g
      | .error e => s.endBy g e
  else s

/-- Address of an instruction's dispatch entry (R101): the selector is read from the operand where the first entry of its
opcode says; PLAY's is AREG and PREG. -/
def State.entryAt (s : State) (g : Nat) (w : GateWord) : Nat :=
  let op := opcode w
  let base := if 0x30 ≤ op ∧ op ≤ 0x37 then 0x3C00 + 4 * (op - 0x30) else 4 * op
  let e := (s.microAt (thrGc g) (s.uBank g) base).toNat
  base + (if op = 0x01 then opr w 37 2 else if bits e 25 2 = 0 then 0 else opr w (bits e 19 6) (bits e 25 2))

/-- The dispatch entry fails on its fetch: a parity error, or a poisoned word (R118). -/
def State.dispatchFails (s : State) (g : Nat) (ev : FetchEv) (w : GateWord) : Bool :=
  decide (ev = .microParity (s.entryAt g w)) || s.poisoned (thrGc g) .micro (s.uBank g) (s.entryAt g w)

/-- What an instruction of 03 meets in the micro-store (R118): a parity error at an address of its vendor microcode, or a
poisoned dispatch entry. -/
def State.fetchFails (s : State) (g : Nat) (ev : FetchEv) (w : GateWord) : Option Ending :=
  match ev with
  | .microParity a => some (.store .micro a)
  | _ => if s.dispatchFails g ev w then some (.store .micro (s.entryAt g w)) else none

/-- PC moves to the next address. -/
def Thread.advance (t : Thread) : Thread := { t with pc := t.pc + 1 }

/-- A gate-level instruction of a fixed opcode and a cost that its word gives: PC advances unless its effect sets it. A
dispatch entry that fails on its fetch gives no cost to charge. -/
def State.issueOp (s : State) (g : Nat) (ev : FetchEv) (op : Nat) (cost : GateWord → Nat)
    (body : State → GateWord → Except Nat State) : State :=
  s.issueWord g (fun w => decide (opcode w = op)) (fun s w => if s.dispatchFails g ev w then 0 else cost w) (fun s _ => s)
    (fun s w =>
      match s.fetchFails g ev w with
      | some e => .error e
      | none => (body (s.updThr g Thread.advance) w).mapError .status)

/-! ## Nano-words (R113) -/

/-- A nano-word's fields. -/
structure Nano where
  base    : Nat
  stream  : Bool
  len     : Nat
  ampI    : Nat
  ampQ    : Nat
  phase   : Nat
  frame   : Nat
  frEn    : Bool
  slot    : Nat
  slotCur : Bool
  off     : Nat
  tkind   : Nat
  lane    : Nat
  tmask   : Nat
  tchan   : Nat
  mark    : Nat
  interp  : Nat
  urun    : Bool
  valid   : Bool
  /-- every RSV bit is 0 -/
  rsvOk   : Bool
  deriving DecidableEq, Repr

def decodeNano (w : NanoWord) : Nano :=
  let n := w.toNat
  { base := bits n 0 20, stream := bit n 20, len := bits n 24 20, ampI := bits n 48 16, ampQ := bits n 64 16,
    phase := bits n 80 16, frame := bits n 96 3, frEn := bit n 99, slot := bits n 100 4, slotCur := bit n 104,
    off := bits n 105 7, tkind := bits n 112 2, lane := bits n 114 1, tmask := bits n 120 8, tchan := bits n 128 6,
    mark := bits n 136 4, interp := bits n 140 2, urun := bit n 142, valid := bit n 143,
    rsvOk := decide (bits n 21 3 = 0) && decide (bits n 44 4 = 0) && decide (bits n 115 5 = 0) &&
      decide (bits n 134 2 = 0) && decide (bits n 176 80 = 0) }

/-- The target lies within a cluster's reach (01 R19). -/
def Nano.reaches (n : Nano) (cluster : Nat) : Bool :=
  if n.tkind = 1 then decide (cluster = 8) else decide (cluster < 8)

/-! ## Pulses (R78, R79, R105, R140, 07 R185) -/

/-- Sets a flag in a thread's shot that began at a tick, running or just ended. -/
def State.flagShot (s : State) (g shot i : Nat) : State :=
  s.updThr g (fun t => t.flagShot shot i)

def Pulse.sameLane (a b : Pulse) : Bool :=
  decide (a.kind = b.kind) && decide (a.tile = b.tile) && decide (a.chan = b.chan) && decide (a.lane = b.lane)

/-- A commitment on an output of a kind, to the gap step at work on its unit. -/
def State.commitOut (s : State) (k : OutKind) (t c : Nat) : State :=
  match k with
  | .drive => s.commitOn ⟨1, t, c⟩
  | .probe => s.commitOn ⟨3, t, c⟩
  | .flux => s.commitOn ⟨4, t, c⟩
  | .bias => s.commitOn ⟨5, t, c⟩

/-- Places a pulse on its lane: ordered by start samples; a later start cuts an earlier pulse; of two with the same start
the one later in program order plays. Its first sample comes in this tick or in a later one. -/
def State.placePulse (s : State) (p : Pulse) : State :=
  let same := s.outs.pulses.filter (fun q => q.sameLane p && decide (q.start = p.start))
  if same.any (fun q => decide (p.thr < q.thr)) then s.flagShot p.thr p.shot 4
  else
    let s := same.foldl (fun s q => s.flagShot q.thr q.shot 4) s
    let cutBy := fun (q : Pulse) => q.sameLane p && decide (q.start < p.start) && decide (p.start < q.stop)
    let s := (s.outs.pulses.filter cutBy).foldl (fun s q => s.flagShot q.thr q.shot 4) s
    let later := (s.outs.pulses.filter (fun q => q.sameLane p && decide (p.start < q.start) && decide (q.start < p.stop))).map
      (fun q => q.start)
    let cut := later.foldl (fun (o : Option Nat) n => some (match o with | some m => min m n | none => n)) p.cut
    let s := if later.isEmpty then s else s.flagShot p.thr p.shot 4
    let kept := s.outs.pulses.filter (fun q => !(q.sameLane p && decide (q.start = p.start)))
    let kept := kept.map (fun q => if cutBy q then { q with cut := some p.start } else q)
    let begun := decide (p.start < 128 * (s.now + 1))
    let s := s.commitOut p.kind p.tile p.chan
    let s := { s with outs := { s.outs with pulses := kept ++ [{ p with cut := cut, begun := begun }] } }
    if begun then s.startOn p.kind p.tile p.chan else s

/-- The frequency word of a slot of a lane, or of a probe tone. -/
def State.freqWord (s : State) (k : OutKind) (t c lane slot : Nat) : Nat :=
  match k with
  | .drive => s.rd F.DRV_FREQ_FTW_LO [t, c, lane, slot] + 2 ^ 32 * s.rd F.DRV_FREQ_FTW_HI [t, c, lane, slot]
  | .flux => s.rd F.FLX_FREQ_FTW_LO [t, c, lane, slot] + 2 ^ 32 * s.rd F.FLX_FREQ_FTW_HI [t, c, lane, slot]
  | .probe => s.rd F.RDO_TONE_FTW_LO_FTW_LO [t, c, lane] + 2 ^ 32 * s.rd F.RDO_TONE_FTW_HI_FTW_HI [t, c, lane]
  | .bias => 0

/-- What a pulse latches at its start (R70, R134): the frequency word of its slot and, of the thread that placed it, the
frame and the current slot as the instructions before its start leave them; in the tick of the PLAY itself program order
decides, and a later shot of the thread does not reach it (log 77). -/
def State.latchPulse (s : State) (p : Pulse) : Pulse :=
  let t := s.thr p.thr
  let own := decide (t.start = p.shot) && decide (p.commit < p.start / 128)
  let slot := if p.slotCur && own then (t.slots[8 * p.lane + p.chan % 8]?.getD 0).toNat else p.slot
  { p with
    slot := slot, ftw := BitVec.ofNat 48 (s.freqWord p.kind p.tile p.chan p.lane slot),
    frame := match p.frameIx with
      | some i => if own then t.frameAt i else p.frame
      | none => 0 }

/-- The pulses that start at a sample or later latch what is in force now. -/
def State.relatchPulses (s : State) (from_ : Nat) : State :=
  { s with outs := { s.outs with pulses := s.outs.pulses.map (fun p => if from_ ≤ p.start then s.latchPulse p else p) } }

/-- The pulses whose first sample lies in the present tick begin (R142, R143). -/
def State.beginPulses (s : State) : State :=
  let first := fun (p : Pulse) => !p.begun && decide (p.start < 128 * (s.now + 1))
  let go := s.outs.pulses.filter first
  let s := { s with outs := { s.outs with pulses := s.outs.pulses.map (fun p => if first p then { p with begun := true } else p) } }
  go.foldl (fun s p => s.startOn p.kind p.tile p.chan) s

/-- The pulses a nano-word describes, without their stream tap: drive and probe by mask, flux by channel. -/
def State.pulsesOf (s : State) (g : Nat) (n : Nano) (start : Nat) : List Pulse :=
  let t := s.thr g
  let tile := thrTile g
  let cl := thrCluster g
  let mk := fun (k : OutKind) (c lane slot mark : Nat) (cur : Bool) =>
    let p : Pulse :=
      { kind := k, tile := tile, chan := c, lane := lane, slot := slot, slotCur := cur, start := start, envLen := n.len,
        envBase := if n.stream then n.base % 64 else n.base, stream := n.stream, ampI := BitVec.ofNat 16 n.ampI,
        ampQ := BitVec.ofNat 16 n.ampQ, ftw := BitVec.ofNat 48 (s.freqWord k tile c lane slot),
        frameIx := if n.frEn then some n.frame else none, frame := if n.frEn then t.frameAt n.frame else 0, phase := BitVec.ofNat 16 n.phase, mark := BitVec.ofNat 4 mark,
        interp := BitVec.ofNat 2 n.interp, urun := n.urun, thr := g, shot := t.start, commit := t.issue, cut := none, begun := false }
    p
  if n.tkind = 0 then
    (maskBits 8 n.tmask).map (fun i =>
      mk .drive (8 * cl + i) n.lane (if n.slotCur then (t.slots[8 * n.lane + i]?.getD 0).toNat else n.slot) n.mark n.slotCur)
  else if n.tkind = 1 then (maskBits 8 n.tmask).map (fun i => mk .probe i (n.tchan % 16) 0 n.mark false)
  else [mk .flux n.tchan n.lane n.slot 0 false]

/-- Starts the pulse of a nano-word at the thread's issue tick plus its offset; a bias target places a code (R186). -/
def State.emitPulse (s : State) (g : Nat) (n : Nano) : Except Nat State :=
  let t := s.thr g
  let start := 128 * t.issue + n.off
  if !n.valid || decide (254 < n.off) then .error stOperand
  else if !n.reaches (thrCluster g) then .error stReach
  else if n.tkind = 3 then
    .ok ((s.placeCode (thrTile g) n.tchan ⟨start, BitVec.ofInt 20 (signed 16 n.ampI * 16), false, g⟩).startOn .bias (thrTile g) n.tchan)
  else
    let ps := s.pulsesOf g n start
    let place := fun (s : State) => ps.foldl State.placePulse s
    if n.stream then
      match s.tapStream (thrTile g) (n.base % 64) start (match t.job with | some j => (s.job j).part | none => 64) with
      | none => .error stReach
      | some s' => .ok (place s')
    else .ok (place (s.envRead (thrTile g) n.base n.len))

/-! ## Slots, frequencies, markers (R81, R93, R95) -/

/-- SETF: the current slot of a lane on each channel of a mask. -/
def Thread.selectSlot (t : Thread) (chm lane slot : Nat) : Thread :=
  { t with slots := (maskBits 8 chm).foldl (fun v i => v.setIfInBounds (8 * lane + i) (BitVec.ofNat 4 slot)) t.slots }

/-- SWEEP DEST 1 and FRQ: bits [47:16] of a slot's frequency word on each channel of a mask. -/
def State.sweepFreq (s : State) (g chm lane slot : Nat) (v : Word) : State :=
  (maskBits 8 chm).foldl (fun s i =>
    let ix := [thrTile g, 8 * thrCluster g + i, lane, slot]
    (s.wr F.DRV_FREQ_FTW_LO ix (v.toNat * 65536)).wr F.DRV_FREQ_FTW_HI ix (v.toNat / 65536)) s

/-- Levels of a channel after MARK. -/
def newLevels (old val mask : BitVec 4) : BitVec 4 := (old &&& ~~~mask) ||| (val &&& mask)

/-- MARK: an edge of the static levels of each output in a mask, at the issue tick plus an offset. -/
def State.markEdges (s : State) (g chm val mask soff : Nat) : State :=
  let probe := decide (thrCluster g = 8)
  (maskBits 8 chm).foldl (fun s i =>
    let t := s.thr g
    let lv := newLevels (t.marks[i]?.getD 0) (BitVec.ofNat 4 val) (BitVec.ofNat 4 mask)
    let e : MarkEdge :=
      { probe := probe, tile := thrTile g, chan := if probe then i else 8 * thrCluster g + i,
        sample := 128 * t.issue + soff, levels := lv,
        mask := BitVec.ofNat 4 mask }
    let s := s.setThr g { t with marks := t.marks.setIfInBounds i lv }
    { s with outs := { s.outs with marks := s.outs.marks ++ [e] } }) s

/-- SWEEP and GEN: the next value of an enabled generator. -/
def State.advanceGen (s : State) (g gen : Nat) : Except Nat (Word × State) :=
  if gen < 32 ∧ s.rdB F.TIL_GEN_CTRL_EN [thrTile g, gen] then .ok (s.genAdvance (thrTile g) gen) else .error stOperand

/-- PUB: publishes a class to a slot the thread owns. -/
def State.pubSlot (s : State) (g p cls : Nat) : Except Nat State :=
  let t := s.thr g
  let mine := match s.slotUser (960 + p), t.job with
    | .pub j h, some k => decide (j = k) && decide (h = g)
    | _, _ => false
  if !mine then .error stReach
  else if cls = 3 then .error stOperand
  else
    let tick := s.gridAt t.issue
    .ok (s.publish (thrTile g) (writeOf (960 + p) cls srcPub false false tick tick))

/-! ## MEAS (R86, R87, 09 R222, R230, R231, R239) -/

/-- Opens the window of one tone, or flags MEAS_OVERLAP. -/
def State.openWindow (s : State) (g line tone set w0 widx : Nat) (nodec nores : Bool) : State :=
  let t := s.thr g
  let tile := thrTile g
  let wlen := if set = 0 then s.rd F.RDO_TONE_WLEN_WLEN0 [tile, line, tone] else s.rd F.RDO_TONE_WLEN_WLEN1 [tile, line, tone]
  let busy := s.rdo.windows.any (fun w => w.on tile line && decide (w.tone = tone) && decide (w0 < w.e))
  let zero := decide (s.freqWord .probe tile line tone 0 = 0)
  if busy || zero then s.updThr g (fun t => t.flag 2)
  else
    let w : Window :=
      { tile := tile, line := line, tone := tone, set := set, thr := g, job := t.job, shot := t.start,
        shotNo := (match t.job with | some j => (s.job j).no | none => 0), issue := t.issue,
        w0 := w0, e := w0 + 8 * wlen, wlen := wlen, group := (s.line tile line).measCount,
        xt := s.rdB F.RDO_XT_CTRL_EN [tile, line], nodec := nodec, nores := nores, widx := widx, latch := none,
        rangeSettle := false, overrange := false, sat := false, gapped := false, dead := false, raw := none, out := none,
        oldW := [] }
    let s := ({ s with rdo := { s.rdo with windows := s.rdo.windows ++ [w] } }).commitOn ⟨3, tile, line⟩
    s.publish tile (invalOf (128 * tile + 16 * line + tone) (s.gridAt t.issue))

/-- MEAS on a line: every such MEAS counts toward WIDX; a fenced line opens nothing. -/
def State.openWindows (s : State) (g line tmask set soff : Nat) (nodec nores : Bool) : State :=
  let t := s.thr g
  let tile := thrTile g
  let key := 1024 * (8 * tile + line) + (t.job.getD 0)
  let n := SMap.get 0 s.rdo.widx key
  let s := { s with rdo := { s.rdo with widx := SMap.put 0 s.rdo.widx key (n + 1) } }
  let r := s.line tile line
  let s := s.setLine tile line { r with measCount := r.measCount + 1 }
  if s.fenced ⟨3, tile, line⟩ then s
  else
    let w0 := 64 * t.issue + soff + 512 + s.rd F.RDO_IN_DELAY_DELAY [tile, line]
    (maskBits 16 tmask).foldl (fun s k => s.openWindow g line k set w0 (min n 1023) nodec nores) s

/-! ## Waits (R82-R96, 04 R111) -/

/-- A thread waits; STATE tells what for. -/
def Thread.await_ (t : Thread) (st : Nat) (w : WaitRec) : Thread := { t with st := st, wait := w }

/-- A waiting thread goes on: its next instruction issues at a tick. -/
def State.resumeThread (s : State) (g tick : Nat) : State :=
  (s.updThr g (fun t => { t with st := 1, wait := .none, issue := tick, used := 0 })).checkPc g

/-- CUSTOM waits show STATE 6. -/
def waitSt (custom : Bool) (st : Nat) : Nat := if custom then 6 else st

/-- A relative wait of n ticks. -/
def State.waitFor (s : State) (g n : Nat) (custom : Bool) : Except Nat State :=
  if n = 0 ∨ 2 ^ 31 ≤ n then .error stOperand
  else .ok (s.updThr g (fun t => t.await_ (waitSt custom 2) (.until (t.issue + n) custom)))

/-- A wait until a short time: late when it is already reached. -/
def State.waitUntil (s : State) (g target : Nat) (custom : Bool) : State :=
  let t := s.thr g
  let now := s.gridAt t.issue
  if reached target (short now) then
    s.setThr g (({ t with waitLate := min 65535 (t.waitLate + 1) }.flag 0).await_ (waitSt custom 2)
      (.until (t.issue + 1) custom))
  else s.setThr g (t.await_ (waitSt custom 2) (.until (t.issue + (shortDiff target (short now)).toNat) custom))

/-- Release margin D: 9 ticks when the members span tiles, else 2 (R83). -/
def Barrier.margin (b : Barrier) : Nat :=
  match b.members with
  | [] => 2
  | g :: gs => if gs.all (fun h => decide (thrTile h = thrTile g)) then 2 else 9

/-- WAITING of the barrier on the tiles of its members. -/
def State.barWaiting (s : State) (b : Nat) (tiles : List Nat) (v : Bool) : State :=
  tiles.foldl (fun s t => s.wrB F.TIL_BAR_MEM_WAITING [t, b] v) s

/-- A thread arrives at a barrier. One that R73 has failed already, while the thread has still to stop, answers SYNC_MISS
(R85, log 77). -/
def State.arrive (s : State) (g b : Nat) (at_ : Bool) (val : Nat) (custom : Bool) : Except Nat State :=
  let t := s.thr g
  let r := s.bar b
  if !(r.members.contains g && decide (r.job = t.job) && t.job.isSome) then .error stReach
  else if r.failed.isSome then .error stSyncMiss
  else .ok ((s.setThr g (t.await_ (waitSt custom 3) (.barrier b at_ val t.issue custom))).barWaiting b [thrTile g] true)

/-- BRD and WAITD: the slots may all be valid already (R90). -/
def State.awaitBrd (s : State) (g slot num take tgt dl lact : Nat) (custom : Bool) : State :=
  let got := s.brdGot (thrTile g) slot num (s.thr g).issue
  s.updThr g (fun t => t.await_ (waitSt custom 4)
    (.brd slot num (BitVec.ofNat 16 take) (BitVec.ofNat 16 tgt) dl lact t.issue custom got))

/-- TRIG and WAITX. An edge already stamped in the issue tick counts (R96). -/
def State.awaitTrig (s : State) (g src tmo tact tgt : Nat) (custom : Bool) : State :=
  let t := s.thr g
  let edge := match (SMap.get .idle s.tdc.ins src).lastBin with
    | some b => if b / 5120 = t.issue then some t.issue else none
    | none => none
  s.setThr g (t.await_ (waitSt custom 5) (.trig src tmo tact (BitVec.ofNat 16 tgt) t.issue edge custom))

/-! ## Releases and time-outs -/

/-- WAIT_RELEASE. -/
def execWaitRelease (thr : Nat) (s : State) : Host.Outcome State Fault Refusal :=
  match (s.thr thr).wait with
  | .until tick _ => if tick ≤ s.now then .next (s.resumeThread thr tick) else .next s
  | _ => .next s

/-- The members waiting at a barrier: thread, mode, VAL, arrival. -/
def State.arrived (s : State) (b : Nat) : List (Nat × Bool × Nat × Nat) :=
  (s.bar b).members.filterMap (fun g =>
    match (s.thr g).wait with
    | .barrier c at_ val arr _ => if c = b then some (g, at_, val, arr) else none
    | _ => none)

/-- The tick at which the round releases: none while a member is missing, or when the round fails (R84, R85). -/
def State.releaseTick (s : State) (b : Nat) : Option Nat :=
  let r := s.bar b
  let ws := s.arrived b
  match ws with
  | [] => none
  | (g, at_, val, _) :: _ =>
    if ws.length ≠ r.members.length then none
    else if at_ then
      let tr := (s.thr g).start + val
      if ws.all (fun w => w.2.1 && decide (w.2.2.1 = val) && decide (w.2.2.2 + r.margin ≤ tr)) then some tr else none
    else
      let tr := ws.foldl (fun m w => max m w.2.2.2) 0 + r.margin
      if ws.all (fun w => !w.2.1 && decide (tr ≤ w.2.2.2 + w.2.2.1)) then some tr else none

/-- BARRIER_RELEASE. -/
def execBarrierRelease (bar : Nat) (s : State) : Host.Outcome State Fault Refusal :=
  match s.releaseTick bar with
  | some tr =>
    if tr ≤ s.now ∧ (s.bar bar).failed.isNone then
      let gs := (s.bar bar).members
      .next ((gs.foldl (fun s g => s.resumeThread g tr) s).barWaiting bar (gs.map thrTile) false)
    else .next s
  | none => .next s

/-- The earliest T_rel that an AT member of the round names (R85). -/
def State.missTick (s : State) (b : Nat) : Option Nat :=
  match ((s.arrived b).filter (fun w => w.2.1)).map (fun w => (s.thr w.1).start + w.2.2.1) with
  | [] => none
  | t0 :: rest => some (rest.foldl min t0)

/-- SYNC_TIMEOUT: a member in ASAP mode has waited VAL ticks without release; a round that fails before or at that tick
ends it with SYNC_MISS (R85). -/
def execSyncTimeout (thr : Nat) (s : State) : Host.Outcome State Fault Refusal :=
  match (s.thr thr).wait with
  | .barrier b false val arr _ =>
    let first : Bool := match s.missTick b with
      | some t => decide (arr + val < t)
      | none => true
    if arr + val ≤ s.now ∧ s.releaseTick b = none ∧ first = true then .next (s.endThread thr stSyncTimeout (arr + val)) else .next s
  | _ => .next s

/-- SYNC_MISS: the earliest T_rel that an AT member names has come and the round has not released. -/
def execSyncMiss (bar : Nat) (s : State) : Host.Outcome State Fault Refusal :=
  match s.missTick bar with
  | none => .next s
  | some t0 =>
    if t0 ≤ s.now ∧ s.releaseTick bar = none then
      .next ((s.arrived bar).foldl (fun s w => s.endThread w.1 stSyncMiss (max t0 w.2.2.2)) s)
    else .next s

/-- BRD_RESOLVE (R90): every named slot was valid by the deadline, in a tick A: the next instruction issues at A + 1. -/
def execBrdResolve (thr : Nat) (s : State) : Host.Outcome State Fault Refusal :=
  match (s.thr thr).wait with
  | .brd _ _ take tgt _ _ _ _ (some (a, key)) =>
    if a ≤ s.now then
      let s := if bit take.toNat key then s.updThr thr (fun t => { t with pc := tgt.toNat }) else s
      .next (s.resumeThread thr (a + 1))
    else .next s
  | _ => .next s

/-- BRD_LATE (R90): a named slot was not valid at the deadline; the late action, one tick after it. -/
def execBrdLate (thr : Nat) (s : State) : Host.Outcome State Fault Refusal :=
  match (s.thr thr).wait with
  | .brd _ _ _ tgt dl lact issue _ none =>
    let at_ := issue + dl + 1
    if at_ ≤ s.now then
      let s := s.updThr thr (fun t => { t with decLate := min 65535 (t.decLate + 1) }.flag 1)
      if lact = 2 then .next (s.endThread thr stBrdLate at_)
      else
        let s := if lact = 1 then s.updThr thr (fun t => { t with pc := tgt.toNat }) else s
        .next (s.resumeThread thr at_)
    else .next s
  | _ => .next s

/-- A stamped edge reaches the threads that wait for it: each keeps the first one. -/
def State.trigEdge (s : State) (src tick : Nat) : State :=
  { s with threads := s.threads.map (fun (e : Nat × Thread) =>
      match e.2.wait with
      | .trig q tmo tact tgt issue none custom =>
        if q = src ∧ issue ≤ tick ∧ tick ≤ issue + tmo then
          (e.1, { e.2 with wait := .trig q tmo tact tgt issue (some tick) custom })
        else e
      | _ => e) }

/-- TRIG_RELEASE (R96): 8 ticks after the edge's. -/
def execTrigRelease (thr : Nat) (s : State) : Host.Outcome State Fault Refusal :=
  match (s.thr thr).wait with
  | .trig _ _ _ _ _ (some e) _ => if e + 8 ≤ s.now then .next (s.resumeThread thr (e + 8)) else .next s
  | _ => .next s

/-- TRIG_TIMEOUT (R96). -/
def execTrigTimeout (thr : Nat) (s : State) : Host.Outcome State Fault Refusal :=
  match (s.thr thr).wait with
  | .trig _ tmo tact tgt issue none _ =>
    let at_ := issue + tmo + 8
    if at_ ≤ s.now then
      if tact = 2 then .next (s.endThread thr stTrigTimeout at_)
      else
        let s := if tact = 1 then s.updThr thr (fun t => { t with pc := tgt.toNat }) else s
        .next (s.resumeThread thr at_)
    else .next s
  | _ => .next s

/-- WAITS_RELEASE (04 R111): at the tick after the stream's next segment is ready. -/
def execWaitsRelease (thr : Nat) (s : State) : Host.Outcome State Fault Refusal :=
  match (s.thr thr).wait with
  | .stream k tmo issue =>
    if s.strmReady (thrTile thr) k ∧ issue ≤ s.now ∧ s.now ≤ issue + tmo then .next (s.resumeThread thr (s.now + 1))
    else .next s
  | _ => .next s

/-- WAITS_TIMEOUT (04 R111, 06 R176): the shot ends with UNDERRUN. -/
def execWaitsTimeout (thr : Nat) (s : State) : Host.Outcome State Fault Refusal :=
  match (s.thr thr).wait with
  | .stream k tmo issue =>
    if issue + tmo < s.now + 1 ∧ !(s.strmReady (thrTile thr) k ∧ s.now ≤ issue + tmo) then
      let shot := (s.thr thr).start
      .next ((s.endThread thr stUnderrun (issue + tmo)).underrunShot (thrTile thr) k thr shot)
    else .next s
  | _ => .next s

/-- PEER_STOP (R73). -/
def execPeerStop (thr : Nat) (s : State) : Host.Outcome State Fault Refusal :=
  match (s.thr thr).peerEnd with
  | some d => .next (s.endThread thr stPeer (min s.now d))
  | none => .next s

/-- MCHK_RELOAD_DONE (R118): the reload is verified, the poison cleared. -/
def execMchkReloadDone (tile cluster : Nat) (store : StoreKind) (bank : Bool) (addr : Nat) (s : State) :
    Host.Outcome State Fault Refusal :=
  let gc := 9 * tile + cluster
  if s.poisoned gc store bank addr then
    let mine := fun (w : BadWord) => decide (w.cluster = gc) && decide (w.store = store) && decide (w.bank = bank) &&
      decide (w.addr = addr)
    let thr := ((s.stores.poison.find? mine).map (fun w => w.thr)).getD (8 * gc)
    let w : BadWord := ⟨gc, store, bank, addr, s.now, thr, 0⟩
    let s := { s with stores :=
      { s.stores with
        poison := s.stores.poison.filter (fun w => !mine w),
        reloaded := s.stores.reloaded.filter (fun w => !mine w) ++ [w] } }
    let shown := decide (s.rd F.CLU_MCHK_ADDR [tile, cluster] = addr) && decide (s.rdB F.CLU_MCHK_BANK [tile, cluster] = bank) &&
      decide (s.rd F.CLU_MCHK_CAUSE [tile, cluster] = storeCause store)
    let s := if shown then s.wr F.CLU_MCHK_RELOADING [tile, cluster] 0 else s
    .next (s.note (.tile tile (80 + cluster)) 3 (thrIndex thr))
  else .next s

/-- The bank bits of a cluster's threads as a bank of a store. -/
def fBank (store : StoreKind) : Fld :=
  match store with
  | .micro => F.CLU_UCODE_STATUS_UBANK
  | .nano => F.CLU_UCODE_STATUS_NBANK

def fBankFailed (store : StoreKind) (b : Bool) : Fld :=
  match store, b with
  | .micro, false => F.CLU_UCODE_STATUS_U0_FAILED
  | .micro, true => F.CLU_UCODE_STATUS_U1_FAILED
  | .nano, false => F.CLU_UCODE_STATUS_NA_FAILED
  | .nano, true => F.CLU_UCODE_STATUS_NB_FAILED

/-- Copies a bank of a store over the other one. -/
def State.fillBank (s : State) (gc : Nat) (store : StoreKind) (from_ : Bool) : State :=
  match store with
  | .micro =>
    let src := s.stores.micro.filter (fun e => decide (e.1 / 16384 = bankKey gc from_))
    let rest := s.stores.micro.filter (fun e => decide (e.1 / 16384 ≠ bankKey gc (!from_)))
    let m := src.foldl (fun m e => SMap.put 0 m (16384 * bankKey gc (!from_) + e.1 % 16384) e.2) rest
    { s with stores := { s.stores with micro := m } }
  | .nano =>
    let src := s.stores.nano.filter (fun e => decide (e.1 / 4096 = bankKey gc from_))
    let rest := s.stores.nano.filter (fun e => decide (e.1 / 4096 ≠ bankKey gc (!from_)))
    let m := src.foldl (fun m e => SMap.put 0 m (4096 * bankKey gc (!from_) + e.1 % 4096) e.2) rest
    { s with stores := { s.stores with nano := m } }

/-- A thread reads another bank of a store. -/
def State.setBank (s : State) (g : Nat) (store : StoreKind) (b : Bool) : State :=
  s.wr (fBank store) (clIx g) (setBits (s.rd (fBank store) (clIx g)) (thrIndex g) 1 (if b then 1 else 0))

def State.bankOf (s : State) (g : Nat) (store : StoreKind) : Bool :=
  match store with
  | .micro => s.uBank g
  | .nano => s.nBank g

/-- Threads of a cluster by global index. -/
def clusterThreads (gc : Nat) : List Nat := (List.range 8).map (fun i => 8 * gc + i)

/-- The bank beside a failed one is written whole. -/
def State.markFilled (s : State) (r : BankRepl) : State :=
  { s with stores :=
    { s.stores with
      bankRepl := s.stores.bankRepl.map (fun q => if q = r then { q with filled := true } else q),
      poison := s.stores.poison.filter (fun w =>
        !(decide (w.cluster = r.cluster) && decide (w.store = r.store) && decide (w.bank ≠ r.bank))) } }

/-- Threads of the cluster that are not in a shot, or are at a shot boundary (`at_`), switch from a failed bank to the
filled one (R114, R120); the failed bank is retired once no thread reads it. -/
def State.moveReplaced (s : State) (r : BankRepl) (at_ : Nat → Bool) : State :=
  let gs := (clusterThreads r.cluster).filter (fun g => at_ g || !(s.thr g).active)
  let s := gs.foldl (fun s g => if s.bankOf g r.store = r.bank then s.setBank g r.store (!r.bank) else s) s
  if (clusterThreads r.cluster).any (fun g => decide (s.bankOf g r.store = r.bank)) then s
  else
    let same := fun (q : BankRepl) => decide (q.cluster = r.cluster) && decide (q.store = r.store) && decide (q.bank = r.bank)
    let s := { s with stores := { s.stores with bankRepl := s.stores.bankRepl.filter (fun q => !same q) } }
    let t := r.cluster / 9
    let c := r.cluster % 9
    ((s.wr (fBankFailed r.store r.bank) [t, c] 1).note (.tile t (80 + c)) 2 8).advise

/-- BANK_REPLACE_DONE (R120): the other bank holds the golden copy; each thread switches under R114; the failed bank is
retired and the cluster degraded once every thread reads the other bank. -/
def execBankReplaceDone (tile cluster : Nat) (store : StoreKind) (s : State) : Host.Outcome State Fault Refusal :=
  let gc := 9 * tile + cluster
  match s.stores.bankRepl.find? (fun r => decide (r.cluster = gc) && decide (r.store = store) && !r.filled) with
  | none => .next s
  | some r => .next (((s.fillBank gc store r.bank).markFilled r).moveReplaced r (fun _ => false))

end Sys2Proof.Machine
end

