-- ==== Sys2Proof/Machine/Gates.lean ====
section
/-! DEFINITION. The gate-level instructions (03 R76-R97): PLAY, FRAME, SETF, WAIT, SYNC, MEAS, BRD, JUMP, CALL, RET, LOOP,
SWEEP, MARK, TRIG and PUB. Each issues the next instruction of a thread when its word carries the command's opcode. -/

namespace Sys2Proof.Machine

/-- Operands of PLAY over a nano-word (R78): an amplitude or a phase offset from a register, immediate, or neither. -/
def playNano (t : Thread) (w : GateWord) (n : Nano) : Nano :=
  let n := { n with off := n.off + opr w 39 7 }
  let amp := if opr w 38 1 = 1 then some ((t.reg (opr w 19 4)).toNat % 65536)
    else if opr w 36 1 = 1 then some (opr w 19 16) else none
  let n := match amp with
    | some a => { n with ampI := a, ampQ := a }
    | none => n
  if opr w 37 1 = 1 then { n with phase := (t.reg (opr w 3 4)).toNat / 65536 }
  else if opr w 35 1 = 1 then { n with phase := opr w 3 16 }
  else n

/-- What a PLAY meets in the stores (R118): a word of the vendor microcode, or its nano-word. -/
def State.playFetch (s : State) (g : Nat) (w : GateWord) (ev : FetchEv) : Option Ending :=
  let nw := opr w 46 12
  match s.fetchFails g ev w with
  | some e => some e
  | none =>
    if ev = .nanoFatal ∨ s.poisoned (thrGc g) .nano (s.nBank g) nw then some (.store .nano nw) else none

/-- PLAY (R78). -/
def execPlay (thr : Nat) (ev : FetchEv) (s : State) : Host.Outcome State Fault Refusal :=
  .next (s.issueWord thr (fun w => decide (opcode w = 0x01))
    (fun s w => if s.dispatchFails thr ev w then 0 else 3 + opr w 38 1 + opr w 37 1)
    (fun s w => if ev = .nanoCorr && !s.dispatchFails thr ev w then s.nanoCorrected thr else s)
    (fun s w =>
      match s.playFetch thr w ev with
      | some e => .error e
      | none =>
        let n := playNano (s.thr thr) w (decodeNano (s.nanoAt (thrGc thr) (s.nBank thr) (opr w 46 12)))
        ((s.updThr thr Thread.advance).emitPulse thr n).mapError .status))

/-- FRAME (R80). -/
def execFrame (f : Fetch) (s : State) : Host.Outcome State Fault Refusal :=
  .next (s.issueOp f.thr f.ev 0x02 (fun _ => 2) (fun s w =>
    let t := s.thr f.thr
    let fr := opr w 55 3
    let v := if opr w 53 2 < 2 then BitVec.ofNat 32 (opr w 17 32) else t.reg (opr w 49 4)
    .ok (s.setThr f.thr (t.setFrame fr (if opr w 53 1 = 0 then t.frameAt fr + v else v)))))

/-- SETF (R81). -/
def execSetf (f : Fetch) (s : State) : Host.Outcome State Fault Refusal :=
  .next (s.issueOp f.thr f.ev 0x03 (fun _ => 2) (fun s w =>
    .ok (s.updThr f.thr (fun t => t.selectSlot (opr w 50 8) (opr w 49 1) (opr w 45 4)))))

/-- WAIT (R82). -/
def execWait (f : Fetch) (s : State) : Host.Outcome State Fault Refusal :=
  .next (s.issueOp f.thr f.ev 0x04 (fun _ => 2) (fun s w =>
    let t := s.thr f.thr
    let v := (t.reg (opr w 52 4)).toNat
    match opr w 56 2 with
    | 0 => s.waitFor f.thr (opr w 20 32) false
    | 1 => s.waitFor f.thr v false
    | 2 => .ok (s.waitUntil f.thr (short (s.gridAt t.start + opr w 20 32)) false)
    | _ => .ok (s.waitUntil f.thr v false)))

/-- SYNC (R83). -/
def execSync (f : Fetch) (s : State) : Host.Outcome State Fault Refusal :=
  .next (s.issueOp f.thr f.ev 0x05 (fun _ => 3) (fun s w =>
    s.arrive f.thr (opr w 53 5) (decide (opr w 52 1 = 1)) (opr w 20 32) false))

/-- MEAS (R86, R87); it is allowed in cluster 8 only (R76). -/
def execMeas (f : Fetch) (s : State) : Host.Outcome State Fault Refusal :=
  .next (s.issueOp f.thr f.ev 0x06 (fun _ => 4) (fun s w =>
    .ok (s.openWindows f.thr (opr w 55 3) (opr w 39 16) (opr w 38 1) (opr w 32 6) (decide (opr w 31 1 = 1))
      (decide (opr w 30 1 = 1)))))

/-- BRD (R88-R90). -/
def execBrd (f : Fetch) (s : State) : Host.Outcome State Fault Refusal :=
  .next (s.issueOp f.thr f.ev 0x07 (fun _ => 6) (fun s w =>
    .ok (s.awaitBrd f.thr (opr w 48 10) (opr w 46 2) (opr w 30 16) (opr w 14 16) (opr w 6 8) (opr w 4 2) false)))

/-- The condition of a JUMP on the value of its register. -/
def jumpTaken (jc : Nat) (v : Word) : Bool :=
  match jc with
  | 0 => true
  | 1 => decide (v = 0)
  | 2 => decide (v ≠ 0)
  | 3 => v.msb
  | _ => !v.msb

/-- JUMP (R91). -/
def execJump (f : Fetch) (s : State) : Host.Outcome State Fault Refusal :=
  .next (s.issueOp f.thr f.ev 0x08 (fun _ => 2) (fun s w =>
    let t := s.thr f.thr
    .ok (if jumpTaken (opr w 55 3) (t.reg (opr w 51 4)) then s.setThr f.thr { t with pc := opr w 35 16 } else s)))

/-- Pushes an address onto the call stack. -/
def Thread.push (t : Thread) (a : Nat) : Except Nat Thread :=
  if 8 ≤ t.stack.length then .error stStack else .ok { t with stack := a :: t.stack }

/-- CALL (R91). -/
def execCall (f : Fetch) (s : State) : Host.Outcome State Fault Refusal :=
  .next (s.issueOp f.thr f.ev 0x09 (fun _ => 3) (fun s w =>
    let t := s.thr f.thr
    (t.push t.pc).map (fun t => s.setThr f.thr { t with pc := opr w 42 16 })))

/-- Pops the call stack to PC; none when it is empty. -/
def Thread.pop (t : Thread) : Option Thread :=
  match t.stack with
  | [] => none
  | a :: rest => some { t with pc := a, stack := rest }

/-- RET (R91): with an empty call stack the thread has finished its shot (R71). -/
def execRet (f : Fetch) (s : State) : Host.Outcome State Fault Refusal :=
  .next (s.issueOp f.thr f.ev 0x0A (fun _ => 2) (fun s _ =>
    let t := s.thr f.thr
    .ok (match t.pop with
      | some t => s.setThr f.thr t
      | none => s.endThread f.thr 0 t.issue)))

/-- LOOP (R92). -/
def execLoop (f : Fetch) (s : State) : Host.Outcome State Fault Refusal :=
  .next (s.issueOp f.thr f.ev 0x0B (fun w => if opr w 54 2 = 2 then 3 else 2) (fun s w =>
    let t := s.thr f.thr
    let lc := opr w 56 2
    match opr w 54 2 with
    | 0 => .ok (s.setThr f.thr (t.setCounter lc (BitVec.ofNat 32 (opr w 2 32))))
    | 1 =>
      let v := t.reg (opr w 50 4)
      if v = 0 then .error stOperand else .ok (s.setThr f.thr (t.setCounter lc v))
    | _ =>
      if t.counter lc = 0 then .ok (s.setThr f.thr (t.flag 3))
      else
        let t := t.setCounter lc (t.counter lc - 1)
        .ok (s.setThr f.thr (if t.counter lc = 0 then t else { t with pc := opr w 34 16 }))))

/-- SWEEP (R93, R94). -/
def execSweep (f : Fetch) (s : State) : Host.Outcome State Fault Refusal :=
  .next (s.issueOp f.thr f.ev 0x0C (fun _ => 3) (fun s w =>
    (s.advanceGen f.thr (opr w 53 5)).map (fun (v, s) =>
      let s := s.updThr f.thr (fun t => t.setReg (opr w 48 4) v)
      if opr w 52 1 = 1 then s.sweepFreq f.thr (opr w 40 8) (opr w 39 1) (opr w 35 4) v else s)))

/-- MARK (R95). -/
def execMark (f : Fetch) (s : State) : Host.Outcome State Fault Refusal :=
  .next (s.issueOp f.thr f.ev 0x0D (fun _ => 2) (fun s w =>
    .ok (s.markEdges f.thr (opr w 50 8) (opr w 46 4) (opr w 42 4) (opr w 35 7))))

/-- TRIG (R96). -/
def execTrig (f : Fetch) (s : State) : Host.Outcome State Fault Refusal :=
  .next (s.issueOp f.thr f.ev 0x0E (fun _ => 3) (fun s w =>
    .ok (s.awaitTrig f.thr (opr w 54 4) (opr w 30 24) (opr w 28 2) (opr w 12 16) false)))

/-- PUB (R97). -/
def execPub (f : Fetch) (s : State) : Host.Outcome State Fault Refusal :=
  .next (s.issueOp f.thr f.ev 0x0F (fun _ => 2) (fun s w =>
    let cls := if opr w 51 1 = 0 then opr w 49 2
      else if bit ((s.thr f.thr).reg (opr w 45 4)).toNat (opr w 40 5) then 1 else 0
    s.pubSlot f.thr (opr w 52 6) cls))

end Sys2Proof.Machine
end

