-- ==== Sys2Proof/Machine/Microcode.lean ====
section
/-! DEFINITION. The micro-engine as a CUSTOM instruction sees it (04 R98-R111), and direct writes to the nano-store
(R117). -/

namespace Sys2Proof.Machine

/-- The micro-engine at work on one instruction: the state with the effects so far (committed only at LAST), the
microtemporaries, the pulse latch, the micro-stack, microwords issued, whether PC was set, whether the shot is to finish. -/
structure Micro where
  s      : State
  u      : Vector Word 8
  latch  : Option Nano
  mstack : List Nat
  at_    : Nat
  count  : Nat
  pcSet  : Bool
  finish : Bool
  /-- a nano-word has been read -/
  loaded : Bool
  deriving DecidableEq, Repr

/-- Bits of a microword. -/
def mfld (w : Word) (lo width : Nat) : Nat := bits w.toNat lo width

/-- Reads a register selector (R108). -/
def Micro.read (m : Micro) (g sel : Nat) : Word :=
  let t := m.s.thr g
  if sel < 16 then t.reg sel
  else if sel < 24 then vget m.u (sel - 16)
  else if sel < 28 then t.counter (sel - 24)
  else if sel = 28 then t.reg ((vget m.u 7).toNat % 16)
  else if sel = 29 then BitVec.ofNat 32 (m.s.gridAt t.start)
  else if sel = 30 then BitVec.ofNat 32 (m.s.gridAt t.issue)
  else 0

/-- Writes a register selector; the read-only ones keep their value. -/
def Micro.write (m : Micro) (g sel : Nat) (v : Word) : Micro :=
  let onThr := fun f => { m with s := m.s.updThr g f }
  if sel < 16 then onThr (fun t => t.setReg sel v)
  else if sel < 24 then { m with u := m.u.setIfInBounds (sel - 16) v }
  else if sel < 28 then onThr (fun t => t.setCounter (sel - 24) v)
  else if sel = 28 then onThr (fun t => t.setReg ((vget m.u 7).toNat % 16) v)
  else m

/-- The ALU (R109). -/
def aluOp (op : Nat) (a b : Word) : Option Word :=
  let sh := b.toNat % 32
  let flag := fun (p : Bool) => if p then (1 : Word) else 0
  match op with
  | 0x0 => some (a + b)
  | 0x1 => some (a - b)
  | 0x2 => some (a &&& b)
  | 0x3 => some (a ||| b)
  | 0x4 => some (a ^^^ b)
  | 0x5 => some (a <<< sh)
  | 0x6 => some (a >>> sh)
  | 0x7 => some (a.sshiftRight sh)
  | 0x8 => some (flag (decide (a = b)))
  | 0x9 => some (flag (a.slt b))
  | 0xA => some (flag (a.ult b))
  | 0xC => some (a * b)
  | _ => none

/-- A field of OPR, zero- or sign-extended. -/
def extract (opr_ lsb width : Nat) (sx : Bool) : Word :=
  if sx then BitVec.ofInt 32 (signed width (bits opr_ lsb width)) else BitVec.ofNat 32 (bits opr_ lsb width)

/-- PSET on the pulse latch. -/
def Nano.pset (n : Nano) (fld : Nat) (a : Word) : Except Nat Nano :=
  let v := a.toNat
  match fld with
  | 0 => .ok { n with ampI := v % 65536, ampQ := v % 65536 }
  | 1 => .ok { n with phase := v % 65536 }
  | 2 => if 254 < n.off + v % 256 then .error stOperand else .ok { n with off := n.off + v % 256 }
  | 3 => .ok { n with frame := v % 8 }
  | 4 => .ok { n with slot := v % 16, slotCur := bit v 4 }
  | 5 => .ok { n with mark := v % 16 }
  | _ => .error stIllegalOp

/-- A wait microword's effect (R111). -/
def Micro.wait (m : Micro) (g : Nat) (w : Word) : Except Nat State :=
  let a := (m.read g (mfld w 20 5)).toNat
  let b := (m.read g (mfld w 15 5)).toNat
  let c := (m.read g (mfld w 10 5)).toNat
  let s := m.s
  match mfld w 25 2 with
  | 0 =>
    match mfld w 8 2 with
    | 0 => s.waitFor g a true
    | 1 =>
      if 2 ^ 31 ≤ a then .error stOperand
      else .ok (s.waitUntil g (short (s.gridAt (s.thr g).start + a)) true)
    | 2 => .ok (s.waitUntil g a true)
    | _ =>
      if 2 ^ 31 ≤ b ∨ (!bit a 5 ∧ b = 0) then .error stOperand
      else s.arrive g (a % 32) (bit a 5) b true
  | 1 =>
    if a % 4 = 3 ∨ c % 4 = 3 ∨ bits c 2 8 = 0 then .error stOperand
    else .ok (s.awaitBrd g (bits a 2 10) (a % 4) (b / 65536) (b % 65536) (bits c 2 8) (c % 4) true)
  | 2 =>
    if 8 < a % 16 ∨ b = 0 ∨ 2 ^ 24 ≤ b ∨ bits c 16 2 = 3 then .error stOperand
    else .ok (s.awaitTrig g (a % 16) b (bits c 16 2) (c % 65536) true)
  | _ => .ok (s.updThr g (fun t => t.await_ 6 (.stream (a % 64) b t.issue)))

/-- A microword other than a branch or a wait: its effect, or the status that ends the shot. -/
def Micro.effect (m : Micro) (g opr_ : Nat) (w : Word) : Except Nat Micro :=
  let rd := fun lo => m.read g (mfld w lo 5)
  let c8 := decide (thrCluster g = 8)
  let onS := fun (r : Except Nat State) => r.map (fun s => { m with s := s })
  match mfld w 28 4 with
  | 0x0 => .ok (m.write g (mfld w 22 5) (extract opr_ (mfld w 16 6) (mfld w 11 5 + 1) (bit w.toNat 10)))
  | 0x1 =>
    let b := if bit w.toNat 12 then BitVec.ofInt 32 (signed 12 (mfld w 0 12)) else rd 0
    match aluOp (mfld w 23 4) (rd 13) b with
    | some v => .ok (m.write g (mfld w 18 5) v)
    | none => .error stIllegalOp
  | 0x2 =>
    let imm := mfld w 0 16
    let old := (rd 22).toNat % 65536
    .ok (m.write g (mfld w 22 5) (BitVec.ofNat 32 (if bit w.toNat 21 then old + 65536 * imm else imm)))
  | 0x4 =>
    let t := m.s.thr g
    match mfld w 24 3 with
    | 0 => .ok { m with s := m.s.setThr g { t with pc := (rd 19).toNat % 65536 }, pcSet := true }
    | 1 => (t.push (t.pc + 1)).map (fun t => { m with s := m.s.setThr g t })
    | 2 =>
      match t.pop with
      | some t => .ok { m with s := m.s.setThr g t, pcSet := true }
      | none => .ok { m with finish := true }
    | 3 => .error (mfld w 0 8)
    | 4 => .ok { m with s := m.s.setThr g { t with cur := t.cur ||| BitVec.ofNat 5 (mfld w 0 5) } }
    | _ => .error stIllegalOp
  | 0x6 =>
    match m.latch with
    | some n => (n.pset (mfld w 24 3) (rd 19)).map (fun n => { m with latch := some n })
    | none => .ok m
  | 0x7 =>
    let a := (rd 21).toNat
    if !bit w.toNat 26 then
      match m.latch with
      | some n => onS (m.s.emitPulse g n)
      | none => .error stOperand
    else if !c8 then .error stIllegalOp
    else if bits a 9 16 = 0 then .error stOperand
    else .ok { m with s := m.s.openWindows g (bits a 25 3) (bits a 9 16) (bits a 8 1) (bits a 2 6) (bit a 1) (bit a 0) }
  | 0x8 =>
    let t := m.s.thr g
    let fr := if bit w.toNat 24 then (rd 11).toNat % 8 else mfld w 21 3
    let a := rd 16
    .ok { m with s := m.s.setThr g (t.setFrame fr (if mfld w 25 2 = 0 then t.frameAt fr + a else a)) }
  | 0x9 =>
    let a := (rd 21).toNat
    if c8 then .error stIllegalOp
    else if bits a 5 8 = 0 then .error stOperand
    else if !bit w.toNat 26 then
      .ok { m with s := m.s.updThr g (fun t => t.selectSlot (bits a 5 8) (bits a 4 1) (bits a 0 4)) }
    else .ok { m with s := m.s.sweepFreq g (bits a 5 8) (bits a 4 1) (bits a 0 4) (rd 16) }
  | 0xA =>
    let a := (rd 21).toNat
    if !bit w.toNat 26 then
      let x := m.s.slot (thrTile g) (a % 1024)
      let v := x.cls.toNat + (if m.s.slotValid (thrTile g) (a % 1024) then 4 else 0) + (if x.late then 8 else 0) + (if x.margin then 16 else 0)
      .ok (m.write g (mfld w 16 5) (BitVec.ofNat 32 v))
    else onS (m.s.pubSlot g (a % 64) ((rd 16).toNat % 4))
  | 0xB =>
    (m.s.advanceGen g (rd 22).toNat).map (fun (v, s) => { m with s := s }.write g (mfld w 17 5) v)
  | 0xC =>
    let a := (rd 22).toNat
    if bits a 15 8 = 0 then .error stOperand
    else .ok { m with s := m.s.markEdges g (bits a 15 8) (bits a 11 4) (bits a 7 4) (bits a 0 7) }
  | 0xE => .ok m
  | _ => .error stIllegalOp

/-- NLD: the nano-word's check, its error correction, and the addition to its start offset. -/
def Micro.load (m : Micro) (g : Nat) (w : Word) (ev : FetchEv) : Except Ending Micro :=
  let i := (m.read g (mfld w 22 5)).toNat % 4096
  let n := decodeNano (m.s.nanoAt (thrGc g) (m.s.nBank g) i)
  let off := n.off + (m.read g (mfld w 17 5)).toNat % 256
  if (ev = .nanoFatal ∧ !m.loaded) ∨ m.s.poisoned (thrGc g) .nano (m.s.nBank g) i then .error (.store .nano i)
  else if !n.valid ∨ 254 < off then .error (.status stOperand)
  else if !n.reaches (thrCluster g) then .error (.status stReach)
  else .ok { m with latch := some { n with off := off }, loaded := true }

/-- The next micro address after a microword, with the micro-stack; none for a call or return that the stack does not
allow (R107). -/
def Micro.next (m : Micro) (g : Nat) (w : Word) : Option (Nat × List Nat) :=
  let a := m.read g (mfld w 19 5)
  let tgt := mfld w 0 14
  let fall := m.at_ + 1
  if mfld w 28 4 ≠ 3 then some (fall, m.mstack)
  else
    match mfld w 24 3 with
    | 0 => some (tgt, m.mstack)
    | 1 => some (if a = 0 then tgt else fall, m.mstack)
    | 2 => some (if a ≠ 0 then tgt else fall, m.mstack)
    | 3 => some (if a.msb then tgt else fall, m.mstack)
    | 4 => if 8 ≤ m.mstack.length then none else some (tgt, fall :: m.mstack)
    | 5 =>
      match m.mstack with
      | [] => none
      | r :: rest => some (r, rest)
    | _ => some (fall, m.mstack)

/-- LAST (R105-R107): the effects commit, and PC moves to the next address unless the instruction has set it. -/
def Micro.commit (m : Micro) (g : Nat) : State :=
  let s := if m.pcSet then m.s else m.s.updThr g Thread.advance
  if m.finish then s.endThread g 0 (s.thr g).issue else s

/-- One microword at a micro address: the engine after it, or the committed state, or why the shot ends. -/
def Micro.step (m : Micro) (g opr_ : Nat) (adv : Bool) (cost : Nat) (ev : FetchEv) : Except Ending (Micro ⊕ State) :=
  let gc := thrGc g
  let b := m.s.uBank g
  let w := m.s.microAt gc b m.at_
  let last := bit w.toNat 27
  if cost ≤ m.count then .error (.code m.at_ 4)
  else if !(decide (0x3C20 ≤ m.at_) && decide (m.at_ ≤ 0x3FFF)) then .error (.code m.at_ 6)
  else if ev = .microParity m.at_ ∨ m.s.poisoned gc .micro b m.at_ then .error (.store .micro m.at_)
  else if mfld w 28 4 = 0xD then
    if !last || !adv then .error (.code m.at_ 5)
    else if !m.mstack.isEmpty then .error (.code m.at_ 3)
    else if m.finish then .ok (.inr (m.commit g))
    else ((({ m with s := m.commit g }).wait g w).mapError Ending.status).map Sum.inr
  else
    let done := match mfld w 28 4 with
      | 0x3 => Except.ok m
      | 0x5 => m.load g w ev
      | _ => (m.effect g opr_ w).mapError Ending.status
    match done with
    | .error e => .error e
    | .ok m' =>
      match m.next g w with
      | none => .error (.code m.at_ 3)
      | some (a, st) =>
        if last then (if st.isEmpty then .ok (.inr (m'.commit g)) else .error (.code m.at_ 3))
        else .ok (.inl { m' with at_ := a, mstack := st, count := m.count + 1 })

/-- Runs the engine to LAST; at most COST microwords issue. -/
def Micro.run (g opr_ : Nat) (adv : Bool) (cost : Nat) (ev : FetchEv) : Nat → Micro → Bool × Except Ending State
  | 0, m => (m.loaded, .error (.code m.at_ 4))
  | n + 1, m =>
    match m.step g opr_ adv cost ev with
    | .error e => (m.loaded, .error e)
    | .ok (.inr s) => (m.loaded, .ok s)
    | .ok (.inl m') => Micro.run g opr_ adv cost ev n m'

/-- The dispatch entry of a CUSTOM instruction. -/
def State.entry (s : State) (g : Nat) (w : GateWord) : Word := s.microAt (thrGc g) (s.uBank g) (s.entryAt g w)

/-- The engine run of a CUSTOM instruction: whether a nano-word was read, and its outcome. -/
def State.customRun (s : State) (g : Nat) (ev : FetchEv) (w : GateWord) : Bool × Except Ending State :=
  let a := s.entryAt g w
  let e := s.entry g w
  if s.dispatchFails g ev w then (false, .error (.store .micro a))
  else if !bit e.toNat 18 then (false, .error (.status stIllegalOp))
  else
    let cost := mfld e 14 3
    Micro.run g (opr w 0 58) (bit e.toNat 17) cost ev (cost + 1)
      { s := s, u := Vector.replicate 8 0, latch := none, mstack := [], at_ := mfld e 0 14, count := 0, pcSet := false,
        finish := false, loaded := false }

/-- CUSTOM0-CUSTOM7 (R98): an entry that is not defined, or that fails on its fetch, charges nothing. -/
def execCustom (thr : Nat) (ev : FetchEv) (s : State) : Host.Outcome State Fault Refusal :=
  let valid := fun (s : State) (w : GateWord) =>
    bit (s.entry thr w).toNat 18 && !s.dispatchFails thr ev w
  .next (s.issueWord thr (fun w => decide (0x30 ≤ opcode w) && decide (opcode w ≤ 0x37))
    (fun s w => if valid s w then mfld (s.entry thr w) 14 3 else 0)
    (fun s w => if ev = .nanoCorr ∧ (s.customRun thr ev w).1 then s.nanoCorrected thr else s)
    (fun s w => (s.customRun thr ev w).2))

/-! ## Direct writes to the nano-store (R117) -/

/-- The clusters with a swap pending or in progress. -/
def State.swapping (s : State) (gc : Nat) : Bool := s.stores.nanoSwap.any (fun w => decide (w.1 = gc))

/-- A thread of a cluster reads the bank. -/
def State.nanoRead (s : State) (gc : Nat) (b : Bool) : Bool := (List.range 8).any (fun i => decide (s.nBank (8 * gc + i) = b))

/-- Writes one 32-bit word of a nano-word through the view of a bank. -/
def State.nanoView (s : State) (tile off : Nat) (value : Word) : State :=
  let c := s.rd F.TIL_MEMWIN_SEL_CLUSTER [tile]
  let gc := 9 * tile + c
  let o := off - 0x500000
  let b := decide (0x20000 ≤ o)
  if s.variant.tiles ≤ tile ∨ 8 < c then s
  else if s.nanoRead gc b || s.swapping gc then s.wr F.CLU_UCODE_STATUS_WR_REFUSED [tile, c] 1
  else
    let i := o % 0x20000 / 32
    let k := o % 32 / 4
    let w := (s.nanoAt gc b i).toNat
    let v := BitVec.ofNat 256 (setBits w (32 * k) 32 value.toNat)
    { s with stores := { s.stores with nano := SMap.put 0 s.stores.nano (4096 * bankKey gc b + i) v } }

/-- NANO_VIEW_WRITE: `off` is an offset in the tile window, in the nano-store views. -/
def execNanoViewWrite (tile off : Nat) (value : Word) (s : State) : Host.Outcome State Fault Refusal :=
  if 0x500000 ≤ off ∧ off < 0x540000 ∧ off % 4 = 0 then .next (s.nanoView tile off value) else .next s

end Sys2Proof.Machine
end

