-- ==== Sys2Proof/Machine/DevMemory.lean ====
section
/-! DEFINITION. Device memory: boot configuration, errors, retirement by threshold, patrol and initialisation
(18 R395-R407). -/

namespace Sys2Proof.Machine

/-! ## The memory map (R407) -/

/-- Capacity in bytes, and the size of the host region. -/
def State.memCap (s : State) : Nat := s.rd F.MEM_CFG_CAPACITY [] * 2 ^ 30
def State.hostSize (s : State) : Nat := s.rd F.MEM_HOST_SIZE_H [] * 2 ^ 28

/-- The interval lies in the host region. -/
def State.inHost (s : State) (addr n : Nat) : Bool := decide (addr + n ≤ s.hostSize)

/-- The configuration is one of R395: density in Gb, the channels alike. -/
def memSupported (o : MemObs) : Bool :=
  decide (o.speed = 6400) && decide (o.width = 4) && !o.stacked && o.alike &&
  (decide (o.density = 16) || decide (o.density = 24) || decide (o.density = 32)) &&
    (decide (o.ranks = 1) || decide (o.ranks = 2)) && decide (o.capacity = 4 * o.density * o.ranks)

/-- A device of a fitted rank (R398). -/
def deviceFitted (ranks d : Nat) : Bool := decide (d < 80) && decide (d % 40 / 20 < ranks)

/-- No codeword group has two devices in a list. -/
def groupsOk (ds : List Nat) : Bool := (List.range 8).all (fun g => decide ((ds.filter (fun d => decide (d / 10 = g))).length ≤ 1))

/-- A device is retired as Sinter says, before Mem_Active is set (R401). -/
def State.reRetire (s : State) (d : Nat) : State := s.wr F.MEM_DEV_ERR_RETIRED [d] 1

/-- MEM_READY (R396, R401, R403, R337): the configuration is read, trained and tested. The entries in Sinter of a channel
whose module has changed are cleared. -/
def execMemReady (obs : MemObs) (s : State) : Host.Outcome State Fault Refusal :=
  if s.boot.accepted ∧ !s.rdB F.SPN_HIF_STATUS_MEM_ACTIVE [] ∧ !s.rdB F.SPN_HIF_STATUS_MEM_FAIL [] then
    let s := { s with msvc := { s.msvc with
      sinterRetired := s.msvc.sinterRetired.filter (fun d => !obs.changed.contains (d / 40)) } }
    let old := s.msvc.sinterRetired.filter (deviceFitted obs.ranks)
    let bad := obs.badDevs.filter (fun d => deviceFitted obs.ranks d && !old.contains d)
    let s := (s.wr F.MEM_CFG_CAPACITY [] obs.capacity).wr F.MEM_CFG_RANKS [] (obs.ranks - 1)
    let s := (s.wr F.MEM_CFG_DENSITY [] ((obs.density - 16) / 8)).wrB F.MEM_CFG_DOWN [] obs.down
    let s := s.wrB F.MEM_STATUS_TRAINED [] obs.trained
    if memSupported obs && obs.trained && obs.testOk && groupsOk (old ++ bad) then
      let s := ((List.range 80).filter (deviceFitted obs.ranks)).foldl (fun s d => s.wr F.MEM_DEV_ERR_FITTED [d] 1) s
      let s := old.foldl State.reRetire s
      let s := s.wr F.MEM_STATUS_RETIRED [] old.length
      let s := bad.foldl (fun s d => s.retire d 3) s
      let s := (s.wr F.MEM_STATUS_TESTED [] 1).wr F.MEM_HOST_SIZE_H [] (4 * obs.capacity - obs.capacity / 4 - 16)
      let s := s.wr F.QMG_STAGE_POOL_POOL [] (64 * obs.capacity)
      let s := { s with msvc := { s.msvc with initBlocks := [], allInit := false } }
      .next (s.wr F.SPN_HIF_STATUS_MEM_ACTIVE [] 1).advise
    else .next ((s.wr F.MEM_STATUS_MEM_FAIL [] 1).wr F.SPN_HIF_STATUS_MEM_FAIL [] 1)
  else .next s

/-- PATROL_PASS_END (R405). What patrol corrects in a pass reaches the counts as MEM_CE faults (FAULT_RECORD). -/
def execPatrolPassEnd  (s : State) : Host.Outcome State Fault Refusal :=
  if s.rdB F.SPN_HIF_STATUS_MEM_ACTIVE [] then
    let s := (List.range 80).foldl (fun s d =>
      (s.wr F.MEM_DEV_ERR_LAST_PASS [d] (min 4095 (s.rd F.MEM_DEV_ERR_CE_COUNT [d]))).wr F.MEM_DEV_ERR_CE_COUNT [d] 0) s
    .next ((s.count F.MEM_PATROL_PASSES [] 1).wr F.MEM_PATROL_PROGRESS [] 0)
  else .next s

/-- DEV_RETIRE_THRESHOLD (R399, R400): the corrected symbols of a device in this pass reach the threshold. -/
def execDevRetireThreshold (dev : Nat) (s : State) : Host.Outcome State Fault Refusal :=
  if s.rdB F.SPN_HIF_STATUS_MEM_ACTIVE [] ∧ s.rdB F.MEM_DEV_ERR_FITTED [dev] ∧ !s.rdB F.MEM_DEV_ERR_RETIRED [dev] then
    let thr := s.rd F.MEM_RETIRE_THR_THR []
    let n := thr - s.rd F.MEM_DEV_ERR_CE_COUNT [dev]
    let s := (s.count F.MEM_DEV_ERR_CE_COUNT [dev] n).count F.MEM_CE_TOTAL_COUNT [] n
    let s := (s.wr F.MEM_LAST_ERR_DEVICE [] dev).wr F.MEM_LAST_ERR_UE [] 0
    .next ((s.note (.spine 10) 5 dev).atThreshold dev)
  else .next s

/-- OWNER of MEM_LAST_ERR. -/
def ownerCode : MemOwner → Nat
  | .hostRead => 0
  | .hostCopy => 0
  | .ring _ _ => 1
  | .staging _ _ => 2
  | .firmware _ => 3
  | .patrol => 4

/-- Fetched blocks of a stream whose ring samples lie in a line. -/
def State.ringLoss (s : State) (t k addr : Nat) : State :=
  let r := s.strm t k
  let hit := fun (n : Nat) =>
    let a := s.ringBase t k + 4 * (64 * n % s.ringSize t k)
    decide (a ≤ addr) && decide (addr < a + 256)
  let blocks := (List.range ((r.fetched + 63) / 64 - r.arrived / 64)).map (fun i => r.arrived / 64 + i)
  s.setStrm t k { r with
    gone := r.gone ++ (blocks.filter hit).map (fun n => (max r.arrived (64 * n), min r.fetched (64 * n + 64))) }

/-- MEM_UNCORRECTABLE (R402): the line carries a poison marker, unless the firmware region's second copy mends it; what
patrol finds counts by the region of the address. -/
def execMemUncorrectable (addr dev : Nat) (owner : MemOwner) (s : State) : Host.Outcome State Fault Refusal :=
  let line := addr / 64
  if s.rdB F.SPN_HIF_STATUS_MEM_ACTIVE [] ∧ addr < s.memCap ∧ (dev < 80 ∨ dev = 0x7F) then
    let s := s.count F.MEM_UE_TOTAL_COUNT [] 1
    let s := ((s.wr F.MEM_LAST_ERR_DEVICE [] dev).wr F.MEM_LAST_ERR_UE [] 1).wr F.MEM_LAST_ERR_OWNER [] (ownerCode owner)
    let s := (s.wr F.MEM_LAST_ERR_LO_ADDR_LO [] (64 * line)).wr F.MEM_LAST_ERR_HI_ADDR_HI [] (64 * line / 2 ^ 32)
    let fw := match owner with
      | .firmware both => some both
      | .patrol => if s.memCap - 2 ^ 32 ≤ addr then some false else none
      | _ => none
    match fw with
    | some both => .next (s.fault (.spine 10) (if both then 0 else 4) dev)
    | none =>
      let s := if s.msvc.poison.contains line then s
        else { s with msvc := { s.msvc with poison := s.msvc.poison ++ [line] } }
      let s := s.note (.spine 10) 3 dev
      match owner with
      | .ring t k => .next (s.ringLoss t k addr)
      | .staging j l => .next (s.updJob j (fun b => { b with bad := b.bad ++ [l] }))
      | _ => .next s
  else .next s

/-- MEM_INIT_DONE (R404). -/
def execMemInitDone (s : State) : Host.Outcome State Fault Refusal :=
  if s.rdB F.SPN_HIF_STATUS_MEM_ACTIVE [] then
    .next { s.wr F.MEM_STATUS_INIT_DONE [] 1 with msvc := { s.msvc with initBlocks := [], allInit := true } }
  else .next s

end Sys2Proof.Machine
end

