-- ==== Sys2Proof/Machine/HostIf.lean ====
section
/-! DEFINITION. The CXL host interface (15 R329-R347): the link, configuration space, HDM decoders, CXL.mem, MSI-X and the
delivery of results. -/

namespace Sys2Proof.Machine

/-- The link runs CXL (R330); 2 is PCIe. -/
def State.cxlMode (s : State) : Bool := decide (s.rd F.SPN_HIF_STATUS_MODE [] = 1)
def State.viral (s : State) : Bool := s.rdB F.SPN_HIF_STATUS_VIRAL []
def State.linkUp (s : State) : Bool := s.rdB F.SPN_HIF_STATUS_LINK_UP []
def State.setHif (s : State) (h : Hif) : State := { s with hif := h }

/-- Pending vectors that can now be signalled are (R340, R345). -/
def State.flushMsix (s : State) : State :=
  let go := s.hif.pba.filter (fun v => s.hif.msixEn && s.hif.unmasked.contains v && s.linkCarries)
  let s := s.setHif { s.hif with pba := s.hif.pba.filter (fun v => !go.contains v) }
  go.foldl State.sendMsix s

/-- Code of a width in lanes; 0 for a width that the port does not support. -/
def widthCode (lanes : Nat) : Nat :=
  match lanes with
  | 1 => 1 | 2 => 2 | 4 => 3 | 8 => 4
  | _ => 0

/-- An outage ends: its length is shown (R344). -/
def State.outageEnd (s : State) : State :=
  match s.hif.outageAt with
  | some t => (s.wr F.SPN_HIF_OUTAGE_LEN_TICKS [] (min 0xFFFFFFFF (s.now - t))).setHif { s.hif with outageAt := none }
  | none => s

/-- An outage begins. -/
def State.outageBegin (s : State) : State :=
  let s := (s.count F.SPN_HIF_STATUS_OUTAGES [] 1).wr F.SPN_HIF_OUTAGE_TICK_TICK [] (short s.grid)
  s.setHif { s.hif with outageAt := some s.now }

/-- LINK_UP (R330, R341, R344): the first link-up after PERST fixes the protocol; a later one offers only that one. Speed
is coded as in SPN_HIF_STATUS. -/
def execLinkUp (cxl : Bool) (width speed : Nat) (s : State) : Host.Outcome State Fault Refusal :=
  let want := if cxl then 1 else 2
  let mode := s.rd F.SPN_HIF_STATUS_MODE []
  if s.boot.perstN ∧ !s.boot.seqHold ∧ !s.linkUp ∧ (mode = 0 ∨ mode = want) ∧ widthCode width ≠ 0 ∧ 1 ≤ speed ∧ speed ≤ 5 ∧
      (!cxl ∨ 3 ≤ speed) then
    let low := decide (width < 8) || decide (speed < 5)
    let s := (s.wr F.SPN_HIF_STATUS_MODE [] want).wr F.SPN_HIF_STATUS_LINK_UP [] 1
    let s := (s.wr F.SPN_HIF_STATUS_WIDTH [] (widthCode width)).wr F.SPN_HIF_STATUS_SPEED [] speed
    let s := s.wrB F.SPN_HIF_STATUS_DEGRADED [] low
    let s := s.setHif { s.hif with refclk := true, cxlDown := false }
    let s := if low then s.note (.spine 0) 2 0 else s
    .next s.outageEnd
  else .next s

/-- A decoder after a reset of the port: one that the host has locked keeps its settings until PERST (R336, R344). -/
def Hdm.afterReset (d : Hdm) : Hdm := if d.locked then d else .idle

/-- The port is reset: its link state, configuration space and decoders (R344). Pending bits are kept. -/
def State.portReset (s : State) : State :=
  let s := ((s.wr F.SPN_HIF_STATUS_LINK_UP [] 0).wr F.SPN_HIF_STATUS_WIDTH [] 0).wr F.SPN_HIF_STATUS_SPEED [] 0
  let s := ((s.wr F.SPN_HIF_STATUS_DEGRADED [] 0).wr F.SPN_HIF_STATUS_CACHE_ON [] 0).wr F.SPN_HIF_STATUS_D3HOT [] 0
  s.setHif { s.hif with
    viralEn := false, cacheEn := false, memEn := false, msixEn := false, unmasked := [], msixTab := [], cfg := [],
    hdm0 := s.hif.hdm0.afterReset, hdm1 := s.hif.hdm1.afterReset }

/-- LINK_OUTAGE (R344). -/
def State.linkOutage (s : State) : State :=
  if s.linkUp then (s.outageEnd.portReset.outageBegin).note (.spine 0) 3 0 else s

def execLinkOutage (s : State) : Host.Outcome State Fault Refusal := .next s.linkOutage

/-- PCIE_REFCLK_LOSS (02 R54): the CXL clock domain stops, and with it the link. -/
def execPcieRefclkLoss (s : State) : Host.Outcome State Fault Refusal :=
  .next ((s.setHif { s.hif with refclk := false, cxlDown := true }).linkOutage)

/-- D3HOT_WRITE (R345): an outage that keeps configuration space. -/
def execD3hotWrite (s : State) : Host.Outcome State Fault Refusal :=
  if s.linkUp ∧ !s.d3hot then .next ((s.wr F.SPN_HIF_STATUS_D3HOT [] 1).outageBegin) else .next s

/-- D0_WRITE (R345). -/
def execD0Write (s : State) : Host.Outcome State Fault Refusal :=
  if s.d3hot then .next ((s.wr F.SPN_HIF_STATUS_D3HOT [] 0).outageEnd).flushMsix else .next s

/-! ## Configuration space (R331, R332, R343) -/

/-- Control bits in force, as one number. -/
def Hif.controls (h : Hif) (d3 : Bool) : Nat :=
  (if h.cacheEn then 1 else 0) + (if h.memEn then 2 else 0) + (if h.viralEn then 4 else 0) + (if h.msixEn then 8 else 0) +
    (if d3 then 16 else 0)

def Variant.subsystem : Variant → Nat
  | .sqc7064 => 0x7064
  | .sqc7128 => 0x7128
  | .sqc7256 => 0x7256
  | .sqc7448 => 0x7448

/-- A configuration word: the identity of R331, the three 64-bit, non-prefetchable memory BARs of R334 with the address
bits of 128, 1 and 16 MB, or what the standards require. -/
def State.cfgRead (s : State) (off : Nat) : Word :=
  let bar := fun (mask : Word) => (SMap.get 0 s.hif.cfg off &&& mask) ||| 4
  if off = 0x00 then 0x5C071F3E
  else if off = 0x08 then 0x12000021
  else if off = 0x10 then bar 0xF8000000
  else if off = 0x18 then bar 0xFFF00000
  else if off = 0x20 then bar 0xFF000000
  else if off = 0x14 ∨ off = 0x1C ∨ off = 0x24 then SMap.get 0 s.hif.cfg off
  else if off = 0x2C then BitVec.ofNat 32 (0x1F3E + 65536 * s.variant.subsystem)
  else Config.cfgWord off (SMap.get 0 s.hif.cfg off) (s.hif.controls s.d3hot)

/-- CONFIG_REQUEST (R343, R338, R342, R340): retry status until configuration space is ready; in PCIe mode the control
fields of the DVSEC structures are written without effect (R332). -/
def execConfigRequest (req : CfgReq) (s : State) : Host.Outcome State Fault Refusal :=
  if !s.linkUp then .next s
  else if !s.hif.cfgReady then .next (s.emit .retry)
  else
    match req with
    | .read off => .next (s.emit (.regData [s.cfgRead off]))
    | .cacheEnable b =>
      if s.cxlMode then .next ((s.setHif { s.hif with cacheEn := b }).wrB F.SPN_HIF_STATUS_CACHE_ON [] b) else .next s
    | .memEnable b => if s.cxlMode then .next (s.setHif { s.hif with memEn := b }) else .next s
    | .viralEnable b => if s.cxlMode then .next (s.setHif { s.hif with viralEn := b }) else .next s
    | .msixEnable b => .next (s.setHif { s.hif with msixEn := b }).flushMsix
    | .other off v => .next (s.setHif { s.hif with cfg := SMap.put 0 s.hif.cfg off v })

/-! ## MSI-X table (R332, R340) -/

/-- A write to the MSI-X table: address, upper address, data, vector control (bit 0: mask). -/
def State.msixWrite (s : State) (off : Nat) (v : Word) : State :=
  let vec := off / 16
  if off % 16 = 12 then
    let rest := s.hif.unmasked.filter (fun w => decide (w ≠ vec))
    (s.setHif { s.hif with unmasked := if v.getLsbD 0 then rest else rest ++ [vec] }).flushMsix
  else s.setHif { s.hif with msixTab := SMap.put 0 s.hif.msixTab (3 * vec + off % 16 / 4) v }

/-! ## HDM decoders and CXL.mem (R336, R337) -/

def State.hdm (s : State) (d : Nat) : Hdm := if d = 0 then s.hif.hdm0 else s.hif.hdm1
def State.setHdm (s : State) (d : Nat) (h : Hdm) : State :=
  s.setHif (if d = 0 then { s.hif with hdm0 := h } else { s.hif with hdm1 := h })

/-- Sizes of the two parts of the host region that DVSEC ranges 1 and 2 report (18 R407). -/
def State.rangeSize (s : State) (d : Nat) : Nat := if d = 0 then s.hostSize / 2 else s.hostSize - s.hostSize / 2

/-- HDM_COMMIT (R336). -/
def execHdmCommit (dec base size ways : Nat) (lock : Bool) (s : State) : Host.Outcome State Fault Refusal :=
  if dec < 2 ∧ s.linkUp ∧ s.hif.cfgReady ∧ !(s.hdm dec).locked then
    if ways = 1 ∧ size ≤ s.rangeSize dec then
      .next (s.setHdm dec { base := base, size := size, committed := true, locked := lock, err := false })
    else .next (s.setHdm dec { base := base, size := size, committed := false, locked := false, err := true })
  else .next s

/-- The device address a host address maps to. -/
def State.hdmMap (s : State) (a : Nat) : Option Nat :=
  let h0 := s.hif.hdm0
  let h1 := s.hif.hdm1
  if h0.committed ∧ h0.base ≤ a ∧ a < h0.base + h0.size then some (a - h0.base)
  else if h1.committed ∧ h1.base ≤ a ∧ a < h1.base + h1.size then some (s.rangeSize 0 + (a - h1.base))
  else none

/-- CXLMEM_REQUEST (R336, R337, R342): a read or write of a line. -/
def execCxlmemRequest (write : Bool) (hostAddr : Nat) (data : List Byte) (s : State) : Host.Outcome State Fault Refusal :=
  if s.cxlMode ∧ s.linkUp ∧ !s.d3hot ∧ data.length ≤ 64 then
    let dev := if s.rdB F.SPN_HIF_STATUS_MEM_ACTIVE [] ∧ s.hif.memEn then s.hdmMap hostAddr else none
    match dev with
    | none => .next (if write then s.emit .masterAbort else s.emit (.readData (List.replicate 64 0xFF) false))
    | some a =>
      if s.viral then .next (if write then s.emit .writeDone else s.emit (.readData (List.replicate 64 0) true))
      else if write then .next ((s.memWrite a data).emit .writeDone)
      else
        let bad := s.memPoisoned a 64
        let s := s.emit (.readData (s.memRead a 64) bad)
        if bad then .next ((s.setHif { s.hif with ras := s.hif.ras + 1 }).note (.spine 0) 4 0) else .next s
  else .next s

/-- VIRAL_RECEIVE (R342): with Viral_Enable 1, in CXL mode. -/
def execViralReceive (s : State) : Host.Outcome State Fault Refusal :=
  if s.cxlMode ∧ s.linkUp ∧ s.hif.viralEn then .next (s.fault (.spine 0) 1 0) else .next s

/-- CACHE_SNOOP (R338): the part keeps no line. -/
def execCacheSnoop (hostAddr : Nat) (s : State) : Host.Outcome State Fault Refusal :=
  if s.cxlMode ∧ s.linkCarries then .next (s.emit (.snoopMiss hostAddr)) else .next s

/-- RESULT_DELIVERY (R338, R339, R366): the staged result bytes of every job are written into host memory, in order, and
their staging is free again. -/
def execResultDelivery (s : State) : Host.Outcome State Fault Refusal :=
  if s.linkCarries ∧ !s.viral then
    .next (s.qm.jobs.foldl (fun s e =>
      let s := e.2.staged.foldl (fun s p =>
        s.emit (.hostWrite p.1 p.2 (e.2.bad.filter (fun l => decide (p.1 < 64 * l + 64) && decide (64 * l < p.1 + p.2.length))))) s
      let n := (e.2.staged.map (fun p => p.2.length)).sum
      let p := s.part e.2.part
      (s.updJob e.1 (fun b => { b with staged := [], bad := [] })).setPart e.2.part { p with inUse := p.inUse - n }) s)
  else .next s

end Sys2Proof.Machine
end

