-- ==== Sys2Proof/Machine/Queues.lean ====
section
/-! DEFINITION. Doorbells, submission entries and admission (16 R348-R361), the start and pacing of jobs and shots
(R362-R364, 03 R61, R71-R75, 01 R27, R511), and completion entries (R354, R365-R367). -/

namespace Sys2Proof.Machine

/-! ## Doorbells (R352) -/

/-- A write of SQ_TAIL. -/
def State.sqTailWrite (s : State) (q v : Nat) : State :=
  let p := s.qp q
  let head := s.rd F.QMG_QP_SQ_HEAD [q]
  let l := p.sqLen
  if !s.rdB F.QMG_QP_VALID [q] || decide (l ≤ v) || decide ((v + l - head) % l < (p.sqTail + l - head) % l) then
    s.wr F.QMG_QP_DB_ERR [q] 1
  else s.setQp q { p with sqTail := v }

/-- SQ_TAIL_DOORBELL. -/
def execSqTailDoorbell (qp tail : Nat) (s : State) : Host.Outcome State Fault Refusal :=
  if qp < 4096 then .next (s.sqTailWrite qp tail) else .next s

/-- A CQ entry is free. -/
def State.cqFree (s : State) (q : Nat) : Bool :=
  decide ((s.rd F.QMG_QP_CQ_TAIL [q] + 1) % (s.qp q).cqLen ≠ (s.qp q).cqHead)

/-- A write of CQ_HEAD. -/
def State.cqHeadWrite (s : State) (q v : Nat) : State :=
  let p := s.qp q
  let tail := s.rd F.QMG_QP_CQ_TAIL [q]
  let l := p.cqLen
  if !s.rdB F.QMG_QP_VALID [q] || decide (l ≤ v) || decide ((tail + l - p.cqHead) % l < (v + l - p.cqHead) % l) then
    s.wr F.QMG_QP_DB_ERR [q] 1
  else
    let s := s.setQp q { p with cqHead := v }
    if s.cqFree q then s.wr F.QMG_QP_CQ_FULL [q] 0 else s

/-- CQ_HEAD_DOORBELL. -/
def execCqHeadDoorbell (qp head : Nat) (s : State) : Host.Outcome State Fault Refusal :=
  if qp < 4096 then .next (s.cqHeadWrite qp head) else .next s

/-! ## Fetching (R353) -/

/-- Jobs in flight. -/
def State.inFlight (s : State) : Nat := s.qm.jobs.length

/-- FETCH_PAUSED. -/
def State.fetchPaused (s : State) : Bool :=
  decide (1024 ≤ s.inFlight) || decide (s.mode = mCalibrate) || !s.linkCarries

/-- The pair has an entry to fetch. -/
def State.hasEntry (s : State) (q : Nat) : Bool :=
  s.rdB F.QMG_QP_VALID [q] && decide (s.rd F.QMG_QP_SQ_HEAD [q] ≠ (s.qp q).sqTail)

/-- It is the pair's turn: no pair with an entry stands before it in the round from the pair served last. -/
def State.qpTurn (s : State) (q : Nat) : Bool :=
  let dist := fun (p : Nat) => (p + 4095 - s.qm.rr) % 4096
  s.hasEntry q && s.qm.qps.all (fun e => !s.hasEntry e.1 || decide (dist q ≤ dist e.1))

/-! ## Submission entries (R355, R356) -/

/-- The bytes from `a` to `b - 1` are 0. -/
def zeroBytes (e : List Byte) (a b : Nat) : Bool := (List.range (b - a)).all (fun i => decide (e.getD (a + i) 0 = 0))

/-- The job an entry describes, every field as if its kind named it. -/
def jobOf (e : List Byte) (qp part now head : Nat) : Job :=
  { Job.idle with
    kind := leAt e 0 1, qp := qp, part := part, start := leAt e 1 1 % 4, trigEach := bit (leAt e 1 1) 2,
    irq := bit (leAt e 1 1) 3, trigSrc := leAt e 2 1, tag := BitVec.ofNat 32 (leAt e 4 4), startTime := leAt e 8 8,
    deadline := leAt e 16 4, plan := leAt e 20 2, entrySet := leAt e 22 1, shots := leAt e 24 4, period := leAt e 28 4,
    tile := leAt e 20 1, strm := leAt e 21 1, first := leAt e 22 1, urun := decide (leAt e 23 1 = 1), win := leAt e 24 1,
    rate := leAt e 25 1, ringBase := leAt e 28 8, log2 := leAt e 36 1, firstQ := leAt e 20 2, countQ := leAt e 22 2,
    resAddr := leAt e 32 8, resLen := leAt e 40 4, calReq := e.drop 20, admitAt := now, floor := now + 157, sqHead := head }

/-- Header and kind-specific fields are in range and every RSV bit is 0; a stream's ring lies in the host's part of
device memory (log 51). -/
def State.entryOk (s : State) (e : List Byte) (b : Job) : Bool :=
  let res := decide (b.resAddr % 64 = 0) && decide (b.resLen % 64 = 0)
  decide (b.start ≤ 2) && decide (leAt e 1 1 < 16) && decide (b.trigSrc ≤ 8) && decide (leAt e 3 1 = 0) &&
    (!b.trigEach || (decide (b.kind = 1) && decide (b.start = 2))) && (decide (b.start ≠ 1) || decide (b.startTime % 128 = 0)) &&
    (match b.kind with
     | 1 => decide (b.plan ≤ 1023) && decide (b.entrySet ≤ 3) && decide (1 ≤ b.shots) && decide (157 ≤ b.period) &&
         decide (b.period < 2 ^ 31) && res && zeroBytes e 23 24 && zeroBytes e 44 64
     | 2 => decide (b.tile < 7) && res && zeroBytes e 21 32 && zeroBytes e 44 64
     | 3 => (calAsk b.calReq 0).fieldsOk true
     | 4 => decide (b.tile < 7) && decide (b.strm < 64) && decide (leAt e 23 1 ≤ 1) && decide (4 ≤ b.win) &&
         decide (b.win ≤ 64) && decide (1 ≤ b.rate) && decide (b.rate ≤ 50) && decide (b.ringBase % 4096 = 0) &&
         decide (12 ≤ b.log2) && decide (b.log2 ≤ 28) && s.inHost b.ringBase (4 * 2 ^ b.log2) && zeroBytes e 26 28 &&
         zeroBytes e 37 64
     | 5 => decide (b.tile < 7) && decide (b.strm < 64) && zeroBytes e 22 64
     | 6 => decide (1 ≤ b.countQ) && decide (b.countQ ≤ 448) && decide (b.firstQ + b.countQ ≤ 448) && decide (1 ≤ b.shots) &&
         res && zeroBytes e 28 32 && zeroBytes e 44 64
     | _ => false)

/-! ## Plans (R358) -/

/-- Lines, generators and decision slots that a region's MEAS, SWEEP and BRD instructions name. -/
def State.scanRegion (s : State) (t : PlanThr) : List Nat × List Nat × List Nat :=
  let ix := [t.tile, t.cluster, t.region]
  let base := s.rd F.CLU_REGION_BASE ix
  let ws := (List.range (s.rd F.CLU_REGION_LAST ix + 1 - base)).map (fun i => s.gateAt (9 * t.tile + t.cluster) (base + i))
  let of := fun (op : Nat) => ws.filter (fun w => decide (opcode w = op))
  ((of 0x06).map (fun w => 8 * t.tile + opr w 55 3), (of 0x0C).map (fun w => 32 * t.tile + opr w 53 5),
   (of 0x07).flatMap (fun w => brdSlots (opr w 48 10) (opr w 46 2)))

/-- A plan with the resources its regions name now. -/
def State.scanPlan (s : State) (p : Plan) : Plan :=
  let rs := p.threads.map s.scanRegion
  { p with
    lines := (rs.flatMap (fun r => r.1)).dedup, gens := (rs.flatMap (fun r => r.2.1)).dedup,
    brdSlots := (rs.flatMap (fun r => r.2.2)).dedup }

def State.setPlan (s : State) (n : Nat) (p : Plan) : State :=
  { s with qm := { s.qm with plans := SMap.put .idle s.qm.plans n p } }

/-- A plan is loaded under the number. -/
def State.planLoaded (s : State) (n : Nat) : Bool := !(s.plan n).threads.isEmpty

/-! ## Rates (R366) -/

/-- Bytes of results in 2 s. A SCAN job counts each tile's pairs at that tile's scan period. -/
def State.rate2s (s : State) (b : Job) : Rat :=
  match b.kind with
  | 1 => ((s.plan b.plan).resPerShot * 312500000 : Rat) / b.period
  | 6 => ((List.range 7).map (fun t =>
      let lo := max b.firstQ (64 * t)
      let hi := min (b.firstQ + b.countQ) (64 * t + 64)
      ((hi - lo : Nat) * 2048000 : Rat) / s.rd F.SNS_CTRL_TCONV [t])).sum
  | _ => 0

/-- The result rate times 2 s of a partition's jobs in flight. -/
def State.partUse (s : State) (p : Nat) : Rat :=
  ((s.qm.jobs.filter (fun e => decide (e.2.part = p))).map (fun e => s.rate2s e.2)).sum

/-! ## Checks of admission (R359) -/

/-- The unit belongs to the partition through a qubit channel or a readout line; spares, ADCs and TDC inputs to none. -/
def State.unitOf (s : State) (u : UnitDesc) (p : Nat) : Bool :=
  match u.kind with
  | 1 | 4 | 5 => decide (s.chanOwner (64 * u.tile + u.index) = some p)
  | 3 => decide (s.lineOwner (8 * u.tile + u.index) = some p)
  | _ => false

/-- A present unit that the job names belongs to another partition, or to none. -/
def State.foreign (s : State) (b : Job) : Bool :=
  let p := b.part
  let strm := fun (t k : Nat) => decide (s.strmState t k ≠ kClosed) && decide (s.rd F.TIL_STRM_STATUS_PART [t, k] ≠ p)
  match b.kind with
  | 1 =>
    let l := s.plan b.plan
    decide (l.part ≠ p) || l.threads.any (fun t => decide (s.thrOwner t.gid ≠ some p)) ||
      l.lines.any (fun n => decide (s.lineOwner n ≠ some p)) || l.gens.any (fun g => decide (s.genOwner g ≠ some p)) ||
      l.strms.any (fun e => strm e.1 e.2)
  | 3 => (s.calUnits (calAsk b.calReq 0)).any (fun u => u.present s.variant && !s.unitOf u p)
  | 4 | 5 => strm b.tile b.strm
  | 6 => (List.range b.countQ).any (fun i => decide ((b.firstQ + i) / 64 < s.variant.tiles) &&
      decide (s.chanOwner (b.firstQ + i) ≠ some p))
  | _ => false

/-- A named tile is absent. -/
def State.absentTile (s : State) (b : Job) : Bool :=
  match b.kind with
  | 2 | 4 | 5 => decide (s.variant.tiles ≤ b.tile)
  | 3 => (s.calUnits (calAsk b.calReq 0)).any (fun u => !u.present s.variant)
  | 6 => decide (s.variant.tiles ≤ (b.firstQ + b.countQ - 1) / 64)
  | _ => false

/-- A unit the job needs is fenced; a drive output of a channel only with no spare (16 R359, 07 R193). -/
def State.needsFenced (s : State) (b : Job) : Bool :=
  match b.kind with
  | 1 =>
    let l := s.plan b.plan
    l.threads.any (fun t => s.fenced ⟨8, t.tile, 8 * t.cluster + t.thr⟩) ||
      l.lines.any (fun n => s.fenced ⟨3, n / 8, n % 8⟩) || l.strms.any (fun e => s.tileFenced e.1) ||
      (s.chansOf b).any (fun c => (s.fenced ⟨1, c / 64, c % 64⟩ && !(s.spare (c / 64) (c % 64 / 8)).holds (c % 64)) ||
        s.fenced ⟨4, c / 64, c % 64⟩ || s.fenced ⟨5, c / 64, c % 64⟩)
  | 2 => s.fenced ⟨10, b.tile, 0⟩
  | 3 => (s.calUnits (calAsk b.calReq 0)).any s.fenced
  | 4 | 5 => s.tileFenced b.tile
  | 6 => (List.range 7).any (fun t => b.scansTile t && s.tileFenced t)
  | _ => false

/-- A named stream is not OPEN or PLAYING; a STREAM_CLOSE needs one that is not CLOSED (R167). -/
def State.notOpen (s : State) (b : Job) : Bool :=
  match b.kind with
  | 1 => (s.plan b.plan).strms.any (fun e => !(decide (s.strmState e.1 e.2 = kOpen) || decide (s.strmState e.1 e.2 = kPlaying)))
  | 5 => decide (s.strmState b.tile b.strm = kClosed)
  | _ => false

/-- A PUB slot of the job is a job's of another partition, an import or software's. -/
def State.pubTaken (s : State) (b : Job) : Bool :=
  decide (b.kind = 1) && (s.plan b.plan).pubs.any (fun p =>
    match s.slotUser (960 + p.1) with
    | .imp _ _ | .software _ => true
    | _ => s.qm.jobs.any (fun e => decide (e.2.kind = 1) && decide (e.2.part ≠ b.part) &&
        (s.plan e.2.plan).pubs.any (fun q => decide (q.1 = p.1))))

/-- STREAM_OPEN jobs admitted and not yet in effect. -/
def State.opening (s : State) : List Job :=
  (s.qm.jobs.map Prod.snd).filter (fun b => decide (b.kind = 4) && b.open_ && !b.begun)

/-- Windows in samples, or bandwidth, of the open streams of some tiles with those about to open. -/
def State.strmSum (s : State) (tiles : Nat → Bool) (f : Fld) (g : Job → Nat) : Nat :=
  (((s.tilesBy 64).filter (fun e => tiles e.1 && decide (s.strmState e.1 e.2 ≠ kClosed))).map
    (fun e => s.rd f [e.1, e.2])).sum + ((s.opening.filter (fun b => tiles b.tile)).map g).sum

/-- Refusals of STREAM_OPEN (06 R162, R172): 0 none. -/
def State.openRefusal (s : State) (b : Job) : Nat :=
  let same := fun t => decide (t = b.tile)
  if s.strmState b.tile b.strm ≠ kClosed ∨ s.opening.any (fun c => decide (c.tile = b.tile) && decide (c.strm = b.strm)) then
    0x0501
  else if 256 < s.strmSum same F.QMG_STRM_CFG_WIN Job.win + b.win then 0x0107
  else if 400 < s.strmSum (fun _ => true) F.QMG_STRM_CFG_RATE Job.rate + b.rate ∨
      125 < s.strmSum same F.QMG_STRM_CFG_RATE Job.rate + b.rate then 0x0108
  else 0

/-- The engine of a tile is held, or not IDLE or DONE (11 R279). -/
def State.capBusy (s : State) (t : Nat) : Bool :=
  s.rdB F.CAP_STATUS_HELD [t] || !(decide (s.capState t = cIdle) || decide (s.capState t = cDone))

/-- The first check of R359 that fails; 0 none. -/
def State.admitReason (s : State) (e : List Byte) (b : Job) : Nat :=
  if s.mode = mReset ∨ s.mode = mSafe then 0x0504
  else if !s.entryOk e b then 0x0501
  else if b.kind = 1 ∧ !s.planLoaded b.plan then 0x010D
  else if s.foreign b then 0x010A
  else if s.absentTile b then 0x0102
  else if s.needsFenced b then 0x0401
  else if s.notOpen b then 0x010C
  else if s.pubTaken b then 0x0109
  else if (s.rd F.QMG_PART_QUOTA_QUOTA [b.part] * 2 ^ 20 : Rat) < s.partUse b.part + s.rate2s b then 0x010B
  else
    match b.kind with
    | 2 => if s.capBusy b.tile then 0x0101 else 0
    | 3 => s.calRefusal (calAsk b.calReq 0) true
    | 4 => s.openRefusal b
    | _ => 0

/-! ## Scheduling (R360-R362) -/

/-- A tick of grid time counted from power-on. -/
def State.fromGrid (s : State) (g : Nat) : Nat := ((g : Int) - s.clk.off).toNat

/-- The start of a RUN job that TIMING fixes at admission. -/
def State.spanFixed (s : State) (b : Job) : Option Nat :=
  if b.kind = 1 ∧ b.start ≠ 2 ∧ !s.continuity b.part then b.startAt else none

/-- The scheduled end of a job, if it has one (R360). A job under CONTINUITY, or started by trigger, ends at its DEADLINE
at the latest. -/
def State.schedEnd (s : State) (b : Job) : Option Nat :=
  match s.spanFixed b with
  | some t => some (t + b.shots * b.period)
  | none => if b.deadline = 0 then none else some (b.admitAt + b.deadline)

/-- First tick of a job's span: the first start tick, or the admission tick where no start is fixed. -/
def State.spanStart (s : State) (b : Job) : Nat := (s.spanFixed b).getD b.admitAt

/-- Jobs that share a resource with a job and have not ended, or whose last shot still runs. -/
def State.sharers (s : State) (b : Job) : List Job :=
  (s.qm.jobs.map Prod.snd).filter (fun c => (c.open_ || c.running) && s.shares b c)

/-- The start that TIMING fixes at admission (R362): none for TRIG, and for ASAP behind a job without a scheduled end. -/
def State.fixedStart (s : State) (b : Job) : Option Nat :=
  match b.start with
  | 0 => (s.sharers b).foldl (fun m c => m.bind (fun m => (s.schedEnd c).map (max m))) (some (b.admitAt + 157))
  | 1 => some (s.fromGrid (b.startTime / 128))
  | _ => none

/-- Spans overlap. -/
def State.overlaps (s : State) (b c : Job) : Bool :=
  let before := fun (x : Option Nat) (y : Nat) => match x with | some e => decide (e ≤ y) | none => false
  !(before (s.schedEnd b) (s.spanStart c) || before (s.schedEnd c) (s.spanStart b))

/-- A BRD of the plan names a slot of a decoder in EXTERNAL mode, or an import whose port is not ACTIVE with its partner
in the same time domain. -/
def State.unpromised (s : State) (b : Job) : Bool :=
  (s.plan b.plan).brdSlots.any (fun i =>
    if i < 896 then false
    else if i < 960 then decide (s.decMode ((i - 896) / 16) = 3)
    else match s.slotUser i with
      | .imp p _ => !(decide (s.portState p = pActive) && s.sameDomain p)
      | _ => false)

/-- The checks that TIMING adds (R360); 0 none. -/
def State.timingReason (s : State) (b : Job) : Nat :=
  if b.start = 1 ∧ s.fromGrid (b.startTime / 128) < b.admitAt + 157 then 0x0206
  else if b.start = 2 ∧ b.deadline = 0 then 0x0206
  else if b.kind = 1 ∧ b.period < (s.plan b.plan).shotLen then 0x0208
  else if (s.sharers b).any (s.overlaps b) ∨ (b.start = 0 ∧ b.startAt.isNone) then 0x0207
  else if b.kind = 1 ∧ s.unpromised b then 0x0209
  else 0

/-! ## Units a job holds (17 R389) -/

/-- A job holds the unit of a register: a channel of its partition on a tile where it has a thread, a measured line, a
generator of its plan, a decoder it owns or whose outputs its BRDs name. -/
def State.holdsReg (s : State) (b : Job) (r : Reg) (ix : List Nat) : Bool :=
  let t := ix.headD 0
  let i := ix.getD 1 0
  let o := r.base % 0x1000000
  let onTile := (s.threadsOf b).any (fun g => decide (thrTile g = t))
  if 0x1000000 ≤ r.base ∧ r.base < 0x2000000 then
    if r.id = R.TIL_GEN_CTRL.id ∨ r.id = R.TIL_GEN_START.id ∨ r.id = R.TIL_GEN_STEP.id ∨ r.id = R.TIL_GEN_LIMIT.id then
      decide (b.kind = 1) && (s.plan b.plan).gens.contains (32 * t + i)
    else if (0x100000 ≤ o ∧ o < 0x148000) ∨ (0x200000 ≤ o ∧ o < 0x2C0000) then
      onTile && (s.part b.part).chans.contains (64 * t + i)
    else if 0x300000 ≤ o ∧ o < 0x340000 then (s.measured b).contains (8 * t + i)
    else if r.id = R.TIL_MARK.id then onTile
    else false
  else if 0x60100 ≤ r.base ∧ r.base < 0x60200 then
    decide (b.kind = 1) && ((s.plan b.plan).brdSlots.any (fun n => decide (896 + 16 * t ≤ n) && decide (n < 912 + 16 * t)) ||
      ((s.decGroups t).any (fun g => (s.group g).members.any (fun n =>
        decide (n < 896) && (s.measured b).contains (n / 16) ||
          (s.plan b.plan).pubs.any (fun p => decide (960 + p.1 = n))))))
  else false

/-- A staged register write reaches an RL field of a unit the job holds. -/
def State.locksWith (s : State) (b : Job) (e : TxnEntry) : Bool :=
  decide (e.kind = 0) &&
    (match findReg e.offset regTable with
     | some (r, ix, w) => decide (BitVec.ofNat 32 (r.maskBy w (fun a => decide (a = .rl))) &&& e.mask ≠ 0) && s.holdsReg b r ix
     | none => false)

/-- A committed transaction holds an RL field of a unit that the job would make run at or before the commit tick. -/
def State.txnLocks (s : State) (b : Job) : Bool :=
  s.mb.committed.any (fun e => (decide (e.1 = b.part) || decide (e.1 = 64)) && !e.2.applied &&
    decide (s.spanStart b ≤ e.2.commit) && e.2.entries.any (s.locksWith b))

/-! ## Admission -/

/-- The lowest free job slot. -/
def State.freeSlot (s : State) : Nat := ((List.range 1024).find? (fun j => !(s.job j).present)).getD 0

/-- The threads that own the PUB slots of a RUN job become their users; `all` also where another job of the partition
does. -/
def State.takePubs (s : State) (j : Nat) (all : Bool) : State :=
  let b := s.job j
  if b.kind = 1 then
    let p := s.plan b.plan
    p.pubs.foldl (fun s e =>
      if all || decide (s.slotUser (960 + e.1) = .none) then
        s.setSlotUser (960 + e.1) (.pub j ((p.threads.map PlanThr.gid).getD e.2 0))
      else s) s
  else s

/-- Admits a job: it is in flight. -/
def State.acceptJob (s : State) (b : Job) : State :=
  let j := s.freeSlot
  let s := s.setJob j { b with order := s.qm.admits, nextAt := b.startAt }
  ({ s with qm := { s.qm with admits := s.qm.admits + 1 } }).takePubs j false

/-- A fetched entry is admitted or refused (R353, R359); a refused one completes at once. -/
def State.submit (s : State) (q : Nat) (e : List Byte) : State :=
  let head := (s.rd F.QMG_QP_SQ_HEAD [q] + 1) % (s.qp q).sqLen
  let s := s.wr F.QMG_QP_SQ_HEAD [q] head
  let s := { s with qm := { s.qm with rr := q } }
  let b := jobOf e q (s.rd F.QMG_QP_CFG_PART [q]) s.now head
  let s := if b.kind = 1 ∧ s.planLoaded b.plan then s.setPlan b.plan (s.scanPlan (s.plan b.plan)) else s
  let timing := !s.continuity b.part
  let b := if timing then { b with startAt := s.fixedStart b } else b
  let r := s.admitReason e b
  let r := if r = 0 ∧ timing then s.timingReason b else r
  let r := if r = 0 ∧ s.txnLocks b then 0x0908 else r
  if r = 0 then s.acceptJob b
  else
    let p := s.qp q
    s.setQp q { p with done := p.done ++ [⟨none, b.tag, r, head⟩] }

/-- Entries can be read from host memory: while viral is in force no CXL.cache request is issued (15 R338, R342). -/
def State.entriesRead (s : State) : Bool := !(s.viral && s.hif.cacheEn)

/-- A submission row takes the next entry of a pair in its turn when the entry is of its kinds. -/
def State.submitKind (s : State) (q : Nat) (e : List Byte) (ok : Nat → Bool) : State :=
  if q < 4096 ∧ e.length = 64 ∧ !s.fetchPaused ∧ s.entriesRead ∧ s.qpTurn q ∧ ok (leAt e 0 1) then s.submit q e else s

/-- SUBMIT_RUN: KIND RUN, or a KIND that names no job. -/
def execSubmitRun (qp : Nat) (entry : List Byte) (s : State) : Host.Outcome State Fault Refusal :=
  .next (s.submitKind qp entry (fun k => decide (k ≤ 1) || decide (7 ≤ k)))

/-- SUBMIT_CAPTURE. -/
def execSubmitCapture (qp : Nat) (entry : List Byte) (s : State) : Host.Outcome State Fault Refusal :=
  .next (s.submitKind qp entry (fun k => decide (k = 2)))

/-- SUBMIT_CALIBRATE. -/
def execSubmitCalibrate (qp : Nat) (entry : List Byte) (s : State) : Host.Outcome State Fault Refusal :=
  .next (s.submitKind qp entry (fun k => decide (k = 3)))

/-- SUBMIT_STREAM_OPEN. -/
def execSubmitStreamOpen (qp : Nat) (entry : List Byte) (s : State) : Host.Outcome State Fault Refusal :=
  .next (s.submitKind qp entry (fun k => decide (k = 4)))

/-- SUBMIT_STREAM_CLOSE. -/
def execSubmitStreamClose (qp : Nat) (entry : List Byte) (s : State) : Host.Outcome State Fault Refusal :=
  .next (s.submitKind qp entry (fun k => decide (k = 5)))

/-- SUBMIT_SCAN. -/
def execSubmitScan (qp : Nat) (entry : List Byte) (s : State) : Host.Outcome State Fault Refusal :=
  .next (s.submitKind qp entry (fun k => decide (k = 6)))

/-! ## Starting jobs (R361, R362) -/

/-- An earlier admitted job that shares a resource has not completed. -/
def State.blocked (s : State) (j : Nat) : Bool :=
  let b := s.job j
  s.qm.jobs.any (fun e => decide (e.2.order < b.order) && decide (e.1 ≠ j) && s.shares b e.2 && (e.2.open_ || e.2.running))

/-- The start tick of a job, once it is known, and whether it starts late (LATE_START). -/
def State.startOf (s : State) (j : Nat) : Option (Nat × Bool) :=
  let b := s.job j
  match b.startAt with
  | some t => some (t, false)
  | none =>
    if b.start = 2 ∨ s.blocked j then none
    else if b.start = 1 then
      let t := s.fromGrid (b.startTime / 128)
      some (max t b.floor, decide (t < b.floor))
    else some (b.floor, false)

/-- The barriers of a plan take their members. -/
def State.joinBars (s : State) (j : Nat) : State :=
  let p := s.plan (s.job j).plan
  ((List.range 32).filter (fun i => p.bars.getLsbD i)).foldl (fun s i =>
    s.setBar i ⟨some j, (p.threads.filter (fun t => t.bars.getLsbD i)).map PlanThr.gid, none⟩) s

/-- A CAPTURE job takes the engine and arms it, at its START_TIME through WAIT_TIME (11 R279). -/
def State.startCapture (s : State) (j at_ : Nat) : State :=
  let b := s.job j
  if s.capBusy b.tile then s.endJob j 0x01 0x0101
  else if !s.capLimitsOk b.tile then (s.wr F.CAP_REFUSE_REASON [b.tile] 0x0501).endJob j 0x01 0x0501
  else
    let s := (s.wr F.CAP_STATUS_HELD [b.tile] 1).capStart b.tile (some j) (decide (b.start = 1))
    if b.start = 1 then s.setCap b.tile { s.cap b.tile with wake := some at_ } else s

/-- The work of a job begins at its start tick. -/
def State.beginJob (s : State) (j at_ : Nat) : State :=
  let b := s.job j
  match b.kind with
  | 1 => ((s.updJob j (fun b => { b with nextAt := some at_ })).joinBars j).takePubs j true
  | 2 => (s.updJob j (fun b => { b with running := true })).startCapture j at_
  | 3 => (s.updJob j (fun b => { b with running := true })).beginCal (calAsk b.calReq 0) none (some j)
  | 4 =>
    let (s, r) := s.strmOpen b
    if r = 0 then s.updJob j (fun b => { b with running := true }) else s.endJob j 0x01 r
  | 5 => (s.strmClose b.tile b.strm).updJob j (fun b => { b with running := true })
  | _ =>
    ((List.range 7).filter b.scansTile).foldl (fun s t => s.applyScanEn t true) (s.updJob j (fun b => { b with running := true }))

/-- JOB_START (R361, R362). -/
def execJobStart (job : Nat) (s : State) : Host.Outcome State Fault Refusal :=
  let b := s.job job
  match s.startOf job with
  | some (t, late) =>
    if b.open_ ∧ !b.begun ∧ t ≤ s.now then
      let s := s.setJob job { b with startAt := some t, begun := true, nextAt := none }
      let s := if late then s.jobFlag job 5 else s
      .next (s.beginJob job t)
    else .next s
  | none => .next s

/-- A stamped edge of a trigger input reaches the jobs that wait for one, in the order of their admission (R362, R363). -/
def State.edgeFor (s : State) (j src tick : Nat) : State :=
  let b := s.job j
  if !(b.open_ && decide (b.start = 2) && decide (b.trigSrc = src) && decide (b.admitAt ≤ tick)) then s
  else if b.startAt.isNone then
    if s.blocked j || (!s.continuity b.part && (s.sharers b).any (fun c => decide (c.order < b.order))) then s
    else
      let t := if s.continuity b.part then max (tick + 8) b.floor else tick + 8
      s.setJob j { b with startAt := some t, nextAt := some t, pendTrig := if b.trigEach then some tick else none }
  else if b.trigEach ∧ b.shotsRun < b.shots then
    if b.pendTrig.isSome then (s.setJob j { b with trigOvr := min 511 (b.trigOvr + 1) }).jobFlag j 7
    else s.setJob j { b with pendTrig := some tick, nextAt := some (max (tick + 8) (b.shotAt + b.period)) }
  else s

def State.jobEdge (s : State) (src tick : Nat) : State :=
  (s.qm.jobs.map Prod.fst).foldl (fun s j => s.edgeFor j src tick) s

/-! ## Shots (03 R61, R71-R75) -/

/-- Threads of a job still in the job's shot. -/
def State.liveThreads (s : State) (j : Nat) : List Nat :=
  (s.jobThreads j).filter (fun g => (s.thr g).active && decide ((s.thr g).job = some j))

/-- Threads still in a shot that must end at a tick: SHOT_OVERRUN, or ENDED_BY_PEER where a peer has ended the shot
before (R75). -/
def State.cutThreads (s : State) (j t : Nat) : State :=
  ((s.liveThreads j).map (fun g => (g, (s.thr g).peerEnd))).foldl (fun (s : State) (e : Nat × Option Nat) =>
    match e.2 with
    | some d => s.endThread e.1 0x0C (min d t)
    | none => s.endThread e.1 0x0B t) s

/-- Windows that the shot begun at a tick opened and that are not closed. -/
def State.shotWindows (s : State) (j start : Nat) : Bool :=
  s.rdo.windows.any (fun w => decide (w.job = some j) && decide (w.shot = start))

/-- A shot's copies of the averages join the job's accumulators when it completed OK, and are dropped otherwise (R240). -/
def State.mergeAverages (s : State) (j start : Nat) (ok : Bool) : State :=
  let mine := fun (a : AvgAcc) => decide (a.job = j) && decide (a.copy = some start)
  let rest := s.rdo.avg.filter (fun a => !mine a)
  let avg := if ok then (s.rdo.avg.filter mine).foldl (fun l a => addAvg { a with copy := none } l) rest else rest
  { s with rdo := { s.rdo with avg := avg } }

/-- A shot has completed with a status: it counts in the completion; an attempt that is re-run gives at most its status to
FIRST_BAD (R72, R367). -/
def State.tallyShot (s : State) (j start : Nat) (status : BitVec 8) (counts : Bool) : State :=
  let s := s.mergeAverages j start (counts && decide (status = 0))
  let s := if counts then s.freeStreams j start else s
  s.updJob j (fun b =>
    if status = 0 then (if counts then { b with shotsOk := b.shotsOk + 1 } else b)
    else if b.firstBad = 0 then { b with firstBad := status }
    else b)

/-- The shot in progress gives way to the next: it completes, or its open windows keep it. -/
def State.parkShot (s : State) (j : Nat) (counts : Bool) : State :=
  let b := s.job j
  if b.running then
    if s.shotWindows j b.shotAt then
      s.setJob j { b with tails := b.tails ++ [⟨b.shotAt, b.no, b.shotStatus, b.shotBytes, counts⟩] }
    else s.tallyShot j b.shotAt b.shotStatus counts
  else s

/-- Bank changes that are due, of the threads that are not in a shot or are at a shot boundary (`at_`): an accepted swap
whose commit tick has come, an applied patch, a bank that replaces a failed one (04 R114, R116, R120, R124). -/
def State.switchBanks (s : State) (at_ : Nat → Bool) : State :=
  let who := fun (s : State) (gc : Nat) => (clusterThreads gc).filter (fun g => at_ g || !(s.thr g).active)
  let move := fun (s : State) (gc : Nat) (store : StoreKind) (b : Bool) => (who s gc).foldl (fun s g => s.setBank g store b) s
  let s := s.stores.nanoSwap.foldl (fun s (w : Nat × Bool × Nat × Option Nat) => if w.2.2.1 ≤ s.now then move s w.1 .nano w.2.1 else s) s
  let s := match s.stores.ustage with
    | some u => if u.applying ∧ u.applyAt ≤ s.now then u.targets.foldl (fun s (e : Nat × Bool) => move s e.1 .micro e.2) s else s
    | none => s
  (s.stores.bankRepl.filter (fun (r : BankRepl) => r.filled)).foldl (fun s r => s.moveReplaced r at_) s

/-- A staged RWH register belongs to a thread or to a decoder; whether that unit is in a shot. -/
def State.rwhBusy (s : State) (a : StagedAct) : Bool :=
  match a with
  | .word addr _ _ =>
    (match findReg addr regTable with
     | some (_, t :: c :: i :: _, _) => (s.thr (gid t c i)).active
     | _ => false)
  | .synBase d _ => s.qm.jobs.any (fun e => decide (e.2.kind = 1) && e.2.running && decide (e.2.part = s.rd F.SPN_SYN_DEC_CFG_PART [d]))
  | _ => false

/-- The unit of a staged RWH register is at a shot boundary of a job. -/
def State.rwhOf (s : State) (a : StagedAct) (j : Nat) : Bool :=
  match a with
  | .word addr _ _ =>
    (match findReg addr regTable with
     | some (_, t :: c :: i :: _, _) => (s.jobThreads j).contains (gid t c i)
     | _ => false)
  | .synBase d _ => decide ((s.job j).part = s.rd F.SPN_SYN_DEC_CFG_PART [d])
  | _ => false

/-- An RWH entry takes effect. -/
def State.applyRwh (s : State) (a : StagedAct) : State :=
  match a with
  | .word addr v m =>
    (match findReg addr regTable with
     | some (r, ix, w) => s.setMasked r ix w v (m &&& BitVec.ofNat 32 (r.maskBy w (fun a => decide (a = .rwh))))
     | none => s)
  | .synBase d v => s.applySynBase d v
  | _ => s

/-- RWH entries staged before the present tick whose unit meets a condition take effect, in the order of their entry. -/
def State.flushRwh (s : State) (p : StagedAct → Bool) : State :=
  let due := fun (e : Staged) => e.rwh && decide (e.entry < s.now) && p e.act
  let go := s.staged.filter due
  go.foldl (fun s e => s.applyRwh e.act) { s with staged := s.staged.filter (fun e => !due e) }

/-- Thread state at a shot start (R61): every static marker that is set goes to 0. -/
def State.initThread (s : State) (j t entry : Nat) (p : PlanThr) : State :=
  let g := p.gid
  let old := s.thr g
  if old.st = 8 then s
  else
    let ix := [p.tile, p.cluster, p.thr]
    let s := (List.range 8).foldl (fun s i =>
      if old.marks[i]?.getD 0 = 0 then s
      else
        let probe := decide (p.cluster = 8)
        let e : MarkEdge :=
          { probe := probe, tile := p.tile, chan := if probe then i else 8 * p.cluster + i, sample := 128 * t, levels := 0,
            mask := old.marks[i]?.getD 0 }
        { s with outs := { s.outs with marks := s.outs.marks ++ [e] } }) s
    let n : Thread :=
      { old with
        g := Vector.ofFn (fun i : Fin 16 => s.regWord R.CLU_THR_GINIT (ix ++ [i.val]) 0),
        fr := Vector.ofFn (fun i : Fin 8 => s.regWord R.CLU_THR_FRINIT (ix ++ [i.val]) 0),
        lc := Thread.idle.lc, pc := (p.entries.getD entry 0).toNat, stack := [], slots := Thread.idle.slots,
        marks := Thread.idle.marks, st := 1, wait := .none, issue := t, used := 0, start := t, job := some j,
        base := s.rd F.CLU_REGION_BASE [p.tile, p.cluster, p.region],
        last := s.rd F.CLU_REGION_LAST [p.tile, p.cluster, p.region], cur := 0, ended := none, peerEnd := none, urun := false }
    (s.setThr g n).checkPc g

/-- A shot of a job begins, for the first time or as a re-run, at a tick. -/
def State.beginShot (s : State) (j t : Nat) : State :=
  let b := s.job j
  let p := s.plan b.plan
  let gs := p.threads.map PlanThr.gid
  let s := s.switchBanks gs.contains
  let s := s.flushRwh (fun a => s.rwhOf a j)
  let s := p.threads.foldl (fun s pt => s.initThread j t b.entrySet pt) s
  let s := ((List.range 32).filter (fun i => p.bars.getLsbD i)).foldl (fun s i =>
    if (s.bar i).job = some j then s.setBar i { s.bar i with failed := none } else s) s
  let s := s.decShotStart j t
  let s := { s with rdo := { s.rdo with widx := s.rdo.widx.filter (fun e => decide (e.1 % 1024 ≠ j)) } }
  (s.keepStreams j t).updJob j (fun b =>
    { b with shotAt := t, running := true, struck := 0, finished := [], shotBytes := 0, rerun := [], recAt := none })

/-- Ticks added to a job's latency (R27). -/
def Job.addLatency (b : Job) (n : Nat) : Job := { b with addedLat := min 0xFFFFFFFF (b.addedLat + n) }

/-- Under CONTINUITY the next shot waits for room for RES_PER_SHOT (R366). -/
def State.noRoom (s : State) (j : Nat) : Bool :=
  let b := s.job j
  s.continuity b.part &&
    decide (s.rd F.QMG_PART_QUOTA_QUOTA [b.part] * 2 ^ 20 < (s.part b.part).inUse + (s.plan b.plan).resPerShot)

/-- SHOT_START (R61, R75, R362, R363): at its start tick, or, after a wait for room, now. -/
def execShotStart (job : Nat) (s : State) : Host.Outcome State Fault Refusal :=
  let b := s.job job
  match b.nextAt with
  | some t =>
    if b.open_ ∧ b.kind = 1 ∧ b.begun ∧ t ≤ s.now ∧ b.rerun = [] ∧ b.redo = [] ∧ b.shotsRun < b.shots then
      if s.noRoom job then .next (s.setJob job { b with held := true })
      else
        let at_ := if b.held then s.now else t
        let s := (s.cutThreads job at_).parkShot job true
        let s := s.updJob job (fun b =>
          let b := if b.held then b.addLatency (at_ - t) else b
          { b with
            held := false, no := b.shotsRun, shotsRun := b.shotsRun + 1, pendTrig := none,
            nextAt := if b.trigEach || decide (b.shots ≤ b.shotsRun + 1) then none else some (at_ + b.period) })
        .next (s.beginShot job at_)
    else .next s
  | none => .next s

/-- What the re-run of a job's shot, begun before at a tick, waits for has come (R511, R458, R176). -/
def State.recovered (s : State) (j shot : Nat) (aw : Await) : Bool :=
  match aw with
  | .reload c store b a => !s.poisoned c store b a
  | .spare t c => (match s.spare t (c / 8) with
      | .serve d _ => decide (d = c)
      | _ => false)
  | .slice t l => (s.line t l).repair.isNone
  | .lane t => decide (SMap.get 0 s.flt.repairAt t = 0)
  | .stream t k => s.refilled t k j shot
  | .table e => !s.stores.tableRepair.any (fun r => decide (r.1 = e))

/-- No thread of a job's struck shot runs any more and every recovery it awaits has come. -/
def State.rerunReady (s : State) (j : Nat) : Bool :=
  let b := s.job j
  !b.rerun.isEmpty && b.open_ && b.running && (s.liveThreads j).isEmpty && b.rerun.all (s.recovered j b.shotAt)

/-- The tick in which recovery came is kept for every struck shot (R511): its re-run starts at the next boundary. -/
def State.noteRecovery (s : State) : State :=
  { s with qm := { s.qm with jobs := s.qm.jobs.map (fun (e : Nat × Job) =>
      if e.2.recAt.isNone && s.rerunReady e.1 then (e.1, { e.2 with recAt := some s.now }) else e) } }

/-- A shot of a job that began at tick `old` begins again at tick `at_`, as its shot number `no`; later shots move by
the ticks from the start of the shot in progress. -/
def State.rerunShot (s : State) (j old no at_ : Nat) : State :=
  let b := s.job j
  let d := at_ - b.shotAt
  let s := (s.partStrms b.part).foldl (fun s e => if (s.strm e.1 e.2).rewound then s.resumeStream e.1 e.2 j old at_ else s) s
  let s := s.updJob j (fun b =>
    { b.addLatency d with
      no := no,
      nextAt := if b.trigEach then b.pendTrig.map (fun e => max (e + 8) (at_ + b.period)) else b.nextAt.map (· + d) })
  s.beginShot j at_

/-- An earlier shot is run again after the shot in progress: a stream it under-ran is first rewound to its checkpoint. -/
def State.redoShot (s : State) (j : Nat) (r : Redo) (rest : List Redo) : State :=
  match r.aw with
  | .stream t k =>
    if !(s.strm t k).rewound && ((s.strm t k).checkOf j r.start).isSome then s.rewind t k j r.start
    else if s.refilled t k j r.start then
      ((s.parkShot j true).updJob j (fun b => { b with redo := rest })).rerunShot j r.start r.no s.now
    else s
  | aw =>
    if s.recovered j r.start aw then
      ((s.parkShot j true).updJob j (fun b => { b with redo := rest })).rerunShot j r.start r.no s.now
    else s

/-- SHOT_RERUN (R27, R511, R176): the struck shot starts again at the first boundary after recovery; then earlier shots
that were struck. -/
def execShotRerun (job : Nat) (s : State) : Host.Outcome State Fault Refusal :=
  let b := s.job job
  match b.rerun, b.recAt, b.redo with
  | _ :: _, some r, _ =>
    if s.rerunReady job ∧ r < s.now ∧ b.shotAt ≤ r then .next ((s.parkShot job false).rerunShot job b.shotAt b.no (r + 1))
    else .next s
  | [], _, r :: rest =>
    if b.open_ ∧ b.begun ∧ b.shotAt < s.now ∧ (s.liveThreads job).isEmpty then .next (s.redoShot job r rest) else .next s
  | _, _, _ => .next s

/-- SHOT_COMPLETE (R71): an earlier shot whose windows have closed, else the shot in progress; the last one ends the job. -/
def execShotComplete (job : Nat) (s : State) : Host.Outcome State Fault Refusal :=
  let b := s.job job
  match b.tails with
  | t :: rest =>
    if s.shotWindows job t.start then .next s
    else .next ((s.setJob job { b with tails := rest }).tallyShot job t.start t.status t.counts)
  | [] =>
    if b.present ∧ b.kind = 1 ∧ b.running ∧ b.rerun = [] ∧ (s.liveThreads job).isEmpty ∧ !s.shotWindows job b.shotAt then
      let s := s.tallyShot job b.shotAt b.shotStatus true
      let s := s.updJob job (fun b => { b with running := false })
      if b.ended.isSome then .next (s.settleJob job)
      else if b.shots ≤ b.shotsRun ∧ b.redo = [] then .next (s.endJob job 0 0)
      else .next s
    else .next s

/-! ## Early ends (R364) -/

/-- A calibration request of a job is given up: its steps that wait for release stop. -/
def State.dropRequest (s : State) (j : Nat) : State :=
  let mine := fun (r : CalReq) => decide (r.job = some j)
  let us := (s.cal.reqs.filter mine).flatMap (fun r => r.todo.map Prod.fst)
  let s := { s with cal := { s.cal with reqs := s.cal.reqs.filter (fun r => !mine r) } }
  us.foldl (fun s u => if s.isHeld u then s.updCalU u (fun k => { k with work := .none }) else s) s

/-- Ends a job early with a status; a capture engine it holds stops, a calibration request of it is given up. -/
def State.cutJob (s : State) (j status : Nat) : State :=
  let b := s.job j
  let s := s.endJob j status 0
  if b.kind = 2 ∧ b.running then
    if s.capState b.tile = cTriggered then s.capAbort b.tile 1
    else if s.capState b.tile = cDone then s
    else s.wr F.CAP_STATUS_STATE [b.tile] cIdle
  else if b.kind = 3 then s.dropRequest j
  else s

/-- JOB_DEADLINE (R364): the job ends, if it has not, and a running shot ends with SHOT_OVERRUN. -/
def execJobDeadline (job : Nat) (s : State) : Host.Outcome State Fault Refusal :=
  let b := s.job job
  if b.present ∧ b.deadline ≠ 0 ∧ b.admitAt + b.deadline ≤ s.now then
    let s := if b.open_ then s.cutJob job 0x03 else s
    .next (s.cutThreads job (b.admitAt + b.deadline))
  else .next s

/-- JOB_ABORT takes effect on a job at the present boundary (R364). -/
def State.applyAbort (s : State) (j : Nat) : State :=
  if (s.job j).open_ ∧ (s.job j).abort then s.cutJob j 0x04 else s

/-- STREAM jobs end after the tick in which they take effect (R350). -/
def State.endStreamJobs (s : State) : State :=
  (s.qm.jobs.filter (fun e => (decide (e.2.kind = 4) || decide (e.2.kind = 5)) && e.2.open_ && e.2.running)).foldl
    (fun s e => s.endJob e.1 0 0) s

/-! ## Completions (R354, R367) -/

/-- Nothing of the job's results is still to come. -/
def State.resultsOut (s : State) (j : Nat) : Bool :=
  let b := s.job j
  b.staged.isEmpty && b.tails.isEmpty && !b.running && !s.jobWindows j &&
    !(decide (b.kind = 2) && decide ((s.cap b.tile).job = some j) && (s.cap b.tile).aborted.isSome)

/-- The eight words of a completion entry. -/
def completionWords (b : Job) (status reason phase : Nat) : List Word :=
  [b.tag, BitVec.ofNat 32 (status + 256 * b.firstBad.toNat + 65536 * reason), BitVec.ofNat 32 b.shotsRun,
   BitVec.ofNat 32 b.shotsOk, BitVec.ofNat 32 b.resBytes, BitVec.ofNat 32 b.addedLat,
   BitVec.ofNat 32 (b.sqHead + 65536 * min 65535 b.aux),
   BitVec.ofNat 32 (phase + (b.flags.toNat ||| if b.underrun then 2 else 0))]

/-- Frees a job's slot: its PUB slots pass to a job that still lists them, an engine it held is free. -/
def State.freeJob (s : State) (j : Nat) : State :=
  let b := s.job j
  let mine := if b.kind = 1 then (s.plan b.plan).pubs.map Prod.fst else []
  let s := mine.foldl (fun s p =>
    match s.slotUser (960 + p) with
    | .pub k _ => if k = j then s.setSlotUser (960 + p) .none else s
    | _ => s) s
  let s := if b.kind = 2 ∧ (s.cap b.tile).job = some j then
      (s.setCap b.tile { s.cap b.tile with job := none }).wr F.CAP_STATUS_HELD [b.tile] 0
    else s
  let s := s.setJob j .idle
  (s.qm.jobs.map Prod.fst).foldl (fun s k => s.takePubs k false) s

/-- Writes the completion entry of a pair's oldest completion and signals its vector. -/
def State.postCompletion (s : State) (q : Nat) (d : Done) (rest : List Done) : State :=
  let b := match d.job with
    | some j => s.job j
    | none => { Job.idle with tag := d.tag, sqHead := d.sqHead }
  let (status, reason) := match d.job with
    | some _ => b.ended.getD (0, 0)
    | none => (0x01, d.reason)
  let phase := s.rd F.QMG_QP_PHASE [q]
  let tail := s.rd F.QMG_QP_CQ_TAIL [q]
  let p := s.qp q
  let s := s.emit (.completion q tail (completionWords b status reason phase))
  let next := (tail + 1) % p.cqLen
  let s := (s.wr F.QMG_QP_CQ_TAIL [q] next).wr F.QMG_QP_PHASE [q] (if next = 0 then 1 - phase else phase)
  let s := (s.setQp q { p with done := rest }).wr F.QMG_QP_CQ_FULL [q] 0
  let s := if b.irq ∨ status = 0x01 then s.signal (s.rd F.QMG_QP_CFG_VECTOR [q]) else s
  match d.job with
  | some j => s.freeJob j
  | none => s

/-- COMPLETION_POST (R339, R354). -/
def execCompletionPost (qp : Nat) (s : State) : Host.Outcome State Fault Refusal :=
  match (s.qp qp).done with
  | [] => .next s
  | d :: rest =>
    if (match d.job with | some j => !s.resultsOut j | none => false) then .next s
    else if !s.cqFree qp then .next (s.wr F.QMG_QP_CQ_FULL [qp] 1)
    else if !s.linkCarries || s.viral then .next s
    else .next (s.postCompletion qp d rest)

end Sys2Proof.Machine
end

