-- ==== Sys2Proof/Machine/TdcUnit.lean ====
section
/-! DEFINITION. The timing inputs (12): conditioning, stamps, the timestamp log, interval units and the frequency
measurement. Edges come in bins of grid time; inside, bins and ticks count from power-on. -/

namespace Sys2Proof.Machine

def State.tdcIn (s : State) (i : Nat) : TdcIn := SMap.get .idle s.tdc.ins i
def State.setTdcIn (s : State) (i : Nat) (v : TdcIn) : State :=
  { s with tdc := { s.tdc with ins := SMap.put .idle s.tdc.ins i v } }

/-- Bins in a tick, and the dead time of 1.6 ns (R284, R285). -/
def tickBins : Nat := 5120
def deadBins : Nat := 1280

/-- A bin of grid time counted from power-on. -/
def State.binIn (s : State) (bin : Nat) : Nat := ((bin : Int) - s.clk.off * tickBins).toNat

/-- POL selects the edge. -/
def selects (pol : Nat) (rise : Bool) : Bool := if pol = 0 then rise else if pol = 1 then !rise else true

/-! ## The log (R287) -/

/-- A record enters the log, or is dropped when 1,024 are held. -/
def State.logStamp (s : State) (i bin : Nat) (rise lost : Bool) (seq : Word) : State :=
  if 1024 ≤ s.tdc.log.length then
    ((s.wr F.TDC_FIFO_STATUS_OVF [] 1).count F.TDC_FIFO_STATUS_DROPPED [] 1).note (.spine 3) 2 i
  else
    let t := bin / tickBins
    let r : List Word :=
      [BitVec.ofNat 32 t, BitVec.ofNat 32 (t / 2 ^ 32 % 2 ^ 25),
       BitVec.ofNat 32 (bin % tickBins + 2 ^ 13 * i + (if rise then 0 else 2 ^ 17) + (if lost then 2 ^ 18 else 0)), seq]
    { s with tdc := { s.tdc with log := s.tdc.log ++ [r] } }

/-- TDC_FIFO_POP (R287): a read of word 3 answers it and removes the record; an empty log reads 0. -/
def execTdcFifoPop (s : State) : Host.Outcome State Fault Refusal :=
  match s.tdc.log with
  | [] => .next (s.emit (.regData [0]))
  | r :: rest => .next ({ s with tdc := { s.tdc with log := rest } }.emit (.regData [r.getD 3 0]))

/-! ## Interval units (R288) -/

/-- Pending start of a unit: its stamp in bins of grid time, and the tick it came. -/
def State.ivStart (s : State) (k : Nat) : Option (Nat × Nat) := SMap.get none s.tdc.ivs k

def State.setIvStart (s : State) (k : Nat) (v : Option (Nat × Nat)) : State :=
  { s with tdc := { s.tdc with ivs := SMap.put none s.tdc.ivs k v } }.wrB F.TDC_IV_STATUS_PENDING [k] v.isSome

/-- A start older than 2^30 ticks at a tick is no longer pending. -/
def State.ivExpire (s : State) (k tick : Nat) : State :=
  match s.ivStart k with
  | some (_, t) => if t + 2 ^ 30 < tick then (s.setIvStart k none).count F.TDC_IV_COUNT_EXPIRED [k] 1 else s
  | none => s

/-- A STOP stamp of a unit, in bins of grid time. -/
def State.ivStop (s : State) (k inp bin : Nat) : State :=
  match s.ivStart k with
  | some (b, _) =>
    if bin < b then (s.count F.TDC_IV_STATUS_ORPHAN_STOP [k] 1).note (.spine 3) 5 inp
    else
      let d := bin - b
      let s := if s.rdB F.TDC_IV_STATUS_DONE [k] then s.wr F.TDC_IV_STATUS_OVERWRITE [k] 1 else s
      let s := if d = 0 then s.wr F.TDC_IV_STATUS_SAME_BIN [k] 1 else s
      let s := (s.wr F.TDC_IV_RES_LO_BINS_LO [k] d).wr F.TDC_IV_RES_HI_BINS_HI [k] (d / 2 ^ 32)
      let s := (s.wr F.TDC_IV_STOP_TICK_TICK [k] (short (bin / tickBins))).wr F.TDC_IV_STATUS_DONE [k] 1
      let s := s.setIvStart k none
      if s.rdB F.TDC_IV_CFG_IRQ [k] then s.signal 96 else s
  | none => (s.count F.TDC_IV_STATUS_ORPHAN_STOP [k] 1).note (.spine 3) 5 inp

/-- A START stamp of a unit: it replaces a pending one. -/
def State.ivBegin (s : State) (k bin tick : Nat) : State :=
  (if (s.ivStart k).isSome then s.count F.TDC_IV_COUNT_RESTART [k] 1 else s).setIvStart k (some (bin, tick))

/-- A stamp in bins of grid time, which came in a tick, reaches the interval units: first as a STOP, then as a START. -/
def State.intervals (s : State) (inp bin tick : Nat) (rise : Bool) : State :=
  (List.range 4).foldl (fun s k =>
    let hit := fun (src pol : Fld) =>
      s.rdB F.TDC_IV_CFG_EN [k] && decide (s.rd src [k] = inp) && decide (s.rd pol [k] = if rise then 0 else 1)
    let stop := hit F.TDC_IV_CFG_STOP F.TDC_IV_CFG_STOP_POL
    let start := hit F.TDC_IV_CFG_START F.TDC_IV_CFG_START_POL
    let s := if stop || start then s.ivExpire k tick else s
    let s := if stop then s.ivStop k inp bin else s
    if start then s.ivBegin k bin tick else s) s

/-- INTERVAL_START_EXPIRE: a pending start older than 2^30 ticks is cleared. -/
def execIntervalStartExpire (iv : Nat) (s : State) : Host.Outcome State Fault Refusal :=
  .next (s.ivExpire iv s.now)

/-! ## Frequency (R289) -/

/-- A rising edge in the open gate of its input counts, past the dead time of the edge counted before it. -/
def State.freqEdge (s : State) (inp bin : Nat) (rise : Bool) : State :=
  match s.tdc.freq with
  | some r =>
    if rise ∧ s.rd F.TDC_FREQ_CFG_SRC [] = inp ∧ r.start ≤ bin / tickBins ∧
        bin / tickBins < r.start + s.rd F.TDC_FREQ_GATE_GATE [] ∧ (r.n = 0 ∨ r.last + deadBins ≤ bin) then
      { s with tdc := { s.tdc with freq := some { r with first := if r.n = 0 then bin else r.first, last := bin, n := r.n + 1 } } }
    else s
  | none => s

/-- GO takes effect at the present boundary: the gate opens, unless one is open. -/
def State.applyFreqGo (s : State) : State :=
  if s.tdc.freq.isSome then s
  else { s with tdc := { s.tdc with freq := some ⟨s.now, 0, 0, 0⟩ } }.wr F.TDC_FREQ_STATUS_BUSY [] 1

/-- TDC_FREQ_GO (R289): discarded while BUSY is 1. -/
def execTdcFreqGo (s : State) : Host.Outcome State Fault Refusal :=
  if s.rdB F.TDC_FREQ_STATUS_BUSY [] then .next s else .next (s.stage .freqGo false)

/-- TDC_FREQ_GATE_END (R289). -/
def execTdcFreqGateEnd (s : State) : Host.Outcome State Fault Refusal :=
  match s.tdc.freq with
  | some r =>
    if r.start + s.rd F.TDC_FREQ_GATE_GATE [] ≤ s.now then
      let span := r.last - r.first
      let f := if r.n < 2 ∨ span = 0 then 0 else (roundDiv (((r.n - 1) * 8 * 10 ^ 14 : Nat) : Int) span).toNat
      let s := { s with tdc := { s.tdc with freq := none } }
      let s := (s.wr F.TDC_FREQ_EDGES_N [] r.n).wr F.TDC_FREQ_SPAN_LO_SPAN_LO [] span
      let s := (s.wr F.TDC_FREQ_SPAN_HI_SPAN_HI [] (span / 2 ^ 32)).wr F.TDC_FREQ_MHZ_LO_F_LO [] f
      let s := (s.wr F.TDC_FREQ_MHZ_HI_F_HI [] (f / 2 ^ 32)).wr F.TDC_FREQ_STATUS_BUSY [] 0
      let s := (if r.n < 2 then s.wr F.TDC_FREQ_STATUS_NO_SIGNAL [] 1 else s).wr F.TDC_FREQ_STATUS_DONE [] 1
      .next (if s.rdB F.TDC_FREQ_CFG_IRQ [] then s.signal 96 else s)
    else .next s
  | none => .next s

/-! ## Edges (R282-R286) -/

/-- A stamped edge reaches the registers, the log, the interval units, the consumers and the time service. -/
def State.stampEdge (s : State) (i bin grid : Nat) (rise : Bool) : State :=
  let v := s.tdcIn i
  let seq := v.seq + 1
  let s := s.setTdcIn i { v with lastBin := some bin, lost := false, seq := seq }
  let t := grid / tickBins
  let s := (s.wr F.TDC_IN_LAST_LO_TICK [i] t).wr F.TDC_IN_LAST_HI_TICK_HI [i] (t / 2 ^ 32)
  let s := (s.wr F.TDC_IN_LAST_FINE_FINE [i] (grid % tickBins)).wrB F.TDC_IN_LAST_FINE_EDGE [i] (!rise)
  if i = 9 then s
  else
    let s := if s.rdB F.TDC_IN_CFG_LOG [i] then s.logStamp i grid rise v.lost seq else s
    let s := s.intervals i grid (bin / tickBins) rise
    let s := ((s.trigEdge i (bin / tickBins)).jobEdge i (bin / tickBins)).injEdge i
    if i = 8 then s.syncStamp grid else s

/-- An edge is lost: in the dead time it marks the next stamp. -/
def State.loseEdge (s : State) (i : Nat) (dead : Bool) : State :=
  let s := s.count F.TDC_IN_DEAD_COUNT [i] 1
  if dead then
    let s := s.setTdcIn i { s.tdcIn i with lost := true }
    (s.wr F.TDC_IN_STATUS_DEADTIME [i] 1).note (.spine 3) 3 i
  else s

/-- TDC_EDGE (R282-R286): a transition at a ball, inverted by INV. One that returns before FILT is, with its return, a
glitch: this command stands for both. -/
def execTdcEdge (inp bin : Nat) (rise : Bool) (held : Nat) (s : State) : Host.Outcome State Fault Refusal :=
  let b := s.binIn bin
  if inp < 10 ∧ b / tickBins ≤ s.now then
    let rise := rise != s.rdB F.TDC_IN_CFG_INV [inp]
    let glitch := decide (held < s.rd F.TDC_IN_CFG_FILT [inp])
    let s := s.wrB F.TDC_IN_STATUS_LEVEL [inp] (rise != glitch)
    let v := s.tdcIn inp
    let dead := match v.lastBin with
      | some l => decide (l ≤ b) && decide (b < l + deadBins)
      | none => false
    let lost := decide (v.swapAt = b / tickBins + 1)
    if !s.rdB F.TDC_IN_CFG_EN [inp] || (s.fenced ⟨13, 0xFF, inp⟩ && !lost) then .next s
    else if glitch then .next ((s.count F.TDC_IN_STATUS_GLITCH [inp] 1).note (.spine 3) 4 inp)
    else if selects (s.rd F.TDC_IN_CFG_POL [inp]) rise then
      if dead then .next (s.loseEdge inp true)
      else if lost then .next (s.loseEdge inp false)
      else .next ((s.stampEdge inp b bin rise).freqEdge inp b rise)
    else if dead || lost then .next s
    else .next (s.freqEdge inp b rise)
  else .next s

/-- TDC_LINE_SWAP (R286): the lines swap at the next tick boundary, after a calibration or because the line in service has
lost lock; with neither line locked the input is fenced. -/
def execTdcLineSwap (inp : Nat) (dllLost : Bool) (s : State) : Host.Outcome State Fault Refusal :=
  let v := s.tdcIn inp
  if 10 ≤ inp ∨ s.fenced ⟨13, 0xFF, inp⟩ then .next s
  else if !dllLost then .next (s.setTdcIn inp { v with dllBad := false, swap := true })
  else
    let t := s.setTdcIn inp { v with swapAt := s.now + 1, dllBad := true, swap := !v.dllBad }
    .next (if v.dllBad then t.fault (.spine 3) 0 inp else t.note (.spine 3) 1 inp)

/-- The swaps that are due come into force at the present boundary. -/
def State.swapLines (s : State) : State :=
  (List.range 10).foldl (fun s i =>
    if (s.tdcIn i).swap then
      (s.setTdcIn i { s.tdcIn i with swap := false }).wr F.TDC_IN_STATUS_LINE [i] (1 - s.rd F.TDC_IN_STATUS_LINE [i])
    else s) s

end Sys2Proof.Machine
end

