-- ==== Sys2Proof/Machine/Thermal.lean ====
section
/-! DEFINITION. Thermal sensing and shutdown (20). Sensors are numbered as in the thermal fault block: spine sensor s is
s, sensor k of tile n is 6 + 12 n + k. -/

namespace Sys2Proof.Machine

def State.sensor (s : State) (n : Nat) : Sensor := SMap.get .idle s.therm.sensors n
def State.setSensor (s : State) (n : Nat) (v : Sensor) : State :=
  { s with therm := { s.therm with sensors := SMap.put .idle s.therm.sensors n v } }

/-- A field of a sensor's word: the spine's register or the tile's. -/
def State.sens (s : State) (n : Nat) (f g : Fld) : Nat :=
  if n < 6 then s.rd f [n] else s.rd g [(n - 6) / 12, (n - 6) % 12]
def State.putSens (s : State) (n : Nat) (f g : Fld) (v : Nat) : State :=
  if n < 6 then s.wr f [n] v else s.wr g [(n - 6) / 12, (n - 6) % 12] v

def State.sensTemp (s : State) (n : Nat) : Int := signed 16 (s.sens n F.THM_SENS_TEMP F.THM_SENS_T_TEMP)
def State.sensFailed (s : State) (n : Nat) : Bool := decide (s.sens n F.THM_SENS_FAILED F.THM_SENS_T_FAILED = 1)

/-- The sensors present. -/
def State.sensors (s : State) : List Nat := List.range (6 + 12 * s.variant.tiles)

/-- WARN and CRIT, the level of leaving them, and 112 and 90 degrees, in 1/128 degree. -/
def State.threshold (s : State) (st : ThermState) : Int :=
  128 * (match st with | .warn => s.rd F.THM_CFG_WARN [] | .crit => s.rd F.THM_CFG_CRIT [])
def State.leaveLevel (s : State) (st : ThermState) : Int := s.threshold st - 64 * s.rd F.THM_CFG_HYST []
def shutLevel : Int := 128 * 112
def restartLevel : Int := 128 * 90

/-- Consecutive count, kept at 4 at most. -/
def consec (p : Bool) (n : Nat) : Nat := if p then min 4 (n + 1) else 0

/-- A consecutive count toward an entry that is still to come: once complete it stays so (log 109). -/
def owed (coming p : Bool) (n : Nat) : Nat := if coming && decide (4 ≤ n) then 4 else consec p n

/-- The sample is the sensor's next: 1 ms after the last 1 kHz sample, or 50 us after the last when sampled fast (R434). -/
def Sensor.due (v : Sensor) (now : Nat) (fast : Bool) : Bool :=
  match v.last with
  | none => true
  | some l => if fast then decide (l + 7812 ≤ now) else decide (v.slowAt + 156250 ≤ now)

/-- A sample falls on the sensor's 1 kHz grid. -/
def Sensor.onGrid (v : Sensor) (now : Nat) (fast : Bool) : Bool := !fast || decide (v.slowAt + 156250 ≤ now)

/-- The restart count (R443): it runs while every working sensor reads below 90 degrees in shutdown. -/
def State.dwell (s : State) : State :=
  let cool := s.shutdown && s.sensors.all (fun n => s.sensFailed n || decide (s.sensTemp n < restartLevel))
  if cool then
    match s.therm.dwellAt with
    | some _ => s
    | none => { s with therm := { s.therm with dwellAt := some s.now } }.wr F.THM_STATUS_DWELL [] 1
  else { s with therm := { s.therm with dwellAt := none } }.wr F.THM_STATUS_DWELL [] 0

/-- The 1 kHz samples of a sensor, newest first: the present one joins them when it is one. -/
def Sensor.keep (v : Sensor) (now : Nat) (t : Int) (fast : Bool) : Sensor :=
  if v.onGrid now fast then { v with recent := (t :: v.recent).take 251, slowAt := now } else v

/-- Rate of rise over 250 ms, in 1/32 degree per second; none before 250 ms of samples (R438). -/
def Sensor.rate (v : Sensor) : Option Int :=
  match v.recent.head?, v.recent[250]? with
  | some a, some b => some (a - b)
  | _, _ => none

/-- The state bits of a sensor. -/
def fWarn (st : ThermState) : Fld × Fld :=
  match st with
  | .warn => (F.THM_SENS_WARN, F.THM_SENS_T_WARN)
  | .crit => (F.THM_SENS_CRIT, F.THM_SENS_T_CRIT)

def State.inState (s : State) (n : Nat) (st : ThermState) : Bool := decide (s.sens n (fWarn st).1 (fWarn st).2 = 1)
def State.inRate (s : State) (n : Nat) : Bool := decide (s.sens n F.THM_SENS_RATE F.THM_SENS_T_RATE = 1)
def State.sensFast (s : State) (n : Nat) : Bool := decide (s.sens n F.THM_SENS_FAST F.THM_SENS_T_FAST = 1)

/-- THERM_SAMPLE (R433-R438): the reading is kept, the consecutive counts advance, and the sampling rate follows. A
sample that the converter does not answer counts toward the sensor's failure. -/
def execThermSample (sensor : Nat) (temp : Option Int) (s : State) : Host.Outcome State Fault Refusal :=
  let v := s.sensor sensor
  let fast := s.sensFast sensor
  if 6 + 12 * s.variant.tiles ≤ sensor ∨ !v.due s.now fast then .next s
  else
    match temp with
    | none =>
      .next (s.setSensor sensor { v with
        last := some s.now, slowAt := if v.onGrid s.now fast then s.now else v.slowAt,
        silent := owed (!s.sensFailed sensor) true v.silent })
    | some t =>
      let slow := v.onGrid s.now fast
      let near := fun (l : Int) => decide (t ≤ l + 640) && decide (l ≤ t + 640)
      let close := near (s.threshold .warn) || near (s.threshold .crit) || near shutLevel
      let v := { v with
        last := some s.now, silent := owed (!s.sensFailed sensor) false v.silent,
        bad := owed (!s.sensFailed sensor) (decide (t < -5120) || decide (19200 < t)) v.bad,
        warnUp := owed (!s.inState sensor .warn) (decide (s.threshold .warn ≤ t)) v.warnUp,
        warnDown := owed (s.inState sensor .warn) (decide (t < s.leaveLevel .warn)) v.warnDown,
        critUp := owed (!s.inState sensor .crit) (decide (s.threshold .crit ≤ t)) v.critUp,
        critDown := owed (s.inState sensor .crit) (decide (t < s.leaveLevel .crit)) v.critDown,
        hotUp := owed (!s.shutdown) (decide (shutLevel ≤ t)) v.hotUp, far := consec (!close) v.far }
      let v := v.keep s.now t fast
      let lim : Int := 16 * s.rd F.THM_RATE_LIMIT []
      let v := if slow then
          match v.rate with
          | some r => { v with
              rateUp := owed (!s.inRate sensor) (decide (lim < 5 * r)) v.rateUp,
              rateDown := owed (s.inRate sensor) (decide (5 * r ≤ lim)) v.rateDown }
          | none => v
        else v
      let s := s.putSens sensor F.THM_SENS_TEMP F.THM_SENS_T_TEMP (unsigned 16 t)
      let s := s.putSens sensor F.THM_SENS_FAST F.THM_SENS_T_FAST
        (if close then 1 else if 4 ≤ v.far then 0 else if fast then 1 else 0)
      let top := min 255 (t / 128).toNat
      let s := if s.sens sensor F.THM_SENS_MAX F.THM_SENS_T_MAX < top then s.putSens sensor F.THM_SENS_MAX F.THM_SENS_T_MAX top else s
      .next (s.setSensor sensor v).dwell

/-- A sensor that is present and works. -/
def State.works (s : State) (n : Nat) : Bool := decide (n < 6 + 12 * s.variant.tiles) && !s.sensFailed n

/-- An entry of the tick in which the part shuts down leaves SAFE_CAUSE at 0x3 (R439). -/
def State.thermFault (s : State) (bit sensor : Nat) : State :=
  let now := s.shutdown && decide (s.rd F.THM_SD_TICK_TICK [] = short s.grid)
  let s := s.fault (.spine 2) bit sensor
  if now && decide (s.mode = mSafe) then s.wr F.SPN_MODE_SAFE_CAUSE [] 3 else s

/-- THERM_STATE_ENTRY (R436, R439). -/
def execThermStateEntry (sensor : Nat) (st : ThermState) (s : State) : Host.Outcome State Fault Refusal :=
  let v := s.sensor sensor
  let up := match st with | .warn => v.warnUp | .crit => v.critUp
  if s.works sensor ∧ !s.inState sensor st ∧ 4 ≤ up then
    let s := s.putSens sensor (fWarn st).1 (fWarn st).2 1
    .next (s.thermFault (match st with | .warn => 4 | .crit => 1) sensor)
  else .next s

/-- THERM_STATE_LEAVE (R436, R439): no fault. -/
def execThermStateLeave (sensor : Nat) (st : ThermState) (s : State) : Host.Outcome State Fault Refusal :=
  let v := s.sensor sensor
  let down := match st with | .warn => v.warnDown | .crit => v.critDown
  if s.works sensor ∧ s.inState sensor st ∧ 4 ≤ down then .next (s.putSens sensor (fWarn st).1 (fWarn st).2 0) else .next s

/-- THERM_RATE_ENTRY (R438, R439). -/
def execThermRateEntry (sensor : Nat) (s : State) : Host.Outcome State Fault Refusal :=
  if s.works sensor ∧ !s.inRate sensor ∧ 4 ≤ (s.sensor sensor).rateUp then
    .next ((s.putSens sensor F.THM_SENS_RATE F.THM_SENS_T_RATE 1).thermFault 3 sensor)
  else .next s

/-- THERM_RATE_LEAVE (R438). -/
def execThermRateLeave (sensor : Nat) (s : State) : Host.Outcome State Fault Refusal :=
  if s.works sensor ∧ s.inRate sensor ∧ 4 ≤ (s.sensor sensor).rateDown then
    .next (s.putSens sensor F.THM_SENS_RATE F.THM_SENS_T_RATE 0)
  else .next s

/-- THERM_SENSOR_FAIL (R435): the sensor is excluded, its states with it; a tile below 6 working sensors is fenced, a
spine below 3 takes the part to SAFE. -/
def execThermSensorFail (sensor : Nat) (s : State) : Host.Outcome State Fault Refusal :=
  let v := s.sensor sensor
  if s.works sensor ∧ (4 ≤ v.bad ∨ 4 ≤ v.silent) then
    let s := s.putSens sensor F.THM_SENS_FAILED F.THM_SENS_T_FAILED 1
    let s := (s.putSens sensor F.THM_SENS_WARN F.THM_SENS_T_WARN 0).putSens sensor F.THM_SENS_CRIT F.THM_SENS_T_CRIT 0
    let s := (s.putSens sensor F.THM_SENS_RATE F.THM_SENS_T_RATE 0).note (.spine 2) 5 sensor
    let s := s.dwell
    if sensor < 6 then
      if ((List.range 6).filter s.works).length < 3 then .next (s.fault (.spine 2) 2 sensor) else .next s
    else
      let n := (sensor - 6) / 12
      if ((List.range 12).filter (fun k => s.works (6 + 12 * n + k))).length < 6 then .next (s.fault (.spine 2) 6 n)
      else .next s
  else .next s

/-! ## Shutdown (R440-R443) -/

/-- Scanning of a tile stops at once: the conversions in flight are lost. -/
def State.haltScan (s : State) (t : Nat) : State :=
  let s := (List.range 4).foldl (fun s k => s.loseConversion t k) s
  let s := (s.setSenseTile t { s.senseTile t with handAt := 0 }).takeLists t
  ((s.wr F.SNS_CTRL_SCAN_EN [t] 0).wr F.SNS_STATUS_SCANNING [t] 0).setSenseTile t .idle

/-- What the AON domain does at the shutdown entry before SAFE, and after it (R441). -/
def State.shutBegin (s : State) : State :=
  let s := ((s.wr F.THM_STATUS_SHUTDOWN [] 1).count F.THM_STATUS_SHUT_COUNT [] 1).wr F.THM_SD_TICK_TICK [] (short s.grid)
  { s with therm := { s.therm with thermN := true } }

def State.shutEnd (s : State) : State :=
  let s := (List.range s.variant.tiles).foldl (fun s t => (s.haltScan t).capSafe t) s
  (s.wr F.MBX_GLOBAL_IDLE_READY [] 0).abandonCal.dwell

/-- Hardware thermal shutdown around a recording; nothing more in shutdown. -/
def State.shutDown (s : State) (rec_ : State → State) : State :=
  if s.shutdown then s else (rec_ s.shutBegin).shutEnd

/-- THERM_SHUTDOWN (R440, R441). -/
def execThermShutdown (s : State) : Host.Outcome State Fault Refusal :=
  match s.sensors.find? (fun n => s.works n && decide (4 ≤ (s.sensor n).hotUp)) with
  | some n => .next (s.shutDown (fun s => s.fault (.spine 2) 0 n))
  | none => .next s

/-- THERM_RESTART (R443): after 10 s below 90 degrees. Firmware then runs the boot calibration. -/
def execThermRestart (s : State) : Host.Outcome State Fault Refusal :=
  match s.therm.dwellAt with
  | some t =>
    if s.shutdown ∧ t + 1562500000 ≤ s.now then
      let s := { s with therm := { s.therm with dwellAt := none, thermN := false }, clk := { s.clk with strobe := true } }
      let s := (s.wr F.THM_STATUS_SHUTDOWN [] 0).wr F.THM_STATUS_DWELL [] 0
      .next (if s.mode = mSafe then (s.setMode mSafe 3).beginBootCal else s)
    else .next s
  | none => .next s

/-! ## Registers -/

/-- The thresholds of a THM_CFG value are in order (R437). -/
def thmCfgOk (v : Nat) : Bool :=
  let warn := bits v 0 8
  let crit := bits v 8 8
  let hyst := bits v 16 5
  decide (60 ≤ warn) && decide (warn < crit) && decide (crit ≤ 110) && decide (1 ≤ hyst) && decide (hyst ≤ 20)

def State.thmCfgWrite (s : State) (v : Word) : State :=
  if thmCfgOk v.toNat then s.stage (.thmCfg v) false else s.refuse (R.THM_CFG.addr [] 0) 0x0803

/-- THM_CFG_WRITE (R437). -/
def execThmCfgWrite (value : Word) (s : State) : Host.Outcome State Fault Refusal := .next (s.thmCfgWrite value)

/-- An accepted THM_CFG value takes effect: a change restarts every count (R436). -/
def State.applyThmCfg (s : State) (v : Word) : State :=
  let v := v &&& 0x1FFFFF
  if s.regWord R.THM_CFG [] 0 = v then s
  else
    let s := s.setRegWord R.THM_CFG [] 0 v
    { s with therm :=
      { s.therm with
        sensors := s.therm.sensors.map (fun (e : Nat × Sensor) =>
          (e.1, { e.2 with warnUp := 0, warnDown := 0, critUp := 0, critDown := 0 })) } }

/-- MAX_CLEAR (R433). -/
def State.maxClear (s : State) : State := s.sensors.foldl (fun s n => s.putSens n F.THM_SENS_MAX F.THM_SENS_T_MAX 0) s

def execMaxClear (s : State) : Host.Outcome State Fault Refusal := .next s.maxClear

end Sys2Proof.Machine
end

