-- ==== Sys2Proof/Machine/Faults.lean ====
section
/-! DEFINITION. Fault recording and injection (21 R445-R453), spine links (01 R21, R22, 21 R459), the management cores
(21 R460-R462), ERR_N (21 R463) and the event log (21 R465). -/

namespace Sys2Proof.Machine

/-! ## Spine links (R22, R459) -/

/-- The jobs with units on a tile. -/
def State.jobsOnTile (s : State) (t : Nat) : List Nat := s.jobsWhere (s.jobOnTile t)

/-- Spare lanes used in the direction of a lane: lanes 0-15 one direction, 16-31 the other (log 60). -/
def State.sparesUsed (s : State) (t : Nat) (up : Bool) : Nat := SMap.get 0 (if up then s.flt.usedUp else s.flt.usedDown) t

/-- A failing lane of a tile's spine link is replaced by a spare lane; the tile's real-time output is interrupted until
the repair is done. -/
def State.repairLane (s : State) (t lane : Nat) : State :=
  let up := decide (16 ≤ lane)
  let n := s.sparesUsed t up + 1
  let f := s.flt
  let s := { s with flt :=
    { f with
      usedUp := if up then SMap.put 0 f.usedUp t n else f.usedUp,
      usedDown := if up then f.usedDown else SMap.put 0 f.usedDown t n,
      repairAt := SMap.put 0 f.repairAt t (s.now + 1) } }
  let s := s.wr F.TIL_STATUS_LINK_SPARES [t] (2 - max (s.sparesUsed t true) (s.sparesUsed t false))
  s.strikeAll (s.jobsOnTile t) (.lane t)

/-- SPINE_LANE_REPAIR_DONE (R22). -/
def execSpineLaneRepairDone (tile : Nat) (s : State) : Host.Outcome State Fault Refusal :=
  .next { s with flt := { s.flt with repairAt := SMap.put 0 s.flt.repairAt tile 0 } }

/-- The outputs of a tile hold no value (R141, R190). -/
def State.tileOutputsSafe (s : State) (t : Nat) : State :=
  let mine := fun k : Nat => decide (k / 100 % 10 = t)
  { s with outs :=
    { s.outs with
      en := s.outs.en.map (fun (e : Nat × EnRun) => if mine e.1 then (e.1, { e.2 with hadValue := false }) else e),
      bias := s.outs.bias.map (fun (e : Nat × BiasRun) => if e.1 / 64 = t then s.safeBias e else e) } }

/-- TILE_LINK_SILENCE (R459): 64 ticks after the last spine-link traffic the tile sets its own outputs safe. -/
def execTileLinkSilence (tile : Nat) (s : State) : Host.Outcome State Fault Refusal :=
  let since := SMap.get 0 s.flt.silent tile
  if since ≠ 0 ∧ since + 63 ≤ s.now then .next (s.tileOutputsSafe tile) else .next s

/-! ## Detection (R448) -/

/-- What a detection does beside its recording: the flags and counts of the unit's own registers (R143, R187,
R188, R202, R229, R266, R335, R405, the owner of the symbol being free), a spine link without traffic, and the replacement of a spine-link lane. -/
def State.detect (s : State) (b : FltBlk) (f : FaultEv) : State :=
  match b with
  | .tile n k =>
    if k < 72 then
      if f.bit = 5 then s.wr F.DRV_STATUS_MUTED_PLAY [n, k] 1 else s
    else if k < 80 then
      let l := k - 72
      if f.bit = 5 then s.overrangeTick n l
      else if f.bit = 7 then s.wr F.RDO_STATUS_SAT [n, l] 1
      else if f.bit = 9 then s.wr F.PRB_STATUS_MUTED_PLAY [n, l] 1 else s
    else if 89 ≤ k ∧ k < 97 then
      let c := 8 * (k - 89) + f.unit
      if f.bit = 3 then s.wr F.FLX_STATUS_MUTED_PLAY [n, c] 1 else s
    else if 97 ≤ k ∧ k < 105 then
      let c := 8 * (k - 97) + f.unit
      if f.bit = 1 then s.wr F.BIA_STATUS_COMPLIANCE [n, c] 1
      else if f.bit = 2 then s.wr F.BIA_STATUS_DEFERRED [n, c] 1
      else if f.bit = 3 then s.wr F.BIA_STATUS_MUTED_PLAY [n, c] 1 else s
    else if k = 105 then
      if f.bit = 2 then s.wr F.SNS_PAIR_STATUS_LOAD_OPEN [n, f.unit] 1
      else if f.bit = 3 then s.wr F.SNS_PAIR_STATUS_LOAD_SHORT [n, f.unit] 1
      else if f.bit = 4 then s.wr F.SNS_PAIR_STATUS_CLAMP [n, f.unit] 1
      else if f.bit = 5 then s.wr F.SNS_PAIR_STATUS_OUT_OF_LIMIT [n, f.unit] 1
      else if f.bit = 6 then s.wr F.SNS_PAIR_STATUS_OVERLOAD [n, f.unit] 1 else s
    else if k = 107 then
      if f.bit = 0 then
        let s := { s with flt := { s.flt with silent := SMap.put 0 s.flt.silent n (s.now + 1) } }
        (s.wr F.SPN_TILE_FENCE_LINK_DEAD [] (s.rd F.SPN_TILE_FENCE_LINK_DEAD [] ||| 2 ^ n)).wr F.TIL_STATUS_LINK_UP [n] 0
      else if f.bit = 1 then
        s.wr F.TIM_PLL_STATUS_TILE_TICK_ERR [] (s.rd F.TIM_PLL_STATUS_TILE_TICK_ERR [] ||| 2 ^ n)
      else if f.bit = 2 then s.repairLane n f.unit else s
    else s
  | .spine 0 => if f.bit = 6 then s.wr F.SPN_HIF_STATUS_PARTIAL_WR [] 1 else s
  | .spine 9 =>
    if f.bit = 3 ∧ !s.dec.badSlots.contains f.entry then
      { s with dec := { s.dec with badSlots := s.dec.badSlots ++ [f.entry] } }
    else s
  | .spine 10 =>
    if f.bit = 5 ∧ s.rdB F.MEM_DEV_ERR_FITTED [f.unit] then
      let (n, s) := s.draw
      s.countSymbols ⟨f.unit, f.entry, 1⟩ (Config.freeNat n % 5)
    else s
  | .spine _ => s

/-- CLIP of an output (R446): the rendered samples decide it as their tick ends. -/
def clipBit (b : FltBlk) (bit : Nat) : Bool :=
  match b with
  | .tile _ k =>
    (decide (k < 72) && decide (bit = 4)) || (decide (72 ≤ k ∧ k < 80) && decide (bit = 8)) ||
      (decide (89 ≤ k ∧ k < 97) && decide (bit = 2))
  | .spine _ => false

/-- A real failure of a lane of a spine link. -/
def laneFails (f : FaultEv) : Bool := decide (f.bit = 2) && f.real

/-- The faults of one cycle of a spine-link block: a real lane failure with no spare lane left in its direction is
LINK_DEAD (R22, R446); `used` and `usedUp` lanes are taken, those of the failures before it included. -/
def laneBits (used usedUp : Nat) : List FaultEv → List FaultEv
  | [] => []
  | f :: fs =>
    if !laneFails f then f :: laneBits used usedUp fs
    else if f.unit < 16 then
      (if 2 ≤ used then { f with bit := 0 } else f) :: laneBits (used + 1) usedUp fs
    else (if 2 ≤ usedUp then { f with bit := 0 } else f) :: laneBits used (usedUp + 1) fs

/-- The faults of one cycle of a block as they are recorded. -/
def State.laneFaults (s : State) (b : FltBlk) (fs : List FaultEv) : List FaultEv :=
  match b with
  | .tile n 107 => laneBits (s.sparesUsed n false) (s.sparesUsed n true) fs
  | _ => fs

/-- The reaction of an uncorrectable capture-memory error begins with the record's abort (R278, R280). -/
def State.beforeFence (s : State) (b : FltBlk) (f : FaultEv) : State :=
  match b with
  | .tile n 106 => if f.bit = 0 then s.capAbort n 4 else s
  | _ => s

/-- The block is the spine link's of a tile. -/
def linkBlock (b : FltBlk) : Bool :=
  match b with
  | .tile _ k => decide (k = 107)
  | .spine _ => false

/-- The block lies in a tile whose spine link carries no traffic. -/
def State.blockDead (s : State) (b : FltBlk) : Bool :=
  match b with
  | .tile n _ => bit (s.rd F.SPN_TILE_FENCE_LINK_DEAD []) n
  | .spine _ => false

/-! ## Injection (R452, R453) -/

def injBit (v : Word) : Nat := bits v.toNat 0 5
def injUnit (v : Word) : Nat := bits v.toNat 5 7
def injFull (v : Word) : Bool := v.getLsbD 12
def injGo (v : Word) : Bool := v.getLsbD 31

/-- A write of FLT_INJECT: with GO 1 the injection waits for the next boundary, or is discarded with INJ_REFUSED. -/
def State.fltInject (s : State) (b : FltBlk) (v : Word) : State :=
  if !injGo v || !b.live s.variant then s
  else if s.rdB F.SPN_FLT_CTRL_INJ_EN [] && (s.faultSev b (injBit v)).isSome && unitOk b (injBit v) (injUnit v) then
    { s with staged := s.staged ++ [⟨.fltInject b v, s.now, false⟩] }
  else b.wr s F.FLT_COUNT_INJ_REFUSED F.TFLT_COUNT_INJ_REFUSED 1

/-- FLT_INJECT (R452). -/
def execFltInject (blk : FltBlk) (value : Word) (s : State) : Host.Outcome State Fault Refusal :=
  .next (s.fltInject blk value)

/-- The staged injection of a bit and unit of a block. -/
def Staged.injects (e : Staged) (b : FltBlk) (bit unit : Nat) : Bool :=
  match e.act with
  | .fltInject c v => decide (c = b) && decide (injBit v = bit) && decide (injUnit v = unit)
  | _ => false

/-- A full injection of the event. -/
def State.injectsFull (s : State) (b : FltBlk) (f : FaultEv) : Bool :=
  s.staged.any (fun e => e.injects b f.bit f.unit && (match e.act with | .fltInject _ v => injFull v | _ => false))

/-- The faults of one cycle, each with whether its reaction is taken, and whether it was detected: they are recorded,
then each reaction is taken. A full THERM_SHUTDOWN shuts the part down (20 R441). -/
def State.faultEvents (s : State) (b : FltBlk) (fs : List (FaultEv × Bool)) : State :=
  let recs := fs.map (fun p => ((⟨p.1.bit, p.1.unit, (s.faultSev b p.1.bit).getD 0, p.1.real, p.1.inj⟩ : FaultRec), p.2))
  let s := fs.foldl (fun s p =>
    if p.1.real || (p.2 && linkBlock b && decide (p.1.bit ≤ 1)) then s.detect b p.1 else s) s
  let s := fs.foldl (fun s p => if p.2 then s.beforeFence b p.1 else s) s
  if decide (b = .spine 2) && fs.any (fun p => p.2 && decide (p.1.bit = 0)) && !s.shutdown then
    s.shutDown (fun s => s.faultCycle b recs)
  else s.faultCycle b recs

/-- FAULT_RECORD (R448, R449): the faults a block detects in one cycle. A fault marked as injected too falls in the same
cycle as a staged injection of its bit and unit, which it takes from staging: that cycle is the first of the next tick
(log 61). Faults that the block does not define, units out of range, blocks that do not exist, viral received with
Viral_Enable 0 (15 R342), and a CLIP other than the rendered one (log 100) record nothing. -/
def execFaultRecord (blk : FltBlk) (faults : List FaultEv) (s : State) : Host.Outcome State Fault Refusal :=
  let ok := fun (f : FaultEv) =>
    (s.faultSev blk f.bit).isSome && unitOk blk f.bit f.unit && (f.real || f.inj) && !(f.real && clipBit blk f.bit) &&
      (!f.real || decide (blk ≠ .spine 0) || decide (f.bit ≠ 1) || s.hif.viralEn) &&
      (!f.inj || s.staged.any (fun e => e.injects blk f.bit f.unit))
  if blk.live s.variant ∧ faults.all ok then
    let fs := (s.laneFaults blk faults).map (fun f => (f, f.real || s.injectsFull blk f))
    let inj := faults.filter (fun f => f.inj)
    if inj.isEmpty then .next (s.faultEvents blk fs)
    else
      let s := { s with staged := s.staged.filter (fun e => !inj.any (fun f => e.injects blk f.bit f.unit)),
                        clk := { s.clk with tick := s.now + 1 } }
      let s := s.faultEvents blk fs
      .next { s with clk := { s.clk with tick := s.now - 1 } }
  else .next s

/-- The injections of one block come into force at a boundary, in one cycle. -/
def State.applyInjections (s : State) (b : FltBlk) (vs : List Word) : State :=
  if s.blockDead b then s
  else s.faultEvents b (vs.map (fun v => ((⟨injBit v, injUnit v, false, true, 0⟩ : FaultEv), injFull v)))

/-! ## ERR_N (R463) -/

/-- A FLT_STATUS bit whose FLT_ACTION bit is 1 is set in some block. -/
def State.errPending (s : State) : Bool :=
  (List.range 13).any (fun b => decide (s.rd F.FLT_STATUS_STATUS [b] &&& s.rd F.FLT_ACTION_PIN [b] ≠ 0)) ||
    (s.tilesBy 108).any (fun p =>
      decide (s.rd F.TFLT_STATUS_STATUS [p.1, p.2] &&& s.rd F.TFLT_ACTION_PIN [p.1, p.2] ≠ 0))

/-- Firmware applies the policy once the hardware hold has ended; without firmware the pin stays. -/
def State.errPolicy (s : State) : State :=
  if s.flt.errHold.isNone && s.flt.errN && s.rdB F.MBX_GLOBAL_FW_READY [] &&
      (s.rdB F.SPN_ERR_PIN_POLICY [] || !s.errPending) then
    { s with flt := { s.flt with errN := false } }
  else s

/-- ERR_HOLD_EXPIRE (R463). -/
def execErrHoldExpire (s : State) : Host.Outcome State Fault Refusal :=
  match s.flt.errHold with
  | some t => if t ≤ s.now then .next { s with flt := { s.flt with errHold := none } }.errPolicy else .next s
  | none => .next s

/-! ## Management cores (R460-R462) -/

def State.fwRuns (s : State) : Bool := s.rdB F.MBX_GLOBAL_FW_READY [] && !s.flt.lost

/-- The standby core becomes active; the log names it. -/
def State.handover (s : State) : State :=
  let c := 1 - s.rd F.MBX_GLOBAL_ACTIVE_CORE []
  let s := (s.wr F.MBX_GLOBAL_ACTIVE_CORE [] c).count F.MBX_GLOBAL_HANDOVERS [] 1
  s.logEvent 5 0 0 0 0x70C c 0xFFFFFFFF (leBytes 1 c)

/-- Every mailbox is OFFLINE (R377). -/
def State.mailboxesOff (s : State) : State := (List.range 64).foldl (fun s n => s.wr F.MBX_STATUS_STATE [n] 3) s

/-- Firmware is lost: only PERST recovers the part. -/
def State.firmwareLost (s : State) : State :=
  let s := { s with flt := { s.flt with lost := true, errN := true } }
  (s.wr F.MBX_GLOBAL_FW_READY [] 0).mailboxesOff

/-- HEARTBEAT_MISS (R460): the standby becomes active and the failed core restarts; with no standby the firmware is lost
and the part enters SAFE. -/
def execHeartbeatMiss (s : State) : Host.Outcome State Fault Refusal :=
  let c := s.rd F.MBX_GLOBAL_ACTIVE_CORE []
  if !s.fwRuns then .next s
  else if s.rdB F.MBX_GLOBAL_STANDBY_READY [] then
    let s := (s.fault (.spine 12) 1 c).handover.wr F.MBX_GLOBAL_STANDBY_READY [] 0
    .next { s with flt := { s.flt with restart := some s.now } }
  else .next ((s.fault (.spine 12) 0 c).firmwareLost)

/-- STANDBY_RESTART_DONE (R460 step 4): the restarted core passes its self-test within 2 s, or the standby is lost. -/
def execStandbyRestartDone (ok : Bool) (s : State) : Host.Outcome State Fault Refusal :=
  match s.flt.restart with
  | some t =>
    let s := { s with flt := { s.flt with restart := none } }
    if ok ∧ s.now ≤ t + 312500000 then
      .next ({ s with flt := { s.flt with standbyLost := false } }.wr F.MBX_GLOBAL_STANDBY_READY [] 1)
    else
      let s := { s with flt := { s.flt with standbyLost := true } }
      .next ((s.fault (.spine 12) 2 (1 - s.rd F.MBX_GLOBAL_ACTIVE_CORE [])).advise)
  | none => .next s

/-- Firmware adopts the hardware state of a unit: STATE_MISMATCH, logged with the unit (R462). -/
def State.adopt (s : State) (u : UnitDesc) : State :=
  let c := s.rd F.MBX_GLOBAL_ACTIVE_CORE []
  (s.fault (.spine 12) 3 c).logEvent 6 1 3 1 0x70C c (BitVec.ofNat 32 u.word) []

/-- FW_AUDIT (R462): firmware's view is a cache (log 62); each unit on which it disagrees is adopted. -/
def execFwAudit (stale : List UnitDesc) (s : State) : Host.Outcome State Fault Refusal :=
  if s.fwRuns then .next ((stale.filter (fun u => u.valid && u.present s.variant)).foldl State.adopt s) else .next s

/-! ## The log (R442, R465) -/

/-- The record of a thermal shutdown. -/
def LogRec.ofShutdown (r : LogRec) : Bool :=
  decide (r.kind = 1) && decide (r.block = 0x702) && decide (r.bit = 0)

/-- LOG_WRITE: the oldest buffered record, in shutdown that of the shutdown alone, goes into the ring of 16,384. -/
def execLogWrite (s : State) : Host.Outcome State Fault Refusal :=
  match s.flt.logBuf with
  | [] => .next s
  | _ :: _ =>
    let i := if s.shutdown then s.flt.logBuf.findIdx? LogRec.ofShutdown else some 0
    match i.bind (fun i => (s.flt.logBuf[i]?).map (fun r => (i, r))) with
    | some (i, r) =>
      let log := s.flt.log ++ [r]
      .next { s with flt :=
        { s.flt with logBuf := s.flt.logBuf.eraseIdx i, log := log.drop (log.length - 16384) } }
    | none => .next s

/-- PEAK_CLR (03 R68): a write of 1 to CLU_THR_BUDGET.PEAK_CLR. -/
def execPeakClr (thr : Nat) (s : State) : Host.Outcome State Fault Refusal :=
  if thr < 72 * s.variant.tiles then .next (s.updThr thr (fun t => { t with peak := 0 })) else .next s

end Sys2Proof.Machine
end

