-- ==== Sys2Proof/Machine/Mailbox.lean ====
section
/-! DEFINITION. The mailboxes (17 R369-R378): the request region, the doorbell, and the checks that every command's
request passes before its own. -/

namespace Sys2Proof.Machine

/-! ## The request region (R369, R370) -/

/-- The bytes of a request: its header and its payload. -/
def reqBytes (r : MbxReq) : List Byte :=
  leBytes 2 r.opcode ++ leBytes 2 r.flags.toNat ++ leBytes 4 r.cmdId.toNat ++ leBytes 4 r.len ++ leBytes 4 r.txnId.toNat ++
    leBytes 16 r.rsv.toNat ++ r.payload.take 2016

/-- The request that the region holds: a LEN above 2,016 leaves all of the payload region. -/
def Mbx.request (m : Mbx) : MbxReq :=
  let h := SMap.getList 0 m.region 0 32
  let len := leAt h 8 4
  { opcode := leAt h 0 2, flags := BitVec.ofNat 16 (leAt h 2 2), cmdId := BitVec.ofNat 32 (leAt h 4 4), len := len,
    txnId := BitVec.ofNat 32 (leAt h 12 4), rsv := BitVec.ofNat 128 (leAt h 16 16),
    payload := SMap.getList 0 m.region 32 (min len 2016) }

def mIdleBox : Nat := 0
def mBusy : Nat := 1
def mDone : Nat := 2
def mOffline : Nat := 3

def State.mbxState (s : State) (n : Nat) : Nat := s.rd F.MBX_STATUS_STATE [n]

/-- A write into the request region: discarded while the mailbox is BUSY. -/
def State.regionWrite (s : State) (n off : Nat) (bytes : List Byte) : State :=
  if s.mbxState n = mBusy then s.wr F.MBX_STATUS_DB_ERR [n] 1
  else s.setMbx n { s.mbx n with region := SMap.putList 0 (s.mbx n).region off bytes }

/-! ## The doorbell (R372-R374) -/

/-- The opcodes of R378. -/
def opcodes : List Nat :=
  [0x01, 0x02, 0x03, 0x10, 0x11, 0x12, 0x13, 0x14, 0x20, 0x21, 0x22, 0x23, 0x30, 0x31, 0x32, 0x33, 0x34, 0x35, 0x36, 0x40,
   0x41, 0x42, 0x43, 0x44, 0x45, 0x46, 0x47, 0x48, 0x50, 0x51, 0x52, 0x53, 0x54, 0x55, 0x60, 0x61, 0x62, 0x70, 0x71, 0x72] ++
  [0x80, 0x81, 0x90, 0x91, 0x92, 0x93, 0xA0, 0xA1]

/-- A write of 1 to GO: discarded while BUSY or OFFLINE; a re-issued command is answered from the record and not executed
again; an opcode of no command is refused at once; any other request waits BUSY for firmware. -/
def State.ring (s : State) (n : Nat) : State :=
  if s.mbxState n = mBusy ∨ s.mbxState n = mOffline then s.wr F.MBX_STATUS_DB_ERR [n] 1
  else
    let m := s.mbx n
    let r := m.request
    let s := s.setMbx n { m with req := r, inProg := false, bell := s.mb.bells }
    let s := { s with mb := { s.mb with bells := s.mb.bells + 1 } }
    let again := match m.record with
      | some (op, id, resp) => if op = r.opcode ∧ id = r.cmdId then some resp else none
      | none => none
    match again with
    | some resp =>
      let s := s.setMbx n { s.mbx n with resp := resp }
      let s := (s.wr F.MBX_STATUS_REISSUE [n] 1).wr F.MBX_STATUS_STATE [n] mDone
      if r.flags.getLsbD 0 then s.signal n else s
    | none =>
      let s := ((s.wr F.MBX_STATUS_REISSUE [n] 0).wr F.MBX_STATUS_STATE [n] mBusy).count F.MBX_STATUS_COMMANDS [n] 1
      if opcodes.contains r.opcode then s else s.deny n 0x0A01 whole

/-- MAILBOX_DOORBELL: the host writes a request and rings. -/
def execMailboxDoorbell (n : Nat) (req : MbxReq) (s : State) : Host.Outcome State Fault Refusal :=
  if n < 64 then .next ((s.regionWrite n 0 (reqBytes req)).ring n) else .next s

/-! ## Commands (R371) -/

/-- What a request names (R376): partitions, queue pairs, decoders and units, a transaction by its partition, a cluster
as a unit. -/
def reqNames (r : MbxReq) : List (Nat × Nat) :=
  let p := r.payload
  let part := fun (i : Nat) => (0, leAt p i 1)
  let cluster := [(3, (⟨9, leAt p 0 1, leAt p 1 1⟩ : UnitDesc).word)]
  let units := fun (w n : Nat) => (List.range n).map (fun i => (3, w + 65536 * i))
  match r.opcode with
  | 0x11 | 0x12 | 0x13 => [(0, r.txnId.toNat % 256)]
  | 0x10 | 0x14 | 0x40 | 0x41 | 0x42 | 0x43 => [part 0]
  | 0x20 | 0x21 => units (leAt p 0 4) (min 64 (leAt p 4 1))
  | 0x22 | 0x23 | 0x72 | 0xA1 => units (leAt p 0 4) 1
  | 0x70 => if leAt p 0 1 = 0 then units (leAt p 4 4) (min 64 (leAt p 8 2)) else []
  | 0x30 => part 3 :: cluster
  | 0x35 | 0x36 => cluster
  | 0x44 => [(1, leAt p 0 2), part 2]
  | 0x45 | 0x48 => [(1, leAt p 0 2)]
  | 0x46 => [part 2]
  | 0x50 => if leAt p 2 1 = 0 then [] else [part 3]
  | 0x54 => [(2, leAt p 0 1), part 2]
  | 0x55 => [(2, leAt p 0 1)]
  | _ => []

/-- A request of an earlier doorbell write that names the same waits for firmware in another mailbox (R376). -/
def State.behind (s : State) (n : Nat) : Bool :=
  (List.range 64).any (fun k =>
    decide (s.mbxState k = mBusy) && !(s.mbx k).inProg && decide ((s.mbx k).bell < (s.mbx n).bell) &&
      (reqNames (s.mbx k).req).any (fun x => (reqNames (s.mbx n).req).contains x))

/-- Mailbox `n` holds a request of an opcode that firmware has not begun, and none that it must begin earlier. -/
def State.asks (s : State) (n op : Nat) : Bool :=
  decide (n < 64) && decide (s.mbxState n = mBusy) && !(s.mbx n).inProg && decide ((s.mbx n).req.opcode = op) && !s.behind n

/-- The header checks that every command shares: LEN, FLAGS and RSV, and a TXN_ID where the opcode takes none. -/
def headerOk (r : MbxReq) (txn : Bool) : Bool :=
  decide (r.len = r.payload.length) && decide (r.flags.toNat < 2) && decide (r.rsv = 0) && (txn || decide (r.txnId = 0))

/-- A command: `layout` says whether the payload has the opcode's layout with its reserved bytes 0. -/
def State.command (s : State) (n op : Nat) (txn : Bool) (layout : List Byte → Bool) (body : State → MbxReq → State) : State :=
  if s.asks n op then
    let r := (s.mbx n).req
    if headerOk r txn && layout r.payload then body s r else s.deny n 0x0A01 whole
  else s

/-- A payload of `n` bytes, those listed being reserved. -/
def bytesOk (n : Nat) (rsv : List Nat) (p : List Byte) : Bool :=
  decide (p.length = n) && rsv.all (fun i => decide (p.getD i 0 = 0))

/-- The command of a mailbox has answered IN_PROGRESS and is of an opcode. -/
def State.working (s : State) (n op : Nat) : Bool :=
  decide (n < 64) && decide (s.mbxState n = mBusy) && (s.mbx n).inProg && decide ((s.mbx n).req.opcode = op)

end Sys2Proof.Machine
end

