-- ==== Sys2Proof/Machine/Programs.lean ====
section
/-! DEFINITION. Loading programs and nano-words (03 R62, R63; 04 R112-R117, R125; 17 R384): the checks of every
instruction and nano-word, and the commands PROGRAM_LOAD, NANO_LOAD and NANO_SWAP. -/

namespace Sys2Proof.Machine

/-! ## Common checks of a payload -/

def isZero (w : GateWord) (lo width : Nat) : Bool := decide (opr w lo width = 0)

/-- A device-memory source lies in the host region of an active memory (17 R378). -/
def State.srcOk (s : State) (addr n : Nat) : Bool := s.rdB F.SPN_HIF_STATUS_MEM_ACTIVE [] && s.inHost addr n

/-- Why a named tile and cluster are refused: out of range, or absent; 0 otherwise. -/
def State.clusterReason (s : State) (t c : Nat) : Nat :=
  if 6 < t ∨ 8 < c then 0x0501 else if s.variant.tiles ≤ t then 0x0102 else 0

/-- Words of some bytes each, little-endian. -/
def wordsOf (bytes : List Byte) (size n : Nat) : List Nat := (List.range n).map (fun i => leAt bytes (size * i) size)

/-- The first failing item of a list, with its index. -/
def firstReason {α : Type} (f : α → Nat) : Nat → List α → Option (Nat × Nat)
  | _, [] => none
  | i, a :: rest => if f a = 0 then firstReason f (i + 1) rest else some (f a, i)

/-! ## The instruction check (R63, R76-R98) -/

def playOk (w : GateWord) : Bool :=
  let areg := opr w 38 1 = 1
  let preg := opr w 37 1 = 1
  let aimm := opr w 36 1 = 1
  let pimm := opr w 35 1 = 1
  isZero w 0 3 && (if aimm then decide (¬areg) else if areg then isZero w 23 12 else isZero w 19 16) &&
    (if pimm then decide (¬preg) else if preg then isZero w 7 12 else isZero w 3 16)

def waitOk (w : GateWord) : Bool :=
  let n := opr w 20 32
  isZero w 0 20 &&
    match opr w 56 2 with
    | 0 => isZero w 52 4 && decide (1 ≤ n) && decide (n < 2 ^ 31)
    | 2 => isZero w 52 4 && decide (n < 2 ^ 31)
    | _ => decide (n = 0)

def brdOk (w : GateWord) : Bool :=
  let num := opr w 46 2
  isZero w 0 4 && decide (num ≠ 3) && decide (opr w 4 2 ≠ 3) && decide (1 ≤ opr w 6 8) &&
    (brdSlots (opr w 48 10) num).all (fun k => decide (k < 1024))

def loopOk (w : GateWord) : Bool :=
  let mode := opr w 54 2
  isZero w 0 2 && decide (mode ≠ 3) && (decide (mode = 1) || isZero w 50 4) && (decide (mode = 2) || isZero w 34 16) &&
    (if mode = 0 then decide (1 ≤ opr w 2 32) else isZero w 2 32)

def sweepOk (cl : Nat) (w : GateWord) : Bool :=
  isZero w 0 35 && (if opr w 52 1 = 1 then decide (cl < 8) && !isZero w 40 8 else isZero w 35 13)

def trigOk (w : GateWord) : Bool :=
  isZero w 0 12 && decide (opr w 54 4 ≤ 8) && decide (1 ≤ opr w 30 24) && decide (opr w 28 2 ≠ 3) &&
    (decide (opr w 28 2 = 1) || isZero w 12 16)

def pubOk (w : GateWord) : Bool :=
  isZero w 0 40 && (if opr w 51 1 = 0 then decide (opr w 49 2 ≠ 3) && isZero w 40 9 else isZero w 49 2)

/-- The opcode is defined and allowed in the cluster, every RSV field is 0 and every operand in its range. -/
def gateFields (cl : Nat) (w : GateWord) : Bool :=
  match opcode w with
  | 0x01 => playOk w
  | 0x02 => isZero w 0 17 && (if opr w 53 2 < 2 then isZero w 49 4 else isZero w 17 32)
  | 0x03 => decide (cl < 8) && !isZero w 50 8 && isZero w 0 45
  | 0x04 => waitOk w
  | 0x05 => isZero w 0 20 && decide (opr w 20 32 < 2 ^ 31) && (decide (opr w 52 1 = 1) || !isZero w 20 32)
  | 0x06 => decide (cl = 8) && !isZero w 39 16 && isZero w 0 30
  | 0x07 => brdOk w
  | 0x08 => isZero w 0 35 && decide (opr w 55 3 ≤ 4) && (decide (opr w 55 3 ≠ 0) || isZero w 51 4)
  | 0x09 => isZero w 0 42
  | 0x0A => isZero w 0 58
  | 0x0B => loopOk w
  | 0x0C => sweepOk cl w
  | 0x0D => !isZero w 50 8 && isZero w 0 35
  | 0x0E => trigOk w
  | 0x0F => pubOk w
  | op => decide (0x30 ≤ op) && decide (op ≤ 0x37)

/-- The immediate target of a branch, call or loop. -/
def gateTarget (w : GateWord) : Option Nat :=
  match opcode w with
  | 0x07 => some (opr w 14 16)
  | 0x08 => some (opr w 35 16)
  | 0x09 => some (opr w 42 16)
  | 0x0B => if opr w 54 2 = 2 then some (opr w 34 16) else none
  | 0x0E => if opr w 28 2 = 1 then some (opr w 12 16) else none
  | _ => none

/-- A decision slot of a readout tone belongs to its tile; the others belong to the package (10 R244). -/
def slotPresent (v : Variant) (k : Nat) : Bool := decide (896 ≤ k) || decide (k / 128 < v.tiles)

/-- Why an instruction is refused for a region of a cluster; 0 when it is not. CUSTOMn needs the defined entry that its
operand selects, in the bank in force. -/
def State.gateReason (s : State) (gc base last : Nat) (w : GateWord) : Nat :=
  let inside := match gateTarget w with
    | some t => decide (base ≤ t) && decide (t ≤ last)
    | none => true
  if !(gateFields (gc % 9) w && inside) then 0x0503
  else if opcode w = 0x07 ∧ !(brdSlots (opr w 48 10) (opr w 46 2)).all (slotPresent s.variant) then 0x0102
  else if 0x30 ≤ opcode w ∧ !bit (s.entry (8 * gc) w).toNat 18 then 0x0104
  else 0

/-! ## PROGRAM_LOAD (R62, R384) -/

/-- A region is in use by an ARMED or running job (CLU_REGION.IN_USE). -/
def State.regionUsed (s : State) (t c r : Nat) : Bool :=
  s.qm.jobs.any (fun e => decide (e.2.kind = 1) && (e.2.open_ || e.2.running) &&
    (s.plan e.2.plan).threads.any (fun p => decide (p.tile = t) && decide (p.cluster = c) && decide (p.region = r)))

/-- The fields of a PROGRAM_LOAD. -/
structure ProgAsk where
  tile    : Nat
  cluster : Nat
  region  : Nat
  part    : Nat
  base    : Nat
  last    : Nat
  src     : Nat
  deriving DecidableEq, Repr

def progAsk (p : List Byte) : ProgAsk :=
  ⟨leAt p 0 1, leAt p 1 1, leAt p 2 1, leAt p 3 1, leAt p 4 2, leAt p 6 2, leAt p 8 8⟩

def progLen (a : ProgAsk) : Nat := a.last - a.base + 1

def State.progWords (s : State) (a : ProgAsk) : List Nat := wordsOf (s.memRead a.src (8 * progLen a)) 8 (progLen a)

/-- The new range meets a valid region of another entry. -/
def State.regionClash (s : State) (a : ProgAsk) : Bool :=
  (List.range 16).any (fun r =>
    let ix := [a.tile, a.cluster, r]
    decide (r ≠ a.region) && s.rdB F.CLU_REGION_VALID ix && decide (s.rd F.CLU_REGION_BASE ix ≤ a.last) &&
      decide (a.base ≤ s.rd F.CLU_REGION_LAST ix))

/-- Why a PROGRAM_LOAD is refused, with its DETAIL. -/
def State.progReason (s : State) (a : ProgAsk) : Option (Nat × Nat) :=
  let c := s.clusterReason a.tile a.cluster
  if c ≠ 0 then some (c, whole)
  else if 15 < a.region ∨ 63 < a.part ∨ !s.partValid a.part ∨ a.last < a.base ∨ a.src % 8 ≠ 0 then some (0x0501, whole)
  else if s.regionUsed a.tile a.cluster a.region ∨ s.regionClash a then some (0x0501, whole)
  else if !s.srcOk a.src (8 * progLen a) then some (0x0B02, whole)
  else firstReason (fun w => s.gateReason (9 * a.tile + a.cluster) a.base a.last (BitVec.ofNat 64 w)) 0 (s.progWords a)

/-- Writes the region's instructions and its entry. -/
def State.writeProgram (s : State) (a : ProgAsk) : State :=
  let gc := 9 * a.tile + a.cluster
  let ix := [a.tile, a.cluster, a.region]
  let ws : List GateWord := (s.progWords a).map (fun w => BitVec.ofNat 64 w)
  let s := { s with stores := { s.stores with sram := SMap.putList 0 s.stores.sram (65536 * gc + a.base) ws } }
  (((s.wr F.CLU_REGION_BASE ix a.base).wr F.CLU_REGION_LAST ix a.last).wr F.CLU_REGION_VALID ix 1).wr F.CLU_REGION_PART ix a.part

/-- Checks and loads a program, and writes the final response. -/
def State.loadProgram (s : State) (n : Nat) (a : ProgAsk) : State :=
  match s.progReason a with
  | some (r, d) => s.deny n r d
  | none => (s.writeProgram a).ok n []

/-- PROGRAM_LOAD: an image of more than 8,192 instructions is loaded by the time of the final response. -/
def execProgramLoad (n : Nat) (s : State) : Host.Outcome State Fault Refusal :=
  .next (s.command n 0x30 false (bytesOk 16 []) (fun s r =>
    let a := progAsk r.payload
    match s.progReason a with
    | some (x, d) => s.deny n x d
    | none => if 8192 < progLen a then s.progress n else s.loadProgram n a))

/-! ## Nano-words (R113, R115) -/

/-- Every field that the target kind uses, and every field that must be zero for it, is listed. -/
def Nano.fieldsOk (n : Nano) : Bool :=
  n.rsvOk &&
    (if n.tkind = 0 then decide (n.tchan = 0) else if n.tkind = 1 then decide (n.tchan < 16) else decide (n.tmask = 0)) &&
    (decide (n.tkind = 3) ||
      (decide (1 ≤ n.len) && decide (n.interp ≤ 1) &&
        (if n.stream then decide (n.base < 64) else decide (n.base + n.len ≤ 1048576))))

/-- Why a nano-word is refused in a cluster; 0 when it is not, or is not defined. -/
def nanoReason (cluster : Nat) (w : NanoWord) : Nat :=
  let n := decodeNano w
  if !n.valid then 0 else if !n.fieldsOk then 0x0503 else if !n.reaches cluster then 0x0103 else 0

/-- The nano-store bank of a cluster that no thread reads and that has not failed, while no bank is being replaced. -/
def State.inactiveNano (s : State) (gc : Nat) : Option Bool :=
  let free := fun (b : Bool) => !s.nanoRead gc b && !s.bankFailed (gc / 9) (gc % 9) .nano b
  if s.stores.bankRepl.any (fun r => decide (r.cluster = gc) && decide (r.store = .nano)) then none
  else if free false then some false else if free true then some true else none

/-- The entries of a bank that hold a word, by index. -/
def State.nanoBank (s : State) (gc : Nat) (b : Bool) : List (Nat × NanoWord) :=
  (s.stores.nano.filter (fun e => decide (e.1 / 4096 = bankKey gc b))).map (fun e => (e.1 % 4096, e.2))

/-- Why a swap of a cluster is refused, with the index of the first failing nano-word. -/
def State.swapReason (s : State) (t c : Nat) : Option (Nat × Nat) :=
  let gc := 9 * t + c
  let r := s.clusterReason t c
  if r ≠ 0 then some (r, whole)
  else
    match s.inactiveNano gc with
    | none => some (0x0105, whole)
    | some b =>
      if s.swapping gc then some (0x0105, whole)
      else ((s.nanoBank gc b).find? (fun e => decide (nanoReason c e.2 ≠ 0))).map (fun e => (nanoReason c e.2, e.1))

/-- NANO_LOAD: the nano-words are checked before any is written. -/
def execNanoLoad (n : Nat) (s : State) : Host.Outcome State Fault Refusal :=
  .next (s.command n 0x35 false (bytesOk 14 []) (fun s r =>
    let p := r.payload
    let t := leAt p 0 1
    let c := leAt p 1 1
    let first := leAt p 2 2
    let cnt := leAt p 4 2
    let src := leAt p 6 8
    let gc := 9 * t + c
    let ws : List NanoWord := (wordsOf (s.memRead src (32 * cnt)) 32 cnt).map (fun w => BitVec.ofNat 256 w)
    if s.clusterReason t c ≠ 0 then s.deny n (s.clusterReason t c) whole
    else if cnt = 0 ∨ 4096 < first + cnt then s.deny n 0x0501 whole
    else
      match s.inactiveNano gc with
      | none => s.deny n 0x0105 whole
      | some b =>
        if s.swapping gc then s.deny n 0x0105 whole
        else if !s.srcOk src (32 * cnt) then s.deny n 0x0B02 whole
        else
          match firstReason (nanoReason c) 0 ws with
          | some (x, d) => s.deny n x d
          | none =>
            let nano := SMap.putList 0 s.stores.nano (4096 * bankKey gc b + first) ws
            { s with stores := { s.stores with nano := nano } }.ok n []))

/-- A swap is accepted: each thread switches under R114 from a tick on. -/
def State.beginSwap (s : State) (gc : Nat) (b : Bool) (commit : Nat) (mbx : Option Nat) : State :=
  { s with stores := { s.stores with nanoSwap := s.stores.nanoSwap ++ [(gc, b, commit, mbx)] } }

/-- NANO_SWAP. -/
def execNanoSwap (n : Nat) (s : State) : Host.Outcome State Fault Refusal :=
  .next (s.command n 0x36 false (bytesOk 2 []) (fun s r =>
    let t := leAt r.payload 0 1
    let c := leAt r.payload 1 1
    match s.swapReason t c with
    | some (x, d) => s.deny n x d
    | none => (s.beginSwap (9 * t + c) ((s.inactiveNano (9 * t + c)).getD false) 0 (some n)).progress n))

/-! ## The end of a committed transaction's last setting (17 R386) -/

/-- An entry of an applied transaction has still to take effect: an RWH write waiting for its unit's shot boundary, a swap
or a patch whose threads have not all switched. -/
def State.entryPending (s : State) (e : TxnEntry) : Bool :=
  match e.kind with
  | 0 => s.staged.any (fun x => x.rwh &&
      (match x.act with
       | .word a _ _ => decide (a = e.offset)
       | .synBase d _ => decide (R.SPN_SYN_DEC_BASE.addr [d] 0 = e.offset)
       | _ => false))
  | 1 => s.swapping (9 * (e.offset % 256) + e.offset / 256 % 256)
  | _ => s.stores.ustage.isSome

/-- COMMITTED ends when the last staged setting has taken effect. -/
def State.settleTxns (s : State) : State :=
  { s with mb := { s.mb with
      committed := s.mb.committed.filter (fun e => !(e.2.applied && !e.2.entries.any s.entryPending)) } }

/-- NANO_SWAP_DONE: every thread of the cluster reads the new bank; the old bank is the inactive one. -/
def execNanoSwapDone (tile cluster : Nat) (s : State) : Host.Outcome State Fault Refusal :=
  let gc := 9 * tile + cluster
  match s.stores.nanoSwap.find? (fun w => decide (w.1 = gc)) with
  | some (_, b, _, mbx) =>
    if s.nanoRead gc (!b) then .next s
    else
      let s := { s with stores := { s.stores with nanoSwap := s.stores.nanoSwap.filter (fun w => decide (w.1 ≠ gc)) } }
      let s := match mbx with
        | some n => if s.working n 0x36 then s.ok n [if b then 1 else 0] else s
        | none => s
      .next s.settleTxns
  | none => .next s

end Sys2Proof.Machine
end

