-- ==== Sys2Proof/Machine/Units.lean ====
section
/-! DEFINITION. The unit commands (17 R382, R383; 21 R454-R457): UNIT_ENABLE, UNIT_DISABLE, FENCE and UNFENCE, and how a
unit returns to service. -/

namespace Sys2Proof.Machine

/-- Why a descriptor is refused; 0 when it is not (R382). -/
def State.unitReason (s : State) (u : UnitDesc) : Nat :=
  if !u.valid then 0x0501 else if !u.present s.variant then 0x0102 else 0

/-! ## Ranges of outputs (R383) -/

/-- The kind of output of a unit kind. -/
def enKind (kind : Nat) : Option OutKind :=
  match kind with
  | 1 => some .drive
  | 3 => some .probe
  | 4 => some .flux
  | 5 => some .bias
  | _ => none

/-- FIRST and the next COUNT - 1 indices, or why they are refused. -/
def State.enRange (s : State) (p : List Byte) : Except Nat (OutKind × Nat × List Nat) :=
  let u := unitOfWord (leAt p 0 4)
  let n := leAt p 4 1
  match enKind u.kind with
  | none => .error 0x0501
  | some k =>
    if s.unitReason u ≠ 0 then .error (s.unitReason u)
    else if n = 0 ∨ 64 < n ∨ outMax k < u.index + n then .error 0x0501
    else .ok (k, u.tile, (List.range n).map (fun i => u.index + i))

/-- UNIT_ENABLE: each unit runs its enable check; the response gives ACCEPTED, a reserved byte and REASON for each unit. -/
def execUnitEnable (n : Nat) (s : State) : Host.Outcome State Fault Refusal :=
  .next (s.command n 0x20 false (bytesOk 8 [5, 6, 7]) (fun s r =>
    match s.enRange r.payload with
    | .error x => s.deny n x whole
    | .ok (k, t, cs) =>
      let s := cs.foldl (fun (s : State) c => (s.enableOn k t c).enableDone k t c) s
      let reasons := cs.map (fun c => s.rd (fEnReason k) [t, c])
      if reasons.all (fun x => decide (x ≠ 0)) then s.deny n (reasons.headD 0) 0
      else s.ok n (reasons.flatMap (fun x => leBytes 2 (if x = 0 then 1 else 0) ++ leBytes 2 x))))

/-- UNIT_DISABLE: EN is written 0, with no check. -/
def execUnitDisable (n : Nat) (s : State) : Host.Outcome State Fault Refusal :=
  .next (s.command n 0x21 false (bytesOk 8 [5, 6, 7]) (fun s r =>
    match s.enRange r.payload with
    | .error x => s.deny n x whole
    | .ok (k, t, cs) => (cs.foldl (fun (s : State) c => s.enableOff k t c) s).ok n []))

/-! ## FENCE (R456) -/

/-- Why a fence of a unit by command is refused; 0 when it is not (R400, R456, 18 R398). -/
def State.fenceReason (s : State) (u : UnitDesc) : Nat :=
  let r := s.unitReason u
  if r ≠ 0 then r
  else if u.kind = 13 ∧ u.index = 9 then 0x0501
  else if u.kind = 14 ∧ !s.rdB F.MEM_DEV_ERR_FITTED [u.index] then 0x0501
  else if u.kind = 14 ∧ !s.ownFence u ∧ s.groupRetired u.index then 0x0B03
  else 0

/-- A command fences a unit, or finds it fenced. -/
def State.fenceBy (s : State) (n : Nat) (u : UnitDesc) : State :=
  if s.fenceReason u ≠ 0 then s.deny n (s.fenceReason u) whole else (s.fenceUnit u true).ok n []

/-- FENCE. -/
def execFence (n : Nat) (s : State) : Host.Outcome State Fault Refusal :=
  .next (s.command n 0x22 false (bytesOk 4 []) (fun s r => s.fenceBy n (unitOfWord (leAt r.payload 0 4))))

/-- MEM_RETIRE (18 R399): FENCE of a unit that must be a DRAM device. -/
def execMemRetire (n : Nat) (s : State) : Host.Outcome State Fault Refusal :=
  .next (s.command n 0xA1 false (bytesOk 4 []) (fun s r =>
    let u := unitOfWord (leAt r.payload 0 4)
    if u.kind = 14 then s.fenceBy n u else s.deny n 0x0501 whole))

/-! ## UNFENCE: refusals (R457) -/

/-- A busy partition owns the unit: of a tile or a cluster any unit of it, of a spare a channel of its group, of a slice
its line. -/
def State.ownersBusy (s : State) (u : UnitDesc) : Bool :=
  let t := u.tile
  let i := u.index
  s.qm.parts.any (fun e =>
    s.partBusy e.1 &&
    (match u.kind with
     | 1 => e.2.chans.contains (64 * t + i) && !s.served t i
     | 2 => e.2.chans.any (fun c => decide (c / 8 = 8 * t + i))
     | 3 => e.2.lines.contains (8 * t + i)
     | 4 | 5 => e.2.chans.contains (64 * t + i)
     | 7 => e.2.lines.contains (8 * t + i / 32)
     | 8 => e.2.thrs.contains (72 * t + i)
     | 9 => e.2.thrs.any (fun g => decide (g / 8 = 9 * t + i))
     | 11 => e.2.chans.any (fun c => decide (c / 64 = t)) || e.2.lines.any (fun l => decide (l / 8 = t)) ||
         e.2.thrs.any (fun g => decide (g / 72 = t)) || e.2.gens.any (fun g => decide (g / 32 = t))
     | _ => false))

/-- Why an UNFENCE is refused; 0 when it is not. -/
def State.unfenceReason (s : State) (u : UnitDesc) : Nat :=
  let r := s.unitReason u
  if r ≠ 0 then r
  else if u.kind = 14 ∧ !s.rdB F.MEM_DEV_ERR_FITTED [u.index] then 0x0501
  else if s.ownersBusy u ∨ s.overFenced u then 0x0502
  else if u.kind = 14 ∧ s.ownFence u ∧ s.mode ≠ mSafe then 0x0504
  else 0

/-- UNFENCE: a unit that is not fenced is answered at once; the self-test of a fenced one runs. -/
def execUnfence (n : Nat) (s : State) : Host.Outcome State Fault Refusal :=
  .next (s.command n 0x23 false (bytesOk 4 []) (fun s r =>
    let u := unitOfWord (leAt r.payload 0 4)
    if s.unfenceReason u ≠ 0 then s.deny n (s.unfenceReason u) whole
    else if s.ownFence u then s.progress n
    else s.ok n []))

/-! ## Units that return to service -/

/-- The corrections of a unit are loaded and it becomes due (R428, R411). -/
def State.reload (s : State) (u : UnitDesc) : State :=
  let s := (s.dropCal u).loadUnit u true
  if s.rotating u then s else s.makeDue u

/-- An enabled output has no value. -/
def State.noValue (s : State) (k : OutKind) (t c : Nat) : State := s.setEn k t c { s.en k t c with hadValue := false }

/-- A drive channel: the spare that serves it hands the ball back at a quiet window, or calibrates it first (R151); on its
way to it, the spare turns back; one that evicts another channel for it does so first (R150, log 84). -/
def State.unfenceDrive (s : State) (t c : Nat) : State :=
  let g := c / 8
  let u : UnitDesc := ⟨1, t, c⟩
  let s := (s.wr F.DRV_STATUS_FENCED [t, c] 0).setDrvFences t g ((s.drvFences t g).filter (fun f => decide (f.chan ≠ c)))
  let s := s.reload u
  match s.spare t g with
  | .serve d _ =>
    if d ≠ c then s.noValue .drive t c
    else if s.calValid u then s.setSpare t g (.serve c true)
    else (s.startCal u .takeover).setSpare t g (.calRun c s.now false)
  | .takeover d _ => if d = c then (s.spareIdle t g).noValue .drive t c else s.noValue .drive t c
  | _ => s.noValue .drive t c

/-- A spare: every register of its block at reset, IDLE, and a fenced channel that waits is taken over (R148). -/
def State.unfenceSpare (s : State) (t g : Nat) : State :=
  let lo := R.DRV_CTRL.addr [t, 64 + g] 0
  let s := { s with regs := s.regs.filter (fun e => !(decide (lo ≤ e.1) && decide (e.1 < lo + 0x1000))) }
  let s := s.reload ⟨2, t, g⟩
  match s.spare t g with
  | .none => s.spareIdle t g
  | _ => s

/-- The spare slice of a line after a slice has returned: it fills a failed position, or the rotation begins again. -/
def State.settleSlices (s : State) (t l : Nat) : State :=
  let failed := s.rd F.RDO_SLICE_FAILED [t, l]
  let pos := s.rd F.RDO_SLICE_SPARE_POS [t, l]
  let s := s.setLine t l { s.line t l with repair := none, rotSince := s.now }
  if bit failed 16 then (s.wr F.RDO_SLICE_SPARE_FIXED [t, l] 0).wr F.RDO_SLICE_SPARE_POS [t, l] 0x1F
  else if failed = 0 then (s.wr F.RDO_SLICE_SPARE_FIXED [t, l] 0).wr F.RDO_SLICE_SPARE_POS [t, l] 0
  else if pos < 16 ∧ bit failed pos then s
  else
    (s.wr F.RDO_SLICE_SPARE_FIXED [t, l] 1).wr F.RDO_SLICE_SPARE_POS [t, l] (((List.range 16).find? (bit failed)).getD 0)

/-- A sense ADC: it resumes its own list where that list has no ADC or only the spare, the spare takes a list that has
none; with five in service the rotation may run again (08 R213, R214). -/
def State.unfenceAdc (s : State) (t a : Nat) : State :=
  let s := (s.wr F.SNS_ADC_FENCED [t, a] 0).reload ⟨6, t, a⟩
  let s :=
    if a < 4 then
      match s.adcOf t a with
      | none => s.setAdc t a a roleOwn
      | some b => if b = 4 then (s.setAdc t 4 noList roleIdle).setAdc t a a roleOwn else s
    else s
  let s :=
    if !s.rdB F.SNS_ADC_FENCED [t, 4] && decide (s.rd F.SNS_ADC_LIST [t, 4] = noList) then
      match (List.range 4).find? (s.listLost t) with
      | some k => s.setAdc t 4 k roleOther
      | none => s
    else s
  let s := s.wrB F.SNS_STATUS_NO_ADC [t] ((List.range 4).any (s.listLost t))
  if (List.range 5).all (fun b => !s.rdB F.SNS_ADC_FENCED [t, b]) then s.wr F.SNS_STATUS_ROT_STOPPED [t] 0 else s

/-- A thread is fenced no longer. -/
def State.freeThread (s : State) (g : Nat) : State :=
  let ix := [thrTile g, thrCluster g]
  let s := s.wr F.CLU_STATUS_FENCED ix (setBits (s.rd F.CLU_STATUS_FENCED ix) (thrIndex g) 1 0)
  s.updThr g (fun t => if t.st = 8 then { t with st := 0 } else t)

/-- A Borvon lane returns to DETECT. -/
def State.unfenceLane (s : State) (p l : Nat) : State :=
  let s := (s.wr F.BVN_LANE_STATUS_FENCED [p, l] 0).wr F.BVN_LANE_STATUS_ATTEMPTS [p, l] 0
  s.putLane p l lDetect

/-- A retired DRAM device returns to service (18 R401). -/
def State.unretire (s : State) (d : Nat) : State :=
  let s := (s.wr F.MEM_DEV_ERR_RETIRED [d] 0).wr F.MEM_DEV_ERR_CAUSE [d] 0
  let s := s.wr F.MEM_STATUS_RETIRED [] ((List.range 80).filter (fun d => s.rdB F.MEM_DEV_ERR_RETIRED [d])).length
  { s with msvc := { s.msvc with sinterRetired := s.msvc.sinterRetired.filter (fun x => decide (x ≠ d)) } }

/-! ## The reset of a tile (R457, 00 R12) -/

/-- A map without the entries of some keys. -/
def SMap.drop {α : Type} (m : SMap α) (p : Nat → Bool) : SMap α := m.filter (fun e => !p e.1)

/-- The register at an address returns to reset with the tile: reset domain TILE or SAFE in its window. -/
def resetWithTile (t addr : Nat) : Bool :=
  decide (addr / 0x1000000 = t + 1) &&
    (match findReg addr regTable with
     | some (r, _, _) => decide (r.domain = .tile) || decide (r.domain = .safe)
     | none => false)

/-- A staged action of a tile's registers. -/
def StagedAct.onTile (a : StagedAct) (t : Nat) : Bool :=
  match a with
  | .word x _ _ | .couple x _ _ => decide (x / 0x1000000 = t + 1)
  | .genRestart n _ | .spanChange _ n _ _ _ | .snsInj n _ | .shortClamp n _ | .agcStep n _ | .xtSwap n _ => decide (n = t)
  | .capArm n | .capStop n | .capForce n => decide (n = t)
  | .fltInject (.tile n _) _ => decide (n = t)
  | _ => false

/-- The outputs of a tile at rest. -/
def Outs.resetTile (o : Outs) (t : Nat) : Outs :=
  { o with
    pulses := o.pulses.filter (fun p => decide (p.tile ≠ t)), marks := o.marks.filter (fun m => decide (m.tile ≠ t)),
    en := SMap.drop o.en (fun k => decide (k / 100 % 10 = t)), spares := SMap.drop o.spares (fun k => decide (k / 8 = t)),
    fences := SMap.drop o.fences (fun k => decide (k / 8 = t)), paths := SMap.drop o.paths (fun k => decide (k / 64 = t)),
    pathsNew := SMap.drop o.pathsNew (fun k => decide (k / 64 = t)),
    bias := SMap.drop o.bias (fun k => decide (k / 64 = t)), flux := SMap.drop o.flux (fun k => decide (k / 64 = t)) }

/-- The units of a tile at rest, beside their registers; its stores keep their words. -/
def State.restTile (s : State) (t : Nat) : State :=
  { s with
    staged := s.staged.filter (fun e => !e.act.onTile t),
    couples := s.couples.filter (fun c => decide (c.addr / 0x1000000 ≠ t + 1)),
    threads := SMap.drop s.threads (fun g => decide (g / 72 = t)),
    outs := s.outs.resetTile t,
    strms := ⟨SMap.drop s.strms.streams (fun k => decide (k / 64 = t)), SMap.drop s.strms.gens (fun k => decide (k / 32 = t))⟩,
    sense := ⟨SMap.drop s.sense.lists (fun k => decide (k / 4 = t)), SMap.drop s.sense.pairs (fun k => decide (k / 64 = t)),
      SMap.drop s.sense.tiles (fun k => decide (k = t))⟩,
    rdo :=
      { s.rdo with
        windows := s.rdo.windows.filter (fun w => decide (w.tile ≠ t)), lines := SMap.drop s.rdo.lines (fun k => decide (k / 8 = t)) },
    dec :=
      { s.dec with
        slots := SMap.drop s.dec.slots (fun k => decide (k / 1024 = t)),
        badSlots := s.dec.badSlots.filter (fun k => decide (k / 1024 ≠ t)),
        fabric := s.dec.fabric.filter (fun m => decide (m.dest ≠ t)) },
    caps := SMap.drop s.caps (fun k => decide (k = t)),
    stores :=
      { s.stores with
        bankRepl := s.stores.bankRepl.filter (fun r => decide (r.cluster / 9 ≠ t)),
        nanoSwap := s.stores.nanoSwap.filter (fun (w : Nat × Bool × Nat × Option Nat) => decide (w.1 / 9 ≠ t)) },
    flt :=
      { s.flt with
        silent := SMap.drop s.flt.silent (fun k => decide (k = t)), repairAt := SMap.drop s.flt.repairAt (fun k => decide (k = t)),
        usedUp := SMap.drop s.flt.usedUp (fun k => decide (k = t)), usedDown := SMap.drop s.flt.usedDown (fun k => decide (k = t)) } }

/-- The converter units of a tile. -/
def tileUnits (t : Nat) : List UnitDesc :=
  [(1, 64), (2, 8), (3, 8), (4, 64), (5, 64), (6, 5)].flatMap (fun (p : Nat × Nat) =>
    (List.range p.2).map (fun i => (⟨p.1, t, i⟩ : UnitDesc)))

/-- A tile: reset, realigned, its link retrained, and its units loaded. -/
def State.unfenceTile (s : State) (t : Nat) : State :=
  let s := { s with regs := s.regs.filter (fun e => !resetWithTile t e.1) }.restTile t
  let clear := fun (s : State) (f : Fld) => s.wr f [] (setBits (s.rd f []) t 1 0)
  let s := clear (clear s F.SPN_TILE_FENCE_FENCED) F.SPN_TILE_FENCE_LINK_DEAD
  (tileUnits t).foldl State.reload (s.wr F.TIL_STATUS_LINK_UP [t] 1)

/-! ## UNFENCE: the end of the self-test (R457) -/

/-- A unit returns to service. -/
def State.unfenceUnit (s : State) (u : UnitDesc) : State :=
  let t := u.tile
  let i := u.index
  match u.kind with
  | 1 => s.unfenceDrive t i
  | 2 => s.unfenceSpare t i
  | 3 => (((s.wr F.RDO_STATUS_FENCED [t, i] 0).wr F.PRB_STATUS_FENCED [t, i] 0).reload u).noValue .probe t i
  | 4 => ((s.wr F.FLX_STATUS_FENCED [t, i] 0).reload u).noValue .flux t i
  | 5 => ((s.wr F.BIA_STATUS_FENCED [t, i] 0).reload u).noValue .bias t i
  | 6 => s.unfenceAdc t i
  | 7 =>
    (s.wr F.RDO_SLICE_FAILED [t, i / 32] (setBits (s.rd F.RDO_SLICE_FAILED [t, i / 32]) (i % 32) 1 0)).settleSlices t (i / 32)
  | 8 => s.freeThread (72 * t + i)
  | 9 => (List.range 8).foldl (fun s k => s.freeThread (gid t i k)) (s.wr F.CLU_STATUS_CL_FENCED [t, i] 0)
  | 10 => s.wr F.CAP_STATUS_FENCED [t] 0
  | 11 => s.unfenceTile t
  | 12 => s.unfenceLane (i / 4) (i % 4)
  | 13 => s.wr F.TDC_IN_STATUS_FENCED [i] 0
  | _ => s.unretire i

/-- The final response of an UNFENCE: the fault condition persists, or the unit is in service. Its log record carries the
reason. -/
def State.endUnfence (s : State) (n : Nat) (u : UnitDesc) (ok : Bool) : State :=
  if !ok then (s.logUnit 3 4 u (leBytes 2 0x0402)).fail n 0x0402
  else (((s.unfenceUnit u).logUnit 3 4 u (leBytes 2 0)).advise).ok n []

end Sys2Proof.Machine
end

