-- ==== Sys2Proof/Machine/General.lean ====
section
/-! DEFINITION. The general commands (17 R379-R381, 22 R484), the copies (15 R347), device memory information (18 R407),
the event log (21 R466, R467), the handover of management (21 R461), and firmware images (22 R475, R486, R487). -/

namespace Sys2Proof.Machine

/-! ## Information (R379) -/

/-- SPN_MCODE_VER as read: SWITCHING while a PATCH_APPLY is in progress. -/
def State.mcodeVer (s : State) : Nat :=
  setBits (s.regWord R.SPN_MCODE_VER [] 0).toNat 31 1
    (match s.stores.ustage with
     | some u => if u.applying then 1 else 0
     | none => 0)

/-- GET_INFO. -/
def execGetInfo (n : Nat) (s : State) : Host.Outcome State Fault Refusal :=
  .next (s.command n 0x01 false (bytesOk 0 []) (fun s _ =>
    let word := fun (r : Reg) => (s.regWord r [] 0).toNat
    s.ok n (leBytes 4 (word R.SPN_FW_VER) ++ leBytes 1 (s.rd F.MBX_GLOBAL_FW_IMAGE []) ++
      leBytes 1 (s.rd F.MBX_GLOBAL_ACTIVE_CORE []) ++ leBytes 1 (s.rd F.MBX_GLOBAL_STANDBY_READY []) ++ leBytes 1 0 ++
      leBytes 4 (word R.SPN_ID) ++ leBytes 4 s.mcodeVer ++ leBytes 4 (word R.SPN_MCODE_ID) ++ leBytes 8 Config.serial ++
      leBytes 2 2016 ++ leBytes 1 64 ++ leBytes 1 0)))

/-! ## RESUME (R380, R484) -/

/-- A working sensor reads at or above the WARN threshold. -/
def State.anyWarm (s : State) : Bool :=
  (List.range (6 + 12 * s.variant.tiles)).any (fun i =>
    !s.sensorFailed i && decide ((128 * s.rd F.THM_CFG_WARN [] : Int) ≤ s.sensorReading i))

/-- The first check of RESUME that fails; 0 none. -/
def State.resumeReason (s : State) : Nat :=
  if s.mode ≠ mSafe then 0x0504
  else if s.viral then 0x0A02
  else if s.shutdown || s.rdB F.THM_STATUS_DWELL [] then 0x0802
  else if s.anyWarm then 0x0801
  else if !s.rdB F.MBX_GLOBAL_IDLE_READY [] then 0x0601
  else if s.rdB F.TIM_REF_CTRL_REQUIRE_REF [] && decide (s.rd F.TIM_REF_STATUS_STATE [] ≠ 4) then 0x0201
  else 0

/-- RESUME: accepted, CHANGING is set with MODE still SAFE. -/
def execResume (n : Nat) (s : State) : Host.Outcome State Fault Refusal :=
  .next (s.command n 0x02 false (bytesOk 0 []) (fun s _ =>
    if s.resumeReason ≠ 0 then s.deny n s.resumeReason whole
    else
      let s := { s with boot := { s.boot with resuming := some (s.boot.resuming.getD s.now) } }
      (s.wr F.SPN_MODE_CHANGING [] 1).progress n))

/-- RESUME_COMPLETE: MODE is IDLE, SAFE_CAUSE stays; a bias ball keeps its clamp until its next latch. -/
def execResumeComplete (s : State) : Host.Outcome State Fault Refusal :=
  if s.boot.resuming.isSome ∧ s.mode = mSafe then
    let ns := s.resumers
    let s := { s with
      boot := { s.boot with resuming := none },
      outs := { s.outs with bias := s.outs.bias.map (fun (e : Nat × BiasRun) => (e.1, { e.2 with safeAt := none })) } }
    let s := (s.setMode mIdle (s.rd F.SPN_MODE_SAFE_CAUSE [])).wr F.SPN_MODE_CHANGING [] 0
    .next (ns.foldl (fun (s : State) n => s.ok n (leBytes 1 mIdle)) s)
  else .next s

/-- SAFE_ENTER (R381). -/
def execSafeEnter (n : Nat) (s : State) : Host.Outcome State Fault Refusal :=
  .next (s.command n 0x03 false (bytesOk 0 []) (fun s _ =>
    if s.mode = mReset then s.deny n 0x0504 whole else (s.enterSafe 4).ok n []))

/-- MGMT_HANDOVER (21 R461): the previous active core is the standby. -/
def execMgmtHandover (n : Nat) (s : State) : Host.Outcome State Fault Refusal :=
  .next (s.command n 0x92 false (bytesOk 0 []) (fun s _ =>
    if !s.rdB F.MBX_GLOBAL_STANDBY_READY [] then s.deny n 0x0505 whole
    else
      let s := s.handover
      s.ok n (leBytes 1 (s.rd F.MBX_GLOBAL_ACTIVE_CORE []) ++ leBytes 3 0)))

/-! ## The log (R466, R467) -/

/-- The 64 bytes of a record. -/
def LogRec.bytes (r : LogRec) : List Byte :=
  let body := leBytes 4 r.seq ++ leBytes 1 r.kind ++ leBytes 1 r.sev ++ leBytes 1 r.bit ++ leBytes 1 r.flags.toNat ++
    leBytes 2 r.block.toNat ++ leBytes 2 r.unit ++ leBytes 4 r.desc.toNat ++ leBytes 8 r.time ++ leBytes 4 r.boot ++
    leBytes 4 r.repeat_ ++ (r.data ++ List.replicate 28 0).take 28
  body ++ leBytes 4 (crc32 body).toNat

/-- LOG_READ: records of Travertine in SEQ order. -/
def execLogRead (n : Nat) (s : State) : Host.Outcome State Fault Refusal :=
  .next (s.command n 0x93 false (bytesOk 8 [5, 6, 7]) (fun s r =>
    let first := leAt r.payload 0 4
    let cnt := leAt r.payload 4 1
    if cnt = 0 ∨ 31 < cnt then s.deny n 0x0501 whole
    else
      let next := s.flt.logSeq
      let oldest := (s.flt.log.head?.map LogRec.seq).getD next
      let from_ := if first = 0xFFFFFFFF then oldest else first
      let recs := (s.flt.log.filter (fun x => decide (from_ ≤ x.seq))).take cnt
      s.ok n (leBytes 4 oldest ++ leBytes 4 next ++ leBytes 1 recs.length ++ leBytes 3 0 ++ recs.flatMap LogRec.bytes)))

/-! ## Device memory (R347, R407) -/

/-- MEM_INFO. -/
def execMemInfo (n : Nat) (s : State) : Host.Outcome State Fault Refusal :=
  .next (s.command n 0xA0 false (bytesOk 0 []) (fun s _ =>
    let h := s.hostSize
    let retired := (List.range 80).foldl (fun m d => if s.rdB F.MEM_DEV_ERR_RETIRED [d] then m + 2 ^ d else m) 0
    s.ok n (leBytes 2 (s.rd F.MEM_CFG_CAPACITY []) ++ leBytes 1 (s.rd F.MEM_CFG_RANKS [] + 1) ++
      leBytes 1 (16 + 8 * s.rd F.MEM_CFG_DENSITY []) ++ leBytes 8 h ++ leBytes 8 (h / 2) ++ leBytes 8 (h - h / 2) ++
      leBytes 8 (s.memCap / 16) ++ leBytes 10 retired ++ leBytes 1 (s.rd F.MEM_STATUS_INIT_DONE []) ++ leBytes 1 0)))

/-- The addresses and the length of a copy. -/
structure CopyAsk where
  host : Nat
  dev  : Nat
  len  : Nat
  deriving DecidableEq, Repr

def copyAsk (inward : Bool) (p : List Byte) : CopyAsk :=
  if inward then ⟨leAt p 0 8, leAt p 8 8, leAt p 16 4⟩ else ⟨leAt p 8 8, leAt p 0 8, leAt p 16 4⟩

/-- Why a copy is refused; 0 when it is not. -/
def State.copyReason (s : State) (a : CopyAsk) : Nat :=
  if !s.inHost a.dev a.len then 0x0A03
  else if a.host % 64 ≠ 0 ∨ a.dev % 64 ≠ 0 ∨ a.len < 64 ∨ 2 ^ 26 < a.len ∨ a.len % 64 ≠ 0 then 0x0A04
  else if s.viral then 0x0A02
  else 0

def State.beginCopy (s : State) (n : Nat) (a : CopyAsk) : State :=
  if s.copyReason a ≠ 0 then s.deny n (s.copyReason a) whole else s.progress n

/-- HOST_COPY_IN. -/
def execHostCopyIn (n : Nat) (s : State) : Host.Outcome State Fault Refusal :=
  .next (s.command n 0x80 false (bytesOk 20 []) (fun s r => s.beginCopy n (copyAsk true r.payload)))

/-- HOST_COPY_OUT. -/
def execHostCopyOut (n : Nat) (s : State) : Host.Outcome State Fault Refusal :=
  .next (s.command n 0x81 false (bytesOk 20 []) (fun s r => s.beginCopy n (copyAsk false r.payload)))

/-- A copy ends: whole, or by a DMA error after some bytes. What came in from the host is `data`; a poisoned line
leaves poisoned (18 R402). -/
def State.endCopy (s : State) (n : Nat) (inward : Bool) (a : CopyAsk) (o : FinalObs) : State :=
  let k := if o.ok then a.len else min o.bytes a.len
  if inward ∧ o.data.length < k then s
  else
    let lines := (List.range ((k + 63) / 64)).filter (fun i => s.memPoisoned (a.dev + 64 * i) 64)
    let s := if inward then s.memWrite a.dev (o.data.take k)
      else if k = 0 then s
      else s.emit (.hostWrite a.host (s.memRead a.dev k) (lines.map (fun i => a.host / 64 + i)))
    if o.ok then s.ok n (leBytes 4 k) else s.respond n stFailed 0x0A05 whole 0 (leBytes 4 k)

/-! ## Firmware images (R475, R486) -/

/-- The header of a firmware image: whether its fields are valid for its length, and what it names. -/
def fwHeader (b : List Byte) : SlotObs :=
  let len := leAt b 0x14 4
  { readOk := true,
    hdrOk := decide (leAt b 0 4 = 0x57465345) && decide (leAt b 4 2 = 1) && decide (leAt b 6 2 = 0x200) &&
      decide (len = b.length) && decide (4096 ≤ len) && decide (len ≤ 24 * 2 ^ 20) && decide (len % 4096 = 0) &&
      decide (leAt b 0x0C 4 ≤ 65535),
    sigOk := Config.fwSigOk b, selfTest := true, version := BitVec.ofNat 32 (leAt b 8 4), svn := leAt b 0x0C 4,
    stepping := leAt b 0x10 1 }

/-- The running slot: true for B. -/
def State.runsB (s : State) : Bool := s.rdB F.SPN_BOOT_STATUS_IMAGE []

def State.flash (s : State) (b : Bool) : Option SlotObs := if b then s.boot.slotB else s.boot.slotA
def State.setFlash (s : State) (b : Bool) (o : Option SlotObs) : State :=
  { s with boot := if b then { s.boot with slotB := o } else { s.boot with slotA := o } }

/-- Why a FW_STAGE is refused; 0 when it is not. -/
def State.fwReason (s : State) (addr len : Nat) : Nat :=
  if !s.srcOk addr len then 0x0B02
  else
    let h := fwHeader (s.memRead addr len)
    if !h.hdrOk then 0x0503
    else if !h.sigOk then 0x0701
    else if h.svn < s.boot.minSvn then 0x0702
    else if h.stepping ≠ s.rd F.SPN_ID_STEPPING [] then 0x0704
    else if s.boot.staging.isSome || s.boot.activating.isSome then 0x0105
    else 0

/-- FW_STAGE: the slot that does not run is erased, and holds nothing that reads until the stage completes. -/
def execFwStage (n : Nat) (s : State) : Host.Outcome State Fault Refusal :=
  .next (s.command n 0x90 false (bytesOk 12 []) (fun s r =>
    let addr := leAt r.payload 0 8
    let len := leAt r.payload 8 4
    if s.fwReason addr len ≠ 0 then s.deny n (s.fwReason addr len) whole
    else
      let h := { fwHeader (s.memRead addr len) with readOk := false }
      let s := (s.setFlash (!s.runsB) (some h)).wr F.SPN_BOOT_STATUS_STAGED [] 0
      { s with boot := { s.boot with staging := some n } }.progress n))

/-- A stage ends. -/
def State.endFwStage (s : State) (n : Nat) (ok : Bool) : State :=
  let s := { s with boot := { s.boot with staging := none } }
  let b := !s.runsB
  match s.flash b with
  | some h =>
    if ok then
      ((s.setFlash b (some { h with readOk := true })).wr F.SPN_BOOT_STATUS_STAGED [] 1).ok n
        (leBytes 1 (if b then 1 else 0) ++ leBytes 4 h.version.toNat ++ leBytes 4 h.svn)
    else (s.setFlash b none).fail n 0x0B01
  | none => s.fail n 0x0B01

/-! ## Activation (R487) -/

/-- FW_ACTIVATE: the standby core restarts from the staged slot. -/
def execFwActivate (n : Nat) (s : State) : Host.Outcome State Fault Refusal :=
  .next (s.command n 0x91 false (bytesOk 4 [1, 2, 3]) (fun s r =>
    if 1 < leAt r.payload 0 1 then s.deny n 0x0501 whole
    else if !s.rdB F.SPN_BOOT_STATUS_STAGED [] then s.deny n 0x0502 whole
    else if !s.rdB F.MBX_GLOBAL_STANDBY_READY [] then s.deny n 0x0505 whole
    else if s.boot.staging.isSome then s.deny n 0x0105 whole
    else
      let s := { s with boot := { s.boot with activating := some (n, bit (leAt r.payload 0 1) 0) } }
      (s.wr F.MBX_GLOBAL_STANDBY_READY [] 0).progress n))

/-- An activation ends: the new image runs on both cores, or the old one does. -/
def State.endFwActivate (s : State) (n : Nat) (ok : Bool) : State :=
  let commit := match s.boot.activating with
    | some (_, c) => c
    | none => false
  let s := { s with boot := { s.boot with activating := none } }.wr F.MBX_GLOBAL_STANDBY_READY [] 1
  let b := !s.runsB
  match ok, s.flash b with
  | true, some h =>
    let s := s.handover
    let s := (s.wrB F.SPN_BOOT_STATUS_IMAGE [] b).wrB F.MBX_GLOBAL_FW_IMAGE [] b
    let s := (s.setRegWord R.SPN_FW_VER [] 0 h.version).wr F.SPN_FW_SVN_RUNNING [] h.svn
    let s := s.wr F.SPN_BOOT_STATUS_STAGED [] 0
    let s := { s with boot :=
      { s.boot with preferred := b, minSvn := if commit then max s.boot.minSvn h.svn else s.boot.minSvn } }
    s.ok n (leBytes 4 h.version.toNat ++ leBytes 1 (s.rd F.MBX_GLOBAL_ACTIVE_CORE []) ++ leBytes 3 0)
  | _, _ => s.fail n 0x0505

end Sys2Proof.Machine
end

