-- ==== Sys2Proof/Machine/Images.lean ====
section
/-! DEFINITION. Microcode images (04 R121-R125): the checks of R109 and R122, staging into the shadow banks, applying and
discarding. -/

namespace Sys2Proof.Machine

/-! ## The check of a word (R101, R108, R109) -/

/-- A selector that may be a destination. -/
def destOk (w : Word) (lo : Nat) : Bool := decide (mfld w lo 5 ≤ 0x1C)

/-- Every field value of a microword is listed; the vendor-only class is refused in a user image. -/
def microOk (vendor : Bool) (w : Word) : Bool :=
  match mfld w 28 4 with
  | 0x0 => destOk w 22 && decide (mfld w 16 6 ≤ 57) && decide (mfld w 16 6 + mfld w 11 5 + 1 ≤ 58)
  | 0x1 => destOk w 18 && (decide (mfld w 23 4 ≤ 0xA) || decide (mfld w 23 4 = 0xC))
  | 0x2 => destOk w 22
  | 0x3 => decide (mfld w 24 3 ≤ 5)
  | 0x4 =>
    decide (mfld w 24 3 ≤ 4) &&
      (decide (mfld w 24 3 ≠ 3) || (decide (2 ≤ mfld w 0 8) && decide (mfld w 0 8 ≤ 0xA)))
  | 0x6 => decide (mfld w 24 3 ≤ 5)
  | 0x8 => decide (mfld w 25 2 ≤ 1)
  | 0xA => decide (mfld w 26 1 = 1) || destOk w 16
  | 0xB => destOk w 17
  | 0xF => vendor
  | _ => true

/-- A dispatch entry is not defined, or its COST, SLSB and SW are listed. -/
def entryWordOk (w : Word) : Bool :=
  !bit w.toNat 18 ||
    (decide (2 ≤ mfld w 14 3) && decide (mfld w 14 3 ≤ 6) && decide (mfld w 19 6 ≤ 57) && decide (mfld w 25 2 ≠ 3))

/-- The word of a record at its address. -/
def microWordOk (vendor : Bool) (a : Nat) (w : Word) : Bool :=
  if a < 0x100 ∨ 0x3C00 ≤ a ∧ a < 0x3C20 then entryWordOk w else microOk vendor w

/-! ## Images (R121) -/

/-- An image's fields; `fits` says that MAGIC, FORMAT, KIND and COUNT are right and the length agrees. -/
structure Image where
  fits     : Bool
  version  : Nat
  id       : Nat
  baseId   : Nat
  svn      : Nat
  clusters : Nat
  stepping : Nat
  recs     : List (Nat × Word)
  bytes    : List Byte
  deriving DecidableEq, Repr

/-- Reads an image of a kind from its bytes: a record's address field is [31:0], whose upper half must be zero. -/
def imageOf (vendor : Bool) (b : List Byte) : Image :=
  let n := leAt b 0x1C 4
  let fits := decide (0x20 ≤ b.length) && decide (leAt b 0 4 = 0x43554D45) && decide (leAt b 4 2 = 1) &&
    decide (leAt b 6 2 = if vendor then 1 else 2) && decide (1 ≤ n) && decide (n ≤ if vendor then 15360 else 1024) &&
    decide (b.length = 0x20 + 8 * n + if vendor then 96 else 0)
  { fits := fits, version := leAt b 8 3, id := leAt b 0x0C 4, baseId := leAt b 0x10 4, svn := leAt b 0x14 4,
    clusters := leAt b 0x18 2, stepping := leAt b 0x1A 1,
    recs := if fits then
        (List.range n).map (fun i => (leAt b (0x20 + 8 * i) 4, (BitVec.ofNat 32 (leAt b (0x24 + 8 * i) 4) : Word)))
      else [],
    bytes := b }

/-- Records out of order, outside the image's region, or with an invalid word, by index. -/
def badRecord (vendor : Bool) : Nat → Option Nat → List (Nat × Word) → Option Nat
  | _, _, [] => none
  | i, prev, (a, w) :: rest =>
    let inside := if vendor then decide (a < 0x3C00) else decide (0x3C00 ≤ a) && decide (a < 0x4000)
    let rises := match prev with
      | some p => decide (p < a)
      | none => true
    if inside && rises && microWordOk vendor a w then badRecord vendor (i + 1) (some a) rest else some i

/-- A word of the user region that an image gives: a word it does not list is NOP. -/
def Image.userWord (m : Image) (a : Nat) : Word :=
  ((m.recs.find? (fun e => decide (e.1 = a))).map Prod.snd).getD 0xE0000000

/-- The clusters an image is for, on present, unfenced tiles of a mask. -/
def State.imageClusters (s : State) (m : Image) (tiles : Nat) : List Nat :=
  (List.range (9 * s.variant.tiles)).filter (fun gc =>
    bit m.clusters (gc % 9) && bit tiles (gc / 9) && !s.tileFenced (gc / 9))

/-- A CUSTOM instruction of a loaded region of a cluster selects an entry that is not defined, in a user region given by its
words. -/
def State.customLost (s : State) (gc : Nat) (word : Nat → Word) : Bool :=
  (List.range 16).any (fun r =>
    let ix := [gc / 9, gc % 9, r]
    let base := s.rd F.CLU_REGION_BASE ix
    s.rdB F.CLU_REGION_VALID ix &&
      (s.stores.sram.filter (fun e => decide (65536 * gc + base ≤ e.1) &&
        decide (e.1 ≤ 65536 * gc + s.rd F.CLU_REGION_LAST ix))).any (fun e =>
          decide (0x30 ≤ opcode e.2) && decide (opcode e.2 ≤ 0x37) &&
            (let a := 0x3C00 + 4 * (opcode e.2 - 0x30)
             let first := word a
             let sel := if mfld first 25 2 = 0 then 0 else opr e.2 (mfld first 19 6) (mfld first 25 2)
             !bit (word (a + sel)).toNat 18)))

/-- The micro-store bank of a cluster that no thread reads and that has not failed, while no bank is being replaced. -/
def State.shadowMicro (s : State) (gc : Nat) : Option Bool :=
  let free := fun (b : Bool) => !s.bankFailed (gc / 9) (gc % 9) .micro b &&
    (clusterThreads gc).all (fun g => decide (s.uBank g ≠ b))
  if s.stores.bankRepl.any (fun r => decide (r.cluster = gc) && decide (r.store = .micro)) then none
  else if free false then some false else if free true then some true else none

/-- A stage is at work in another mailbox, or an applied image is still switching. -/
def State.staging (s : State) (n : Nat) : Bool :=
  (List.range 64).any (fun m => decide (m ≠ n) && (s.working m 0x31 || s.working m 0x32)) ||
    (match s.stores.ustage with
     | some u => u.applying
     | none => false)

/-- Why a stage is refused (R122), with its DETAIL. -/
def State.stageReason (s : State) (n : Nat) (vendor : Bool) (tiles addr len : Nat) : Option (Nat × Nat) :=
  let m := imageOf vendor (s.memRead addr len)
  let cs := s.imageClusters m tiles
  if !s.srcOk addr len then some (0x0B02, whole)
  else if !m.fits then some (0x0503, whole)
  else
    match badRecord vendor 0 none m.recs with
    | some i => some (0x0503, i)
    | none =>
      if vendor && !Config.microSigOk (s.regWord R.SPN_FW_VER [] 0).toNat m.bytes then some (0x0701, whole)
      else if vendor ∧ m.svn < s.stores.ucodeSvnMin then some (0x0702, whole)
      else if vendor ∧ m.baseId ≠ s.rd F.SPN_MCODE_ID_IMAGE_ID [] then some (0x0703, whole)
      else if m.stepping ≠ s.rd F.SPN_ID_STEPPING [] then some (0x0704, whole)
      else if !vendor && cs.any (fun gc => s.customLost gc m.userWord) then some (0x0104, whole)
      else if s.staging n || cs.any (fun gc => (s.shadowMicro gc).isNone) then some (0x0105, whole)
      else none

/-! ## Staging (R123) -/

/-- SPN_MCODE_STAGE shows what is staged. -/
def State.showStage (s : State) : State :=
  let (st, v, u) := match s.stores.ustage with
    | none => (0, false, false)
    | some x => (if x.applying then 3 else 2, x.vendor, x.user)
  ((s.wr F.SPN_MCODE_STAGE_STATE [] st).wrB F.SPN_MCODE_STAGE_VENDOR [] v).wrB F.SPN_MCODE_STAGE_USER [] u

/-- Fills the shadow bank of a cluster: a copy of the active bank, or the bank that an earlier stage has prepared, with the
image's region taken anew from the active bank and overlaid. -/
def State.stageBank (s : State) (vendor prepared : Bool) (m : Image) (gc : Nat) : State :=
  match s.shadowMicro gc with
  | none => s
  | some b =>
    let s := if prepared then s else s.fillBank gc .micro (!b)
    let key := fun (bank : Bool) (a : Nat) => 16384 * bankKey gc bank + a
    let mine := fun (k : Nat) => decide (k / 16384 = bankKey gc b) && decide ((k % 16384 < 0x3C00) ↔ vendor = true)
    let act := s.stores.micro.filter (fun e => decide (e.1 / 16384 = bankKey gc (!b)) && decide (e.1 % 16384 < 0x3C00))
    let rest := s.stores.micro.filter (fun e => !mine e.1)
    let words : List (Nat × Word) := if vendor then act.map (fun e => (e.1 % 16384, e.2)) ++ m.recs
      else (List.range 1024).map (fun i => (0x3C00 + i, m.userWord (0x3C00 + i)))
    let there := fun (w : BadWord) => decide (w.cluster = gc) && decide (w.store = .micro) && decide (w.bank = b)
    { s with stores :=
      { s.stores with
        micro := words.foldl (fun mm e => SMap.put 0 mm (key b e.1) e.2) rest
        poison := s.stores.poison.filter (fun w => !there w)
        reloaded := s.stores.reloaded.filter (fun w => !there w) } }

/-- An empty stage. -/
def UStage.idle : UStage := ⟨[], false, false, 0, 0, 0, 0, [], [], false, 0, none⟩

/-- The stage after an image: its clusters, what it shows once applied, and the banks that hold it. -/
def State.stageImage (s : State) (vendor : Bool) (tiles : Nat) (m : Image) : State :=
  let cs := s.imageClusters m tiles
  let u := s.stores.ustage.getD UStage.idle
  let s := cs.foldl (fun s gc => s.stageBank vendor (u.clusters.contains gc) m gc) s
  let new := cs.filter (fun gc => !u.clusters.contains gc)
  let u := { u with
    clusters := u.clusters ++ new
    targets := u.targets ++ new.map (fun gc => (gc, (s.shadowMicro gc).getD false)) }
  let u := if vendor then
      { u with vendor := true, vendorId := BitVec.ofNat 32 m.id, vendorVer := BitVec.ofNat 32 m.version, vendorSvn := m.svn }
    else
      { u with
        user := true, userId := BitVec.ofNat 32 m.id,
        userClusters := u.userClusters.filter (fun gc => !cs.contains gc) ++ cs }
  { s with stores := { s.stores with ustage := some u, ucodeApplied := false } }.showStage

/-- The fields of a stage's request: tiles, address and length of the image. -/
def stageAsk (vendor : Bool) (p : List Byte) : Nat × Nat × Nat :=
  if vendor then (0x7F, leAt p 0 8, leAt p 8 4) else (leAt p 0 1, leAt p 1 8, leAt p 9 4)

/-- A stage begins: its final response follows (R373). -/
def State.beginStage (s : State) (n : Nat) (vendor : Bool) (p : List Byte) : State :=
  let (tiles, addr, len) := stageAsk vendor p
  if 0x80 ≤ tiles then s.deny n 0x0501 whole
  else
    match s.stageReason n vendor tiles addr len with
    | some (x, d) => s.deny n x d
    | none => (s.wr F.SPN_MCODE_STAGE_STATE [] 1).progress n

/-- The final response of a stage: the image is in the shadow banks unless a check, or the read-back, refuses it. The
response's 'clusters staged' is their number (R125, log 74). -/
def State.endStage (s : State) (n : Nat) (vendor : Bool) (p : List Byte) (readBack : Bool) : State :=
  let (tiles, addr, len) := stageAsk vendor p
  let m := imageOf vendor (s.memRead addr len)
  match s.stageReason n vendor tiles addr len with
  | some (x, d) => s.showStage.deny n x d
  | none =>
    if readBack then
      (s.stageImage vendor tiles m).ok n (leBytes 4 m.id ++ leBytes 2 (s.imageClusters m tiles).length)
    else s.showStage.deny n 0x0B01 whole

/-- PATCH_STAGE. -/
def execPatchStage (n : Nat) (s : State) : Host.Outcome State Fault Refusal :=
  .next (s.command n 0x31 false (bytesOk 12 []) (fun s r => s.beginStage n true r.payload))

/-- USER_UCODE_STAGE. -/
def execUserUcodeStage (n : Nat) (s : State) : Host.Outcome State Fault Refusal :=
  .next (s.command n 0x32 false (bytesOk 13 []) (fun s r => s.beginStage n false r.payload))

/-! ## Applying and discarding (R124) -/

/-- Why an apply is refused: nothing staged or already applying, a stage at work, a CUSTOM entry that a region loaded since
uses, a failed shadow bank. -/
def State.applyReason (s : State) (n : Nat) : Nat :=
  match s.stores.ustage with
  | none => 0x0502
  | some u =>
    if u.applying then 0x0502
    else if u.targets.any (fun e => s.customLost e.1 (s.microAt e.1 e.2)) then 0x0104
    else if s.staging n || u.targets.any (fun e => decide (s.shadowMicro e.1 ≠ some e.2)) then 0x0105
    else 0

/-- Accepts an apply from a tick on. -/
def State.beginApply (s : State) (commit : Nat) (mbx : Option Nat) : State :=
  let s := { s with stores :=
    { s.stores with
      ustage := s.stores.ustage.map (fun (u : UStage) => { u with applying := true, applyAt := commit, mbx := mbx }),
      ucodeApplied := true } }
  s.showStage

/-- PATCH_APPLY. -/
def execPatchApply (n : Nat) (s : State) : Host.Outcome State Fault Refusal :=
  .next (s.command n 0x33 false (bytesOk 0 []) (fun s _ =>
    if s.applyReason n = 0 then (s.beginApply 0 (some n)).progress n else s.deny n (s.applyReason n) whole))

/-- Every thread of the clusters reads the staged bank. -/
def State.applied (s : State) (u : UStage) : Bool :=
  u.targets.all (fun e => (clusterThreads e.1).all (fun g => decide (s.uBank g = e.2)))

/-- What the registers show once every thread has switched; the minimum SVN rises to the vendor image's. -/
def State.endApply (s : State) (u : UStage) : State :=
  let s := if u.vendor then
      let v := u.vendorVer.toNat
      let s := ((s.wr F.SPN_MCODE_VER_PATCH [] v).wr F.SPN_MCODE_VER_MINOR [] (v / 256)).wr F.SPN_MCODE_VER_MAJOR [] (v / 65536)
      let s := s.wr F.SPN_MCODE_ID_IMAGE_ID [] u.vendorId.toNat
      { s with stores := { s.stores with ucodeSvnMin := max s.stores.ucodeSvnMin u.vendorSvn } }
    else s
  let s := if u.user then
      u.userClusters.foldl (fun s gc => s.wr F.CLU_UCODE_USER_ID_IMAGE_ID [gc / 9, gc % 9] u.userId.toNat) s
    else s
  { s with stores := { s.stores with ustage := none } }.showStage

/-- PATCH_APPLY_DONE: every affected thread has switched. An apply whose image a hard failure has discarded (R120) fails. -/
def execPatchApplyDone (s : State) : Host.Outcome State Fault Refusal :=
  match s.stores.ustage with
  | some u =>
    if u.applying ∧ s.applied u then
      let s := s.endApply u
      let s := match u.mbx with
        | some n => if s.working n 0x33 then
            s.ok n (wordBytes [(s.regWord R.SPN_MCODE_VER [] 0).toNat, (s.regWord R.SPN_MCODE_ID [] 0).toNat]) else s
        | none => s
      .next s.settleTxns
    else .next s
  | none =>
    match (List.range 64).find? (fun n => s.working n 0x33) with
    | some n => .next ((s.fail n 0x0105).settleTxns)
    | none => .next s

/-- PATCH_DISCARD (R124): what has been applied, or is being applied, cannot be discarded. -/
def execPatchDiscard (n : Nat) (s : State) : Host.Outcome State Fault Refusal :=
  .next (s.command n 0x34 false (bytesOk 0 []) (fun s _ =>
    match s.stores.ustage with
    | none => s.deny n (if s.stores.ucodeApplied then 0x0906 else 0x0502) whole
    | some u =>
      if u.applying then s.deny n 0x0906 whole
      else { s with stores := { s.stores with ustage := none } }.showStage.ok n []))

end Sys2Proof.Machine
end

