-- ==== Sys2Proof/Machine/Startup.lean ====
section
/-! DEFINITION. Supplies, reset and boot (22 R468-R480). -/

namespace Sys2Proof.Machine

/-! ## Reset (R471, R472) -/

/-- The register at an address keeps its value at PERST: reset domain AON, spine fault block 2 with it (00 R12). -/
def keptAtPerst (addr : Nat) : Bool :=
  match findReg addr regTable with
  | some (r, ix, _) => decide (r.domain = .aon) || (decide (r.domain = .fltSpine) && decide (ix = [2]))
  | none => false

/-- What Sinter holds of a unit's calibration (19 R428). -/
def CalUnit.kept (k : CalUnit) : CalUnit :=
  { CalUnit.idle with
    fits := k.fits, recA := k.recA, recB := k.recB, written := k.written }

/-- The part after a reset: what the AON domain and Sinter hold stays, a failed sensor works again (20 R435), and the
rest is as at power-on. -/
def State.hardReset (s : State) (regs : SMap Word) (therm : Therm) (boot : Boot) : State :=
  let z := State.reset
  let s' : State :=
    { z with
      variant := s.variant, pending := s.pending, freeCtr := s.freeCtr, emitted := s.emitted, regs := regs,
      stores := { z.stores with ucodeSvnMin := s.stores.ucodeSvnMin },
      clk := { z.clk with tick := s.now, off := -(s.now : Int), age := BitVec.ofNat 16 (s.rd F.TIM_XTAL_AGE_AGE []) },
      msvc := { z.msvc with sinterRetired := s.msvc.sinterRetired },
      cal := { z.cal with
        opTicks := s.cal.opTicks, refRec := s.cal.refRec, units := s.cal.units.map (fun (e : Nat × CalUnit) => (e.1, e.2.kept)) },
      therm := therm,
      flt := { z.flt with log := s.flt.log, logSeq := s.flt.logSeq, bootCount := s.flt.bootCount },
      boot := { boot with
        started := false, accepted := false, slotA := none, slotB := none, preferred := s.boot.preferred,
        minSvn := s.boot.minSvn, staging := none, activating := none, resuming := none } }
  { s' with cal := { s'.cal with units := s'.cal.units.filter (fun e => decide (e.2 ≠ .idle)) } }

/-- Reset by PERST_N or by a rail drop: AON keeps its registers and the thermal comparator its counts. -/
def State.resetPart (s : State) : State :=
  let sensors := s.therm.sensors.map (fun (e : Nat × Sensor) => (e.1, { e.2 with bad := 0, silent := 0 }))
  let s := s.hardReset (s.regs.filter (fun e => keptAtPerst e.1)) { s.therm with sensors := sensors } s.boot
  s.sensors.foldl (fun s n => s.putSens n F.THM_SENS_FAILED F.THM_SENS_T_FAILED 0) s

/-- PERST_ASSERT (R471): held for at least 1 µs. -/
def execPerstAssert (s : State) : Host.Outcome State Fault Refusal :=
  let s := s.resetPart
  .next { s with boot := { s.boot with perstN := false } }

/-! ## Rails (R468, R469, R472) -/

def State.railGood (s : State) (r : Nat) : Bool := bit (s.rd F.SPN_RAIL_STATUS_GOOD []) r

/-- Every rail before this one in the order is in range; VHVP and VHVN share a place. -/
def State.railOrder (s : State) (r : Nat) : Bool := (List.range (min r 6)).all s.railGood

/-- VHVP or VHVN follows the other by more than 1 ms. -/
def State.hvLate (s : State) (r : Nat) : Bool :=
  decide (6 ≤ r) && (match s.boot.hvAt with | some t => decide (t + 156250 < s.now) | none => false)

/-- A rail is in range or out of it. -/
def State.setRail (s : State) (r : Nat) (good : Bool) : State :=
  let s := s.wr F.SPN_RAIL_STATUS_GOOD [] (setBits (s.rd F.SPN_RAIL_STATUS_GOOD []) r 1 (if good then 1 else 0))
  let b := s.boot
  let all_ := decide (s.rd F.SPN_RAIL_STATUS_GOOD [] = 255)
  let low := decide (s.rd F.SPN_RAIL_STATUS_GOOD [] ≤ 1)
  let hv := s.railGood 6 || s.railGood 7
  { s with boot := { b with
      railsAt := if all_ then (match b.railsAt with | some t => some t | none => some s.now) else none,
      hvAt := if hv then (match b.hvAt with | some t => some t | none => some s.now) else none,
      seqHold := b.seqHold && !(all_ && b.seqLow), seqLow := b.seqHold && (b.seqLow || low) && !all_ } }

/-- An order violation: the part is held in RESET. -/
def State.seqError (s : State) : State :=
  let s := s.resetPart.wr F.SPN_RAIL_STATUS_SEQ_ERR [] 1
  { s with boot := { s.boot with seqHold := true, seqLow := false } }

/-- A rail comes into range: out of order or late, it is a sequence error (R469). -/
def State.railUp (s : State) (r : Nat) : State :=
  if 8 ≤ r ∨ s.railGood r then s
  else if r ≠ 0 ∧ !s.railGood 0 then s
  else
    let bad := !s.railOrder r || s.hvLate r
    let s := s.setRail r true
    if bad then s.seqError else s

/-- RAIL_RETURN (R469): nothing is checked before VAUX is in range. -/
def execRailReturn (rail : Nat) (s : State) : Host.Outcome State Fault Refusal := .next (s.railUp rail)

/-- RAIL_SEQ_ERROR (R469): the rail is found in range before a predecessor, or more than 1 ms after its partner. -/
def execRailSeqError (rail : Nat) (s : State) : Host.Outcome State Fault Refusal :=
  if rail < 8 ∧ s.railGood 0 ∧ !s.railGood rail ∧ (!s.railOrder rail ∨ s.hvLate rail) then .next (s.railUp rail) else .next s

/-- RAIL_DROP (R472): out of range for 10 µs, with PERST_N deasserted it resets the part. -/
def execRailDrop (rail : Nat) (s : State) : Host.Outcome State Fault Refusal :=
  if 1 ≤ rail ∧ rail < 8 ∧ s.railGood rail then
    let s := s.setRail rail false
    if s.boot.perstN ∧ !s.boot.seqHold then
      .next (((s.resetPart.wr F.SPN_RAIL_STATUS_DROP [] 1).wr F.SPN_RAIL_STATUS_DROP_RAIL [] rail))
    else .next s
  else .next s

/-- VAUX_LOSS (R472): AON is lost too; Sinter keeps its records. -/
def execVauxLoss (s : State) : Host.Outcome State Fault Refusal :=
  let s := s.hardReset [] .idle { Boot.idle with perstN := s.boot.perstN }
  .next { s with clk := { s.clk with age := 0 } }

/-! ## Boot (R470, R476, R477) -/

/-- Rails in range for 25 ms, and no hold. -/
def State.bootable (s : State) : Bool :=
  s.boot.perstN && !s.boot.seqHold && !s.boot.started && s.hif.refclk &&
    (match s.boot.railsAt with | some t => decide (t + 3906250 ≤ s.now) | none => false)

def State.startBoot (s : State) : State :=
  if s.bootable then { s with boot := { s.boot with started := true } } else s

/-- PERST_DEASSERT (R470): boot starts at once when the supplies and the clock are ready; a PERST cycle is counted. -/
def execPerstDeassert (s : State) : Host.Outcome State Fault Refusal :=
  if s.boot.perstN then .next s
  else
    let s := { s with boot := { s.boot with perstN := true }, flt := { s.flt with bootCount := s.flt.bootCount + 1 } }
    .next s.startBoot

/-- BOOT_START (R470, R472). -/
def execBootStart (s : State) : Host.Outcome State Fault Refusal := .next s.startBoot

/-- The cause that the ROM records for a slot; 0 when every check passes (R476). -/
def slotCause (o : SlotObs) (minSvn : Nat) : Nat :=
  if !o.readOk then 5
  else if !o.hdrOk || decide (65535 < o.svn) then 1
  else if !o.sigOk then 2
  else if o.svn < minSvn then 3
  else if o.stepping ≠ 0x21 then 4
  else if !o.selfTest then 6
  else 0

/-- The image of a slot runs. -/
def State.acceptSlot (s : State) (b : Bool) (o : SlotObs) : State :=
  let s := s.wrB F.SPN_BOOT_STATUS_IMAGE [] b
  let s := s.wrB F.MBX_GLOBAL_FW_IMAGE [] b
  let s := (s.setRegWord R.SPN_FW_VER [] 0 o.version).wr F.SPN_FW_SVN_RUNNING [] o.svn
  { s with boot := { s.boot with accepted := true } }

/-- Configuration space is ready (R343). -/
def State.configReady (s : State) : State := s.setHif { s.hif with cfgReady := true, memInfo := true }

/-- BOOT_IMAGE_CHECK (R476, R477): the preferred slot, then the other. -/
def execBootImageCheck (slotA slotB : SlotObs) (flash8D : Bool) (s : State) : Host.Outcome State Fault Refusal :=
  if s.boot.started ∧ !s.boot.accepted ∧ !s.rdB F.SPN_BOOT_STATUS_BOOT_FAIL [] then
    let pref := s.boot.preferred
    let first := if pref then slotB else slotA
    let second := if pref then slotA else slotB
    let c1 := slotCause first s.boot.minSvn
    let c2 := slotCause second s.boot.minSvn
    let set := fun (s : State) (b : Bool) (c : Nat) =>
      if b then s.wr F.SPN_BOOT_STATUS_B_CAUSE [] c else s.wr F.SPN_BOOT_STATUS_A_CAUSE [] c
    let s := s.wrB F.SPN_BOOT_STATUS_FLASH_8D [] flash8D
    let s := { s with boot := { s.boot with slotA := some slotA, slotB := some slotB } }
    let s := set s pref c1
    if c1 = 0 then .next (s.acceptSlot pref first)
    else
      let s := set s (!pref) c2
      if c2 = 0 then .next ((s.wr F.SPN_BOOT_STATUS_FALLBACK [] 1).acceptSlot (!pref) second)
      else
        let s := s.wr F.SPN_BOOT_STATUS_BOOT_FAIL [] 1
        .next ({ s with flt := { s.flt with errN := true } }.configReady)
  else .next s

/-! ## Firmware ready (R479) -/

/-- The vendor microcode of the image in the vendor region of bank U0 of a cluster (R100). -/
def State.loadVendor (s : State) (gc : Nat) : State :=
  let ws := (Config.vendorWords (s.regWord R.SPN_FW_VER [] 0).toNat).filter (fun e => decide (e.1 < 0x3C00))
  { s with stores := { s.stores with
      micro := ws.foldl (fun m e => SMap.put 0 m (32768 * gc + e.1) e.2) s.stores.micro } }

/-- Steps 1 to 3: the microcode of every cluster of a present tile, and nano-stores with VALID 0. -/
def State.loadMicrocode (s : State) : State :=
  let v := (s.regWord R.SPN_FW_VER [] 0).toNat
  let s := (List.range (9 * s.variant.tiles)).foldl State.loadVendor s
  let s := s.wr F.SPN_MCODE_ID_IMAGE_ID [] (Config.vendorId v)
  let n := Config.vendorVersion v
  let s := (s.wr F.SPN_MCODE_VER_PATCH [] n).wr F.SPN_MCODE_VER_MINOR [] (n / 256)
  { s.wr F.SPN_MCODE_VER_MAJOR [] (n / 65536) with stores := { s.stores with nano := [] } }

/-- FW_READY (R479, R377, R481): microcode unless device memory failed, corrections, REPLACE_N, the boot record; then the
mailboxes are IDLE, the mode is SAFE and the boot calibration begins. -/
def execFwReady (s : State) : Host.Outcome State Fault Refusal :=
  let mem := s.rdB F.SPN_HIF_STATUS_MEM_ACTIVE []
  if s.boot.accepted ∧ !s.rdB F.MBX_GLOBAL_FW_READY [] ∧ !s.flt.lost ∧
      (mem ∨ s.rdB F.SPN_HIF_STATUS_MEM_FAIL []) ∧ s.rdB F.TIM_PLL_STATUS_LOCKED [] then
    let s := if mem then s.loadMicrocode else s
    let s := s.loadAll.loadRef
    let s := s.logEvent 8 0 0 0 0x700 0 0xFFFFFFFF []
    let s := (s.wr F.MBX_GLOBAL_FW_READY [] 1).wr F.MBX_GLOBAL_STANDBY_READY [] 1
    let s := (List.range 64).foldl (fun s n => s.wr F.MBX_STATUS_STATE [n] 0) s
    let s := ((s.configReady).setMode mSafe 0).errPolicy.advise
    .next (if s.shutdown then s else s.beginBootCal)
  else .next s

end Sys2Proof.Machine
end

