-- ==== Sys2Proof/Machine/RegWrite.lean ====
section
/-! DEFINITION. Register writes: what a direct write does when it enters staging (00 R13-R15, 02 R57, R58), what a setting
does when it comes into force (02 R59, 17 R390, R391), coupled pairs (17 R392, R393), and the host's accesses to each
window (01 R24, R25, 15 R334, R335). -/

namespace Sys2Proof.Machine

/-! ## The reference (02 R44, R49) -/

/-- Restarts the reference state machine as REF_EN says. PHASE_ERR reads 0 in QUALIFY too, and STEER keeps its
value (log 45). -/
def State.refRestart (s : State) : State :=
  let s := s.wr F.TIM_REF_STATUS_PHASE_ERR [] 0
  let from_ := if s.rdB F.TIM_REF_CTRL_REF_EN [] then 1 else 0
  let st := if s.rdB F.TIM_REF_CTRL_REF_EN [] then 2 else 0
  let s := s.wr F.TIM_REF_STATUS_STATE [] st
  { s with clk := { s.clk with
      refFrom := from_, refSince := s.now, refFail := none, refInBand := none,
      age := if st = 0 then BitVec.ofNat 16 (s.rd F.TIM_XTAL_AGE_AGE []) else s.clk.age } }

/-- A write of FREQ and REF_EN restarts the reference state machine: in SAFE every one, in RESET one that changes them. -/
def State.refWritten (s : State) (old new : Word) : State :=
  if s.mode = mSafe ∨ old.toNat % 4 ≠ new.toNat % 4 then s.refRestart else s

/-- The value of TIM_REF_CTRL comes into force. -/
def State.setRefCtrl (s : State) (v : Word) : State :=
  let old := s.regWord R.TIM_REF_CTRL [] 0
  (s.setRegWord R.TIM_REF_CTRL [] 0 (v &&& 7)).refWritten old v

/-- A direct write of TIM_REF_CTRL: FREQ and REF_EN are locked in every mode but RESET and SAFE. -/
def State.refCtrlWrite (s : State) (v : Word) : State :=
  if s.refusesWrite R.TIM_REF_CTRL [] 0 v.toNat then s.refuse (R.TIM_REF_CTRL.addr [] 0) 0x0501 else s.setRefCtrl v

/-- TIM_REF_CTRL_WRITE (R49). -/
def execTimRefCtrlWrite (value : Word) (s : State) : Host.Outcome State Fault Refusal := .next (s.refCtrlWrite value)

/-! ## Coupled pairs (R137, R184, R222, R391-R393) -/

/-- The frequency band of a pair's first register: none for a pair without a check. -/
def ftwOk (r : Reg) (ftw : Nat) : Bool :=
  if r.is R.DRV_FREQ then decide (2 ^ 48 ≤ 50 * ftw) && decide (100 * ftw ≤ 48 * 2 ^ 48)
  else if r.is R.FLX_FREQ then decide (ftw ≤ 0x0CCCCCCCCCCC)
  else if r.is R.RDO_TONE_FTW_LO then decide (53 * 2 ^ 48 ≤ 200 * ftw) && decide (100 * ftw ≤ 48 * 2 ^ 48)
  else true

/-- Stores the RWC bits of the word at an address. -/
def State.putCoupled (s : State) (addr : Nat) (v : Word) : State :=
  match findReg addr regTable with
  | some (r, ix, w) => s.setMasked r ix w v (BitVec.ofNat 32 (r.maskBy w (fun a => decide (a = .rwc))))
  | none => s

/-- A complete pair takes effect, or is refused by its check and keeps its values. The second member follows the first. -/
def State.applyCouple (s : State) (addr : Nat) (lo hi : Word) : State :=
  match findReg addr regTable with
  | some (r, _, _) =>
    if ftwOk r (lo.toNat + 2 ^ 32 * (hi.toNat % 2 ^ 16)) then (s.putCoupled addr lo).putCoupled (addr + 4) hi
    else s.refuse addr 0x0201
  | none => s

/-- COUPLE_TIMEOUT (R393). -/
def execCoupleTimeout (addr : Nat) (s : State) : Host.Outcome State Fault Refusal := .next (s.expireCouple addr)

/-! ## A setting comes into force (R59, R390) -/

/-- EN of an output is set by a transaction, or written. -/
def State.setEnable (s : State) (k : OutKind) (t c : Nat) (on : Bool) : State :=
  if on then s.enableOn k t c else s.enableOff k t c

/-- The output's muting ends: it is live again at the value it holds. -/
def State.hasValue (s : State) (k : OutKind) (t c : Nat) : State :=
  if s.ballOpen k t c then s.setEn k t c { s.en k t c with hadValue := true } else s

/-- A segment's descriptor is written only while it is OPEN (R158). -/
def State.segLocked (s : State) (r : Reg) (ix : List Nat) : Bool := r.is R.TIL_SEG && s.segSealed (ix.headD 0) (ix.getD 1 0)

/-- MODE 3 with STEP 0 takes the default polynomial (06 R178). -/
def State.defaultPoly (s : State) (t g : Nat) (old : Word) : State :=
  if bits old.toNat 1 2 ≠ 3 ∧ s.rd F.TIL_GEN_CTRL_MODE [t, g] = 3 ∧ s.rd F.TIL_GEN_STEP_STEP [t, g] = 0 then
    s.wr F.TIL_GEN_STEP_STEP [t, g] 0x80200003
  else s

/-- A fault block's registers are written: bits cleared in FLT_STATUS are cleared as real and injected too, and ERR_N
follows its policy (21 R445, R463). -/
def State.fltWritten (s : State) (r : Reg) (ix : List Nat) (v : Word) : State :=
  if r.is R.FLT_STATUS then
    ((s.setMasked R.FLT_REAL ix 0 0 v).setMasked R.FLT_INJ ix 0 0 v).errPolicy
  else if r.is R.TFLT_STATUS then
    ((s.setMasked R.TFLT_REAL ix 0 0 v).setMasked R.TFLT_INJ ix 0 0 v).errPolicy
  else s.errPolicy

/-- The operations of the bits under a mask of a word that has come into force, by its register; `old` was in force
before. -/
def State.settled (s : State) (r : Reg) (ix : List Nat) (w : Nat) (old v m : Word) : State :=
  let t := ix.headD 0
  let i := ix.getD 1 0
  let n := v.toNat
  let on := fun (b : Nat) => m.getLsbD b && v.getLsbD b
  let unmuted := m.getLsbD 1 && !v.getLsbD 1
  if r.is R.DRV_CTRL then
    let s := if m.getLsbD 0 then s.setEnable .drive t i (v.getLsbD 0) else s
    if unmuted then s.hasValue .drive t i else s
  else if r.is R.PRB_CTRL then
    let s := if m.getLsbD 0 then s.setEnable .probe t i (v.getLsbD 0) else s
    if unmuted then s.hasValue .probe t i else s
  else if r.is R.FLX_CTRL then
    let s := if m.getLsbD 0 then s.setEnable .flux t i (v.getLsbD 0) else s
    if m.getLsbD 1 && (v.getLsbD 1 != old.getLsbD 1) then
      (s.wr F.FLX_CTRL_SPAN [t, i] (bits n 1 1)).applySpan .flux t i (bits n 1 1) 0
    else s
  else if r.is R.BIA_CTRL then if m.getLsbD 0 then s.setEnable .bias t i (v.getLsbD 0) else s
  else if r.is R.BIA_SPAN then
    let new := maskWord old v m
    let s := s.setRegWord R.BIA_SPAN ix 0 (new &&& 0xFFFFF007)
    if bits old.toNat 0 3 = bits new.toNat 0 3 then s else s.applySpan .bias t i (bits new.toNat 0 3) (BitVec.ofNat 20 (bits new.toNat 12 20))
  else if r.is R.FLX_LEVEL then (s.commitOn ⟨4, t, i⟩).hasValue .flux t i
  else if r.is R.BIA_CODE then s.placeCode t i ⟨128 * s.now, BitVec.ofNat 20 (s.rd F.BIA_CODE_CODE [t, i]), true, 0⟩
  else if r.is R.TIL_GEN_CTRL then
    let s := s.defaultPoly t i old
    let s := if m.getLsbD 0 then (if v.getLsbD 0 then s.applyGenEnable t i else s.wr F.TIL_GEN_CTRL_EN [t, i] 0) else s
    if on 3 then s.genReset t i else s
  else if r.is R.TIL_SEG then if w = 0 && m.getLsbD 2 then s.applySegState t i (v.getLsbD 2) else s
  else if r.is R.TIL_STRM_JUMP then s.applyJump t i (n % 256)
  else if r.is R.SNS_CTRL then if m.getLsbD 0 then s.applyScanEn t (v.getLsbD 0) else s
  else if r.is R.SNS_INJ_CTRL then
    let s := if bits m.toNat 5 4 = 0 then s else s.setSenseList t i { s.senseList t i with timeDone := false }
    if on 4 then s.raiseInj t i else s
  else if r.is R.SNS_INJ_TIME then s.setSenseList t i { s.senseList t i with timeDone := false }
  else if r.is R.SNS_PAIR_CFG then
    let range := s.rd F.SNS_PAIR_CFG_RANGE [t, i]
    let p := s.sensePair t i
    let to_ := if range = s.rd F.SNS_PAIR_STATUS_RANGE [t, i] then none else some range
    -- a fixed range ends what automatic ranging had begun (08 R204)
    if !s.rdB F.SNS_PAIR_CFG_AUTO [t, i] then s.setSensePair t i { p with newRange := to_, upRun := 0, downRun := 0 }
    else if bits old.toNat 2 2 ≠ range then s.setSensePair t i { p with newRange := to_ }
    else s
  else if r.is R.RDO_IN_CTRL then if bits m.toNat 0 2 = 0 then s else s.setGain t i (s.rd F.RDO_IN_CTRL_GAIN [t, i])
  else if r.is R.RDO_XT_CTRL then if on 1 then s.applyXtSwap t i else s
  else if r.is R.TIM_EVT_CTRL then if on 0 then s.eventArmed t else s
  else if r.is R.TIM_XTAL_AGE then
    let st := s.rd F.TIM_REF_STATUS_STATE []
    if st = 0 ∨ st = 1 ∨ st = 5 then { s with clk := { s.clk with age := BitVec.ofNat 16 (s.rd F.TIM_XTAL_AGE_AGE []) } } else s
  else if r.is R.TDC_IN_CFG then
    if m.getLsbD 3 && (v.getLsbD 3 != old.getLsbD 3) then s.wrB F.TDC_IN_STATUS_LEVEL [t] (!s.rdB F.TDC_IN_STATUS_LEVEL [t])
    else s
  else if r.is R.CAP_CTRL then
    let s := if on 0 then s.applyCapArm t else s
    let s := if on 1 then s.applyCapStop t else s
    if on 2 then s.applyCapForce t else s
  else if r.is R.TDC_FREQ_CFG then if on 4 then s.applyFreqGo else s
  else if r.is R.BVN_PORT_CTRL then
    let s := s.portCtrl t (old.getLsbD 0) (old.getLsbD 10) (bits old.toNat 4 4)
    let s := if on 8 then s.retrain t else s
    if on 9 then s.widen t else s
  else if r.is R.BVN_LANE_PRBS then
    let s := if on 3 && !old.getLsbD 3 then (s.wr F.BVN_LANE_PRBS_ERR_COUNT [t, i] 0).wr F.BVN_LANE_PRBS_LOCK [t, i] 0 else s
    if on 4 then s.laneInject t i else s
  else if r.is R.THM_CFG then
    let new := maskWord old v m
    if thmCfgOk new.toNat then s.applyThmCfg new else s.refuse (r.addr ix w) 0x0803
  else if r.is R.SPN_DEC_SW then
    let new := maskWord old v m
    match s.slotUser (960 + bits new.toNat 0 6) with
    | .software _ => s.applyDecSw new
    | _ => s.wr F.SPN_DEC_STATUS_SW_REFUSED [] 1
  else if r.is R.SPN_SYN_DEC_BASE then s.applySynBase t (maskWord old v m)
  else if r.is R.QMG_STRM_WP then s.wpWrite t i (maskWord old v m)
  else if r.is R.TIM_REF_CTRL then if bits m.toNat 0 2 = 0 then s else s.refWritten old (maskWord old v m)
  else if r.is R.THM_STATUS then if on 6 then s.maxClear else s
  else if r.is R.CLU_THR_BUDGET then if on 8 then s.updThr (gid t i (ix.getD 2 0)) (fun x => { x with peak := 0 }) else s
  else if r.is R.FLT_INJECT then s.fltInject (.spine t) (v &&& m)
  else if r.is R.TFLT_INJECT then s.fltInject (.tile t i) (v &&& m)
  else if r.is R.FLT_STATUS ∨ r.is R.TFLT_STATUS ∨ r.is R.FLT_ACTION ∨ r.is R.TFLT_ACTION ∨ r.is R.SPN_ERR_PIN then
    s.fltWritten r ix (v &&& m)
  else s

/-- A setting comes into force at the present boundary: the writable bits under the mask are stored, RW1C bits written 1
clear, and the register's operations follow. A descriptor field of a sealed segment is discarded. -/
def State.applySetting (s : State) (r : Reg) (ix : List Nat) (w : Nat) (v m : Word) : State :=
  let of := fun p => BitVec.ofNat 32 (r.maskBy w p)
  let plain := of (fun a => decide (a ≠ .ro) && decide (a ≠ .rw1c) && decide (a ≠ .wo)) &&& ~~~opMask r w
  let old := s.regWord r ix w
  let s :=
    if s.segLocked r ix && decide (m &&& plain ≠ 0) then s.wr F.TIL_ENV_STATUS_WR_REFUSED [ix.headD 0] 1
    else s.setMasked r ix w v (m &&& plain)
  let s := s.setMasked r ix w 0 (v &&& m &&& of (fun a => decide (a = .rw1c)))
  s.settled r ix w old v m

/-- The same at an address. -/
def State.applyAtAddr (s : State) (addr : Nat) (v m : Word) : State :=
  match findReg addr regTable with
  | some (r, ix, w) => s.applySetting r ix w v m
  | none => s

/-! ## A direct write enters staging (R13, R14, R57) -/

/-- The register lies in a spare drive DAC's block (05 R146). -/
def spareReg (r : Reg) (ix : List Nat) : Bool :=
  decide (0x1100000 ≤ r.base) && decide (r.base < 0x1148000) && decide (64 ≤ ix.getD 1 0)

/-- A capture engine's ARM, STOP and FORCE. -/
def State.capBits (s : State) (t : Nat) (v : Word) : State :=
  let idle := decide (s.capState t = cIdle) || decide (s.capState t = cDone)
  let s := if v.getLsbD 0 then (if idle then s.capControl t (.capArm t) else s.wr F.CAP_STATUS_ARM_REFUSED [t] 1) else s
  let s := if v.getLsbD 1 then s.capControl t (.capStop t) else s
  if v.getLsbD 2 then s.capControl t (.capForce t) else s

/-- What an accepted direct write does at once beside its fields: enables, and bits that are commands. -/
def State.wrote (s : State) (r : Reg) (ix : List Nat) (w : Nat) (old v : Word) : State :=
  let t := ix.headD 0
  let i := ix.getD 1 0
  let b := v.getLsbD
  if r.is R.DRV_CTRL then s.setEnable .drive t i (b 0)
  else if r.is R.PRB_CTRL then s.setEnable .probe t i (b 0)
  else if r.is R.BIA_CTRL then s.setEnable .bias t i (b 0)
  else if r.is R.FLX_CTRL then
    let s := s.setEnable .flux t i (b 0)
    if b 1 = old.getLsbD 1 then s else s.writeSpan .flux t i (bits v.toNat 1 1) 0
  else if r.is R.TIL_GEN_CTRL then
    let s := s.defaultPoly t i old
    if b 3 then s.stage (.genRestart t i) false else s
  else if r.is R.SNS_INJ_CTRL then if b 4 then s.stage (.snsInj t i) false else s
  else if r.is R.RDO_XT_CTRL then
    if b 1 then (s.wr F.RDO_XT_CTRL_PENDING [t, i] 1).stage (.xtSwap t i) false else s
  else if r.is R.CAP_CTRL then s.capBits t v
  else if r.is R.TDC_FREQ_CFG then if b 4 && !s.rdB F.TDC_FREQ_STATUS_BUSY [] then s.stage .freqGo false else s
  else if r.is R.BVN_PORT_CTRL then s.settled r ix w old v 0xFFFFFFFF
  else if r.is R.BVN_LANE_PRBS then if b 4 then s.laneInject t i else s
  else if r.is R.FLT_STATUS ∨ r.is R.TFLT_STATUS ∨ r.is R.FLT_ACTION ∨ r.is R.TFLT_ACTION ∨ r.is R.SPN_ERR_PIN then
    s.fltWritten r ix v
  else s

/-- A write to the descriptor of a segment. While it is SEALED only STATE is written. -/
def State.segWrite (s : State) (ix : List Nat) (w : Nat) (v : Word) : State :=
  let r := R.TIL_SEG
  let t := ix.headD 0
  let i := ix.getD 1 0
  if !r.accepts w v.toNat then s.refuse (r.addr ix w) 0x0501
  else if s.segSealed t i then
    let s := if w = 0 then s.stage (.word (r.addr ix 0) v 4) false else s
    if w ≠ 0 ∨ s.segType t i ≠ bits v.toNat 0 2 then s.wr F.TIL_ENV_STATUS_WR_REFUSED [t] 1 else s
  else s.enterWrite r ix w v

/-- A direct write of a register word. -/
def State.directWord (s : State) (r : Reg) (ix : List Nat) (w : Nat) (v : Word) : State :=
  let t := ix.headD 0
  let i := ix.getD 1 0
  let n := v.toNat
  if r.is R.QDB_SQ_TAIL then s.sqTailWrite t (bits n 0 12)
  else if r.is R.QDB_CQ_HEAD then s.cqHeadWrite t (bits n 0 12)
  else if r.is R.MBX_DB then if v.getLsbD 0 then s.ring t else s
  else if r.is R.FLT_INJECT then s.fltInject (.spine t) v
  else if r.is R.TFLT_INJECT then s.fltInject (.tile t i) v
  else if r.is R.THM_CFG then s.thmCfgWrite v
  else if r.is R.THM_STATUS then if v.getLsbD 6 then s.maxClear else s
  else if r.is R.SPN_DEC_SW then s.decSwWrite v
  else if r.is R.SPN_SYN_DEC_BASE then s.synBaseWrite t v
  else if r.is R.QMG_STRM_WP then s.wpWrite t i v
  else if r.is R.CLU_THR_BUDGET then
    if v.getLsbD 8 then s.updThr (gid t i (ix.getD 2 0)) (fun x => { x with peak := 0 }) else s
  else if r.is R.TIM_REF_CTRL then s.refCtrlWrite v
  else if r.is R.TDC_IN_CFG ∧ t = 9 then s
  else if spareReg r ix then
    if r.is R.DRV_STATUS then s.setMasked r ix w 0 (v &&& BitVec.ofNat 32 (r.maskBy w (fun a => decide (a = .rw1c))))
    else s.refuse (r.addr ix w) 0x0501
  else if r.is R.BIA_SPAN then s.writeSpan .bias t i (bits n 0 3) (BitVec.ofNat 20 (bits n 12 20))
  else if r.is R.TIL_SEG then s.segWrite ix w v
  else if s.refusesWrite r ix w n ||
      (r.is R.FLX_CTRL && decide (bits n 1 1 ≠ s.rd F.FLX_CTRL_SPAN [t, i]) && s.spanChanging .flux t i) then
    s.refuse (r.addr ix w) 0x0501
  else
    let old := s.regWord r ix w
    (s.enterWrite r ix w v).wrote r ix w old v

/-! ## Windows (R24, R25, R334) -/

/-- A tile's window takes writes: the tile is present and its spine link works. -/
def State.tileReached (s : State) (t : Nat) : Bool :=
  decide (t < s.variant.tiles) && !bit (s.rd F.SPN_TILE_FENCE_LINK_DEAD []) t

/-- A write to the register at an address; an unlisted offset discards it. -/
def State.regAt (s : State) (addr : Nat) (v : Word) : State :=
  match findReg addr regTable with
  | some (r, ix, w) => s.directWord r ix w v
  | none => s

/-- A write of an aligned dword arrives at its tile's window. -/
def State.tileWord (s : State) (addr : Nat) (v : Word) : State :=
  let t := addr / 0x1000000 - 1
  let o := addr % 0x1000000
  if 0x800000 ≤ o ∧ o < 0xC00000 then s.envWrite t ((o - 0x800000) / 4) v
  else if 0x500000 ≤ o ∧ o < 0x540000 then s.nanoView t o v
  else if 0x300000 ≤ o ∧ o < 0x340000 ∧ 0x4000 ≤ (o - 0x300000) % 0x8000 then
    s.weightWrite t ((o - 0x300000) / 0x8000) ((o - 0x300000) % 0x8000 % 0x4000 / 4) v
  else s.regAt addr v

/-- A write of an aligned dword into the part's BARs. A write to a tile does not overtake the updates on their way to it
(R21). -/
def State.busWord (s : State) (addr : Nat) (v : Word) : State :=
  if addr < 0x1000000 then
    if 0x100000 ≤ addr ∧ addr < 0x200000 then s.tableWrite ((addr - 0x100000) / 4) v else s.regAt addr v
  else if addr < 0x8000000 then
    let t := addr / 0x1000000 - 1
    if !s.tileReached t then s
    else if (takeMsg t s.dec.fabric).isSome then
      { s with dec := { s.dec with fabric := s.dec.fabric ++ [⟨t, s.now, hub, .write addr v⟩] } }
    else s.tileWord addr v
  else if addr < 0x10000000 then s
  else if addr < 0x10100000 then
    let o := addr - 0x10000000
    if o < 0x40000 then
      if o % 0x1000 < 0x800 then s.regionWrite (o / 0x1000) (o % 0x1000) (leBytes 4 v.toNat) else s
    else if 0x80000 ≤ o ∧ o < 0xA0000 then s.setHif { s.hif with cfg := SMap.put 0 s.hif.cfg (0x1000000 + o) v }
    else if 0xC0000 ≤ o ∧ o < 0xC8000 then s.msixWrite (o - 0xC0000) v
    else s.regAt addr v
  else s.regAt addr v

/-- REG_WRITE (R335): a request that crosses an 8-byte boundary is answered by Unsupported Request; a dword of the write
is written, lower address first; bytes short of a dword are discarded with PARTIAL_WR, in the window of an absent tile too
(log 70). A locked or atomic request, for which `len` 0 stands, is answered by Unsupported Request. -/
def execRegWrite (addr len : Nat) (value : BitVec 64) (s : State) : Host.Outcome State Fault Refusal :=
  if len = 0 ∨ 8 < addr % 8 + len then .next (s.emit .masterAbort)
  else
    let full := fun (a : Nat) => decide (addr ≤ a) && decide (a + 4 ≤ addr + len)
    let part := fun (a : Nat) => decide (addr < a + 4) && decide (a < addr + len) && !full a
    let dword := fun (a : Nat) => (BitVec.ofNat 32 (value.toNat / 256 ^ (a - addr)) : Word)
    let base := addr / 8 * 8
    .next ([base, base + 4].foldl (fun (s : State) (a : Nat) =>
      if full a then s.busWord a (dword a)
      else if part a then (s.wr F.SPN_HIF_STATUS_PARTIAL_WR [] 1).note (.spine 0) 6 0
      else s) s)

/-! ## Arrival at a tile (R21, R250) -/

/-- The register writes at the head of what is on its way to a tile, and the rest (R21). -/
def headWrites (t : Nat) : Nat → List FabMsg → List (Nat × Word) × List FabMsg
  | 0, f => ([], f)
  | n + 1, f =>
    match takeMsg t f with
    | some (⟨_, _, _, .write a v⟩, rest) => let r := headWrites t n rest; ((a, v) :: r.1, r.2)
    | _ => ([], f)

/-- The register writes that have become the oldest messages to a tile arrive (R21). -/
def State.releaseWrites (s : State) (t : Nat) : State :=
  let r := headWrites t s.dec.fabric.length s.dec.fabric
  r.1.foldl (fun s e => s.tileWord e.1 e.2) { s with dec := { s.dec with fabric := r.2 } }

/-- DECISION_UPDATE (R247, R250, R252): the oldest update on its way to a replica arrives, and the register writes sent
right after it; while the ring is rebuilt the tiles' are held (R459). -/
def execDecisionUpdate (replica : Nat) (s : State) : Host.Outcome State Fault Refusal :=
  match takeMsg replica s.dec.fabric with
  | some (⟨_, _, src, .upd u⟩, rest) =>
    if replica ≠ hub ∧ s.dec.rebuild.isSome then .next s
    else
      let s := { s with dec := { s.dec with fabric := rest } }
      if replica = hub then .next (s.hubUpdate src u)
      else .next ((if s.tileFenced replica then s else s.applyAt replica u).releaseWrites replica)
  | _ => .next s

end Sys2Proof.Machine
end

