-- ==== Sys2Proof/Machine/Transactions.lean ====
section
/-! DEFINITION. Transactions (17 R385-R391): TXN_BEGIN, TXN_SET, TXN_COMMIT, TXN_ROLLBACK, TXN_STATUS, their time-out, and
what a committed one does at its tick. -/

namespace Sys2Proof.Machine

/-! ## Their states (R386) -/

/-- Number of the device transaction. -/
def devTxn : Nat := 64

def State.openTxn (s : State) (p : Nat) : Option Txn := (s.mb.open_.find? (fun e => decide (e.1 = p))).map Prod.snd

/-- The COMMITTED transaction, as long as one of its settings has still to take effect. -/
def State.commTxn (s : State) (p : Nat) : Option Txn :=
  ((s.mb.committed.find? (fun e => decide (e.1 = p))).map Prod.snd).filter
    (fun t => !t.applied || t.entries.any s.entryPending)

def State.setOpen (s : State) (p : Nat) (t : Option Txn) : State :=
  { s with mb :=
    { s.mb with
      open_ := match t with
        | some t => SMap.put .idle s.mb.open_ p t
        | none => SMap.remove s.mb.open_ p } }

/-- Why a partition cannot be named: out of range or not created. -/
def State.txnPartOk (s : State) (p : Nat) : Bool := decide (p = devTxn) || (decide (p < 64) && s.partValid p)

/-- Why a TXN_ID that is not OPEN is refused. -/
def State.noTxn (s : State) (id : Word) : Nat := if s.mb.timedOut.contains id then 0x0903 else 0x0901

/-- An OPEN transaction ends 10 s (1,562,500,000 ticks) after its TXN_BEGIN. -/
def State.lapseTxn (s : State) (p : Nat) : State :=
  match s.openTxn p with
  | some t =>
    if t.begin_ + 1562500000 ≤ s.now then
      let s := s.setOpen p none
      { s with mb := { s.mb with timedOut := s.mb.timedOut ++ [t.id] } }.wr F.SPN_TXN_TIMEOUT [p] 1
    else s
  | none => s

/-! ## TXN_BEGIN (R386, R387) -/

def State.beginTxn (s : State) (n p : Nat) : State :=
  let k := SMap.get 0 s.mb.seq p
  let id : Word := BitVec.ofNat 32 (p + 256 * ((Config.txnSeq p + k) % 2 ^ 24))
  let s := { s with mb := { s.mb with seq := SMap.put 0 s.mb.seq p (k + 1) } }
  let s := s.setOpen p (some { id := id, entries := [], begin_ := s.now, commit := 0, order := 0, applied := false })
  let s := (s.wr F.SPN_TXN_TXN_ID [p] id.toNat).wr F.SPN_TXN_BEGIN_TICK [p] (short s.grid)
  s.respond n stOk 0 0 id (leBytes 4 id.toNat)

/-- TXN_BEGIN. -/
def execTxnBegin (n : Nat) (s : State) : Host.Outcome State Fault Refusal :=
  .next (s.command n 0x10 false (bytesOk 4 [1, 2, 3]) (fun s r =>
    let p := leAt r.payload 0 1
    let s := s.lapseTxn p
    if !s.txnPartOk p then s.deny n 0x0501 whole
    else if (s.openTxn p).isSome then s.deny n 0x0902 whole
    else s.beginTxn n p))

/-! ## TXN_SET (R385, R388) -/

/-- The owner of a register (R385): none, the device; else the partition that the owning unit belongs to, if any. -/
def State.regOwner (s : State) (r : Reg) (ix : List Nat) : Option (Option Nat) :=
  let t := ix.headD 0
  let i := ix.getD 1 0
  let o := r.base % 0x1000000
  if 0x1000000 ≤ r.base ∧ r.base < 0x2000000 then
    if (0x100000 ≤ o ∧ o < 0x148000) ∨ (0x200000 ≤ o ∧ o < 0x2C0000) ∨ (0x2D0000 ≤ o ∧ o < 0x2D1000) then
      some (s.chanOwner (64 * t + i))
    else if 0x300000 ≤ o ∧ o < 0x340000 then some (s.lineOwner (8 * t + i))
    else if 0x20400 ≤ o ∧ o < 0x20600 then some (s.thrOwner (gid t i (ix.getD 2 0)))
    else if 0x1000 ≤ o ∧ o < 0x1400 then some (s.genOwner (32 * t + i))
    else if 0x4000 ≤ o ∧ o < 0x4800 then
      some (if s.strmState t i = kClosed then none else some (s.rd F.TIL_STRM_STATUS_PART [t, i]))
    else none
  else if 0x60100 ≤ r.base ∧ r.base < 0x60200 then some (s.slotOwner (896 + 16 * t))
  else none

/-- A transaction can stage a register of this owner. -/
def mayStage (p : Nat) (o : Option (Option Nat)) : Bool :=
  if p = devTxn then (match o with
    | some (some _) => false
    | _ => true)
  else decide (o = some (some p))

/-- A swap belongs to the partition that owns all threads of the cluster; to the device when none is owned. -/
def State.mayStageSwap (s : State) (p gc : Nat) : Bool :=
  (clusterThreads gc).all (fun g => decide (s.thrOwner g = if p = devTxn then none else some p))

/-- Why an entry cannot be staged; 0 when it can. An absent tile's window answers 0x0907 for every register (R388, log 70). -/
def State.stageEntryReason (s : State) (p : Nat) (e : TxnEntry) : Nat :=
  match e.kind with
  | 0 =>
    if e.mask = 0 then 0x0501
    else if e.offset % 4 ≠ 0 ∨ 0x8000000 ≤ e.offset then 0x0907
    else
      match findReg e.offset regTable with
      | none => 0x0907
      | some (r, ix, w) =>
        let ro := BitVec.ofNat 32 (r.maskBy w (fun a => decide (a = .ro)))
        let tdc9 := r.is R.TDC_IN_CFG && decide (ix.headD 0 = 9)
        if r.inTile && decide (s.variant.tiles ≤ ix.headD 0) then 0x0907
        else if ro &&& e.mask ≠ 0 ∨ spareReg r ix ∨ tdc9 then 0x0907
        else if mayStage p (s.regOwner r ix) then 0 else 0x010A
  | 1 =>
    let t := e.offset % 256
    let c := e.offset / 256
    if e.value ≠ 0 ∨ e.mask ≠ 0 then 0x0501
    else if s.clusterReason t c ≠ 0 then s.clusterReason t c
    else if s.mayStageSwap p (9 * t + c) then 0 else 0x010A
  | 2 => if e.value ≠ 0 ∨ e.mask ≠ 0 ∨ e.offset ≠ 0 then 0x0501 else if p = devTxn then 0 else 0x010A
  | _ => 0x0501

/-- The entries of a TXN_SET. -/
def txnEntries (p : List Byte) : List TxnEntry :=
  (List.range (leAt p 0 2)).map (fun i =>
    let o := 4 + 16 * i
    ⟨leAt p o 1, leAt p (o + 4) 4, BitVec.ofNat 32 (leAt p (o + 8) 4), BitVec.ofNat 32 (leAt p (o + 12) 4)⟩)

/-- The layout of a TXN_SET: as many entries as COUNT says, RSV bytes zero. -/
def txnSetLayout (p : List Byte) : Bool :=
  decide (p.length = 4 + 16 * leAt p 0 2) && decide (leAt p 2 2 = 0) &&
    (List.range (leAt p 0 2)).all (fun i => decide (leAt p (4 + 16 * i + 1) 3 = 0))

def TxnEntry.sameItem (a b : TxnEntry) : Bool := decide (a.kind = b.kind) && decide (a.offset = b.offset)

/-- An entry of the same offset or action takes the place of the earlier one. -/
def putEntry (l : List TxnEntry) (e : TxnEntry) : List TxnEntry :=
  if l.any e.sameItem then l.map (fun d => if e.sameItem d then e else d) else l ++ [e]

/-- Entries of all OPEN and COMMITTED transactions. -/
def State.txnTotal (s : State) : Nat :=
  ((s.mb.open_ ++ s.mb.committed).map (fun e => e.2.entries.length)).foldl (· + ·) 0

/-- TXN_SET on an OPEN transaction. -/
def State.setTxn (s : State) (n p : Nat) (t : Txn) (es : List TxnEntry) : State :=
  let l := es.foldl putEntry t.entries
  match firstReason (s.stageEntryReason p) 0 es with
  | some (x, d) => s.respond n stRefused x d t.id []
  | none =>
    if 4096 < l.length ∨ 16384 < s.txnTotal - t.entries.length + l.length then s.respond n stRefused 0x0905 whole t.id []
    else (s.setOpen p (some { t with entries := l })).respond n stOk 0 0 t.id (leBytes 2 l.length)

/-- The OPEN transaction that a TXN_ID names, with its partition. -/
def State.named (s : State) (id : Word) : Option (Nat × Txn) :=
  (s.openTxn (id.toNat % 256)).bind (fun t => if t.id = id then some (id.toNat % 256, t) else none)

/-- TXN_SET. -/
def execTxnSet (n : Nat) (s : State) : Host.Outcome State Fault Refusal :=
  .next (s.command n 0x11 true txnSetLayout (fun s r =>
    let s := s.lapseTxn (r.txnId.toNat % 256)
    match s.named r.txnId with
    | none => s.respond n stRefused (s.noTxn r.txnId) whole r.txnId []
    | some (p, t) =>
      let es := txnEntries r.payload
      if es.length = 0 ∨ 125 < es.length then s.respond n stRefused 0x0501 whole r.txnId []
      else s.setTxn n p t es))

/-! ## The consistency check (R389) -/

/-- The value of the word at an address once the entries of a transaction stand. -/
def State.standing (s : State) (es : List TxnEntry) (addr : Nat) : Word :=
  let now := match findReg addr regTable with
    | some (r, ix, w) => s.regWord r ix w
    | none => 0
  match es.find? (fun e => decide (e.kind = 0) && decide (e.offset = addr)) with
  | some e => maskWord now e.value e.mask
  | none => now

/-- The span of a job reaches a tick. -/
def State.spanReaches (s : State) (b : Job) (t : Nat) : Bool :=
  decide (s.spanStart b ≤ t) && (match s.schedEnd b with
    | some e => decide (t < e)
    | none => true)

/-- An RL field that the entry changes belongs to a unit that runs, or is held by a job whose span reaches the commit
tick. -/
def State.rlBusy (s : State) (r : Reg) (ix : List Nat) (w : Nat) (v : Word) (commit : Nat) : Bool :=
  s.changesRl r ix w v.toNat &&
    (s.running r ix || s.qm.jobs.any (fun e => s.holdsReg e.2 r ix && s.spanReaches e.2 commit))

/-- The enable check of an output whose EN the entry writes 1. -/
def State.enEntryReason (s : State) (r : Reg) (ix : List Nat) (e : TxnEntry) : Nat :=
  let t := ix.headD 0
  let c := ix.getD 1 0
  if !(e.value &&& e.mask).getLsbD 0 then 0
  else if r.is R.DRV_CTRL then s.enableReason .drive t c
  else if r.is R.PRB_CTRL then s.enableReason .probe t c
  else if r.is R.FLX_CTRL then s.enableReason .flux t c
  else if r.is R.BIA_CTRL then s.enableReason .bias t c
  else 0

/-- The frequency band of the pair that the entry stages a member of. -/
def State.bandOk (s : State) (es : List TxnEntry) (r : Reg) (ix : List Nat) (w : Nat) : Bool :=
  match couplePair r ix w with
  | some (first, _) =>
    (match findReg first regTable with
     | some (q, _, _) => ftwOk q ((s.standing es first).toNat + 2 ^ 32 * ((s.standing es (first + 4)).toNat % 2 ^ 16))
     | none => true)
  | none => true

/-- The first check that an entry fails, in the order of the table. -/
def State.checkEntry (s : State) (n commit : Nat) (es : List TxnEntry) (e : TxnEntry) : Nat :=
  match e.kind with
  | 0 =>
    (match findReg e.offset regTable with
     | some (r, ix, w) =>
       let v := s.standing es e.offset
       let touched := (r.fieldsOf w).filter (fun f => decide (bits e.mask.toNat f.lo f.width ≠ 0))
       if !(touched.all (fun f => f.accepts v.toNat) && crossOk r v.toNat) then 0x0501
       else if s.rlBusy r ix w v commit then 0x0501
       else if !s.bandOk es r ix w then 0x0201
       else if r.is R.SPN_SYN_DEC_BASE && decide (s.decMode (ix.headD 0) = 1) &&
           !baseOk (bits v.toNat 0 18) (s.rd F.SPN_SYN_DEC_CFG_K [ix.headD 0]) then 0x0501
       else s.enEntryReason r ix e
     | none => 0x0907)
  | 1 => ((s.swapReason (e.offset % 256) (e.offset / 256)).map Prod.fst).getD 0
  | _ => s.applyReason n

/-! ## TXN_COMMIT -/

/-- The commit is accepted: swaps and a patch apply are pending from now on, due at the commit tick. -/
def State.acceptTxn (s : State) (n p : Nat) (t : Txn) (commit : Nat) : State :=
  let s := s.setOpen p none
  let done : Txn := { t with commit := commit, order := s.mb.orders }
  let s := { s with mb := { s.mb with committed := SMap.put .idle s.mb.committed p done, orders := s.mb.orders + 1 } }
  let s := t.entries.foldl (fun s e =>
    match e.kind with
    | 0 => s
    | 1 =>
      let gc := 9 * (e.offset % 256) + e.offset / 256
      s.beginSwap gc ((s.inactiveNano gc).getD false) commit none
    | _ => s.beginApply commit none) s
  s.respond n stOk 0 0 t.id (leBytes 8 (128 * s.gridAt commit))

/-- TXN_COMMIT of an OPEN transaction. -/
def State.commitTxn (s : State) (n p : Nat) (t : Txn) (tick : Nat) : State :=
  let commit := if tick = 0 then s.now + 1563 else s.fromGrid (tick / 128)
  let no := fun (x d : Nat) => s.respond n stRefused x d t.id []
  if (s.commTxn p).isSome then no 0x0902 whole
  else if tick % 128 ≠ 0 then no 0x0501 whole
  else
    match firstReason (s.checkEntry n commit t.entries) 0 t.entries with
    | some (x, d) => no x d
    | none => if commit < s.now + 1563 ∨ s.now + 1562500000 < commit then no 0x0904 whole else s.acceptTxn n p t commit

/-- TXN_COMMIT. -/
def execTxnCommit (n : Nat) (s : State) : Host.Outcome State Fault Refusal :=
  .next (s.command n 0x12 true (bytesOk 8 []) (fun s r =>
    let s := s.lapseTxn (r.txnId.toNat % 256)
    match s.named r.txnId with
    | none => s.respond n stRefused (s.noTxn r.txnId) whole r.txnId []
    | some (p, t) => s.settleTxns.commitTxn n p t (leAt r.payload 0 8)))

/-! ## TXN_ROLLBACK, TXN_STATUS and the time-out -/

/-- TXN_ROLLBACK. -/
def execTxnRollback (n : Nat) (s : State) : Host.Outcome State Fault Refusal :=
  .next (s.command n 0x13 true (bytesOk 0 []) (fun s r =>
    let s := s.lapseTxn (r.txnId.toNat % 256)
    let committed := match s.commTxn (r.txnId.toNat % 256) with
      | some t => decide (t.id = r.txnId)
      | none => false
    match s.named r.txnId with
    | some (p, t) => (s.setOpen p none).respond n stOk 0 0 t.id []
    | none => s.respond n stRefused (if committed then 0x0906 else s.noTxn r.txnId) whole r.txnId []))

/-- STATE of SPN_TXN and of TXN_STATUS. -/
def State.txnState (s : State) (p : Nat) : Nat :=
  (if (s.openTxn p).isSome then 1 else 0) + if (s.commTxn p).isSome then 2 else 0

/-- TXN_STATUS's payload. -/
def State.txnStatus (s : State) (p : Nat) : List Byte :=
  let o := ((s.openTxn p).map (fun t => t.entries.length)).getD 0
  let (cid, cn, ct) := match s.commTxn p with
    | some t => (t.id.toNat, t.entries.length, 128 * s.gridAt t.commit)
    | none => (0, 0, 0)
  leBytes 4 (s.txnState p) ++ leBytes 4 (s.rd F.SPN_TXN_TXN_ID [p]) ++ leBytes 4 o ++ leBytes 4 cid ++ leBytes 4 cn ++ leBytes 8 ct

/-- TXN_STATUS. -/
def execTxnStatus (n : Nat) (s : State) : Host.Outcome State Fault Refusal :=
  .next (s.command n 0x14 false (bytesOk 4 [1, 2, 3]) (fun s r =>
    let p := leAt r.payload 0 1
    let s := s.lapseTxn p
    if s.txnPartOk p then s.ok n (s.txnStatus p) else s.deny n 0x0501 whole))

/-- TXN_TIMEOUT. -/
def execTxnTimeout (part : Nat) (s : State) : Host.Outcome State Fault Refusal := .next (s.lapseTxn part)

/-! ## Application at the commit tick (R390, R391) -/

/-- The staged form of an entry's RWH write. -/
def State.rwhAct (s : State) (r : Reg) (ix : List Nat) (e : TxnEntry) : StagedAct :=
  if r.is R.SPN_SYN_DEC_BASE then .synBase (ix.headD 0) (maskWord (s.regWord r ix 0) e.value e.mask)
  else .word e.offset e.value e.mask

/-- A register write of a transaction. A pair takes effect together, its other member at the value in force unless staged
too, and an incomplete direct stage of it is discarded; an RWH field waits for the shot boundary of a unit in a shot. -/
def State.applyEntry (s : State) (es : List TxnEntry) (e : TxnEntry) : State :=
  match findReg e.offset regTable with
  | none => s
  | some (r, ix, w) =>
    match couplePair r ix w with
    | some (first, _) =>
      let s := s.expireCouple first
      let s := if s.couples.any (fun c => decide (c.addr = first)) then
          ({ s with couples := s.couples.filter (fun c => decide (c.addr ≠ first)) }).refuse first 0x0302
        else s
      s.applyCouple first (s.standing es first) (s.standing es (first + 4))
    | none =>
      let rwh := decide (BitVec.ofNat 32 (r.maskBy w (fun a => decide (a = .rwh))) &&& e.mask ≠ 0)
      let a := s.rwhAct r ix e
      if rwh && s.rwhBusy a then
        { s with staged := s.staged.filter (fun x => !a.replaces x.act) ++ [⟨a, s.now - 1, true⟩] }
      else s.applySetting r ix w e.value e.mask

/-- The settings of a committed transaction take effect. -/
def State.applyTxn (s : State) (p : Nat) (t : Txn) : State :=
  let es := t.entries
  let s := (es.filter (fun e => decide (e.kind = 0))).foldl (fun s e => s.applyEntry es e) s
  { s with mb := { s.mb with committed := SMap.put .idle s.mb.committed p { t with applied := true } } }

/-- The committed transactions that are due, in the order of their commits. -/
def State.dueTxns (s : State) : List (Nat × Txn) :=
  let due := s.mb.committed.filter (fun e => !e.2.applied && decide (e.2.commit ≤ s.now))
  due.foldl (fun l e => l.filter (fun x => decide (x.2.order < e.2.order)) ++ [e] ++
    l.filter (fun x => !decide (x.2.order < e.2.order))) []

/-- Step 3 of a boundary (R59): every due transaction. -/
def State.applyTxns (s : State) : State := (s.dueTxns.foldl (fun s e => s.applyTxn e.1 e.2) s).settleTxns

end Sys2Proof.Machine
end

