-- ==== Sys2Proof/Machine/Grid.lean ====
section
/-! DEFINITION. Grid time, the reference and the main PLL (02 R38-R53), and the tick boundary: what is staged takes effect
in the order of R59, and what the end of a tick decides is decided (22 R482). -/

namespace Sys2Proof.Machine

/-! ## Staged writes at a boundary (R57-R59) -/

/-- A staged action takes effect at the present boundary. -/
def State.applyAct (s : State) (a : StagedAct) : State :=
  match a with
  | .word addr v m => s.applyAtAddr addr v m
  | .couple addr lo hi => s.applyCouple addr lo hi
  | .genRestart t g => s.genReset t g
  | .spanChange k t c span after => s.applySpan k t c span after
  | .snsInj t l => s.raiseInj t l
  | .shortClamp t c => s.applyShortClamp t c
  | .agcStep t l => s.applyAgcStep t l
  | .xtSwap t l => s.applyXtSwap t l
  | .decSw v => s.applyDecSw v
  | .synBase d v => s.applySynBase d v
  | .capArm t => s.applyCapArm t
  | .capStop t => s.applyCapStop t
  | .capForce t => s.applyCapForce t
  | .freqGo => s.applyFreqGo
  | .fltInject b v => s.applyInjections b [v]
  | .jobAbort j => s.applyAbort j
  | .thmCfg v => s.applyThmCfg v

/-- The staged injections, block by block: those of one block come into force in one cycle (21 R449). -/
def groupInj : List StagedAct → List (FltBlk × List Word)
  | [] => []
  | .fltInject b v :: rest =>
    let g := groupInj rest
    match g.find? (fun e => decide (e.1 = b)) with
    | some e => (b, v :: e.2) :: g.filter (fun e => decide (e.1 ≠ b))
    | none => (b, [v]) :: g
  | _ :: rest => groupInj rest

def StagedAct.isInject : StagedAct → Bool
  | .fltInject _ _ => true
  | _ => false

/-- Step 2: every staged write that is due takes effect in the order of its entry; an RWH write waits while its unit is in
a shot. -/
def State.applyStaged (s : State) : State :=
  let due := fun (e : Staged) => decide (e.entry < s.now) && !(e.rwh && s.rwhBusy e.act)
  let go : List StagedAct := (s.staged.filter due).map (fun e => e.act)
  let s := { s with staged := s.staged.filter (fun e => !due e) }
  let s := (go.filter (fun a => !a.isInject)).foldl State.applyAct s
  (groupInj go).foldl (fun s e => s.applyInjections e.1 e.2) s

/-! ## What a boundary decides -/

/-- The strobe of R50 at the first boundary after a lock, with the PLL locked: the tiles are aligned and their links carry
traffic. -/
def State.strobe (s : State) : State :=
  if s.clk.strobe && s.rdB F.TIM_PLL_STATUS_LOCKED [] then
    let s := { s with clk := { s.clk with strobe := false } }
    let s := s.wr F.TIM_PLL_STATUS_TILES_ALIGNED [] 1
    (List.range s.variant.tiles).foldl (fun s t =>
      if bit (s.rd F.SPN_TILE_FENCE_LINK_DEAD []) t then s else s.wr F.TIL_STATUS_LINK_UP [t] 1) s
  else s

/-- A step of a calibration request runs on a unit (19 R424; a CALIBRATE job is active meanwhile, 16 R350). -/
def State.stepRuns (s : State) (u : UnitDesc) : Bool :=
  !s.isHeld u && !s.fenced u &&
    ((match (s.calU u).work with
      | .gap _ => true
      | .takeover => true
      | .lead _ _ _ => true
      | _ => false) || s.calReady u || (match s.stepWanted u with
      | some n => decide (1 ≤ n)
      | none => false))

/-- CALIBRATE jobs are active while a step runs. -/
def State.calJobs (s : State) : State :=
  s.cal.reqs.foldl (fun s r =>
    match r.job with
    | some j => s.updJob j (fun b => { b with running := r.todo.any (fun e => s.stepRuns e.1) })
    | none => s) s

/-- CLU_THR_G, FR and LC show the registers of a thread at the last boundary. -/
def State.showThread (s : State) (g : Nat) (t : Thread) : State :=
  let ix := [thrTile g, thrCluster g, thrIndex g]
  let s := (List.range 16).foldl (fun s i => s.setRegWord R.CLU_THR_G (ix ++ [i]) 0 (t.reg i)) s
  let s := (List.range 8).foldl (fun s i => s.setRegWord R.CLU_THR_FR (ix ++ [i]) 0 (t.frameAt i)) s
  (List.range 4).foldl (fun s i => s.setRegWord R.CLU_THR_LC (ix ++ [i]) 0 (t.counter i)) s

def State.showThreads (s : State) : State := s.threads.foldl (fun s e => s.showThread e.1 e.2) s

/-- Pulses that have played to their end leave; the samples a stream pulse missed are counted first. -/
def State.dropPulses (s : State) : State :=
  let over_ := fun (p : Pulse) => decide (p.stop ≤ 128 * s.now)
  let s := (s.outs.pulses.filter (fun p => over_ p && p.stream)).foldl (fun s p => s.noteUnderrun p.tile p.envBase) s
  { s with outs := { s.outs with pulses := s.outs.pulses.filter (fun p => !over_ p) } }

/-- `n` ticks pass; operating time runs out of RESET (19 R411). -/
def State.passTicks (s : State) (n : Nat) : State :=
  { s with
    clk := { s.clk with tick := s.now + n },
    cal := { s.cal with opTicks := if s.mode = mReset then s.cal.opTicks else s.cal.opTicks + n } }

/-! ## The discipline loop (R43-R46) -/

/-- The loop's steering has no stated course: a free value within its range (log 43). -/
def State.loopSteer (s : State) : State :=
  let (n, s) := s.draw
  s.wrI F.TIM_XTAL_STEER_STEER [] ((Config.freeNat n % 400001 : Nat) - 200000)

/-- The phase error in PULL, in units of 2 ps, from the free value drawn: it does not grow, falls by one unit in 6,250
ticks at most (50 ppb), and is within 20 ps from `band` on (log 43). -/
def pullPhase (old entry : Int) (since now band draw : Nat) : Int :=
  let hi := if band ≤ now then min old.natAbs 10 else old.natAbs
  let lo := min hi (entry.natAbs - (now - since) / 6250)
  let m : Int := (lo + draw % (hi - lo + 1) : Nat)
  if entry < 0 then -m else m

/-- A slave that follows its master keeps only the frequency of REFIN: the loop's phase alignment is suspended (14 R317). -/
def State.phaseSuspended (s : State) : Bool :=
  decide (s.tsRole = roleSlave) &&
    (decide (s.tsState = tsFine) || decide (s.tsState = tsLocked) || decide (s.tsState = tsHoldoverSt))

/-- The loop at a boundary: in PULL it removes the phase error, in LOCKED it follows REFIN. While its phase alignment is
suspended PHASE_ERR is reported, a free value (log 43); the second in band counts from when it is in band. -/
def State.loopTick (s : State) : State :=
  let st := s.rd F.TIM_REF_STATUS_STATE []
  let (n, t) := s.draw
  if st = 3 ∧ s.phaseSuspended then
    let e : Int := (Config.freeNat n % 65535 : Nat) - 32767
    let band := match s.clk.refInBand with
      | some b => if e.natAbs ≤ 10 then min b s.now else s.now + 1
      | none => s.now + 1
    ({ t with clk := { t.clk with refInBand := some band } }.wrI F.TIM_REF_STATUS_PHASE_ERR [] e).loopSteer
  else if st = 3 then
    match s.clk.refInBand with
    | some b =>
      (t.wrI F.TIM_REF_STATUS_PHASE_ERR []
        (pullPhase (s.rdI F.TIM_REF_STATUS_PHASE_ERR []) s.clk.refPhase s.clk.refSince s.now b (Config.freeNat n))).loopSteer
    | none => s
  else if st = 4 then
    (t.wrI F.TIM_REF_STATUS_PHASE_ERR [] ((Config.freeNat n % 65535 : Nat) - 32767)).loopSteer
  else s

/-! ## The boundary -/

/-- The tick ends: what recovered in it is noted, the pulses that start in it have latched what its instructions left, its
samples are rendered, loopback taps are taken, windows that opened in it latch, and the ports have sent their symbols. -/
def State.endTick (s : State) : State :=
  let s := (s.noteRecovery.relatchPulses (128 * s.now + 1)).clipTick
  s.tapLoops.latchWindows.endStreamJobs.sendPorts

/-- What comes into force at the boundary before the present tick, in the order of R59: corrections, staged writes,
committed transactions. -/
def State.comeIntoForce (s : State) : State := (s.bringCorrections.swapLines.applyStaged).applyTxns

/-- The present tick begins: what follows from the settings in force is set, and the pulses that start in it begin. -/
def State.beginTick (s : State) : State :=
  let s := ((s.strobe.switchBanks (fun _ => false)).publishDecoders).leadTicks
  let s := (s.spanTicks.finishWindows).relatchPulses (128 * s.now)
  let s := (s.beginPulses.showThreads).dropPulses
  let s := (s.calJobs.loopTick).evalMode
  s.syncParts

/-- The next tick boundary (R59). -/
def State.boundary (s : State) : State := ((s.endTick.passTicks 1).comeIntoForce).beginTick

/-- Ticks at which a later boundary has something to do by itself. -/
def State.dueTicks (s : State) : List Nat :=
  (s.mb.committed.filter (fun e => !e.2.applied)).map (fun e => e.2.commit) ++
    (List.range 4).flatMap (fun d => (s.decoder d).out.map Prod.fst) ++
    (s.stores.nanoSwap.map (fun e => e.2.2.1)).filter (fun t => decide (s.now < t)) ++
    s.tdc.ivs.filterMap (fun e => e.2.map (fun b => b.2 + 2 ^ 30 + 1)) ++
    (s.tdc.freq.map (fun r => r.start + s.rd F.TDC_FREQ_GATE_GATE [])).toList ++
    (match s.stores.ustage with
     | some u => if u.applying && decide (s.now < u.applyAt) then [u.applyAt] else []
     | none => [])

/-- Ticks pass in which nothing happens by itself: the outputs render alike, no job waits for a recovery and nothing is
due. -/
def State.calmTicks (s : State) : Bool :=
  s.quietOuts && !s.tdc.ins.any (fun e => e.2.swap) && s.portsQuiet && s.loopsQuiet && s.staged.isEmpty && s.cal.coming.isEmpty && s.cal.refDue.isNone &&
    !s.cal.reqs.any (fun r => bit r.steps 1) &&
    !s.qm.jobs.any (fun e => !e.2.rerun.isEmpty)

/-- At most `n` more ticks, none past a due one. -/
def State.skipTicks (s : State) (n : Nat) : State :=
  let last := s.dueTicks.foldl (fun m t => min m (t - 1)) (s.now + n)
  if s.now < last && s.calmTicks then ((s.latchBefore (64 * last)).passTicks (last - s.now)).loopTick else s

/-- TICK_BOUNDARY_APPLY (R59): the next boundary, then up to `n` ticks in all. -/
def execTickBoundaryApply (n : Nat) (s : State) : Host.Outcome State Fault Refusal := .next (s.boundary.skipTicks (n - 1))

/-- TXN_APPLY (R390): the boundary that begins the commit tick of a partition's transaction. -/
def execTxnApply (part : Nat) (s : State) : Host.Outcome State Fault Refusal :=
  match s.commTxn part with
  | some t => if !t.applied ∧ t.commit = s.now + 1 then .next s.boundary else .next s
  | none => .next s

/-! ## Reading grid time (R42) -/

/-- TIM_NOW_LO_READ: the short time, with the upper bits latched. -/
def execTimNowLoRead (s : State) : Host.Outcome State Fault Refusal :=
  let g := s.grid
  .next ((s.wr F.TIM_NOW_HI_TICK_HI [] (g / 2 ^ 32)).emit (.regData [BitVec.ofNat 32 g]))

/-! ## The reference (R43-R48) -/

def rDisabled : Nat := 0
def rFree : Nat := 1
def rQualify : Nat := 2
def rPull : Nat := 3
def rLocked : Nat := 4
def rHold : Nat := 5

def State.refState (s : State) : Nat := s.rd F.TIM_REF_STATUS_STATE []

def State.setRefState (s : State) (st : Nat) : State :=
  { s.wr F.TIM_REF_STATUS_STATE [] st with clk := { s.clk with refSince := s.now, refFail := none } }

/-- REFIN_EDGE_SEEN (R44, R46): in FREE_RUN and HOLDOVER an edge begins qualification; PHASE_ERR stays 0
(log 45). -/
def execRefinEdgeSeen (s : State) : Host.Outcome State Fault Refusal :=
  if s.rdB F.TIM_REF_CTRL_REF_EN [] ∧ (s.refState = rFree ∨ s.refState = rHold) then
    .next ({ s with clk := { s.clk with refFrom := s.refState } }.setRefState rQualify)
  else .next s

/-- REFIN's nominal frequency in units of 0.1 Hz, by TIM_REF_CTRL.FREQ. -/
def State.refNominal (s : State) : Nat := if s.rdB F.TIM_REF_CTRL_FREQ [] then 100000000 else 1000000000

/-- A frequency measured against the crystal lies within 20 ppm of the nominal one (R43). -/
def State.refInRange (s : State) (freq : Nat) : Bool :=
  decide (((freq : Int) - s.refNominal).natAbs * 50000 ≤ s.refNominal)

/-- Half a REFIN period in units of 2 ps (R46). -/
def State.refHalf (s : State) : Nat := if s.rdB F.TIM_REF_CTRL_FREQ [] then 25000 else 2500

/-- The phase against the nearest REFIN edge of a phase against any edge (R46). -/
def State.nearestPhase (s : State) (phase : Int) : Int := (phase + s.refHalf) % (2 * s.refHalf : Nat) - s.refHalf

/-- PULL begins with a phase error (R44, R46). The loop brings it within 20 ps no sooner than 50 ppb allow and no later than
half a period takes at 50 ppb, at a free tick between (log 43). -/
def State.beginPull (s : State) (p : Int) : State :=
  let (n, s) := s.draw
  let soonest := (p.natAbs - 10) * 6250
  let latest := if p.natAbs ≤ 10 then 0 else s.refHalf * 6250
  let s := (s.setRefState rPull).wrI F.TIM_REF_STATUS_PHASE_ERR [] p
  let s := { s with clk := { s.clk with
    refPhase := p, refInBand := some (s.now + soonest + Config.freeNat n % (latest - soonest + 1)) } }
  s.loopSteer

/-- QUALIFY_END (R43, R44): REFIN's frequency, measured for 100 ms (15,625,000 ticks) in units of 0.1 Hz, decides. -/
def execQualifyEnd (freq : Nat) (phase : Int) (s : State) : Host.Outcome State Fault Refusal :=
  if s.refState = rQualify ∧ s.clk.refFail.isNone ∧ s.clk.refSince + 15625000 ≤ s.now then
    if s.refInRange freq then .next (s.beginPull (s.nearestPhase phase))
    else
      .next { s.wr F.TIM_REF_STATUS_OUT_OF_RANGE [] 1 with clk := { s.clk with refFail := some s.now } }
  else .next s

/-- PHASE_ERR reads 0 and the crystal age in force is TIM_XTAL_AGE's (R47). -/
def State.refOpen (s : State) (st : Nat) : State :=
  let s := (s.setRefState st).wr F.TIM_REF_STATUS_PHASE_ERR [] 0
  { s with clk := { s.clk with refInBand := none, age := BitVec.ofNat 16 (s.rd F.TIM_XTAL_AGE_AGE []) } }

/-- QUALIFY_RETURN (R44): 1 s after a failed qualification the state is again the one it came from. -/
def execQualifyReturn (s : State) : Host.Outcome State Fault Refusal :=
  match s.clk.refFail with
  | some t => if s.refState = rQualify ∧ t + 156250000 ≤ s.now then .next (s.refOpen s.clk.refFrom) else .next s
  | none => .next s

/-- REF_LOCK (R44): PHASE_ERR has been within 20 ps for 1 s. -/
def execRefLock (s : State) : Host.Outcome State Fault Refusal :=
  match s.clk.refInBand with
  | some t =>
    if s.refState = rPull ∧ t + 156250000 ≤ s.now then
      .next (s.setRefState rLocked)
    else .next s
  | none => .next s

/-- REF_LOSS (R45): four expected edges are missing. -/
def execRefLoss (s : State) : Host.Outcome State Fault Refusal :=
  if s.refState = rLocked ∨ s.refState = rPull then
    let s := (s.refOpen rHold).wr F.TIM_REF_STATUS_LOSS [] 1
    let s := (s.count F.TIM_REF_STATUS_LOSS_COUNT [] 1).wr F.TIM_REF_LOSS_TICK_TICK [] (short s.grid)
    .next (s.note (.spine 1) 1 0)
  else .next s

/-! ## The main PLL (R50-R53) -/

/-- PLL_LOCK: grid time begins at 0; the strobe follows at the next boundary. A relock returns the time service to its
start (14 R321). -/
def execPllLock (s : State) : Host.Outcome State Fault Refusal :=
  if s.boot.started ∧ !s.rdB F.TIM_PLL_STATUS_LOCKED [] then
    let s := { s with clk := { s.clk with off := -(s.now : Int), gridValid := true, strobe := true } }
    let s := s.wr F.TIM_PLL_STATUS_LOCKED [] 1
    .next (s.tsRestart s.ts.epoch)
  else .next s

/-- TILE_TICK_CHECK (R52): every 1,024 ticks of grid time. -/
def execTileTickCheck (tile : Nat) (count : BitVec 16) (s : State) : Host.Outcome State Fault Refusal :=
  if tile < s.variant.tiles ∧ s.grid % 1024 = 0 ∧ s.rdB F.TIM_PLL_STATUS_TILES_ALIGNED [] ∧
      count.toNat ≠ s.grid % 65536 then
    let s := s.wr F.TIM_PLL_STATUS_TILE_TICK_ERR [] (s.rd F.TIM_PLL_STATUS_TILE_TICK_ERR [] ||| 2 ^ tile)
    .next (s.fault (.tile tile 107) 1 0)
  else .next s

/-- PLL_UNLOCK (R53): grid time is undefined until the relock. -/
def execPllUnlock (s : State) : Host.Outcome State Fault Refusal :=
  if s.rdB F.TIM_PLL_STATUS_LOCKED [] then
    let s := { s with clk := { s.clk with gridValid := false, strobe := false } }
    let s := ((s.wr F.TIM_PLL_STATUS_LOCKED [] 0).wr F.TIM_PLL_STATUS_TILES_ALIGNED [] 0).wr F.TIM_PLL_STATUS_UNLOCK [] 1
    .next (s.fault (.spine 1) 0 0)
  else .next s

end Sys2Proof.Machine
end

