-- ==== Sys2Proof/Machine/Parts.lean ====
section
/-! DEFINITION. The commands of partitions, queue pairs, plans and jobs (01 R26; 16 R348-R351, R357, R358, R364, R368), and
those of decision slots and of the syndrome unit (10 R265). -/

namespace Sys2Proof.Machine

/-! ## Partitions (R26, R348) -/

/-- The partition is created. -/
def State.created (s : State) (p : Nat) : Bool := decide (p < 64) && s.partValid p

/-- Quotas of all partitions together. -/
def State.quotaSum (s : State) : Nat :=
  (((List.range 64).filter s.partValid).map (fun p => s.rd F.QMG_PART_QUOTA_QUOTA [p])).sum

/-- PART_CREATE: POLICY 1 is TIMING, 2 CONTINUITY. -/
def execPartCreate (n : Nat) (s : State) : Host.Outcome State Fault Refusal :=
  .next (s.command n 0x40 false (bytesOk 6 []) (fun s r =>
    let p := leAt r.payload 0 1
    let pol := leAt r.payload 1 1
    let q := leAt r.payload 2 4
    if 63 < p ∨ pol = 0 ∨ 2 < pol ∨ s.partValid p then s.deny n 0x0501 whole
    else if s.rd F.QMG_STAGE_POOL_POOL [] < s.quotaSum + q then s.deny n 0x010B whole
    else
      let s := (s.wr F.QMG_PART_CFG_VALID [p] 1).wr F.QMG_PART_CFG_POLICY [p] (pol - 1)
      (s.wr F.QMG_PART_QUOTA_QUOTA [p] q).ok n []))

/-- The open streams of a partition show its policy (06 R162, 01 R27). -/
def State.streamPolicy (s : State) (p pol : Nat) : State :=
  (s.tilesBy 64).foldl (fun s e =>
    if s.strmState e.1 e.2 ≠ kClosed ∧ s.rd F.TIL_STRM_STATUS_PART [e.1, e.2] = p then
      s.wr F.TIL_STRM_STATUS_POLICY [e.1, e.2] pol
    else s) s

/-- PART_POLICY: only while the partition is IDLE. -/
def execPartPolicy (n : Nat) (s : State) : Host.Outcome State Fault Refusal :=
  .next (s.command n 0x42 false (bytesOk 2 []) (fun s r =>
    let p := leAt r.payload 0 1
    let pol := leAt r.payload 1 1
    if !s.created p ∨ pol = 0 ∨ 2 < pol ∨ s.partBusy p then s.deny n 0x0501 whole
    else ((s.wr F.QMG_PART_CFG_POLICY [p] (pol - 1)).streamPolicy p (pol - 1)).ok n []))

/-- A classical slot is released: an import map entry that writes it goes with it. -/
def State.releaseSlot (s : State) (slot : Nat) : State :=
  let s := s.setSlotUser slot .none
  let imports := s.dec.imports.map (fun (e : Nat × List (Nat × Nat)) => (e.1, e.2.filter (fun m => decide (m.2 ≠ slot))))
  let s := { s with dec := { s.dec with imports := imports.filter (fun e => !e.2.isEmpty) } }
  (List.range 4).foldl (fun s p => s.wr F.SPN_DEC_PORT_IMPORTS [p] (SMap.get [] s.dec.imports p).length) s

/-- Shows a decoder's setting in its registers. -/
def State.showDecoder (s : State) (d mode k part port deadline : Nat) : State :=
  let s := (s.wr F.SPN_SYN_DEC_CFG_MODE [d] mode).wr F.SPN_SYN_DEC_CFG_K [d] k
  let s := (s.wr F.SPN_SYN_DEC_CFG_PART [d] part).wr F.SPN_SYN_DEC_CFG_PORT [d] port
  (s.wr F.SPN_SYN_DEC_DEADLINE_DEADLINE [d] deadline).wr F.SPN_SYN_DEC_STATE_OUTSTANDING [d] 0

/-- The firings of some groups are cleared for a decoder. -/
def State.clearFirings (s : State) (d : Nat) (gs : List Nat) : State :=
  gs.foldl (fun (s : State) g =>
    s.putGroup g { s.group g with waiting := (s.group g).waiting.filter (fun e => decide (e ≠ d)) }) s

/-- A decoder is OFF with no partition, its outputs invalid. -/
def State.dropDecoder (s : State) (d : Nat) : State :=
  let gs := (s.decGroups d).dedup
  let s := ((s.setDecoder d .idle).showDecoder d 0 0 0 0 0).clearFirings d gs
  (decOutputs d).foldl (fun s o => s.hubUpdate hub (invalOf o s.grid)) s

/-- The decoder belongs to a partition. -/
def State.decOf (s : State) (d p : Nat) : Bool := (s.decoder d).owned && decide (s.rd F.SPN_SYN_DEC_CFG_PART [d] = p)

/-- Every record that names a partition goes. -/
def State.releasePart (s : State) (p : Nat) : State :=
  let s := s.setPart p .idle
  let regions := (s.tilesBy 9).flatMap (fun (e : Nat × Nat) => (List.range 16).map (fun r => [e.1, e.2, r]))
  let s := regions.foldl (fun (s : State) ix =>
    if s.rdB F.CLU_REGION_VALID ix && decide (s.rd F.CLU_REGION_PART ix = p) then s.wr F.CLU_REGION_VALID ix 0 else s) s
  let s := { s with qm := { s.qm with plans := s.qm.plans.filter (fun e => decide (e.2.part ≠ p)) } }
  let s := ((List.range 4).filter (fun d => s.decOf d p)).foldl State.dropDecoder s
  let slots := (List.range 64).map (fun i => 960 + i)
  let s := (slots.filter (fun i => decide (s.userPart i = some p))).foldl State.releaseSlot s
  let s := (s.tilesBy 64).foldl (fun (s : State) (e : Nat × Nat) =>
    if s.strmState e.1 e.2 ≠ kClosed ∧ s.rd F.TIL_STRM_STATUS_PART [e.1, e.2] = p then s.strmClose e.1 e.2 else s) s
  s.setOpen p none

/-- PART_DESTROY. -/
def execPartDestroy (n : Nat) (s : State) : Host.Outcome State Fault Refusal :=
  .next (s.command n 0x41 false (bytesOk 1 []) (fun s r =>
    let p := leAt r.payload 0 1
    if !s.created p then s.deny n 0x0501 whole
    else if s.partBusy p ∨ s.rd F.QMG_PART_CFG_QUEUES [p] ≠ 0 ∨ (s.commTxn p).isSome then s.deny n 0x0502 whole
    else
      let s := (s.releasePart p).setRegWord R.QMG_PART_CFG [p] 0 0
      (s.wr F.QMG_PART_QUOTA_QUOTA [p] 0).ok n []))

/-! ## PART_ASSIGN (R349) -/

/-- Units of a kind in the largest variant, and of one tile. -/
def assignCount (kind : Nat) : Nat :=
  match kind with
  | 1 => 448 | 2 => 56 | 3 => 504 | 4 => 224
  | _ => 0

def State.unitOwner (s : State) (kind i : Nat) : Option Nat :=
  match kind with
  | 1 => s.chanOwner i
  | 2 => s.lineOwner i
  | 3 => s.thrOwner i
  | _ => s.genOwner i

/-- The units of a kind of a partition. -/
def Part.units (p : Part) (kind : Nat) (f : List Nat → List Nat) : Part :=
  match kind with
  | 1 => { p with chans := f p.chans }
  | 2 => { p with lines := f p.lines }
  | 3 => { p with thrs := f p.thrs }
  | _ => { p with gens := f p.gens }

/-- PART_ASSIGN. -/
def execPartAssign (n : Nat) (s : State) : Host.Outcome State Fault Refusal :=
  .next (s.command n 0x43 false (bytesOk 7 []) (fun s r =>
    let p := leAt r.payload 0 1
    let kind := leAt r.payload 1 1
    let op := leAt r.payload 2 1
    let first := leAt r.payload 3 2
    let cnt := leAt r.payload 5 2
    let us := (List.range cnt).map (fun i => first + i)
    let tile := fun (i : Nat) => i / (assignCount kind / 7)
    let foreign := fun (i : Nat) => match s.unitOwner kind i with
      | some q => decide (q ≠ p)
      | none => false
    if !s.created p ∨ assignCount kind = 0 ∨ 1 < op ∨ cnt = 0 ∨ assignCount kind < first + cnt then s.deny n 0x0501 whole
    else if s.partBusy p || us.any (fun i => s.ownerBusy (s.unitOwner kind i)) then s.deny n 0x0502 whole
    else
      match us.findIdx? foreign, us.findIdx? (fun i => decide (s.variant.tiles ≤ tile i)) with
      | some i, _ => s.deny n 0x010A i
      | none, some i => s.deny n 0x0102 i
      | none, none =>
        let change := fun (l : List Nat) =>
          let rest := l.filter (fun i => !us.contains i)
          if op = 0 then rest ++ us else rest
        (s.setPart p ((s.part p).units kind change)).ok n []))

/-! ## Queue pairs (R351) -/

/-- A ring: its length a power of two from 16 to 4,096, its address a multiple of its size. -/
def ringOk (len addr entry : Nat) : Bool :=
  [16, 32, 64, 128, 256, 512, 1024, 2048, 4096].contains len && decide (addr % (entry * len) = 0)

/-- Heads and tails at 0, phase 1. -/
def State.pairStart (s : State) (q : Nat) : State :=
  ((s.wr F.QMG_QP_SQ_HEAD [q] 0).wr F.QMG_QP_CQ_TAIL [q] 0).wr F.QMG_QP_CQ_FULL [q] 0 |>.wr F.QMG_QP_PHASE [q] 1

/-- QP_CREATE. -/
def execQpCreate (n : Nat) (s : State) : Host.Outcome State Fault Refusal :=
  .next (s.command n 0x44 false (bytesOk 25 []) (fun s r =>
    let b := r.payload
    let q := leAt b 0 2
    let p := leAt b 2 1
    let sq := leAt b 3 8
    let cq := leAt b 11 8
    let sl := leAt b 19 2
    let cl := leAt b 21 2
    let v := leAt b 23 2
    if 4095 < q || !s.created p || s.rdB F.QMG_QP_VALID [q] || !ringOk sl sq 64 || !ringOk cl cq 32 || decide (v < 1024) ||
        decide (2047 < v) then s.deny n 0x0501 whole
    else
      let s := s.setQp q { sqAddr := sq, cqAddr := cq, sqLen := sl, cqLen := cl, sqTail := 0, cqHead := 0, done := [] }
      let s := (s.wr F.QMG_QP_VALID [q] 1).pairStart q
      let s := (s.wr F.QMG_QP_CFG_PART [q] p).wr F.QMG_QP_CFG_VECTOR [q] v
      (s.wr F.QMG_PART_CFG_QUEUES [p] (s.rd F.QMG_PART_CFG_QUEUES [p] + 1)).ok n []))

/-- QP_DELETE: refused entries whose completions wait go with the pair. -/
def execQpDelete (n : Nat) (s : State) : Host.Outcome State Fault Refusal :=
  .next (s.command n 0x45 false (bytesOk 2 []) (fun s r =>
    let q := leAt r.payload 0 2
    let p := s.rd F.QMG_QP_CFG_PART [q]
    if 4095 < q || !s.rdB F.QMG_QP_VALID [q] then s.deny n 0x0501 whole
    else if s.qm.jobs.any (fun e => decide (e.2.qp = q)) then s.deny n 0x0502 whole
    else
      let s := (((s.setQp q .idle).wr F.QMG_QP_VALID [q] 0).pairStart q).setRegWord R.QMG_QP_CFG [q] 0 0
      (s.wr F.QMG_PART_CFG_QUEUES [p] (s.rd F.QMG_PART_CFG_QUEUES [p] - 1)).ok n []))

/-! ## Plans (R357, R358) -/

/-- The thread records, PUB list and streams of a plan in device memory. -/
def planThr (b : List Byte) (i : Nat) : PlanThr :=
  let o := 0x20 + 16 * i
  { tile := leAt b o 1, cluster := leAt b (o + 1) 1, thr := leAt b (o + 2) 1, region := leAt b (o + 3) 1,
    entries := (List.range 4).map (fun k => BitVec.ofNat 16 (leAt b (o + 4 + 2 * k) 2)),
    bars := BitVec.ofNat 32 (leAt b (o + 12) 4) }

def planOf (part : Nat) (b : List Byte) : Plan :=
  let nt := leAt b 4 2
  let np := leAt b 6 1
  let ns := leAt b 7 1
  let o := 0x20 + 16 * nt
  { part := part, threads := (List.range nt).map (planThr b),
    pubs := (List.range np).map (fun i => (leAt b (o + 4 * i) 1, leAt b (o + 4 * i + 2) 2)),
    strms := (List.range ns).map (fun i => (leAt b (o + 4 * np + 2 * i) 1, leAt b (o + 4 * np + 2 * i + 1) 1)),
    bars := BitVec.ofNat 32 (leAt b 8 4), resPerShot := leAt b 0x0C 4, shotLen := leAt b 0x10 4, lines := [], gens := [],
    brdSlots := [] }

/-- MAGIC, the counts, every index and the barriers of a plan are right. -/
def planOk (b : List Byte) (p : Plan) : Bool :=
  let nt := leAt b 4 2
  let np := leAt b 6 1
  let ns := leAt b 7 1
  decide (0x20 ≤ b.length) && decide (leAt b 0 4 = 0x4E414C50) && decide (1 ≤ nt) && decide (nt ≤ 504) && decide (np ≤ 64) &&
    decide (ns ≤ 64) && decide (0x20 + 16 * nt + 4 * np + 2 * ns ≤ b.length) &&
    p.threads.all (fun t => decide (t.tile < 7) && decide (t.cluster < 9) && decide (t.thr < 8) && decide (t.region < 16)) &&
    decide (p.threads.map PlanThr.gid).Nodup && p.pubs.all (fun e => decide (e.1 < 64) && decide (e.2 < nt)) &&
    decide (p.pubs.map Prod.fst).Nodup && p.strms.all (fun e => decide (e.1 < 7) && decide (e.2 < 64)) &&
    decide (p.threads.foldl (fun (m : Word) t => m ||| t.bars) 0 = p.bars)

/-- The region of a thread is VALID and holds its entries. -/
def State.entriesOk (s : State) (t : PlanThr) : Bool :=
  let ix := [t.tile, t.cluster, t.region]
  s.rdB F.CLU_REGION_VALID ix && t.entries.all (fun e =>
    decide (s.rd F.CLU_REGION_BASE ix ≤ e.toNat) && decide (e.toNat ≤ s.rd F.CLU_REGION_LAST ix))

/-- A job in flight uses the plan. -/
def State.planHeld (s : State) (n : Nat) : Bool := s.qm.jobs.any (fun e => decide (e.2.kind = 1) && decide (e.2.plan = n))

/-- The checks of R357 beyond the plan's own fields, with the index of the failing item. -/
def State.planReason (s : State) (p : Plan) : Option (Nat × Nat) :=
  let absent := fun (t : Nat) => decide (s.variant.tiles ≤ t)
  let named := fun (r : Nat) (i : Option Nat) => i.map (fun i => (r, i))
  (named 0x0102 (p.threads.findIdx? (fun t => absent t.tile))).or
  ((named 0x0102 (p.strms.findIdx? (fun e => absent e.1))).or
  ((named 0x0503 (p.threads.findIdx? (fun t => !s.entriesOk t))).or
  ((named 0x010A (p.threads.findIdx? (fun t =>
    decide (s.thrOwner t.gid ≠ some p.part) || decide (s.rd F.CLU_REGION_PART [t.tile, t.cluster, t.region] ≠ p.part)))).or
  ((named 0x010A (p.strms.findIdx? (fun e =>
    decide (s.strmState e.1 e.2 = kClosed) || decide (s.rd F.TIL_STRM_STATUS_PART [e.1, e.2] ≠ p.part)))).or
  (named 0x0109 (p.pubs.findIdx? (fun e =>
    match s.slotUser (960 + e.1) with
    | .imp _ _ | .software _ => true
    | _ => false)))))))

/-- PLAN_LOAD: the plan and the resources that its regions name. -/
def execPlanLoad (n : Nat) (s : State) : Host.Outcome State Fault Refusal :=
  .next (s.command n 0x46 false (bytesOk 15 []) (fun s r =>
    let num := leAt r.payload 0 2
    let part := leAt r.payload 2 1
    let src := leAt r.payload 3 8
    let len := leAt r.payload 11 4
    if 1023 < num ∨ !s.created part then s.deny n 0x0501 whole
    else if !s.srcOk src len then s.deny n 0x0B02 whole
    else if s.planHeld num then s.deny n 0x0502 whole
    else
      let b := s.memRead src len
      let p := planOf part b
      if !planOk b p then s.deny n 0x0501 whole
      else
        match s.planReason p with
        | some (x, d) => s.deny n x d
        | none =>
          let p := s.scanPlan p
          (s.setPlan num p).ok n (leBytes 1 p.lines.length ++ leBytes 1 p.gens.length ++ leBytes 2 p.brdSlots.length)))

/-- PLAN_DROP: a number without a plan is answered OK. -/
def execPlanDrop (n : Nat) (s : State) : Host.Outcome State Fault Refusal :=
  .next (s.command n 0x47 false (bytesOk 2 []) (fun s r =>
    let num := leAt r.payload 0 2
    if 1023 < num then s.deny n 0x0501 whole
    else if s.planHeld num then s.deny n 0x0502 whole
    else (s.setPlan num .idle).ok n []))

/-- JOB_ABORT (R364): the jobs end at the next tick boundary. -/
def execJobAbort (n : Nat) (s : State) : Host.Outcome State Fault Refusal :=
  .next (s.command n 0x48 false (bytesOk 6 []) (fun s r =>
    let q := leAt r.payload 0 2
    let tag : Word := BitVec.ofNat 32 (leAt r.payload 2 4)
    let js := s.jobsWhere (fun _ b => decide (b.qp = q) && decide (b.tag = tag))
    if js.isEmpty then s.deny n 0x0501 whole
    else
      let s := js.foldl (fun (s : State) j => (s.updJob j (fun b => { b with abort := true })).stage (.jobAbort j) false) s
      s.ok n []))

/-! ## Decision slots (10 R265) -/

/-- The partition is busy. -/
def State.concerned (s : State) (ps : List (Option Nat)) : Bool := ps.any s.ownerBusy

/-- A slot of an absent tile. -/
def State.slotAbsent (s : State) (slot : Nat) : Bool := decide (slot < 896) && decide (s.variant.tiles ≤ slot / 128)

/-- The slots of a list of `c` slots at a byte. -/
def slotList (b : List Byte) (i c : Nat) : List Nat := (List.range c).map (fun k => leAt b (i + 2 * k) 2)

/-- DEC_SLOT_ASSIGN: KIND 0 releases, 2 is an import, 3 software's. -/
def execDecSlotAssign (n : Nat) (s : State) : Host.Outcome State Fault Refusal :=
  .next (s.command n 0x50 false (bytesOk 5 []) (fun s r =>
    let slot := leAt r.payload 0 2
    let kind := leAt r.payload 2 1
    let p := leAt r.payload 3 1
    let port := leAt r.payload 4 1
    let known := decide (kind = 0) || ((decide (kind = 2) || decide (kind = 3)) && s.created p)
    if slot < 960 ∨ 1023 < slot ∨ !known ∨ 3 < port then s.deny n 0x0501 whole
    else if kind = 0 then
      match s.slotUser slot with
      | .pub _ _ => s.deny n 0x0109 whole
      | _ => (s.releaseSlot slot).ok n []
    else if s.partBusy p then s.deny n 0x0502 whole
    else if s.slotUser slot ≠ .none then s.deny n 0x0109 whole
    else (s.setSlotUser slot (if kind = 2 then .imp port p else .software p)).ok n []))

/-- The layout of a port's list: its COUNT fits its length. -/
def listOk (size : Nat) (b : List Byte) : Bool := decide (2 ≤ b.length) && decide (b.length = 2 + size * leAt b 1 1)

/-- DEC_EXPORT_SET. -/
def execDecExportSet (n : Nat) (s : State) : Host.Outcome State Fault Refusal :=
  .next (s.command n 0x51 false (listOk 2) (fun s r =>
    let port := leAt r.payload 0 1
    let slots := slotList r.payload 2 (leAt r.payload 1 1)
    if 3 < port ∨ 64 < slots.length ∨ slots.any (fun i => decide (1023 < i)) then s.deny n 0x0501 whole
    else
      match slots.findIdx? s.slotAbsent with
      | some i => s.deny n 0x0102 i
      | none =>
        if s.concerned ((SMap.get [] s.dec.exports port ++ slots).map s.slotOwner) then s.deny n 0x0502 whole
        else
          let s := { s with dec := { s.dec with exports := SMap.put [] s.dec.exports port slots.dedup } }
          (s.wr F.SPN_DEC_PORT_EXPORTS [port] slots.dedup.length).ok n []))

/-- A LOCAL slot is assigned as an import for the port. -/
def State.importOf (s : State) (port slot : Nat) : Bool :=
  match s.slotUser slot with
  | .imp q _ => decide (q = port)
  | _ => false

/-- DEC_IMPORT_SET. -/
def execDecImportSet (n : Nat) (s : State) : Host.Outcome State Fault Refusal :=
  .next (s.command n 0x52 false (listOk 4) (fun s r =>
    let port := leAt r.payload 0 1
    let es := (List.range (leAt r.payload 1 1)).map (fun i => (leAt r.payload (2 + 4 * i) 2, leAt r.payload (4 + 4 * i) 2))
    let bad := fun (e : Nat × Nat) => decide (1023 < e.1) || decide (e.2 < 960) || decide (1023 < e.2)
    let old := SMap.get [] s.dec.imports port
    if 3 < port ∨ 64 < es.length ∨ es.any bad then s.deny n 0x0501 whole
    else if s.concerned ((old ++ es).map (fun e => s.userPart e.2)) then s.deny n 0x0502 whole
    else
      match es.findIdx? (fun e => !s.importOf port e.2) with
      | some i => s.deny n 0x0109 i
      | none =>
        if !s.sameDomain port then s.deny n 0x0202 whole
        else
          let s := { s with dec := { s.dec with imports := SMap.put [] s.dec.imports port es } }
          (s.wr F.SPN_DEC_PORT_IMPORTS [port] es.length).ok n (leBytes 1 es.length)))

/-! ## Groups and decoders (10 R265) -/

/-- SYND_GROUP_SET. -/
def execSyndGroupSet (n : Nat) (s : State) : Host.Outcome State Fault Refusal :=
  .next (s.command n 0x53 false
    (fun b => decide (3 ≤ b.length) && decide (b.length = 3 + 2 * leAt b 2 1)) (fun s r =>
    let g := leAt r.payload 0 1
    let fl := leAt r.payload 1 1
    let slots := slotList r.payload 3 (leAt r.payload 2 1)
    let users := s.groupUsers g
    let parts := users.map (fun d => some (s.rd F.SPN_SYN_DEC_CFG_PART [d]))
    let foreign := fun (i : Nat) => parts.any (fun p => decide (s.slotOwner i ≠ p))
    if slots.isEmpty ∨ 64 < slots.length ∨ 3 < fl then s.deny n 0x0501 whole
    else
      match slots.findIdx? (fun i => decide (1023 < i) || (decide (896 ≤ i) && decide (i < 960))) with
      | some i => s.deny n 0x0501 i
      | none =>
        match slots.findIdx? s.slotAbsent with
        | some i => s.deny n 0x0102 i
        | none =>
          if s.concerned (((s.group g).members ++ slots).map s.slotOwner ++ parts) then s.deny n 0x0502 whole
          else
            match slots.findIdx? foreign with
            | some i => s.deny n 0x010A i
            | none =>
              let ms := slots.dedup
              let s := s.putGroup g { Group.idle with members := ms, map := bit fl 0, inv := bit fl 1 }
              let s := (s.wr F.SPN_SYN_GRP_CFG_COUNT [g] ms.length).wrB F.SPN_SYN_GRP_CFG_MAP [g] (bit fl 0)
              (s.wrB F.SPN_SYN_GRP_CFG_INV [g] (bit fl 1)).ok n []))

/-- The request of SYND_DECODER_SET. -/
structure DecAsk where
  dec      : Nat
  mode     : Nat
  part     : Nat
  k        : Nat
  base     : Nat
  port     : Nat
  deadline : Nat
  groups   : List Nat
  mask     : Nat
  deriving DecidableEq, Repr

def decAsk (b : List Byte) : DecAsk :=
  { dec := leAt b 0 1, mode := leAt b 1 1, part := leAt b 2 1, k := leAt b 3 1, base := leAt b 4 4, port := leAt b 8 1,
    deadline := leAt b 9 2, groups := (List.range 18).map (fun i => leAt b (11 + i) 1), mask := leAt b 29 32 }

/-- Its fields are in range, those that the mode does not use are 0, and the table region fits. -/
def DecAsk.fieldsOk (a : DecAsk) : Bool :=
  let table := decide (a.mode = 1)
  let ext := decide (a.mode = 3)
  let lookup := table || decide (a.mode = 2)
  decide (a.dec < 4) && decide (a.mode < 4) &&
    (if lookup then decide (1 ≤ a.k) && decide (a.k ≤ if table then 18 else 16) else decide (a.k = 0)) &&
    (a.groups.drop a.k).all (fun g => decide (g = 0)) &&
    (if table then baseOk a.base a.k else decide (a.base = 0)) &&
    (if ext then decide (a.port < 4) && decide (1 ≤ a.deadline) && decide (a.mask ≠ 0)
     else decide (a.port = 0) && decide (a.deadline = 0) && decide (a.mask = 0))

/-- The groups it names. -/
def DecAsk.used (a : DecAsk) : List Nat :=
  if a.mode = 3 then (List.range 256).filter (bit a.mask) else a.groups.take a.k

/-- A member of a group, or the decoder itself, belongs to another partition than the request's. -/
def State.decForeign (s : State) (a : DecAsk) : Bool :=
  a.used.any (fun g => (s.group g).members.any (fun i => decide (s.slotOwner i ≠ some a.part))) ||
    ((s.decoder a.dec).owned && !s.decOf a.dec a.part)

/-- A decoder takes its setting; the firings of the groups it used and of those it uses are cleared, for it. -/
def State.putDecoder (s : State) (a : DecAsk) : State :=
  let old := s.decGroups a.dec
  let gs := if a.mode = 3 then [] else a.groups.take a.k
  let ms := if a.mode = 3 then a.used else []
  let s := s.setDecoder a.dec { owned := decide (a.mode ≠ 0), groups := gs, mask := ms, rounds := [], out := [] }
  let s := s.showDecoder a.dec a.mode a.k a.part a.port a.deadline
  let s := s.wr F.SPN_SYN_DEC_BASE_BASE [a.dec] a.base
  let s := { s with staged := s.staged.filter (fun e => match e.act with | .synBase d _ => decide (d ≠ a.dec) | _ => true) }
  s.clearFirings a.dec (old ++ a.used).dedup

/-- SYND_DECODER_SET. -/
def execSyndDecoderSet (n : Nat) (s : State) : Host.Outcome State Fault Refusal :=
  .next (s.command n 0x54 false (bytesOk 61 []) (fun s r =>
    let a := decAsk r.payload
    let now := if (s.decoder a.dec).owned then some (s.rd F.SPN_SYN_DEC_CFG_PART [a.dec]) else none
    if !a.fieldsOk ∨ !s.created a.part then s.deny n 0x0501 whole
    else if s.concerned [some a.part, now] then s.deny n 0x0502 whole
    else if s.decForeign a then s.deny n 0x010A whole
    else (s.putDecoder a).ok n []))

/-- The SYND_DECODER_SET request in force. -/
def State.decBytes (s : State) (d : Nat) : List Byte :=
  let v := s.decoder d
  let mask := v.mask.foldl (fun m g => m ||| 2 ^ g) 0
  leBytes 1 d ++ leBytes 1 (s.decMode d) ++ leBytes 1 (s.rd F.SPN_SYN_DEC_CFG_PART [d]) ++
    leBytes 1 (s.rd F.SPN_SYN_DEC_CFG_K [d]) ++ leBytes 4 (if s.decMode d = 1 then s.rd F.SPN_SYN_DEC_BASE_BASE [d] else 0) ++
    leBytes 1 (s.rd F.SPN_SYN_DEC_CFG_PORT [d]) ++ leBytes 2 (s.rd F.SPN_SYN_DEC_DEADLINE_DEADLINE [d]) ++
    ((v.groups ++ List.replicate 18 0).take 18).flatMap (leBytes 1) ++ leBytes 32 mask

/-- The SYND_GROUP_SET request of a group in force. -/
def State.groupBytes (s : State) (g : Nat) : List Byte :=
  let v := s.group g
  leBytes 1 g ++ leBytes 1 ((if v.map then 1 else 0) + if v.inv then 2 else 0) ++ leBytes 1 v.members.length ++
    v.members.flatMap (leBytes 2)

/-- SYND_READ. -/
def execSyndRead (n : Nat) (s : State) : Host.Outcome State Fault Refusal :=
  .next (s.command n 0x55 false (bytesOk 1 []) (fun s r =>
    let d := leAt r.payload 0 1
    if 3 < d then s.deny n 0x0501 whole
    else s.ok n (s.decBytes d ++ (s.decGroups d).dedup.flatMap s.groupBytes)))

end Sys2Proof.Machine
end

