-- ==== Sys2Proof/Machine/TimeCal.lean ====
section
/-! DEFINITION. The commands of the time service (14 R312, R323, R327) and of calibration (19 R422-R425, R429, R430), and
the final response of the commands that answer IN_PROGRESS (17 R373). -/

namespace Sys2Proof.Machine

/-! ## Time service -/

/-- The fields of a TIME_CONFIG. -/
structure TimeAsk where
  role    : Nat
  domain  : Nat
  master  : Nat
  up      : Nat
  down    : Nat
  period  : Nat
  syncOut : Nat
  epoch   : Nat
  deriving DecidableEq, Repr

def timeAsk (p : List Byte) : TimeAsk :=
  ⟨leAt p 0 1, leAt p 1 4, leAt p 5 4, leAt p 9 1, leAt p 10 1, leAt p 11 1, leAt p 12 1, leAt p 13 8⟩

/-- The command names the role, the domain and, of a master, the epoch that are in force. -/
def State.sameTime (s : State) (a : TimeAsk) : Bool :=
  decide (s.tsRole = a.role) && decide (s.rd F.TIM_TS_DOMAIN_DOMAIN [] = a.domain) &&
    (decide (a.role ≠ roleMaster) || decide (s.ts.epoch = a.epoch))

/-- Why a TIME_CONFIG is refused; 0 when it is not. -/
def State.timeReason (s : State) (a : TimeAsk) : Nat :=
  if s.mode ≠ mIdle then 0x0502
  else if 2 < a.role ∨ 3 < a.up ∨ 15 < a.down ∨ a.period < 10 ∨ 20 < a.period ∨ 1 < a.syncOut ∨ bit a.down a.up then 0x0501
  else if s.rdB F.TIM_TS_STATUS_STEPPED [] && !s.sameTime a then 0x0203
  else 0

/-- Writes the configuration. -/
def State.writeTime (s : State) (a : TimeAsk) : State :=
  let s := (s.wr F.TIM_TS_CFG_ROLE [] a.role).wr F.TIM_TS_CFG_UPSTREAM [] a.up
  let s := (s.wr F.TIM_TS_CFG_DOWNSTREAM [] a.down).wr F.TIM_TS_CFG_PERIOD [] a.period
  let s := (s.wr F.TIM_TS_CFG_SYNC_OUT [] a.syncOut).wr F.TIM_TS_DOMAIN_DOMAIN [] a.domain
  s.wr F.TIM_TS_MASTER_MASTER_ID [] a.master

/-- TIME_CONFIG: the service starts anew unless it has stepped and the command changes neither role, domain nor epoch. -/
def execTimeConfig (n : Nat) (s : State) : Host.Outcome State Fault Refusal :=
  .next (s.command n 0x60 false (bytesOk 21 []) (fun s r =>
    let a := timeAsk r.payload
    if s.timeReason a ≠ 0 then s.deny n (s.timeReason a) whole
    else
      let keep := s.rdB F.TIM_TS_STATUS_STEPPED []
      let s := s.writeTime a
      if keep then s.syncInDomain.ok n []
      else ((s.wr F.TIM_TS_STATUS_HOPS [] 0).tsRestart a.epoch).ok n []))

/-- TIME_REINIT. -/
def execTimeReinit (n : Nat) (s : State) : Host.Outcome State Fault Refusal :=
  .next (s.command n 0x61 false (bytesOk 8 []) (fun s r =>
    if s.mode ≠ mIdle then s.deny n 0x0502 whole else (s.tsRestart (leAt r.payload 0 8)).ok n []))

/-- A SYNC pair has arrived within 10 ms. -/
def State.pairFresh (s : State) : Bool :=
  match s.ts.lastPair with
  | some t => decide (s.now ≤ t + 1562500)
  | none => false

/-- SYNC_CAL (R323). One that comes while another averages waits for it (17 R376). -/
def execSyncCal (n : Nat) (s : State) : Host.Outcome State Fault Refusal :=
  if s.ts.cal.isSome then .next s
  else .next (s.command n 0x62 false (bytesOk 0 []) (fun s _ =>
    if 0 < s.rd F.TDC_IN_CFG_FILT [8] then s.deny n 0x0204 whole
    else if s.tsState ≠ tsLocked || !s.pairFresh then s.deny n 0x0205 whole
    else (s.setTs { s.ts with cal := some (n, 0, 0, s.lowLane s.tsUp) }).progress n))

/-! ## Calibration -/

/-- CAL_RUN. -/
def execCalRun (n : Nat) (s : State) : Host.Outcome State Fault Refusal :=
  .next (s.command n 0x70 false (fun p => bytesOk 44 (3 :: (List.range 34).map (· + 10)) p && decide (leAt p 1 1 < 8) &&
      decide (leAt p 2 1 < 2)) (fun s r =>
    let a := calAsk r.payload 0
    if s.calRefusal a false ≠ 0 then s.deny n (s.calRefusal a false) whole
    else (s.beginCal a (some n) none).progress n))

/-- A CAL_RUN ends once nothing of its request is left (R425). -/
def State.endCalRun (s : State) (n : Nat) : State :=
  match s.cal.reqs.find? (fun r => decide (r.mbx = some n)) with
  | some r =>
    if r.todo.isEmpty then
      let s := { s with cal := { s.cal with reqs := s.cal.reqs.filter (fun q => decide (q.mbx ≠ some n)) } }
      let s := if r.scope = 1 then s.wr F.SPN_CAL_STATUS_FOREGROUND [] 0 else s
      let body := leBytes 2 r.done ++ leBytes 2 r.failed ++ leBytes 2 r.firstFail ++ leBytes 2 0
      if r.failed = 0 then s.ok n body else s.respond n stFailed r.reason r.firstFail 0 body
    else s
  | none => s

/-- Why a CAL_REF_DECLARE is refused; 0 when it is not. -/
def State.refReason (s : State) (value : Nat) : Nat :=
  if value < 1000000 ∨ 5000000 < value then 0x0603
  else if !s.allIdle then 0x0502
  else if s.mode ≠ mIdle ∧ s.mode ≠ mSafe then 0x0504
  else 0

/-- CAL_REF_DECLARE (R430). One that comes while another measures waits for it (17 R376). -/
def execCalRefDeclare (n : Nat) (s : State) : Host.Outcome State Fault Refusal :=
  if s.cal.refReq.isSome then .next s
  else .next (s.command n 0x71 false (bytesOk 8 []) (fun s r =>
    let value := leAt r.payload 0 4
    if s.refReason value ≠ 0 then s.deny n (s.refReason value) whole
    else ({ s with cal := { s.cal with refReq := some (n, value, leAt r.payload 4 4) } }).progress n))

/-- A measurement deviates from the declared value by more than 10,000 ppm. -/
def refFar (value : Nat) (m : Int) : Bool := decide ((value : Int) * 10000 < |m - value| * 1000000)

/-- The transfer ends (R429, R430), and is in force from the next boundary: one measurement of the spine's ADC and one of each present tile's. MEASURED combines
them by no stated rule: a free value (log 1). -/
def State.endRefDeclare (s : State) (n : Nat) (measured : List Int) : State :=
  match s.cal.refReq with
  | some (_, value, unc) =>
    if measured.length ≠ s.variant.tiles + 1 then s
    else if measured.any (refFar value) then ({ s with cal := { s.cal with refReq := none } }).deny n 0x0603 whole
    else
      let s := { s with cal := { s.cal with refReq := none, refDue := some ⟨value, unc, measured⟩ } }
      let (k, s) := s.draw
      let m := Config.freeNat k % 2 ^ 32
      s.ok n (leBytes 4 m ++ leBytes 4 (unsigned 32 (roundDiv (((m : Int) - value) * 1000000) value)))
  | none => s

/-- CAL_STATUS (R425). TDC inputs calibrate by rotation and are never stale (R410). -/
def execCalStatus (n : Nat) (s : State) : Host.Outcome State Fault Refusal :=
  .next (s.command n 0x72 false (bytesOk 4 []) (fun s r =>
    let u := unitOfWord (leAt r.payload 0 4)
    let x := if converterKind u.kind then s.unitReason u else 0x0501
    if x ≠ 0 then s.deny n x whole
    else
      let k := s.calU u
      let flag := fun (b : Bool) => leBytes 1 (if b then 1 else 0)
      s.ok n (flag (s.calValid u || decide (u.kind = 13)) ++ flag k.due.isSome ++ flag k.stale ++ leBytes 1 k.source ++
        leBytes 4 (s.opSec - k.opsec) ++ leBytes 2 (unsigned 16 k.temp) ++ leBytes 2 0)))

/-! ## Final responses (17 R373) -/

/-- What ends the command that mailbox `n` works at. Commands that end by an event of their own are left alone. -/
def State.finish (s : State) (n : Nat) (o : FinalObs) : State :=
  let r := (s.mbx n).req
  match r.opcode with
  | 0x23 => s.endUnfence n (unitOfWord (leAt r.payload 0 4)) o.ok
  | 0x30 => s.loadProgram n (progAsk r.payload)
  | 0x31 => s.endStage n true r.payload o.ok
  | 0x32 => s.endStage n false r.payload o.ok
  | 0x70 => s.endCalRun n
  | 0x71 => s.endRefDeclare n o.measured
  | 0x80 => s.endCopy n true (copyAsk true r.payload) o
  | 0x81 => s.endCopy n false (copyAsk false r.payload) o
  | 0x90 => s.endFwStage n o.ok
  | 0x91 => s.endFwActivate n o.ok
  | _ => s

/-- COMMAND_FINAL_RESPONSE. -/
def execCommandFinalResponse (n : Nat) (obs : FinalObs) (s : State) : Host.Outcome State Fault Refusal :=
  if n < 64 ∧ s.mbxState n = mBusy ∧ (s.mbx n).inProg then .next (s.finish n obs) else .next s

end Sys2Proof.Machine
end

