-- ==== Sys2Proof/Machine/Dispatch.lean ====
section
/-! DEFINITION. One arm per command of the table: its meaning. -/

namespace Sys2Proof.Machine

def exec (i : Instr) (s : State) : Host.Outcome State Fault Refusal :=
  match i with
  | .regWrite addr len value => Sys2Proof.Machine.execRegWrite addr len value s
  | .tickBoundaryApply n => Sys2Proof.Machine.execTickBoundaryApply n s
  | .coupleTimeout addr => Sys2Proof.Machine.execCoupleTimeout addr s
  | .timNowLoRead => Sys2Proof.Machine.execTimNowLoRead s
  | .refinEdgeSeen => Sys2Proof.Machine.execRefinEdgeSeen s
  | .qualifyEnd freq phase => Sys2Proof.Machine.execQualifyEnd freq phase s
  | .qualifyReturn => Sys2Proof.Machine.execQualifyReturn s
  | .refLock => Sys2Proof.Machine.execRefLock s
  | .refLoss => Sys2Proof.Machine.execRefLoss s
  | .timRefCtrlWrite value => Sys2Proof.Machine.execTimRefCtrlWrite value s
  | .pllLock => Sys2Proof.Machine.execPllLock s
  | .tileTickCheck tile count => Sys2Proof.Machine.execTileTickCheck tile count s
  | .pllUnlock => Sys2Proof.Machine.execPllUnlock s
  | .shotStart job => Sys2Proof.Machine.execShotStart job s
  | .play thr ev => Sys2Proof.Machine.execPlay thr ev s
  | .frame f => Sys2Proof.Machine.execFrame f s
  | .setf f => Sys2Proof.Machine.execSetf f s
  | .wait f => Sys2Proof.Machine.execWait f s
  | .waitRelease thr => Sys2Proof.Machine.execWaitRelease thr s
  | .sync f => Sys2Proof.Machine.execSync f s
  | .barrierRelease bar => Sys2Proof.Machine.execBarrierRelease bar s
  | .syncTimeout thr => Sys2Proof.Machine.execSyncTimeout thr s
  | .syncMiss bar => Sys2Proof.Machine.execSyncMiss bar s
  | .meas f => Sys2Proof.Machine.execMeas f s
  | .brd f => Sys2Proof.Machine.execBrd f s
  | .brdResolve thr => Sys2Proof.Machine.execBrdResolve thr s
  | .brdLate thr => Sys2Proof.Machine.execBrdLate thr s
  | .jump f => Sys2Proof.Machine.execJump f s
  | .call f => Sys2Proof.Machine.execCall f s
  | .ret f => Sys2Proof.Machine.execRet f s
  | .loop f => Sys2Proof.Machine.execLoop f s
  | .sweep f => Sys2Proof.Machine.execSweep f s
  | .mark f => Sys2Proof.Machine.execMark f s
  | .trig f => Sys2Proof.Machine.execTrig f s
  | .trigRelease thr => Sys2Proof.Machine.execTrigRelease thr s
  | .trigTimeout thr => Sys2Proof.Machine.execTrigTimeout thr s
  | .pub f => Sys2Proof.Machine.execPub f s
  | .custom thr ev => Sys2Proof.Machine.execCustom thr ev s
  | .waitsRelease thr => Sys2Proof.Machine.execWaitsRelease thr s
  | .waitsTimeout thr => Sys2Proof.Machine.execWaitsTimeout thr s
  | .peerStop thr => Sys2Proof.Machine.execPeerStop thr s
  | .shotComplete job => Sys2Proof.Machine.execShotComplete job s
  | .shotRerun job => Sys2Proof.Machine.execShotRerun job s
  | .mchkReloadDone tile cluster store bank addr => Sys2Proof.Machine.execMchkReloadDone tile cluster store bank addr s
  | .bankReplaceDone tile cluster store => Sys2Proof.Machine.execBankReplaceDone tile cluster store s
  | .nanoViewWrite tile off value => Sys2Proof.Machine.execNanoViewWrite tile off value s
  | .envMemWrite tile sample value => Sys2Proof.Machine.execEnvMemWrite tile sample value s
  | .weightWrite tile line d value => Sys2Proof.Machine.execWeightWrite tile line d value s
  | .decodeTableWrite entry value => Sys2Proof.Machine.execDecodeTableWrite entry value s
  | .drvEnable probe tile chan => Sys2Proof.Machine.execDrvEnable probe tile chan s
  | .flxEnable tile chan => Sys2Proof.Machine.execFlxEnable tile chan s
  | .biaEnable tile chan => Sys2Proof.Machine.execBiaEnable tile chan s
  | .enableCheckDone kind tile chan => Sys2Proof.Machine.execEnableCheckDone kind tile chan s
  | .spareTakeoverDone tile group => Sys2Proof.Machine.execSpareTakeoverDone tile group s
  | .spareHandback tile group => Sys2Proof.Machine.execSpareHandback tile group s
  | .handbackForced tile group => Sys2Proof.Machine.execHandbackForced tile group s
  | .calTakeover tile group => Sys2Proof.Machine.execCalTakeover tile group s
  | .calOfflineDone tile group chan spare => Sys2Proof.Machine.execCalOfflineDone tile group chan spare s
  | .segOpen tile seg => Sys2Proof.Machine.execSegOpen tile seg s
  | .segSeal tile seg => Sys2Proof.Machine.execSegSeal tile seg s
  | .strmJumpRequest tile strm target => Sys2Proof.Machine.execStrmJumpRequest tile strm target s
  | .commitPoint tile strm => Sys2Proof.Machine.execCommitPoint tile strm s
  | .passEnd tile strm => Sys2Proof.Machine.execPassEnd tile strm s
  | .strmWpWrite tile strm value => Sys2Proof.Machine.execStrmWpWrite tile strm value s
  | .streamFetch tile strm => Sys2Proof.Machine.execStreamFetch tile strm s
  | .streamBlockArrive tile strm => Sys2Proof.Machine.execStreamBlockArrive tile strm s
  | .streamUnderrun tile strm => Sys2Proof.Machine.execStreamUnderrun tile strm s
  | .genEnable tile gen => Sys2Proof.Machine.execGenEnable tile gen s
  | .genRestart tile gen => Sys2Proof.Machine.execGenRestart tile gen s
  | .biasLatch tile chan => Sys2Proof.Machine.execBiasLatch tile chan s
  | .spanChange kind tile chan span codeAfter => Sys2Proof.Machine.execSpanChange kind tile chan span codeAfter s
  | .spanChangeEnd kind tile chan => Sys2Proof.Machine.execSpanChangeEnd kind tile chan s
  | .scanEnable tile on => Sys2Proof.Machine.execScanEnable tile on s
  | .senseSlotStart tile list => Sys2Proof.Machine.execSenseSlotStart tile list s
  | .senseConversionDone tile list obs => Sys2Proof.Machine.execSenseConversionDone tile list obs s
  | .snsInjGo tile list => Sys2Proof.Machine.execSnsInjGo tile list s
  | .snsInjTime tile list => Sys2Proof.Machine.execSnsInjTime tile list s
  | .senseRotate tile => Sys2Proof.Machine.execSenseRotate tile s
  | .windowEnd tile line tone x => Sys2Proof.Machine.execWindowEnd tile line tone x s
  | .sliceRotate tile line => Sys2Proof.Machine.execSliceRotate tile line s
  | .sliceSpareInPlace tile line => Sys2Proof.Machine.execSliceSpareInPlace tile line s
  | .agcStep tile line => Sys2Proof.Machine.execAgcStep tile line s
  | .xtSwap tile line => Sys2Proof.Machine.execXtSwap tile line s
  | .decisionUpdate replica => Sys2Proof.Machine.execDecisionUpdate replica s
  | .slotAged replica slot => Sys2Proof.Machine.execSlotAged replica slot s
  | .decSwWrite value => Sys2Proof.Machine.execDecSwWrite value s
  | .groupFire group => Sys2Proof.Machine.execGroupFire group s
  | .decoderFire dec parityErr => Sys2Proof.Machine.execDecoderFire dec parityErr s
  | .tableReloadDone entry => Sys2Proof.Machine.execTableReloadDone entry s
  | .extDecoderFire dec => Sys2Proof.Machine.execExtDecoderFire dec s
  | .synBaseWrite dec value => Sys2Proof.Machine.execSynBaseWrite dec value s
  | .decQueueSend port => Sys2Proof.Machine.execDecQueueSend port s
  | .ringRebuildDone => Sys2Proof.Machine.execRingRebuildDone s
  | .spineLinkRetry tile lane => Sys2Proof.Machine.execSpineLinkRetry tile lane s
  | .capArm tile => Sys2Proof.Machine.execCapArm tile s
  | .capStop tile => Sys2Proof.Machine.execCapStop tile s
  | .capForce tile => Sys2Proof.Machine.execCapForce tile s
  | .capArmTimeReached tile => Sys2Proof.Machine.execCapArmTimeReached tile s
  | .capRearmEnd tile => Sys2Proof.Machine.execCapRearmEnd tile s
  | .capTrigger tile first codes => Sys2Proof.Machine.execCapTrigger tile first codes s
  | .capRecordDone tile late gaps => Sys2Proof.Machine.execCapRecordDone tile late gaps s
  | .tdcEdge inp bin rise held => Sys2Proof.Machine.execTdcEdge inp bin rise held s
  | .intervalStartExpire iv => Sys2Proof.Machine.execIntervalStartExpire iv s
  | .tdcLineSwap inp dllLost => Sys2Proof.Machine.execTdcLineSwap inp dllLost s
  | .tdcFifoPop => Sys2Proof.Machine.execTdcFifoPop s
  | .tdcFreqGo => Sys2Proof.Machine.execTdcFreqGo s
  | .tdcFreqGateEnd => Sys2Proof.Machine.execTdcFreqGateEnd s
  | .laneTrainStep port lane obs => Sys2Proof.Machine.execLaneTrainStep port lane obs s
  | .trainStepTimeout port lane => Sys2Proof.Machine.execTrainStepTimeout port lane s
  | .trainRetry port lane => Sys2Proof.Machine.execTrainRetry port lane s
  | .deepPoll port lane => Sys2Proof.Machine.execDeepPoll port lane s
  | .laneFail port loss => Sys2Proof.Machine.execLaneFail port loss s
  | .skipSend port => Sys2Proof.Machine.execSkipSend port s
  | .skipReceive port drift => Sys2Proof.Machine.execSkipReceive port drift s
  | .rstReceive port mask dcount pcount => Sys2Proof.Machine.execRstReceive port mask dcount pcount s
  | .rplReceive port dcount pcount => Sys2Proof.Machine.execRplReceive port dcount pcount s
  | .decReceive port msg => Sys2Proof.Machine.execDecReceive port msg s
  | .ackReceive port dcount pcount => Sys2Proof.Machine.execAckReceive port dcount pcount s
  | .nakReceive port dcount pcount => Sys2Proof.Machine.execNakReceive port dcount pcount s
  | .msgError found => Sys2Proof.Machine.execMsgError found s
  | .nakRepeat port => Sys2Proof.Machine.execNakRepeat port s
  | .ackSend port => Sys2Proof.Machine.execAckSend port s
  | .pktAnswerReceive port dec round classes => Sys2Proof.Machine.execPktAnswerReceive port dec round classes s
  | .pktManagementReceive port bytes => Sys2Proof.Machine.execPktManagementReceive port bytes s
  | .bvnRetrain port => Sys2Proof.Machine.execBvnRetrain port s
  | .bvnWiden port => Sys2Proof.Machine.execBvnWiden port s
  | .bvnInj port lane => Sys2Proof.Machine.execBvnInj port lane s
  | .announceSend port => Sys2Proof.Machine.execAnnounceSend port s
  | .announceReceive port msg => Sys2Proof.Machine.execAnnounceReceive port msg s
  | .announceTimeout port => Sys2Proof.Machine.execAnnounceTimeout port s
  | .delayReqSend => Sys2Proof.Machine.execDelayReqSend s
  | .delayReq port seq lane sent t2 => Sys2Proof.Machine.execDelayReq port seq lane sent t2 s
  | .delayResp seq lane t2 t3 t4 => Sys2Proof.Machine.execDelayResp seq lane t2 t3 t4 s
  | .timeStep => Sys2Proof.Machine.execTimeStep s
  | .tsHoldExpire => Sys2Proof.Machine.execTsHoldExpire s
  | .syncOutPulse => Sys2Proof.Machine.execSyncOutPulse s
  | .synReceive port id event sent => Sys2Proof.Machine.execSynReceive port id event sent s
  | .syncCalDone => Sys2Proof.Machine.execSyncCalDone s
  | .timedEventFire ev => Sys2Proof.Machine.execTimedEventFire ev s
  | .linkUp cxl width speed => Sys2Proof.Machine.execLinkUp cxl width speed s
  | .linkOutage => Sys2Proof.Machine.execLinkOutage s
  | .d3hotWrite => Sys2Proof.Machine.execD3hotWrite s
  | .d0Write => Sys2Proof.Machine.execD0Write s
  | .hdmCommit dec base size ways lock => Sys2Proof.Machine.execHdmCommit dec base size ways lock s
  | .cxlmemRequest write hostAddr data => Sys2Proof.Machine.execCxlmemRequest write hostAddr data s
  | .viralReceive => Sys2Proof.Machine.execViralReceive s
  | .memReady obs => Sys2Proof.Machine.execMemReady obs s
  | .sqTailDoorbell qp tail => Sys2Proof.Machine.execSqTailDoorbell qp tail s
  | .cqHeadDoorbell qp head => Sys2Proof.Machine.execCqHeadDoorbell qp head s
  | .submitRun qp entry => Sys2Proof.Machine.execSubmitRun qp entry s
  | .submitCapture qp entry => Sys2Proof.Machine.execSubmitCapture qp entry s
  | .submitCalibrate qp entry => Sys2Proof.Machine.execSubmitCalibrate qp entry s
  | .submitStreamOpen qp entry => Sys2Proof.Machine.execSubmitStreamOpen qp entry s
  | .submitStreamClose qp entry => Sys2Proof.Machine.execSubmitStreamClose qp entry s
  | .submitScan qp entry => Sys2Proof.Machine.execSubmitScan qp entry s
  | .jobStart job => Sys2Proof.Machine.execJobStart job s
  | .jobDeadline job => Sys2Proof.Machine.execJobDeadline job s
  | .completionPost qp => Sys2Proof.Machine.execCompletionPost qp s
  | .mailboxDoorbell n req => Sys2Proof.Machine.execMailboxDoorbell n req s
  | .commandFinalResponse n obs => Sys2Proof.Machine.execCommandFinalResponse n obs s
  | .getInfo n => Sys2Proof.Machine.execGetInfo n s
  | .resume n => Sys2Proof.Machine.execResume n s
  | .resumeComplete => Sys2Proof.Machine.execResumeComplete s
  | .safeEnter n => Sys2Proof.Machine.execSafeEnter n s
  | .txnBegin n => Sys2Proof.Machine.execTxnBegin n s
  | .txnSet n => Sys2Proof.Machine.execTxnSet n s
  | .txnCommit n => Sys2Proof.Machine.execTxnCommit n s
  | .txnRollback n => Sys2Proof.Machine.execTxnRollback n s
  | .txnStatus n => Sys2Proof.Machine.execTxnStatus n s
  | .txnTimeout part => Sys2Proof.Machine.execTxnTimeout part s
  | .txnApply part => Sys2Proof.Machine.execTxnApply part s
  | .unitEnable n => Sys2Proof.Machine.execUnitEnable n s
  | .unitDisable n => Sys2Proof.Machine.execUnitDisable n s
  | .fence n => Sys2Proof.Machine.execFence n s
  | .unfence n => Sys2Proof.Machine.execUnfence n s
  | .programLoad n => Sys2Proof.Machine.execProgramLoad n s
  | .patchStage n => Sys2Proof.Machine.execPatchStage n s
  | .userUcodeStage n => Sys2Proof.Machine.execUserUcodeStage n s
  | .patchApply n => Sys2Proof.Machine.execPatchApply n s
  | .patchApplyDone => Sys2Proof.Machine.execPatchApplyDone s
  | .patchDiscard n => Sys2Proof.Machine.execPatchDiscard n s
  | .nanoLoad n => Sys2Proof.Machine.execNanoLoad n s
  | .nanoSwap n => Sys2Proof.Machine.execNanoSwap n s
  | .nanoSwapDone tile cluster => Sys2Proof.Machine.execNanoSwapDone tile cluster s
  | .partCreate n => Sys2Proof.Machine.execPartCreate n s
  | .partDestroy n => Sys2Proof.Machine.execPartDestroy n s
  | .partPolicy n => Sys2Proof.Machine.execPartPolicy n s
  | .partAssign n => Sys2Proof.Machine.execPartAssign n s
  | .qpCreate n => Sys2Proof.Machine.execQpCreate n s
  | .qpDelete n => Sys2Proof.Machine.execQpDelete n s
  | .planLoad n => Sys2Proof.Machine.execPlanLoad n s
  | .planDrop n => Sys2Proof.Machine.execPlanDrop n s
  | .jobAbort n => Sys2Proof.Machine.execJobAbort n s
  | .decSlotAssign n => Sys2Proof.Machine.execDecSlotAssign n s
  | .decExportSet n => Sys2Proof.Machine.execDecExportSet n s
  | .decImportSet n => Sys2Proof.Machine.execDecImportSet n s
  | .syndGroupSet n => Sys2Proof.Machine.execSyndGroupSet n s
  | .syndDecoderSet n => Sys2Proof.Machine.execSyndDecoderSet n s
  | .syndRead n => Sys2Proof.Machine.execSyndRead n s
  | .timeConfig n => Sys2Proof.Machine.execTimeConfig n s
  | .timeReinit n => Sys2Proof.Machine.execTimeReinit n s
  | .syncCal n => Sys2Proof.Machine.execSyncCal n s
  | .calRun n => Sys2Proof.Machine.execCalRun n s
  | .calRefDeclare n => Sys2Proof.Machine.execCalRefDeclare n s
  | .calStatus n => Sys2Proof.Machine.execCalStatus n s
  | .hostCopyIn n => Sys2Proof.Machine.execHostCopyIn n s
  | .hostCopyOut n => Sys2Proof.Machine.execHostCopyOut n s
  | .fwStage n => Sys2Proof.Machine.execFwStage n s
  | .fwActivate n => Sys2Proof.Machine.execFwActivate n s
  | .mgmtHandover n => Sys2Proof.Machine.execMgmtHandover n s
  | .logRead n => Sys2Proof.Machine.execLogRead n s
  | .memInfo n => Sys2Proof.Machine.execMemInfo n s
  | .memRetire n => Sys2Proof.Machine.execMemRetire n s
  | .patrolPassEnd => Sys2Proof.Machine.execPatrolPassEnd s
  | .devRetireThreshold dev => Sys2Proof.Machine.execDevRetireThreshold dev s
  | .memUncorrectable addr dev owner => Sys2Proof.Machine.execMemUncorrectable addr dev owner s
  | .memInitDone => Sys2Proof.Machine.execMemInitDone s
  | .calDue unit => Sys2Proof.Machine.execCalDue unit s
  | .calStale unit => Sys2Proof.Machine.execCalStale unit s
  | .gapCalStep unit disturbed => Sys2Proof.Machine.execGapCalStep unit disturbed s
  | .calComplete unit obs => Sys2Proof.Machine.execCalComplete unit obs s
  | .calHoldTimeout unit => Sys2Proof.Machine.execCalHoldTimeout unit s
  | .calRecordWrite unit => Sys2Proof.Machine.execCalRecordWrite unit s
  | .bootCalDone failed => Sys2Proof.Machine.execBootCalDone failed s
  | .thermSample sensor temp => Sys2Proof.Machine.execThermSample sensor temp s
  | .thermStateEntry sensor st => Sys2Proof.Machine.execThermStateEntry sensor st s
  | .thermStateLeave sensor st => Sys2Proof.Machine.execThermStateLeave sensor st s
  | .thermRateEntry sensor => Sys2Proof.Machine.execThermRateEntry sensor s
  | .thermRateLeave sensor => Sys2Proof.Machine.execThermRateLeave sensor s
  | .thermSensorFail sensor => Sys2Proof.Machine.execThermSensorFail sensor s
  | .thermShutdown => Sys2Proof.Machine.execThermShutdown s
  | .thermRestart => Sys2Proof.Machine.execThermRestart s
  | .thmCfgWrite value => Sys2Proof.Machine.execThmCfgWrite value s
  | .faultRecord blk faults => Sys2Proof.Machine.execFaultRecord blk faults s
  | .fltInject blk value => Sys2Proof.Machine.execFltInject blk value s
  | .errHoldExpire => Sys2Proof.Machine.execErrHoldExpire s
  | .tileLinkSilence tile => Sys2Proof.Machine.execTileLinkSilence tile s
  | .heartbeatMiss => Sys2Proof.Machine.execHeartbeatMiss s
  | .standbyRestartDone ok => Sys2Proof.Machine.execStandbyRestartDone ok s
  | .fwAudit stale => Sys2Proof.Machine.execFwAudit stale s
  | .logWrite => Sys2Proof.Machine.execLogWrite s
  | .peakClr thr => Sys2Proof.Machine.execPeakClr thr s
  | .maxClear => Sys2Proof.Machine.execMaxClear s
  | .railSeqError rail => Sys2Proof.Machine.execRailSeqError rail s
  | .railDrop rail => Sys2Proof.Machine.execRailDrop rail s
  | .perstAssert => Sys2Proof.Machine.execPerstAssert s
  | .perstDeassert => Sys2Proof.Machine.execPerstDeassert s
  | .vauxLoss => Sys2Proof.Machine.execVauxLoss s
  | .bootImageCheck slotA slotB flash8D => Sys2Proof.Machine.execBootImageCheck slotA slotB flash8D s
  | .fwReady => Sys2Proof.Machine.execFwReady s
  | .spineLaneRepairDone tile => Sys2Proof.Machine.execSpineLaneRepairDone tile s
  | .spareFaultHandbackDone tile group => Sys2Proof.Machine.execSpareFaultHandbackDone tile group s
  | .trainingSignalLoss port lane => Sys2Proof.Machine.execTrainingSignalLoss port lane s
  | .deskewWaitExpire port => Sys2Proof.Machine.execDeskewWaitExpire port s
  | .syncMissing => Sys2Proof.Machine.execSyncMissing s
  | .resultDelivery => Sys2Proof.Machine.execResultDelivery s
  | .configRequest req => Sys2Proof.Machine.execConfigRequest req s
  | .cacheSnoop hostAddr => Sys2Proof.Machine.execCacheSnoop hostAddr s
  | .pcieRefclkLoss => Sys2Proof.Machine.execPcieRefclkLoss s
  | .railReturn rail => Sys2Proof.Machine.execRailReturn rail s
  | .bootStart => Sys2Proof.Machine.execBootStart s

end Sys2Proof.Machine
end

