-- ==== Sys2Proof/Machine/Package.lean ====
section
/-! DEFINITION. The package's balls (23 R491-R495), and what the balls that carry no waveform show before and after their
supplies (22 R480). -/

namespace Sys2Proof.Machine

/-! ## Pins (R480, R506) -/

/-- A digital ball. -/
inductive Pin where
  | highZ
  | low
  | high
  deriving DecidableEq, Repr

def Pin.of (level : Bool) : Pin := if level then .high else .low

/-- VIO is in range. -/
def State.vio (s : State) : Bool := s.railGood 4

/-- A tile's marker ball at a DAC sample, and a spine marker ball at a tick: high-impedance until VIO is in range. -/
def State.tileMarkPin (s : State) (t m n : Nat) : Pin := if s.vio then Pin.of (s.markBall t m n) else .highZ
def State.spineMarkPin (s : State) (m n : Nat) : Pin := if s.vio then Pin.of (s.spineMarkLevel m n) else .highZ

/-- SYNCOUT is high for 8 ticks from each of its pulses; low in RESET (14 R322). -/
def State.syncOutPin (s : State) : Pin :=
  let on := s.emitted.any (fun e =>
    match e with
    | .syncOut k => decide (k ≤ s.grid) && decide (s.grid < k + 8)
    | _ => false)
  if s.vio then Pin.of (on && decide (s.mode ≠ mReset)) else .highZ

/-- THERM_N, ERR_N and REPLACE_N are open drain: driven low, or released. -/
def State.openDrain (s : State) (driven : Bool) : Pin := if s.railGood 0 && driven then .low else .highZ
def State.thermPin (s : State) : Pin := s.openDrain s.therm.thermN
def State.errPin (s : State) : Pin := s.openDrain s.flt.errN
def State.replacePin (s : State) : Pin := s.openDrain s.replaceN

/-- A readout input: terminated in 50 Ohm once VRF is in range, and whether it samples. -/
structure InputBall where
  matched  : Bool
  sampling : Bool
  deriving DecidableEq, Repr

def State.inputBall (s : State) : InputBall :=
  { matched := s.railGood 3, sampling := s.railGood 3 && decide (s.mode ≠ mReset) && !s.shutdown }

/-! ## The ball map (23 R491-R494) -/

/-- Row and column of a ball, from 1. -/
structure BallAt where
  row : Nat
  col : Nat
  deriving DecidableEq, Repr

/-- The row and the column of the first ball of a tile's block, of the DDR5 block and of the spine core block. -/
def tileOrigin (n : Nat) : BallAt := ([⟨1, 1⟩, ⟨1, 29⟩, ⟨1, 57⟩, ⟨29, 57⟩, ⟨57, 57⟩, ⟨57, 29⟩, ⟨57, 1⟩][n]?).getD ⟨1, 1⟩
def ddrOrigin : BallAt := ⟨29, 1⟩
def spineOrigin : BallAt := ⟨29, 29⟩

/-- The ball at a local row and column of a block. -/
def BallAt.inBlock (o : BallAt) (i j : Nat) : BallAt := ⟨o.row + i, o.col + j⟩

/-- A signal of a tile (R492). -/
inductive TileSig where
  /-- drive m of 0-63, probe of line m - 64, input of line m - 72 -/
  | rf (m : Nat)
  | flux (l : Nat)
  | bias (l : Nat)
  | snsP (p : Nat)
  | snsN (p : Nat)
  /-- bias return of a drive group -/
  | brtn (g : Nat)
  | mark (m : Nat)
  deriving DecidableEq, Repr

def TileSig.drive (l : Nat) : TileSig := .rf l
def TileSig.probe (l : Nat) : TileSig := .rf (64 + l)
def TileSig.input (l : Nat) : TileSig := .rf (72 + l)

/-- Local row and column of a tile's signal. -/
def TileSig.place : TileSig → Nat × Nat
  | .rf m => (1 + 2 * (m / 10), 1 + 2 * (m % 10))
  | .flux l => (17 + l / 14, 2 * (l % 14) + l / 14 % 2)
  | .bias l => (l / 4, 21 + l % 4)
  | .snsP p => (22 + p / 14, 2 * (p % 14))
  | .snsN p => (22 + p / 14, 2 * (p % 14) + 1)
  | .brtn g => (26, 16 + g)
  | .mark m => (26, 24 + m)

/-- The ball of a tile's signal. -/
def TileSig.ball (n : Nat) (x : TileSig) : BallAt := (tileOrigin n).inBlock x.place.1 x.place.2

/-- A signal of the spine core block (R493); `n` the negative leg of a pair. -/
inductive SpineSig where
  | cxlTx (k : Nat) (n : Bool)
  | cxlRx (k : Nat) (n : Bool)
  | refclk (n : Bool)
  | bvTx (lane : Nat) (n : Bool)
  | bvRx (lane : Nat) (n : Bool)
  | trigIn (k : Nat) (n : Bool)
  | syncIn (n : Bool)
  | refIn (n : Bool)
  | syncOut (n : Bool)
  | calRef (n : Bool)
  /-- PERST_N, ERR_N, REPLACE_N, THERM_N -/
  | control (k : Nat)
  /-- SPI_CLK, SPI_CS_N, SPI_DQS, SPI_RESET_N, then SPI_DQ0 to SPI_DQ7 -/
  | spi (k : Nat)
  /-- TCK, TMS, TDI, TDO, TRST_N -/
  | jtag (k : Nat)
  | smark (m : Nat)
  deriving DecidableEq, Repr

def leg (n : Bool) : Nat := if n then 1 else 0

/-- Local row and column of a signal of the spine. -/
def SpineSig.place : SpineSig → Nat × Nat
  | .cxlTx k n => (1, 3 * k + 1 + leg n)
  | .cxlRx k n => (3, 3 * k + 1 + leg n)
  | .refclk n => (1, 25 + leg n)
  | .bvTx l n => (6 + 2 * (l / 8), 3 * (l % 8) + 1 + leg n)
  | .bvRx l n => (10 + 2 * (l / 8), 3 * (l % 8) + 1 + leg n)
  | .trigIn k n => (15, 3 * k + 1 + leg n)
  | .syncIn n => (15, 25 + leg n)
  | .refIn n => (17, 1 + leg n)
  | .syncOut n => (17, 4 + leg n)
  | .calRef n => (17, 7 + leg n)
  | .control k => (19, k)
  | .spi k => (19, 4 + k)
  | .jtag k => (19, 16 + k)
  | .smark m => (19, 21 + m)

def SpineSig.ball (x : SpineSig) : BallAt := spineOrigin.inBlock x.place.1 x.place.2

/-- The ball of signal `k` of a subchannel of a memory channel (R494). -/
def ddrBall (channel sub k : Nat) : BallAt := ddrOrigin.inBlock (14 * channel + 7 * sub + 1 + 2 * (k / 28)) (k % 28)

/-- The DQ balls of a device position of a subchannel; positions 8 and 9 carry CB0 to CB7. -/
def ddrDataBalls (channel sub position : Nat) : List BallAt :=
  (List.range 4).map (fun b => ddrBall channel sub (4 * position + b))

/-- Its strobe, true and complement. -/
def ddrStrobeBalls (channel sub position : Nat) : List BallAt :=
  (List.range 2).map (fun b => ddrBall channel sub (40 + 2 * position + b))

end Sys2Proof.Machine
end

