-- ==== Sys2Proof/Safety.lean ====
section
/-! DEFINITION. What the claims about the block speak of: the invariant that every command keeps, and the conditions under
which a thread issues an instruction and a mailbox carries out a command. -/

namespace Sys2Proof.Machine

/-! ## The invariant -/

/-- The register file and the memory are in their canonical forms: equal contents are equal data. -/
abbrev State.canonical (s : State) : Prop := SMap.wf 0 s.regs ∧ Memory.wf s.mem

/-- SPN_ID reads the part's identity (00 R4): nothing writes it. -/
abbrev State.idFixed (s : State) : Prop := s.regWord R.SPN_ID [] 0 = resetWord s.variant R.SPN_ID [] 0

/-- SPN_MODE.MODE is one of the six modes (01 R30). -/
abbrev State.legalMode (s : State) : Prop := s.mode ≤ 5

/-- The invariant. -/
abbrev State.Inv (s : State) : Prop := s.canonical ∧ s.idFixed ∧ s.legalMode

/-! ## Commands by what they may change -/

/-- Commands that may write device memory: by their own effect, by the end of a capture that a fault or SAFE brings, or by
the reset of the part. -/
def mayStore : Instr → Bool
  | .regWrite .. | .tickBoundaryApply .. | .tileTickCheck .. | .pllUnlock .. | .play .. | .frame .. | .setf .. |
    .wait .. | .sync .. | .meas .. | .brd .. | .jump .. | .call .. | .ret .. | .loop .. | .sweep .. | .mark .. |
    .trig .. | .pub .. | .custom .. | .spareHandback .. | .calOfflineDone .. | .senseRotate .. | .capRecordDone .. |
    .tdcLineSwap .. | .laneFail .. | .cxlmemRequest .. | .viralReceive .. | .jobDeadline .. |
    .commandFinalResponse .. | .safeEnter .. | .txnApply .. | .fence .. | .memRetire .. | .memUncorrectable .. |
    .calStale .. | .calComplete .. | .bootCalDone .. | .thermStateEntry .. | .thermRateEntry .. |
    .thermSensorFail .. | .thermShutdown .. | .faultRecord .. | .heartbeatMiss .. | .standbyRestartDone .. |
    .fwAudit .. | .railSeqError .. | .railDrop .. | .perstAssert .. | .vauxLoss .. | .fwReady .. | .railReturn .. |
    .decisionUpdate .. | .msgError .. | .rplReceive .. | .rstReceive .. | .skipReceive .. => true
  | _ => false

/-- Commands that may change MODE: by their own effect, by the entry to SAFE that a fault brings, or by the reset of the
part. -/
def mayChangeMode : Instr → Bool
  | .tickBoundaryApply .. | .tileTickCheck .. | .pllUnlock .. | .play .. | .frame .. | .setf .. | .wait .. |
    .sync .. | .meas .. | .brd .. | .jump .. | .call .. | .ret .. | .loop .. | .sweep .. | .mark .. | .trig .. |
    .pub .. | .custom .. | .spareHandback .. | .calOfflineDone .. | .senseRotate .. | .tdcLineSwap .. |
    .laneFail .. | .viralReceive .. | .commandFinalResponse .. | .resumeComplete .. | .safeEnter .. | .txnApply .. |
    .memUncorrectable .. | .calStale .. | .calComplete .. | .bootCalDone .. | .thermStateEntry .. |
    .thermRateEntry .. | .thermSensorFail .. | .thermShutdown .. | .thermRestart .. | .faultRecord .. |
    .heartbeatMiss .. | .standbyRestartDone .. | .fwAudit .. | .railSeqError .. | .railDrop .. | .perstAssert .. |
    .vauxLoss .. | .fwReady .. | .railReturn .. | .msgError .. | .rplReceive .. | .rstReceive .. | .skipReceive .. => true
  | _ => false

/-! ## Mailbox commands -/

/-- The mailbox that a command row names, the opcode of R378 and whether its request carries a TXN_ID. -/
def mailboxOf : Instr → Option (Nat × Nat × Bool)
  | .getInfo n => some (n, 0x01, false)
  | .resume n => some (n, 0x02, false)
  | .safeEnter n => some (n, 0x03, false)
  | .txnBegin n => some (n, 0x10, false)
  | .txnSet n => some (n, 0x11, true)
  | .txnCommit n => some (n, 0x12, true)
  | .txnRollback n => some (n, 0x13, true)
  | .txnStatus n => some (n, 0x14, false)
  | .unitEnable n => some (n, 0x20, false)
  | .unitDisable n => some (n, 0x21, false)
  | .fence n => some (n, 0x22, false)
  | .unfence n => some (n, 0x23, false)
  | .programLoad n => some (n, 0x30, false)
  | .patchStage n => some (n, 0x31, false)
  | .userUcodeStage n => some (n, 0x32, false)
  | .patchApply n => some (n, 0x33, false)
  | .patchDiscard n => some (n, 0x34, false)
  | .nanoLoad n => some (n, 0x35, false)
  | .nanoSwap n => some (n, 0x36, false)
  | .partCreate n => some (n, 0x40, false)
  | .partDestroy n => some (n, 0x41, false)
  | .partPolicy n => some (n, 0x42, false)
  | .partAssign n => some (n, 0x43, false)
  | .qpCreate n => some (n, 0x44, false)
  | .qpDelete n => some (n, 0x45, false)
  | .planLoad n => some (n, 0x46, false)
  | .planDrop n => some (n, 0x47, false)
  | .jobAbort n => some (n, 0x48, false)
  | .decSlotAssign n => some (n, 0x50, false)
  | .decExportSet n => some (n, 0x51, false)
  | .decImportSet n => some (n, 0x52, false)
  | .syndGroupSet n => some (n, 0x53, false)
  | .syndDecoderSet n => some (n, 0x54, false)
  | .syndRead n => some (n, 0x55, false)
  | .timeConfig n => some (n, 0x60, false)
  | .timeReinit n => some (n, 0x61, false)
  | .syncCal n => some (n, 0x62, false)
  | .calRun n => some (n, 0x70, false)
  | .calRefDeclare n => some (n, 0x71, false)
  | .calStatus n => some (n, 0x72, false)
  | .hostCopyIn n => some (n, 0x80, false)
  | .hostCopyOut n => some (n, 0x81, false)
  | .fwStage n => some (n, 0x90, false)
  | .fwActivate n => some (n, 0x91, false)
  | .mgmtHandover n => some (n, 0x92, false)
  | .logRead n => some (n, 0x93, false)
  | .memInfo n => some (n, 0xA0, false)
  | .memRetire n => some (n, 0xA1, false)
  | _ => none

/-- Mailbox `n` holds a request of opcode `op` that firmware has not begun; its header and its payload `p` pass the checks
that every command shares (17 R371). -/
abbrev State.asked (s : State) (n op : Nat) (txn : Bool) (layout : List Byte → Bool) (p : List Byte) : Prop :=
  s.asks n op = true ∧ headerOk (s.mbx n).req txn = true ∧ layout p = true ∧ (s.mbx n).req.payload = p

/-- Mailbox `n` takes the request in its region, as the doorbell written last (17 R369, R376). -/
abbrev State.takes (s : State) (n : Nat) : State :=
  let u := s.setMbx n { s.mbx n with req := (s.mbx n).request, inProg := false, bell := s.mb.bells }
  { u with mb := { u.mb with bells := u.mb.bells + 1 } }

/-- The open transaction of a partition, if any, has not timed out (17 R394). -/
abbrev State.txnInTime (s : State) (p : Nat) : Prop := ∀ t, s.openTxn p = some t → s.now < t.begin_ + 1562500000

/-! ## Gate-level instructions -/

/-- Thread `g` issues its next instruction now: its word at PC is `w`, of opcode `op`, PC lies in its region, and the `n`
microwords it costs fit in the issue tick (03 R65, R68, R71, R91). -/
abbrev State.issuing (s : State) (g op n : Nat) (w : GateWord) : Prop :=
  (s.thr g).issues s.now = true ∧ s.gateAt (thrGc g) (s.thr g).pc = w ∧ opcode w = op ∧ (s.thr g).inRegion = true ∧
    (s.thr g).used + n ≤ 8

/-- The same, and its fetches meet no machine check (04 R118). -/
abbrev State.runs (s : State) (g : Nat) (ev : FetchEv) (op n : Nat) (w : GateWord) : Prop :=
  s.issuing g op n w ∧ s.fetchFails g ev w = none

/-- The microwords of the instruction are charged. -/
abbrev State.charged (s : State) (g n : Nat) : State := s.setThr g ((s.thr g).charge n)

/-- The microwords of the instruction are charged and PC is at the next address: the state its effect works on. -/
abbrev State.issued (s : State) (g n : Nat) : State := (s.charged g n).updThr g Thread.advance

/-- The thread and the opcode of a gate-level instruction of 03, what its fetches meet, and what its word costs. -/
def gateOf : Instr → Option (Nat × FetchEv × Nat × (GateWord → Nat))
  | .play g ev => some (g, ev, 0x01, fun w => 3 + opr w 38 1 + opr w 37 1)
  | .frame f => some (f.thr, f.ev, 0x02, fun _ => 2)
  | .setf f => some (f.thr, f.ev, 0x03, fun _ => 2)
  | .wait f => some (f.thr, f.ev, 0x04, fun _ => 2)
  | .sync f => some (f.thr, f.ev, 0x05, fun _ => 3)
  | .meas f => some (f.thr, f.ev, 0x06, fun _ => 4)
  | .brd f => some (f.thr, f.ev, 0x07, fun _ => 6)
  | .jump f => some (f.thr, f.ev, 0x08, fun _ => 2)
  | .call f => some (f.thr, f.ev, 0x09, fun _ => 3)
  | .ret f => some (f.thr, f.ev, 0x0A, fun _ => 2)
  | .loop f => some (f.thr, f.ev, 0x0B, fun w => if opr w 54 2 = 2 then 3 else 2)
  | .sweep f => some (f.thr, f.ev, 0x0C, fun _ => 3)
  | .mark f => some (f.thr, f.ev, 0x0D, fun _ => 2)
  | .trig f => some (f.thr, f.ev, 0x0E, fun _ => 3)
  | .pub f => some (f.thr, f.ev, 0x0F, fun _ => 2)
  | _ => none

end Sys2Proof.Machine
end

