-- ==== Sys2Proof/Certificates/Slice0/Obligations.lean ====
section
/-! DEFINITION. The statements for the provers. -/

open Sys2Proof Sys2Proof.Machine

/-- For every command c and every state whose queue is c followed by the rest, step answers exactly what exec answers
for c on the state with the queue's rest. -/
def Obligations.FrontCommandRuns : Prop :=
  ∀ (c : Instr) (rest : List Instr) (s : State), s.pending = c :: rest → step s = exec c (s.withPending rest)

/-- A state whose queue of commands is empty is its own next state. This is the model's choice (assumption log 8): the
spec speaks of no step without an event. -/
def Obligations.EmptyQueueIdles : Prop :=
  ∀ s : State, s.pending = [] → step s = .next s

/-- State.reset meets Inv: the register map and the memory are in canonical form, SPN_ID reads the part's identity,
and SPN_MODE.MODE is one of the six modes. -/
def Obligations.ResetMeetsInvariant : Prop :=
  State.reset.Inv

/-- From every state that meets Inv (register map and memory in canonical form, SPN_ID reading the identity of R4,
SPN_MODE.MODE one of the six modes of R30), every step that answers a next state answers one that meets Inv, whatever
command stands at the front of the queue. -/
def Obligations.StepKeepsInvariant : Prop :=
  ∀ s t : State, s.Inv → step s = .next t → t.Inv

/-- For every command with every operand and every state, exec answers a next state (no fault, no refusal), whose
queue of waiting commands and whose part variant are those of the state before. -/
def Obligations.EveryCommandCompletes : Prop :=
  ∀ (c : Instr) (s : State), ∃ t, exec c s = .next t ∧ t.pending = s.pending ∧ t.variant = s.variant

/-- From every state, as many steps as commands wait in its queue end in a next state whose queue is empty. -/
def Obligations.QueueDrains : Prop :=
  ∀ s : State, ∃ t, Host.Core.run Sys2Proof.core s.pending.length s = .next t ∧ t.pending = []

/-- For every command outside mayStore (register writes, tick boundaries, captures that end, host accesses and copies,
instructions and events whose fault can end in SAFE, resets), every byte of device memory after the command is the
byte before it. -/
def Obligations.DeviceMemoryFrame : Prop :=
  ∀ (c : Instr) (s t : State), mayStore c = false → exec c s = .next t → ∀ a, t.byteAt a = s.byteAt a

/-- For every command outside mayChangeMode (tick boundaries, which evaluate the mode, SAFE_ENTER, RESUME_COMPLETE,
start-up and reset events, and events whose fault can end in SAFE), SPN_MODE.MODE after the command is that before it.
-/
def Obligations.ModeFrame : Prop :=
  ∀ (c : Instr) (s t : State), mayChangeMode c = false → exec c s = .next t → t.mode = s.mode

/-- For each of the 48 command rows of R378's table: if mailbox n holds a request of its opcode that firmware has not
begun and the request's header fails (LEN is not the payload's length, FLAGS has a reserved bit, RSV is not 0, or a
TXN_ID stands on an opcode that takes none), the command answers the state in which mailbox n has answered REFUSED
with REASON 0x0A01 and DETAIL 0xFFFF_FFFF, and nothing else. (SYNC_CAL and CAL_REF_DECLARE wait while another of their
kind is at work.) -/
def Obligations.BadHeaderIsRefused : Prop :=
  ∀ (c : Instr) (n op : Nat) (txn : Bool) (s : State), mailboxOf c = some (n, op, txn) → s.asks n op = true →
    headerOk (s.mbx n).req txn = false → s.ts.cal = none → s.cal.refReq = none →
    exec c s = .next (s.deny n 0x0A01 0xFFFFFFFF)

/-- For each of the 48 command rows: if mailbox n holds no request of the row's opcode that waits for firmware (the
mailbox is not BUSY, or its request is of another opcode, or has already answered IN_PROGRESS), the command leaves the
state as it is. This is the model's reading of a row without its request (assumption log 8). -/
def Obligations.UnaskedCommandDoesNothing : Prop :=
  ∀ (c : Instr) (n op : Nat) (txn : Bool) (s : State), mailboxOf c = some (n, op, txn) → s.asks n op = false →
    exec c s = .next s

/-- Writing a final response (any STATUS but IN_PROGRESS) in mailbox n < 64 leaves MBX_STATUS.STATE of n DONE, the
response header echoing OPCODE and CMD_ID with the given STATUS, REASON, DETAIL, TXN_ID, payload and the short time,
the record of the last command holding that response, the command no longer in progress; STATE and the contents of
every other mailbox, every byte of device memory, the threads, the outputs, the jobs, the stores and the transactions
are as before. IN_PROGRESS leaves the registers as they are. -/
def Obligations.FinalResponseLeavesDone : Prop :=
  (∀ (s : State) (n status reason detail : Nat) (txn : Word) (p : List Byte), n < 64 → status ≠ stProgress →
    (s.respond n status reason detail txn p).mbxState n = mDone ∧
    ((s.respond n status reason detail txn p).mbx n).resp =
      { opcode := (s.mbx n).req.opcode, status := status, cmdId := (s.mbx n).req.cmdId, txnId := txn, reason := reason,
        detail := BitVec.ofNat 32 detail, tick := BitVec.ofNat 32 s.grid, payload := p } ∧
    ((s.respond n status reason detail txn p).mbx n).record =
      some ((s.mbx n).req.opcode, (s.mbx n).req.cmdId, ((s.respond n status reason detail txn p).mbx n).resp) ∧
    ((s.respond n status reason detail txn p).mbx n).inProg = false ∧
    (∀ k, k ≠ n → (s.respond n status reason detail txn p).mbxState k = s.mbxState k ∧
      (s.respond n status reason detail txn p).mbx k = s.mbx k) ∧
    (∀ a, (s.respond n status reason detail txn p).byteAt a = s.byteAt a) ∧
    (s.respond n status reason detail txn p).threads = s.threads ∧
    (s.respond n status reason detail txn p).outs = s.outs ∧
    (s.respond n status reason detail txn p).qm = s.qm ∧
    (s.respond n status reason detail txn p).stores = s.stores ∧
    (s.respond n status reason detail txn p).mb.open_ = s.mb.open_) ∧
  (∀ (s : State) (n : Nat), (s.progress n).regs = s.regs ∧ ((s.progress n).mbx n).inProg = true ∧
    ((s.progress n).mbx n).resp.status = stProgress)

/-- MAILBOX_DOORBELL on mailbox n < 64 that is neither BUSY nor OFFLINE: the request region holds the request's bytes.
Where the record of the last command does not answer it (another OPCODE or CMD_ID) and R378 lists its opcode, the
mailbox is BUSY with that request, not in progress, REISSUE 0 and COMMANDS counted once. Where the record answers it
(the same OPCODE and CMD_ID; here with FLAGS.IRQ 0), the recorded response is written again, REISSUE is 1 and the
mailbox is DONE, nothing being executed. Where the mailbox is BUSY or OFFLINE, DB_ERR is set. -/
def Obligations.DoorbellTakesRequest : Prop :=
  (∀ (n : Nat) (req : MbxReq) (s u : State), n < 64 → s.mbxState n ≠ mBusy → s.mbxState n ≠ mOffline →
    u = s.regionWrite n 0 (reqBytes req) →
    (∀ r, (u.mbx n).record = some r → ¬(r.1 = (u.mbx n).request.opcode ∧ r.2.1 = (u.mbx n).request.cmdId)) →
    (u.mbx n).request.opcode ∈ opcodes →
    exec (.mailboxDoorbell n req) s =
      .next ((((u.takes n).wr F.MBX_STATUS_REISSUE [n] 0).wr F.MBX_STATUS_STATE [n] mBusy).count F.MBX_STATUS_COMMANDS [n] 1)) ∧
  (∀ (n : Nat) (req : MbxReq) (s u : State) (r : MbxResp), n < 64 → s.mbxState n ≠ mBusy → s.mbxState n ≠ mOffline →
    u = s.regionWrite n 0 (reqBytes req) →
    (u.mbx n).record = some ((u.mbx n).request.opcode, (u.mbx n).request.cmdId, r) →
    (u.mbx n).request.flags.getLsbD 0 = false →
    exec (.mailboxDoorbell n req) s = .next ((((u.takes n).setMbx n { (u.takes n).mbx n with resp := r }).wr
      F.MBX_STATUS_REISSUE [n] 1).wr F.MBX_STATUS_STATE [n] mDone)) ∧
  (∀ (n : Nat) (req : MbxReq) (s : State), n < 64 → s.mbxState n = mBusy →
    exec (.mailboxDoorbell n req) s =
      .next ((s.wr F.MBX_STATUS_DB_ERR [n] 1).wr F.MBX_STATUS_DB_ERR [n] 1)) ∧
  (∀ (n : Nat) (req : MbxReq) (s : State), n < 64 → s.mbxState n = mOffline →
    exec (.mailboxDoorbell n req) s = .next ((s.regionWrite n 0 (reqBytes req)).wr F.MBX_STATUS_DB_ERR [n] 1))

/-- Each of the six commands that only read, asked for in mailbox n with a well-formed payload whose operands are in
range (for TXN_STATUS, of a partition whose open transaction has not timed out), answers OK with the payload of its
table, taken from the registers and units it names; the next state is the state before with that response written in
mailbox n, and nothing else changed. -/
def Obligations.InformationCommandsAnswer : Prop :=
  (∀ (n : Nat) (s : State) (p : List Byte), s.asked n 0x01 false (bytesOk 0 []) p →
    exec (.getInfo n) s = .next (s.ok n (leBytes 4 (s.regWord R.SPN_FW_VER [] 0).toNat ++
      leBytes 1 (s.rd F.MBX_GLOBAL_FW_IMAGE []) ++ leBytes 1 (s.rd F.MBX_GLOBAL_ACTIVE_CORE []) ++
      leBytes 1 (s.rd F.MBX_GLOBAL_STANDBY_READY []) ++ leBytes 1 0 ++ leBytes 4 (s.regWord R.SPN_ID [] 0).toNat ++
      leBytes 4 s.mcodeVer ++ leBytes 4 (s.regWord R.SPN_MCODE_ID [] 0).toNat ++ leBytes 8 Config.serial ++
      leBytes 2 2016 ++ leBytes 1 64 ++ leBytes 1 0))) ∧
  (∀ (n : Nat) (s : State) (p : List Byte), s.asked n 0x93 false (bytesOk 8 [5, 6, 7]) p → 1 ≤ leAt p 4 1 →
    leAt p 4 1 ≤ 31 → leAt p 0 4 ≠ 0xFFFFFFFF →
    exec (.logRead n) s = .next (s.ok n
      (leBytes 4 ((s.flt.log.head?.map LogRec.seq).getD s.flt.logSeq) ++ leBytes 4 s.flt.logSeq ++
        leBytes 1 ((s.flt.log.filter (fun x => decide (leAt p 0 4 ≤ x.seq))).take (leAt p 4 1)).length ++ leBytes 3 0 ++
        ((s.flt.log.filter (fun x => decide (leAt p 0 4 ≤ x.seq))).take (leAt p 4 1)).flatMap LogRec.bytes))) ∧
  (∀ (n : Nat) (s : State) (p : List Byte), s.asked n 0xA0 false (bytesOk 0 []) p →
    exec (.memInfo n) s = .next (s.ok n (leBytes 2 (s.rd F.MEM_CFG_CAPACITY []) ++ leBytes 1 (s.rd F.MEM_CFG_RANKS [] + 1) ++
      leBytes 1 (16 + 8 * s.rd F.MEM_CFG_DENSITY []) ++ leBytes 8 s.hostSize ++ leBytes 8 (s.hostSize / 2) ++
      leBytes 8 (s.hostSize - s.hostSize / 2) ++ leBytes 8 (s.memCap / 16) ++
      leBytes 10 ((List.range 80).foldl (fun m d => if s.rdB F.MEM_DEV_ERR_RETIRED [d] then m + 2 ^ d else m) 0) ++
      leBytes 1 (s.rd F.MEM_STATUS_INIT_DONE []) ++ leBytes 1 0))) ∧
  (∀ (n : Nat) (s : State) (p : List Byte), s.asked n 0x14 false (bytesOk 4 [1, 2, 3]) p →
    s.txnPartOk (leAt p 0 1) = true → s.txnInTime (leAt p 0 1) → exec (.txnStatus n) s = .next (s.ok n (s.txnStatus (leAt p 0 1)))) ∧
  (∀ (n : Nat) (s : State) (p : List Byte), s.asked n 0x55 false (bytesOk 1 []) p → leAt p 0 1 ≤ 3 →
    exec (.syndRead n) s =
      .next (s.ok n (s.decBytes (leAt p 0 1) ++ (s.decGroups (leAt p 0 1)).dedup.flatMap s.groupBytes))) ∧
  (∀ (n : Nat) (s : State) (p : List Byte), s.asked n 0x72 false (bytesOk 4 []) p →
    converterKind (unitOfWord (leAt p 0 4)).kind = true → (unitOfWord (leAt p 0 4)).valid = true →
    (unitOfWord (leAt p 0 4)).present s.variant = true →
    exec (.calStatus n) s = .next (s.ok n
      (leBytes 1 (if s.calValid (unitOfWord (leAt p 0 4)) || decide ((unitOfWord (leAt p 0 4)).kind = 13) then 1 else 0) ++
        leBytes 1 (if (s.calU (unitOfWord (leAt p 0 4))).due.isSome then 1 else 0) ++
        leBytes 1 (if (s.calU (unitOfWord (leAt p 0 4))).stale then 1 else 0) ++
        leBytes 1 (s.calU (unitOfWord (leAt p 0 4))).source ++
        leBytes 4 (s.opSec - (s.calU (unitOfWord (leAt p 0 4))).opsec) ++
        leBytes 2 (unsigned 16 (s.calU (unitOfWord (leAt p 0 4))).temp) ++ leBytes 2 0)))

/-- SAFE_ENTER in any mode but RESET answers OK after the entry to SAFE with cause 4, and MODE reads SAFE after it.
RESUME in SAFE, with no viral, no thermal shutdown or dwell, no sensor at or above WARN, IDLE_READY, and the reference
locked where it is required, sets SPN_MODE.CHANGING and answers IN_PROGRESS, MODE staying SAFE. RESUME_COMPLETE, when
a RESUME has been accepted and MODE is SAFE, makes MODE IDLE, clears CHANGING and answers each waiting RESUME OK with
the mode. -/
def Obligations.SafeModeCommands : Prop :=
  (∀ (n : Nat) (s : State) (p : List Byte), s.asked n 0x03 false (bytesOk 0 []) p → s.mode ≠ mReset → s.mode ≠ mSafe →
    ∃ t, exec (.safeEnter n) s = .next t ∧ t = (s.enterSafe 4).ok n [] ∧ t.mode = mSafe) ∧
  (∀ (n : Nat) (s : State) (p : List Byte), s.asked n 0x03 false (bytesOk 0 []) p → s.mode = mSafe →
    ∃ t, exec (.safeEnter n) s = .next t ∧ t = (s.enterSafe 4).ok n [] ∧ t.mode = mSafe) ∧
  (∀ (n : Nat) (s : State) (p : List Byte), s.asked n 0x02 false (bytesOk 0 []) p → s.mode = mSafe → s.viral = false →
    s.shutdown = false → s.rdB F.THM_STATUS_DWELL [] = false → s.anyWarm = false →
    s.rdB F.MBX_GLOBAL_IDLE_READY [] = true →
    (s.rdB F.TIM_REF_CTRL_REQUIRE_REF [] = true → s.rd F.TIM_REF_STATUS_STATE [] = 4) →
    ∃ t, exec (.resume n) s = .next t ∧ t.mode = mSafe ∧
      t = (({ s with boot := { s.boot with resuming := some (s.boot.resuming.getD s.now) } }).wr
        F.SPN_MODE_CHANGING [] 1).progress n) ∧
  (∀ (s : State), s.boot.resuming.isSome = true → s.mode = mSafe →
    ∃ t, exec .resumeComplete s = .next t ∧ t.mode = mIdle ∧ t.boot.resuming = none ∧
      t = s.resumers.foldl (fun (u : State) n => u.ok n (leBytes 1 mIdle)) ((({ s with
        boot := { s.boot with resuming := none },
        outs := { s.outs with bias := s.outs.bias.map (fun (e : Nat × BiasRun) => (e.1, { e.2 with safeAt := none })) } } :
          State).setMode mIdle (s.rd F.SPN_MODE_SAFE_CAUSE [])).wr F.SPN_MODE_CHANGING [] 0))

/-- FW_STAGE of an image that every check passes (source in an active memory, header, signature, SVN, stepping, no
stage or activation at work) makes the slot that does not run unreadable until the stage ends, clears STAGED and
answers IN_PROGRESS. FW_ACTIVATE with FLAGS 0 or 1, a staged slot, a ready standby core and no stage at work clears
STANDBY_READY and answers IN_PROGRESS. MGMT_HANDOVER with a ready standby core makes it the active core, counts the
handover, writes its log record and answers OK with the core's number. -/
def Obligations.FirmwareCommands : Prop :=
  (∀ (n : Nat) (s : State) (p : List Byte), s.asked n 0x90 false (bytesOk 12 []) p →
    s.fwReason (leAt p 0 8) (leAt p 8 4) = 0 →
    exec (.fwStage n) s = .next (State.progress { ((s.setFlash (!s.runsB)
      (some { fwHeader (s.memRead (leAt p 0 8) (leAt p 8 4)) with readOk := false })).wr F.SPN_BOOT_STATUS_STAGED [] 0) with
        boot := { ((s.setFlash (!s.runsB)
          (some { fwHeader (s.memRead (leAt p 0 8) (leAt p 8 4)) with readOk := false })).wr F.SPN_BOOT_STATUS_STAGED [] 0).boot with
          staging := some n } } n)) ∧
  (∀ (n : Nat) (s : State) (p : List Byte), s.asked n 0x91 false (bytesOk 4 [1, 2, 3]) p → leAt p 0 1 ≤ 1 →
    s.rdB F.SPN_BOOT_STATUS_STAGED [] = true → s.rdB F.MBX_GLOBAL_STANDBY_READY [] = true → s.boot.staging = none →
    exec (.fwActivate n) s = .next ((State.wr { s with
      boot := { s.boot with activating := some (n, bit (leAt p 0 1) 0) } } F.MBX_GLOBAL_STANDBY_READY [] 0).progress n)) ∧
  (∀ (n : Nat) (s : State) (p : List Byte), s.asked n 0x92 false (bytesOk 0 []) p →
    s.rdB F.MBX_GLOBAL_STANDBY_READY [] = true →
    exec (.mgmtHandover n) s =
      .next (s.handover.ok n (leBytes 1 (s.handover.rd F.MBX_GLOBAL_ACTIVE_CORE []) ++ leBytes 3 0)))

/-- A copy whose device range lies in the host region, whose addresses and length are multiples of 64, whose length is
64 bytes to 64 MiB, with no viral, answers IN_PROGRESS. COMMAND_FINAL_RESPONSE of a HOST_COPY_IN that ends whole and
brings at least LEN bytes stores byte k of them at the device address plus k for every k below LEN, leaves every other
byte of device memory as it was, and answers OK with the byte count. That of a HOST_COPY_OUT emits one write of those
LEN bytes of device memory to the host address, marked with its poisoned lines, and leaves device memory as it was. -/
def Obligations.HostCopiesMoveBytes : Prop :=
  (∀ (n : Nat) (s : State) (p : List Byte), s.asked n 0x80 false (bytesOk 20 []) p → s.copyReason (copyAsk true p) = 0 →
    exec (.hostCopyIn n) s = .next (s.progress n)) ∧
  (∀ (n : Nat) (s : State) (p : List Byte), s.asked n 0x81 false (bytesOk 20 []) p → s.copyReason (copyAsk false p) = 0 →
    exec (.hostCopyOut n) s = .next (s.progress n)) ∧
  (∀ (s : State) (a : CopyAsk), s.copyReason a = 0 ↔
    (s.inHost a.dev a.len = true ∧ a.host % 64 = 0 ∧ a.dev % 64 = 0 ∧ 64 ≤ a.len ∧ a.len ≤ 2 ^ 26 ∧ a.len % 64 = 0 ∧
      s.viral = false)) ∧
  (∀ (n : Nat) (s : State) (o : FinalObs), n < 64 → s.mbxState n = mBusy → (s.mbx n).inProg = true →
    (s.mbx n).req.opcode = 0x80 → o.ok = true → (copyAsk true (s.mbx n).req.payload).len ≤ o.data.length →
    ∃ t, exec (.commandFinalResponse n o) s = .next t ∧
      (∀ (k : Nat) (hk : k < o.data.length), k < (copyAsk true (s.mbx n).req.payload).len →
        t.byteAt ((copyAsk true (s.mbx n).req.payload).dev + k) = o.data[k]) ∧
      (∀ a, a < (copyAsk true (s.mbx n).req.payload).dev ∨
        (copyAsk true (s.mbx n).req.payload).dev + (copyAsk true (s.mbx n).req.payload).len ≤ a → t.byteAt a = s.byteAt a) ∧
      t = (s.memWrite (copyAsk true (s.mbx n).req.payload).dev
        (o.data.take (copyAsk true (s.mbx n).req.payload).len)).ok n (leBytes 4 (copyAsk true (s.mbx n).req.payload).len)) ∧
  (∀ (n : Nat) (s : State) (o : FinalObs), n < 64 → s.mbxState n = mBusy → (s.mbx n).inProg = true →
    (s.mbx n).req.opcode = 0x81 → o.ok = true → 0 < (copyAsk false (s.mbx n).req.payload).len →
    exec (.commandFinalResponse n o) s = .next ((s.emit (.hostWrite (copyAsk false (s.mbx n).req.payload).host
      (s.memRead (copyAsk false (s.mbx n).req.payload).dev (copyAsk false (s.mbx n).req.payload).len)
      (((List.range (((copyAsk false (s.mbx n).req.payload).len + 63) / 64)).filter (fun i =>
        s.memPoisoned ((copyAsk false (s.mbx n).req.payload).dev + 64 * i) 64)).map (fun i =>
          (copyAsk false (s.mbx n).req.payload).host / 64 + i)))).ok n (leBytes 4 (copyAsk false (s.mbx n).req.payload).len)))

/-- A read of TIM_NOW_LO emits the low 32 bits of TICK, leaves TIM_NOW_HI holding the bits above them so that the two
reads together give one TICK, leaves every other register field that shares no word with TIM_NOW_HI as it was, and
changes no other state: the tick, device memory, the threads, the stores and the queue are as before. While grid time
is defined, TICK is the ticks since power-on plus the offset, modulo 2^57. -/
def Obligations.GridTimeReads : Prop :=
  (∀ s : State, ∃ t, exec .timNowLoRead s = .next t ∧ t.emitted = s.emitted ++ [.regData [BitVec.ofNat 32 s.grid]] ∧
    t.rd F.TIM_NOW_HI_TICK_HI [] * 2 ^ 32 + s.grid % 2 ^ 32 = s.grid ∧
    (∀ (r : Reg) (ix : List Nat) (w : Nat), r.addr ix w ≠ R.TIM_NOW_HI.addr [] 0 → t.regWord r ix w = s.regWord r ix w) ∧
    t = { s with regs := t.regs, emitted := t.emitted }) ∧
  (∀ s : State, s.clk.gridValid = true → (s.grid : Int) = ((s.clk.tick : Int) + s.clk.off) % 2 ^ 57)

/-- REFIN_EDGE_SEEN with REF_EN 1 in FREE_RUN or HOLDOVER enters QUALIFY and notes the state it came from. QUALIFY_END
15,625,000 ticks into QUALIFY, with no failure noted and a measured frequency within 20 ppm of the nominal one of
FREQ, enters PULL with the phase against the nearest REFIN edge, which lies within half a period; otherwise it sets
OUT_OF_RANGE and stays. In PULL the phase error never grows, falls by at most one unit (2 ps) in 6,250 ticks, and is
within 10 units from the tick in band on; its course and the steering are free values (log 43). QUALIFY_RETURN
156,250,000 ticks after a failure is again in the state QUALIFY came from, with PHASE_ERR 0 and the age of
TIM_XTAL_AGE in force. REF_LOCK in PULL, 156,250,000 ticks after the phase came within 20 ps, enters LOCKED. REF_LOSS
in LOCKED or PULL enters HOLDOVER, sets LOSS, counts it, and records the short time and the fault. TIM_REF_CTRL_WRITE
in SAFE restarts the machine in QUALIFY or DISABLED; in RESET a value that changes FREQ or REF_EN does. -/
def Obligations.ReferenceMachine : Prop :=
  (∀ s : State, s.rdB F.TIM_REF_CTRL_REF_EN [] = true → (s.refState = rFree ∨ s.refState = rHold) →
    exec .refinEdgeSeen s = .next ({ s with clk := { s.clk with refFrom := s.refState } }.setRefState rQualify)) ∧
  (∀ (s : State) (freq : Nat) (phase : Int), s.refState = rQualify → s.clk.refFail = none →
    s.clk.refSince + 15625000 ≤ s.now →
    (((freq : Int) - s.refNominal).natAbs * 50000 ≤ s.refNominal →
      exec (.qualifyEnd freq phase) s = .next (s.beginPull (s.nearestPhase phase))) ∧
    (s.refNominal < ((freq : Int) - s.refNominal).natAbs * 50000 → exec (.qualifyEnd freq phase) s =
      .next { s.wr F.TIM_REF_STATUS_OUT_OF_RANGE [] 1 with clk := { s.clk with refFail := some s.now } })) ∧
  (∀ (s : State) (phase : Int), -(s.refHalf : Int) ≤ s.nearestPhase phase ∧ s.nearestPhase phase < s.refHalf ∧
    (phase - s.nearestPhase phase) % (2 * s.refHalf : Nat) = 0) ∧
  (∀ (s : State) (p : Int),
    (let u := (({ s with freeCtr := s.freeCtr + 1 } : State).setRefState rPull).wrI F.TIM_REF_STATUS_PHASE_ERR [] p;
      let span := (if p.natAbs ≤ 10 then 0 else s.refHalf * 6250) - (p.natAbs - 10) * 6250;
      s.beginPull p = State.loopSteer { u with clk := { u.clk with
        refPhase := p, refInBand := some (s.now + (p.natAbs - 10) * 6250 + Config.freeNat s.freeCtr % (span + 1)) } })) ∧
  (∀ (old entry : Int) (since now band draw : Nat),
    (pullPhase old entry since now band draw).natAbs ≤ old.natAbs ∧
    (band ≤ now → (pullPhase old entry since now band draw).natAbs ≤ 10) ∧
    min (if band ≤ now then min old.natAbs 10 else old.natAbs) (entry.natAbs - (now - since) / 6250) ≤
      (pullPhase old entry since now band draw).natAbs) ∧
  (∀ (s : State) (t : Nat), s.refState = rQualify → s.clk.refFail = some t → t + 156250000 ≤ s.now →
    exec .qualifyReturn s = .next (s.refOpen s.clk.refFrom)) ∧
  (∀ (s : State) (t : Nat), s.refState = rPull → s.clk.refInBand = some t → t + 156250000 ≤ s.now →
    exec .refLock s = .next (s.setRefState rLocked)) ∧
  (∀ s : State, (s.refState = rLocked ∨ s.refState = rPull) →
    exec .refLoss s = .next (((((s.refOpen rHold).wr F.TIM_REF_STATUS_LOSS [] 1).count F.TIM_REF_STATUS_LOSS_COUNT [] 1).wr
      F.TIM_REF_LOSS_TICK_TICK [] (short s.grid)).note (.spine 1) 1 0)) ∧
  (∀ (s : State) (v : Word), s.mode = mSafe ∨ s.mode = mReset ∧ (s.regWord R.TIM_REF_CTRL [] 0).toNat % 4 ≠ v.toNat % 4 →
    exec (.timRefCtrlWrite v) s = .next (s.setRegWord R.TIM_REF_CTRL [] 0 (v &&& 7)).refRestart)

/-- PLL_LOCK of a started part whose PLL is not locked makes grid time 0 and defined at that tick, sets LOCKED and
restarts the time service; the strobe that aligns the tiles follows at the next boundary. PLL_UNLOCK makes grid time
undefined (its value is a free value until the relock, log 5), clears LOCKED and TILES_ALIGNED, sets UNLOCK and takes
the fault of severity 4 of the time base. TILE_TICK_CHECK of a present, aligned tile at a multiple of 1,024 ticks,
whose count differs from the low 16 bits of the grid time, sets its TILE_TICK_ERR bit and takes the tile's
TICK_MISMATCH fault; a count that agrees, or another tick, changes nothing. -/
def Obligations.MainPll : Prop :=
  (∀ s : State, s.boot.started = true → s.rdB F.TIM_PLL_STATUS_LOCKED [] = false →
    (let u := ({ s with clk := { s.clk with off := -(s.now : Int), gridValid := true, strobe := true } } : State).wr
        F.TIM_PLL_STATUS_LOCKED [] 1;
      exec .pllLock s = .next (u.tsRestart u.ts.epoch)) ∧
    ({ s with clk := { s.clk with off := -(s.now : Int), gridValid := true, strobe := true } } : State).grid = 0) ∧
  (∀ s : State, s.rdB F.TIM_PLL_STATUS_LOCKED [] = true →
    exec .pllUnlock s = .next (State.fault ((((({ s with clk := { s.clk with gridValid := false, strobe := false } } :
      State).wr F.TIM_PLL_STATUS_LOCKED [] 0).wr F.TIM_PLL_STATUS_TILES_ALIGNED [] 0).wr F.TIM_PLL_STATUS_UNLOCK [] 1))
      (.spine 1) 0 0)) ∧
  (∀ (s : State) (tile : Nat) (n : BitVec 16), tile < s.variant.tiles → s.rdB F.TIM_PLL_STATUS_TILES_ALIGNED [] = true →
    s.grid % 1024 = 0 → n.toNat ≠ s.grid % 65536 →
    exec (.tileTickCheck tile n) s = .next (State.fault (s.wr F.TIM_PLL_STATUS_TILE_TICK_ERR []
      (s.rd F.TIM_PLL_STATUS_TILE_TICK_ERR [] ||| 2 ^ tile)) (.tile tile 107) 1 0)) ∧
  (∀ (s : State) (tile : Nat) (n : BitVec 16), n.toNat = s.grid % 65536 ∨ s.grid % 1024 ≠ 0 → exec (.tileTickCheck tile n) s = .next s)

/-- TICK_BOUNDARY_APPLY 1 ends the present tick, passes one tick, brings the due corrections into force, then the due
staged writes in the order of their entry, then the due transactions in the order of their commits, and begins the new
tick; TXN_APPLY of a partition whose committed transaction is due at the next tick does exactly that. A single staged
write that is due leaves staging and is applied to its register under its mask; with every transaction not yet due,
that step changes none. A due transaction applies each of its setting entries in order and is marked applied.
TICK_BOUNDARY_APPLY of more ticks is that boundary and then only ticks on which nothing is due. COUPLE_TIMEOUT of a
pair whose one staged member is 156,250 ticks old discards the stage, records 0x0301 in the block's REFUSE register
and records the pair's fault; of a younger one it changes nothing. -/
def Obligations.BoundaryAppliesStaged : Prop :=
  (∀ s : State, exec (.tickBoundaryApply 1) s =
    .next ((s.endTick.passTicks 1).bringCorrections.swapLines.applyStaged.applyTxns.beginTick)) ∧
  (∀ (s : State) (part : Nat) (t : Txn), s.commTxn part = some t → t.applied = false → t.commit = s.now + 1 →
    exec (.txnApply part) s =
      .next ((s.endTick.passTicks 1).bringCorrections.swapLines.applyStaged.applyTxns.beginTick)) ∧
  (∀ (s : State) (a e : Nat) (v m : Word) (r : Reg) (ix : List Nat) (w : Nat), s.staged = [⟨.word a v m, e, false⟩] →
    e < s.now → findReg a regTable = some (r, ix, w) →
    s.applyStaged = ({ s with staged := [] } : State).applySetting r ix w v m) ∧
  (∀ s : State, s.mb.committed.all (fun e => e.2.applied || decide (s.now < e.2.commit)) = true →
    s.applyTxns = s.settleTxns) ∧
  (∀ (s : State) (p : Nat) (t : Txn), s.mb.committed = [(p, t)] → t.applied = false → t.commit ≤ s.now →
    (let u := (t.entries.filter (fun e => decide (e.kind = 0))).foldl (fun u e => u.applyEntry t.entries e) s;
      s.applyTxns = ({ u with mb :=
        { u.mb with committed := SMap.put .idle u.mb.committed p { t with applied := true } } } : State).settleTxns)) ∧
  (∀ (s : State) (n : Nat), exec (.tickBoundaryApply n) s = .next (s.boundary.skipTicks (n - 1))) ∧
  (∀ (s : State) (n : Nat), (s.skipTicks n).now ≤ s.now + n ∧ s.now ≤ (s.skipTicks n).now ∧
    (∀ d ∈ s.dueTicks, s.now < d → (s.skipTicks n).now < d)) ∧
  (∀ (s : State) (addr : Nat) (c : Couple) (b : FltBlk) (bit unit : Nat), c ∈ s.couples → c.addr = addr →
    c.entry + 156250 ≤ s.now → coupleFault addr = some (b, bit, unit) →
    exec (.coupleTimeout addr) s = .next ((({ s with couples := s.couples.filter (fun d => decide (d.addr ≠ addr)) } :
      State).refuse addr 0x0301).note b bit unit)) ∧
  (∀ (s : State) (addr : Nat), (∀ c ∈ s.couples, c.addr = addr → s.now < c.entry + 156250) →
    exec (.coupleTimeout addr) s = .next s)

/-- REG_WRITE of 4 bytes at a multiple of 4 that is no listed offset of the spine's registers, or lies in the window
of an absent tile, changes nothing. A write of 1 to 3 bytes within one doubleword is discarded and sets PARTIAL_WR. A
4-byte write of a spine register, or of a register of a present tile with a working link outside its memory windows to
which no decision update is on its way, is the direct write of that register; where one is, the write follows it. For
an RWS setting of a drive channel or flux output (GAIN, OFFSET, LEVEL) the direct write stages the word, to take
effect at the next tick boundary, and changes nothing else. A write of an RL delay whose channel runs, changing it, is
refused with 0x0501 and recorded. -/
def Obligations.RegisterWrites : Prop :=
  (∀ (s : State) (a : Nat) (v : BitVec 64), a % 4 = 0 → a < 0x100000 → findReg a regTable = none →
    exec (.regWrite a 4 v) s = .next s) ∧
  (∀ (s : State) (a : Nat) (v : BitVec 64), a % 4 = 0 → 0x1000000 ≤ a → a < 0x8000000 → s.variant.tiles ≤ a / 0x1000000 - 1 →
    exec (.regWrite a 4 v) s = .next s) ∧
  (∀ (s : State) (a len : Nat) (v : BitVec 64), 0 < len → a % 4 + len < 4 →
    exec (.regWrite a len v) s = .next ((s.wr F.SPN_HIF_STATUS_PARTIAL_WR [] 1).note (.spine 0) 6 0)) ∧
  (∀ (s : State) (a : Nat) (v : BitVec 64) (r : Reg) (ix : List Nat) (w : Nat), a % 4 = 0 → a < 0x100000 →
    findReg a regTable = some (r, ix, w) → exec (.regWrite a 4 v) s = .next (s.directWord r ix w (v.setWidth 32))) ∧
  (∀ (s : State) (a : Nat) (v : BitVec 64) (r : Reg) (ix : List Nat) (w : Nat), a % 4 = 0 → 0x1000000 ≤ a → a < 0x8000000 →
    a % 0x1000000 < 0x300000 → s.tileReached (a / 0x1000000 - 1) = true → findReg a regTable = some (r, ix, w) →
    takeMsg (a / 0x1000000 - 1) s.dec.fabric = none →
    exec (.regWrite a 4 v) s = .next (s.directWord r ix w (v.setWidth 32))) ∧
  (∀ (s : State) (a : Nat) (v : BitVec 64), a % 4 = 0 → 0x1000000 ≤ a → a < 0x8000000 →
    s.tileReached (a / 0x1000000 - 1) = true → (takeMsg (a / 0x1000000 - 1) s.dec.fabric).isSome = true →
    exec (.regWrite a 4 v) s = .next { s with dec := { s.dec with
      fabric := s.dec.fabric ++ [⟨a / 0x1000000 - 1, s.now, hub, .write a (v.setWidth 32)⟩] } }) ∧
  (∀ (s : State) (t c : Nat) (v : Word) (r : Reg), s.canonical → r ∈ [R.DRV_GAIN, R.DRV_OFFSET, R.FLX_GAIN, R.FLX_LEVEL] →
    t < 7 → c < 64 →
    s.directWord r [t, c] 0 v = s.stage (.word (r.addr [t, c] 0) v (BitVec.ofNat 32 (r.maskBy 0 (fun a => decide (a = .rws))))) false) ∧
  (∀ (s : State) (t c : Nat) (v : Word) (r : Reg), r ∈ [R.DRV_DELAY, R.FLX_DELAY, R.BIA_DELAY] → t < 7 → c < 64 →
    s.changesRl r [t, c] 0 v.toNat = true → s.running r [t, c] = true →
    s.directWord r [t, c] 0 v = s.refuse (r.addr [t, c] 0) 0x0501)

/-- For each of the 15 gate-level instruction rows (PLAY to PUB) and whatever its fetches meet: if the thread does not
issue now, or its word at PC carries another opcode, the command changes nothing. If the word is the row's and PC is
outside the thread's region, the shot ends with PC_RANGE at the issue tick. If PC is inside and the cost of the word
does not fit in the 8 microword slots of the issue tick, the instruction has no effect, the slip is counted and
recorded and the shot ends with TIMING_SLIP at the issue tick. If it fits and a micro-store word it fetches fails, its
cost is charged (none where the dispatch entry fails) and the shot ends by that store's machine check. -/
def Obligations.GateIssueRules : Prop :=
  ∀ (c : Instr) (g op k : Nat) (ev : FetchEv) (cost : GateWord → Nat) (s : State) (w : GateWord),
    gateOf c = some (g, ev, op, cost) → w = s.gateAt (thrGc g) (s.thr g).pc →
    k = (if s.dispatchFails g ev w then 0 else cost w) →
    ((s.thr g).issues s.now = false ∨ opcode w ≠ op → exec c s = .next s) ∧
    ((s.thr g).issues s.now = true → opcode w = op → (s.thr g).inRegion = false →
      exec c s = .next (s.endThread g stPcRange (s.thr g).issue)) ∧
    ((s.thr g).issues s.now = true → opcode w = op → (s.thr g).inRegion = true → 8 < (s.thr g).used + k →
      exec c s = .next (s.slip g)) ∧
    (∀ e : Ending, s.issuing g op k w → s.fetchFails g ev w = some e → exec c s = .next ((s.charged g k).endBy g e))

/-- FRAME (opcode 0x02) in add mode on a thread that issues it now and whose next address is in its region: the named
frame is the sum of its old value and the operand modulo 2^32 (the immediate, or a register), every other frame and
every general register, counter, slot and marker of the thread and every other thread is as before, PC is the next
address, two microwords are charged in the issue tick, which stays (0 ticks), and the outputs (every pulse placed) are
as before. In set mode the frame is the operand. -/
def Obligations.FrameAdditions : Prop :=
  (∀ (g : Nat) (ev : FetchEv) (s : State) (w : GateWord), s.runs g ev 0x02 2 w → opr w 53 1 = 0 → (s.thr g).pc + 1 ≤ (s.thr g).last →
    ∃ t, exec (.frame ⟨g, ev⟩) s = .next t ∧
      ((t.thr g).frameAt (opr w 55 3)).toNat = (((s.thr g).frameAt (opr w 55 3)).toNat +
        (if opr w 53 2 < 2 then opr w 17 32 else ((s.thr g).reg (opr w 49 4)).toNat)) % 2 ^ 32 ∧
      (∀ k, k ≠ opr w 55 3 → (t.thr g).frameAt k = (s.thr g).frameAt k) ∧
      t.thr g = { s.thr g with
        fr := (t.thr g).fr, pc := (s.thr g).pc + 1, used := (s.thr g).used + 2, peak := max (s.thr g).peak ((s.thr g).used + 2) } ∧
      (∀ h, h ≠ g → t.thr h = s.thr h) ∧ t.outs = s.outs ∧ t.regs = s.regs ∧ t = { s with threads := t.threads }) ∧
  (∀ (g : Nat) (ev : FetchEv) (s : State) (w : GateWord), s.runs g ev 0x02 2 w → opr w 53 1 = 1 → (s.thr g).pc + 1 ≤ (s.thr g).last →
    ∃ t, exec (.frame ⟨g, ev⟩) s = .next t ∧
      (t.thr g).frameAt (opr w 55 3) =
        (if opr w 53 2 < 2 then BitVec.ofNat 32 (opr w 17 32) else (s.thr g).reg (opr w 49 4)) ∧
      (∀ k, k ≠ opr w 55 3 → (t.thr g).frameAt k = (s.thr g).frameAt k) ∧
      t.thr g = { s.thr g with
        fr := (t.thr g).fr, pc := (s.thr g).pc + 1, used := (s.thr g).used + 2, peak := max (s.thr g).peak ((s.thr g).used + 2) } ∧
      (∀ h, h ≠ g → t.thr h = s.thr h) ∧ t = { s with threads := t.threads })

/-- For a thread that issues the instruction now, the next state is the state with the microwords charged and PC at
the next address, changed by exactly the instruction's effect, and then PC checked against the region. SETF selects
the slot on each channel of the mask. LOOP loads the counter with COUNT or a nonzero register; its decrement branches
to TGT while the counter is not 0 after it, goes on when it reaches 0, and flags LOOP_ZERO at 0. SWEEP takes the next
value of an enabled generator into its register (DEST 0). MARK adds the marker edges. PUB by the slot's owner
publishes class CLS (0-2) with the issue tick. PLAY of a valid nano-word from envelope memory, in reach, no error on
its fetch, places its pulses at the issue tick plus its offset. MEAS opens its windows. -/
def Obligations.GateInstructionResults : Prop :=
  (∀ (g : Nat) (ev : FetchEv) (s : State) (w : GateWord), s.runs g ev 0x03 2 w →
    exec (.setf ⟨g, ev⟩) s = .next (((s.issued g 2).updThr g (fun t => t.selectSlot (opr w 50 8) (opr w 49 1) (opr w 45 4))).checkPc g)) ∧
  (∀ (g : Nat) (ev : FetchEv) (s : State) (w : GateWord), s.runs g ev 0x0B 2 w → opr w 54 2 = 0 →
    exec (.loop ⟨g, ev⟩) s = .next (((s.issued g 2).updThr g (fun t => t.setCounter (opr w 56 2) (BitVec.ofNat 32 (opr w 2 32)))).checkPc g)) ∧
  (∀ (g : Nat) (ev : FetchEv) (s : State) (w : GateWord), s.runs g ev 0x0B 2 w → opr w 54 2 = 1 → (s.thr g).reg (opr w 50 4) ≠ 0 →
    exec (.loop ⟨g, ev⟩) s = .next (((s.issued g 2).updThr g (fun t => t.setCounter (opr w 56 2) (t.reg (opr w 50 4)))).checkPc g)) ∧
  (∀ (g : Nat) (ev : FetchEv) (s : State) (w : GateWord), s.runs g ev 0x0B 3 w → opr w 54 2 = 2 →
    exec (.loop ⟨g, ev⟩) s = .next (((s.issued g 3).updThr g (fun t =>
      if t.counter (opr w 56 2) = 0 then t.flag 3
      else if t.counter (opr w 56 2) = 1 then t.setCounter (opr w 56 2) 0
      else { t.setCounter (opr w 56 2) (t.counter (opr w 56 2) - 1) with pc := opr w 34 16 })).checkPc g)) ∧
  (∀ (g : Nat) (ev : FetchEv) (s : State) (w : GateWord), s.runs g ev 0x0C 3 w → opr w 53 5 < 32 → opr w 52 1 = 0 →
    s.rdB F.TIL_GEN_CTRL_EN [thrTile g, opr w 53 5] = true →
    exec (.sweep ⟨g, ev⟩) s = .next ((((s.issued g 3).genAdvance (thrTile g) (opr w 53 5)).2.updThr g (fun t =>
      t.setReg (opr w 48 4) ((s.issued g 3).genAdvance (thrTile g) (opr w 53 5)).1)).checkPc g)) ∧
  (∀ (g : Nat) (ev : FetchEv) (s : State) (w : GateWord), s.runs g ev 0x0D 2 w →
    exec (.mark ⟨g, ev⟩) s = .next (((s.issued g 2).markEdges g (opr w 50 8) (opr w 46 4) (opr w 42 4) (opr w 35 7)).checkPc g)) ∧
  (∀ (g j : Nat) (ev : FetchEv) (s : State) (w : GateWord), s.runs g ev 0x0F 2 w → (s.thr g).job = some j →
    s.slotUser (960 + opr w 52 6) = .pub j g → opr w 51 1 = 0 → opr w 49 2 < 3 →
    exec (.pub ⟨g, ev⟩) s = .next (((s.issued g 2).publish (thrTile g) (writeOf (960 + opr w 52 6) (opr w 49 2) srcPub false false
      (s.gridAt (s.thr g).issue) (s.gridAt (s.thr g).issue))).checkPc g)) ∧
  (∀ (g k : Nat) (s : State) (w : GateWord) (n : Nano), s.runs g .ok 0x01 k w → k = 3 + opr w 38 1 + opr w 37 1 →
    s.poisoned (thrGc g) .nano (s.nBank g) (opr w 46 12) = false →
    n = playNano (s.thr g) w (decodeNano (s.nanoAt (thrGc g) (s.nBank g) (opr w 46 12))) → n.valid = true → n.off ≤ 254 →
    n.reaches (thrCluster g) = true → n.tkind ≠ 3 → n.stream = false →
    exec (.play g .ok) s = .next ((((s.issued g k).pulsesOf g n (128 * (s.thr g).issue + n.off)).foldl State.placePulse
      ((s.issued g k).envRead (thrTile g) n.base n.len)).checkPc g)) ∧
  (∀ (g : Nat) (ev : FetchEv) (s : State) (w : GateWord), s.runs g ev 0x06 4 w →
    exec (.meas ⟨g, ev⟩) s = .next (((s.issued g 4).openWindows g (opr w 55 3) (opr w 39 16) (opr w 38 1) (opr w 32 6)
      (decide (opr w 31 1 = 1)) (decide (opr w 30 1 = 1))).checkPc g))

/-- For a thread that issues it now: JUMP continues at TGT when its condition on the register holds (always, zero, not
zero, negative, not negative as a signed word) and at the next address otherwise; CALL with fewer than 8 entries
pushes the next address and continues at TGT, and with 8 ends the shot with STACK_FAULT; RET pops and continues at the
popped address, and with an empty stack finishes the shot with status 0 at the issue tick. JUMP charges 2 microwords,
CALL 3 and RET 2, in the issue tick, which stays. An issuing thread whose PC is then outside its region ends its shot
with PC_RANGE, and inside it goes on. -/
def Obligations.ControlFlow : Prop :=
  (∀ (g : Nat) (ev : FetchEv) (s : State) (w : GateWord), s.runs g ev 0x08 2 w →
    exec (.jump ⟨g, ev⟩) s = .next ((if jumpTaken (opr w 55 3) ((s.thr g).reg (opr w 51 4)) then
      (s.issued g 2).updThr g (fun t => { t with pc := opr w 35 16 }) else s.issued g 2).checkPc g)) ∧
  (∀ (g : Nat) (ev : FetchEv) (s : State) (w : GateWord), s.runs g ev 0x09 3 w → (s.thr g).stack.length < 8 →
    exec (.call ⟨g, ev⟩) s = .next (((s.issued g 3).updThr g (fun t =>
      { t with stack := t.pc :: t.stack, pc := opr w 42 16 })).checkPc g)) ∧
  (∀ (g : Nat) (ev : FetchEv) (s : State) (w : GateWord), s.runs g ev 0x09 3 w → 8 ≤ (s.thr g).stack.length →
    exec (.call ⟨g, ev⟩) s = .next ((s.charged g 3).endThread g stStack (s.thr g).issue)) ∧
  (∀ (g : Nat) (ev : FetchEv) (s : State) (w : GateWord) (a : Nat) (rest : List Nat), s.runs g ev 0x0A 2 w → (s.thr g).stack = a :: rest →
    exec (.ret ⟨g, ev⟩) s = .next (((s.issued g 2).updThr g (fun t => { t with pc := a, stack := rest })).checkPc g)) ∧
  (∀ (g : Nat) (ev : FetchEv) (s : State) (w : GateWord), s.runs g ev 0x0A 2 w → (s.thr g).stack = [] →
    exec (.ret ⟨g, ev⟩) s = .next (((s.issued g 2).endThread g 0 (s.thr g).issue).checkPc g)) ∧
  (∀ v : Word, jumpTaken 0 v = true ∧ (jumpTaken 1 v = true ↔ v = 0) ∧ (jumpTaken 2 v = true ↔ v ≠ 0) ∧
    (jumpTaken 3 v = true ↔ v.toInt < 0) ∧ (jumpTaken 4 v = true ↔ 0 ≤ v.toInt)) ∧
  (∀ (g n : Nat) (s : State), (s.issued g n).thr g = { s.thr g with
    pc := (s.thr g).pc + 1, used := (s.thr g).used + n, peak := max (s.thr g).peak ((s.thr g).used + n) }) ∧
  (∀ (g : Nat) (s : State), (s.thr g).st = 1 → (s.thr g).inRegion = false →
    s.checkPc g = s.endThread g stPcRange (s.thr g).issue) ∧
  (∀ (g : Nat) (s : State), (s.thr g).inRegion = true → s.checkPc g = s)

/-- For a thread that issues the instruction now, the next state is that with the microwords charged, PC at the next
address and the thread waiting. WAIT relative by n ticks, 1 to 2^31 - 1, waits until its issue tick plus n. WAIT until
a target not yet reached waits until the target's tick; one already reached counts WAIT_LATE, flags it and waits until
the next tick. SYNC by a member of a barrier of the thread's job whose round has not failed waits at the barrier with
its mode and VAL, and WAITING reads 1 on its tile. BRD waits for its slots with its deadline and late action. TRIG
waits for the first edge of its source from its issue tick on. A relative wait of 0 or at least 2^31, and a SYNC of no
member, end the shot with ILLEGAL_OPERAND and REACH at the issue tick. -/
def Obligations.GateInstructionWaits : Prop :=
  (∀ (g n : Nat) (ev : FetchEv) (s : State) (w : GateWord), s.runs g ev 0x04 2 w → opr w 56 2 ≤ 1 →
    n = (if opr w 56 2 = 0 then opr w 20 32 else ((s.thr g).reg (opr w 52 4)).toNat) → 0 < n → n < 2 ^ 31 →
    exec (.wait ⟨g, ev⟩) s = .next (((s.issued g 2).updThr g (fun t =>
      { t with st := 2, wait := .until ((s.thr g).issue + n) false })).checkPc g)) ∧
  (∀ (g n : Nat) (ev : FetchEv) (s : State) (w : GateWord), s.runs g ev 0x04 2 w → opr w 56 2 ≤ 1 →
    n = (if opr w 56 2 = 0 then opr w 20 32 else ((s.thr g).reg (opr w 52 4)).toNat) → (n = 0 ∨ 2 ^ 31 ≤ n) →
    exec (.wait ⟨g, ev⟩) s = .next ((s.charged g 2).endThread g stOperand (s.thr g).issue)) ∧
  (∀ (g target : Nat) (ev : FetchEv) (s : State) (w : GateWord), s.runs g ev 0x04 2 w → 2 ≤ opr w 56 2 →
    target = (if opr w 56 2 = 2 then short (s.gridAt (s.thr g).start + opr w 20 32) else ((s.thr g).reg (opr w 52 4)).toNat) →
    exec (.wait ⟨g, ev⟩) s = .next (((s.issued g 2).updThr g (fun t =>
      if reached target (short (s.gridAt t.issue)) then
        { { t with waitLate := min 65535 (t.waitLate + 1) }.flag 0 with st := 2, wait := .until (t.issue + 1) false }
      else { t with
        st := 2, wait := .until (t.issue + (shortDiff target (short (s.gridAt t.issue))).toNat) false })).checkPc g)) ∧
  (∀ (g j : Nat) (ev : FetchEv) (s : State) (w : GateWord), s.runs g ev 0x05 3 w → (s.thr g).job = some j → (s.bar (opr w 53 5)).job = some j →
    g ∈ (s.bar (opr w 53 5)).members → (s.bar (opr w 53 5)).failed = none →
    exec (.sync ⟨g, ev⟩) s = .next ((((s.issued g 3).updThr g (fun t => { t with
      st := 3, wait := .barrier (opr w 53 5) (decide (opr w 52 1 = 1)) (opr w 20 32) t.issue false })).barWaiting
        (opr w 53 5) [thrTile g] true).checkPc g)) ∧
  (∀ (g : Nat) (ev : FetchEv) (s : State) (w : GateWord), s.runs g ev 0x05 3 w → g ∉ (s.bar (opr w 53 5)).members →
    exec (.sync ⟨g, ev⟩) s = .next ((s.charged g 3).endThread g stReach (s.thr g).issue)) ∧
  (∀ (g : Nat) (ev : FetchEv) (s : State) (w : GateWord), s.runs g ev 0x07 6 w →
    exec (.brd ⟨g, ev⟩) s = .next (((s.issued g 6).updThr g (fun t => { t with
      st := 4, wait := .brd (opr w 48 10) (opr w 46 2) (BitVec.ofNat 16 (opr w 30 16)) (BitVec.ofNat 16 (opr w 14 16))
        (opr w 6 8) (opr w 4 2) t.issue false (s.brdGot (thrTile g) (opr w 48 10) (opr w 46 2) (s.thr g).issue) })).checkPc g)) ∧
  (∀ (g : Nat) (ev : FetchEv) (s : State) (w : GateWord), s.runs g ev 0x0E 3 w →
    exec (.trig ⟨g, ev⟩) s = .next (((s.issued g 3).updThr g (fun t => { t with
      st := 5, wait := .trig (opr w 54 4) (opr w 30 24) (opr w 28 2) (BitVec.ofNat 16 (opr w 12 16)) t.issue
        ((SMap.get .idle s.tdc.ins (opr w 54 4)).lastBin.bind (fun b => if b / 5120 = t.issue then some t.issue else none))
        false })).checkPc g))

/-- WAIT_RELEASE at the tick waited for, BARRIER_RELEASE at the release tick, BRD_RESOLVE, TRIG_RELEASE 8 ticks after
the edge, and WAITS_RELEASE (the tick after) let the thread issue its next instruction at that tick. A waiting BRD
notes the first tick up to its deadline in which an update leaves all its slots valid, with the key, and BRD_RESOLVE
goes on one tick after that tick (at TGT when the key is in TAKE). BRD_LATE one tick after the deadline counts
DEC_LATE, flags it, and continues, branches or ends the shot with BRD_LATE; TRIG_TIMEOUT at issue + TMO + 8 continues,
branches or ends it with TRIG_TIMEOUT; SYNC_TIMEOUT of an ASAP member whose time-out comes before any AT member's tick
ends it with SYNC_TIMEOUT; SYNC_MISS ends each arrived member with SYNC_MISS; WAITS_TIMEOUT ends it with UNDERRUN;
PEER_STOP ends a thread whose peer has ended the shot with ENDED_BY_PEER. -/
def Obligations.ThreadsGoOn : Prop :=
  (∀ (g tick : Nat) (c : Bool) (s : State), (s.thr g).wait = .until tick c → tick ≤ s.now →
    exec (.waitRelease g) s = .next (s.resumeThread g tick)) ∧
  (∀ (b tr : Nat) (s : State), s.releaseTick b = some tr → tr ≤ s.now → (s.bar b).failed = none →
    exec (.barrierRelease b) s = .next (((s.bar b).members.foldl (fun s g => s.resumeThread g tr) s).barWaiting b
      ((s.bar b).members.map thrTile) false)) ∧
  (∀ (t : Nat) (s : State) (g slot num : Nat) (take tgt : BitVec 16) (dl lact issue : Nat) (c : Bool),
    (g, s.thr g) ∈ s.threads → (s.thr g).wait = .brd slot num take tgt dl lact issue c none → thrTile g = t →
    issue ≤ s.now → s.now ≤ issue + dl → (brdSlots slot num).all (s.slotValid t) = true →
    ∃ e ∈ (s.watchBrd t).threads, e.1 = g ∧
      e.2.wait = .brd slot num take tgt dl lact issue c (some (s.now, s.brdKey t slot num))) ∧
  (∀ (g slot num a key : Nat) (take tgt : BitVec 16) (dl lact issue : Nat) (c : Bool) (s : State),
    (s.thr g).wait = .brd slot num take tgt dl lact issue c (some (a, key)) → a ≤ s.now →
    exec (.brdResolve g) s = .next (State.resumeThread (if bit take.toNat key then
      s.updThr g (fun t => { t with pc := tgt.toNat }) else s) g (a + 1))) ∧
  (∀ (g slot num : Nat) (take tgt : BitVec 16) (dl lact issue : Nat) (c : Bool) (s : State),
    (s.thr g).wait = .brd slot num take tgt dl lact issue c none → issue + dl + 1 ≤ s.now →
    (let u := s.updThr g (fun t => { t with decLate := min 65535 (t.decLate + 1) }.flag 1);
     exec (.brdLate g) s = .next (if lact = 2 then u.endThread g stBrdLate (issue + dl + 1)
       else (if lact = 1 then u.updThr g (fun t => { t with pc := tgt.toNat }) else u).resumeThread g (issue + dl + 1)))) ∧
  (∀ (g src tmo tact : Nat) (tgt : BitVec 16) (issue e : Nat) (c : Bool) (s : State),
    (s.thr g).wait = .trig src tmo tact tgt issue (some e) c → e + 8 ≤ s.now →
    exec (.trigRelease g) s = .next (s.resumeThread g (e + 8))) ∧
  (∀ (g src tmo tact : Nat) (tgt : BitVec 16) (issue : Nat) (c : Bool) (s : State),
    (s.thr g).wait = .trig src tmo tact tgt issue none c → issue + tmo + 8 ≤ s.now →
    exec (.trigTimeout g) s = .next (if tact = 2 then s.endThread g stTrigTimeout (issue + tmo + 8)
      else (if tact = 1 then s.updThr g (fun t => { t with pc := tgt.toNat }) else s).resumeThread g (issue + tmo + 8))) ∧
  (∀ (g b val arr : Nat) (c : Bool) (s : State), (s.thr g).wait = .barrier b false val arr c → arr + val ≤ s.now →
    s.releaseTick b = none → (∀ t, s.missTick b = some t → arr + val < t) →
    exec (.syncTimeout g) s = .next (s.endThread g stSyncTimeout (arr + val))) ∧
  (∀ (b t0 : Nat) (s : State), s.missTick b = some t0 → t0 ≤ s.now → s.releaseTick b = none →
    exec (.syncMiss b) s =
      .next ((s.arrived b).foldl (fun s w => s.endThread w.1 stSyncMiss (max t0 w.2.2.2)) s)) ∧
  (∀ (g k tmo issue : Nat) (s : State), (s.thr g).wait = .stream k tmo issue → s.strmReady (thrTile g) k = true → issue ≤ s.now →
    s.now ≤ issue + tmo → exec (.waitsRelease g) s = .next (s.resumeThread g (s.now + 1))) ∧
  (∀ (g k tmo issue : Nat) (s : State), (s.thr g).wait = .stream k tmo issue → s.strmReady (thrTile g) k = false →
    issue + tmo ≤ s.now →
    exec (.waitsTimeout g) s = .next ((s.endThread g stUnderrun (issue + tmo)).underrunShot (thrTile g) k g (s.thr g).start)) ∧
  (∀ (g d : Nat) (s : State), (s.thr g).peerEnd = some d → exec (.peerStop g) s = .next (s.endThread g stPeer (min s.now d)))

/-- CUSTOM of an issuing thread whose entry is defined and whose fetch is clean, with cost in the slots of the tick,
charges the cost and commits what the micro-engine leaves when it finishes without an error. MCHK_RELOAD_DONE of a
poisoned word clears the poison, keeps the word's verified reload with its tick and thread, clears RELOADING where
CLU_MCHK shows that word, and records the correction. BANK_REPLACE_DONE of a bank in replacement fills the other bank
with the golden copy and moves the threads that are in no shot. NANO_VIEW_WRITE into a bank that no thread reads, with
no swap pending, writes one 32-bit word of one nano-word and nothing else; into a bank that is read it writes nothing
and sets WR_REFUSED. -/
def Obligations.CustomAndStores : Prop :=
  (∀ (g : Nat) (s u : State) (w : GateWord) (n : Nat), s.gateAt (thrGc g) (s.thr g).pc = w → 0x30 ≤ opcode w →
    s.issuing g (opcode w) n w → opcode w ≤ 0x37 → n = mfld (s.entry g w) 14 3 → bit (s.entry g w).toNat 18 = true →
    s.dispatchFails g .ok w = false →
    ((s.charged g n).customRun g .ok w).2 = .ok u → exec (.custom g .ok) s = .next (u.checkPc g)) ∧
  (∀ (t c : Nat) (k : StoreKind) (b : Bool) (a thr : Nat) (s : State) (mine : BadWord → Bool),
    mine = (fun (w : BadWord) =>
      decide (w.cluster = 9 * t + c) && decide (w.store = k) && decide (w.bank = b) && decide (w.addr = a)) →
    (s.stores.poison.find? mine).map (fun w => w.thr) = some thr →
    (let u : State := { s with
       stores := { s.stores with
         poison := s.stores.poison.filter (fun w => !mine w),
         reloaded := s.stores.reloaded.filter (fun w => !mine w) ++ [⟨9 * t + c, k, b, a, s.now, thr, 0⟩] } };
     exec (.mchkReloadDone t c k b a) s = .next ((if s.rd F.CLU_MCHK_ADDR [t, c] = a ∧ s.rdB F.CLU_MCHK_BANK [t, c] = b ∧
       s.rd F.CLU_MCHK_CAUSE [t, c] = storeCause k then u.wr F.CLU_MCHK_RELOADING [t, c] 0 else u).note
       (.tile t (80 + c)) 3 (thrIndex thr)))) ∧
  (∀ (t c : Nat) (k : StoreKind) (r : BankRepl) (s : State),
    s.stores.bankRepl.find? (fun r => decide (r.cluster = 9 * t + c) && decide (r.store = k) && !r.filled) = some r →
    exec (.bankReplaceDone t c k) s =
      .next (((s.fillBank (9 * t + c) k r.bank).markFilled r).moveReplaced r (fun _ => false))) ∧
  (∀ (t off c : Nat) (v : Word) (s : State), t < s.variant.tiles → 0x500000 ≤ off → off < 0x540000 → off % 4 = 0 →
    c = s.rd F.TIL_MEMWIN_SEL_CLUSTER [t] → c ≤ 8 → s.nanoRead (9 * t + c) (decide (0x520000 ≤ off)) = false →
    s.swapping (9 * t + c) = false →
    exec (.nanoViewWrite t off v) s = .next { s with stores := { s.stores with
      nano := SMap.put 0 s.stores.nano
        (4096 * bankKey (9 * t + c) (decide (0x520000 ≤ off)) + (off - 0x500000) % 0x20000 / 32)
        (BitVec.ofNat 256 (setBits (s.nanoAt (9 * t + c) (decide (0x520000 ≤ off)) ((off - 0x500000) % 0x20000 / 32)).toNat
          (32 * ((off - 0x500000) % 32 / 4)) 32 v.toNat)) } }) ∧
  (∀ (t off c : Nat) (v : Word) (s : State), t < s.variant.tiles → 0x500000 ≤ off → off < 0x540000 → off % 4 = 0 →
    c = s.rd F.TIL_MEMWIN_SEL_CLUSTER [t] → c ≤ 8 → s.nanoRead (9 * t + c) (decide (0x520000 ≤ off)) = true →
    exec (.nanoViewWrite t off v) s = .next (s.wr F.CLU_UCODE_STATUS_WR_REFUSED [t, c] 1))

/-- DRV_ENABLE, FLX_ENABLE and BIA_ENABLE of an output of a present tile whose unit does not run, or whose EN already
reads 1, begin the enable check; with EN 0 and the unit running the write is refused with 0x0501. A spare's block
refuses EN with 0x0501. ENABLE_CHECK_DONE while the check runs writes its REASON: 0x0401 for a fenced output (a drive
channel that the spare serves is not refused), 0x0601 without valid calibration, else 0; a refused check switches the
output off again; an accepted one sets ENABLED, and READY of an RF output, and the check has ended. -/
def Obligations.OutputsAreEnabled : Prop :=
  (∀ (s : State) (k : OutKind) (t c : Nat), t < s.variant.tiles → c < (if k = .probe then 8 else 64) →
    exec (match k with
      | .drive => .drvEnable false t c
      | .probe => .drvEnable true t c
      | .flux => .flxEnable t c
      | .bias => .biaEnable t c) s =
      .next (if s.rdB (fEn k) [t, c] = false ∧ s.outRunning k t c = true then s.refuse (enReg k t c) 0x0501
        else s.enableOn k t c)) ∧
  (∀ (s : State) (t c : Nat), t < s.variant.tiles → 64 ≤ c → c < 72 →
    exec (.drvEnable false t c) s = .next (s.refuse (enReg .drive t c) 0x0501)) ∧
  (∀ (s : State) (k : OutKind) (t c : Nat), (s.en k t c).checking.isSome = true → s.enableReason k t c ≠ 0 →
    exec (.enableCheckDone k t c) s = .next ((s.wr (fEnReason k) [t, c] (s.enableReason k t c)).enableOff k t c)) ∧
  (∀ (s : State) (t c : Nat), (s.en .drive t c).checking.isSome = true → s.enableReason .drive t c = 0 →
    (let u := s.wr F.DRV_ENABLE_STATUS_REASON [t, c] 0;
     exec (.enableCheckDone .drive t c) s = .next (((u.wr F.DRV_STATUS_ENABLED [t, c] 1).wr F.DRV_STATUS_READY [t, c] 1).setEn
       .drive t c { u.en .drive t c with
         checking := none, hadValue := u.rdB F.DRV_STATUS_ENABLED [t, c] && (u.en .drive t c).hadValue }))) ∧
  (∀ (s : State) (t c : Nat), (s.en .flux t c).checking.isSome = true → s.enableReason .flux t c = 0 →
    (let u := s.wr F.FLX_ENABLE_STATUS_REASON [t, c] 0;
     exec (.enableCheckDone .flux t c) s = .next ((u.wr F.FLX_STATUS_ENABLED [t, c] 1).setEn
       .flux t c { u.en .flux t c with
         checking := none, hadValue := u.rdB F.FLX_STATUS_ENABLED [t, c] && (u.en .flux t c).hadValue }))) ∧
  (∀ (s : State) (t c : Nat), (s.enableReason .flux t c = 0x0401 ↔ s.fenced (outUnit .flux t c) = true) ∧
    (s.enableReason .flux t c = 0 ↔ s.fenced (outUnit .flux t c) = false ∧ s.calValid (outUnit .flux t c) = true) ∧
    (s.enableReason .drive t c = 0x0401 ↔ s.fenced (outUnit .drive t c) = true ∧ s.served t c = false))

/-- SPARE_TAKEOVER_DONE makes the spare serve the channel it takes over. SPARE_HANDBACK, with no pulse of the channel
placed in the next 32 ticks, frees a spare that serves an unfenced channel (the next waiting channel may then take
it), ends an offline calibration that passed by bringing the corrections measured into force at the next boundary, or,
within 625 ticks of the fence, gives the spare to the fenced channel that waits (the spare is idle when that one has
been unfenced). HANDBACK_FORCED at 625 ticks does the same and sets HANDBACK_FORCED of the channel that loses the
spare. CAL_TAKEOVER of a free spare of a present tile with a quiet due channel begins that channel's calibration.
CAL_OFFLINE_DONE that passes holds the channel's result and the spare's path corrections until they come into force;
one that fails records the fault and the failure. SPARE_FAULT_HANDBACK_DONE frees the spare's record. -/
def Obligations.SpareDacs : Prop :=
  (∀ (s : State) (t g c f : Nat), s.spare t g = .takeover c f →
    exec (.spareTakeoverDone t g) s = .next (s.setSpare t g (.serve c false))) ∧
  (∀ (s : State) (t g c : Nat), s.spare t g = .serve c true → s.quiet .drive t c 32 = true →
    exec (.spareHandback t g) s = .next (s.spareIdle t g)) ∧
  (∀ (s : State) (t g c f : Nat) (o : CalObs), s.spare t g = .calRun c f true → s.quietFrom .drive t c (s.now + 1) 32 = true →
    s.isComing ⟨1, t, c⟩ = false → (s.calU ⟨1, t, c⟩).result = some o → o.pass = true →
    exec (.spareHandback t g) s = .next { s with cal := { s.cal with coming := s.cal.coming ++ [(⟨1, t, c⟩, o)] } }) ∧
  (∀ (s : State) (t g a b f : Nat), s.spare t g = .evict a b f → s.quiet .drive t a 32 = true → s.now ≤ f + 625 →
    exec (.spareHandback t g) s = .next (if ∃ x ∈ s.drvFences t g, x.chan = b then s.setSpare t g (.takeover b s.now)
      else s.spareIdle t g)) ∧
  (∀ (s : State) (t g a b f : Nat), s.spare t g = .evict a b f → f + 625 ≤ s.now →
    (let u := s.wr F.DRV_STATUS_HANDBACK_FORCED [t, a] 1;
     exec (.handbackForced t g) s = .next (if ∃ x ∈ u.drvFences t g, x.chan = b then u.setSpare t g (.takeover b u.now)
       else u.spareIdle t g))) ∧
  (∀ (s : State) (t g c : Nat), t < s.variant.tiles → g < 8 → s.spare t g = .none → s.nextDue t g = some c →
    s.spareFenced t g = false → s.quiet .drive t c 32 = true →
    exec (.calTakeover t g) s = .next ((s.startCal ⟨1, t, c⟩ .takeover).setSpare t g (.calRun c s.now false))) ∧
  (∀ (s : State) (t g c f : Nat) (o p : CalObs), s.spare t g = .calRun c f false → o.pass = true →
    (let u := s.updCalU ⟨1, t, c⟩ (fun k => { k with result := some o });
     exec (.calOfflineDone t g o p) s = .next (State.setSpare { u with outs := { u.outs with
       pathsNew := SMap.put calRest u.outs.pathsNew (64 * t + c) p } } t g (.calRun c f true)))) ∧
  (∀ (s : State) (t g c f : Nat) (o p : CalObs), s.spare t g = .calRun c f false → o.pass = false →
    (let u := (s.fault (.spine 11) 1 t).noteCal ⟨1, t, c⟩ false 0x0602;
     exec (.calOfflineDone t g o p) s = .next (u.setSpare t g (.calRun c u.now (u.calValid ⟨1, t, c⟩))))) ∧
  (∀ (s : State) (t g c f : Nat), s.spare t g = .faultBack c f →
    exec (.spareFaultHandbackDone t g) s = .next (s.setSpare t g .none))

/-- BIAS_LATCH of an output with waiting codes, in the tick of its next latch or later, outside SAFE, latches the last
of the codes due by then in placement order at that latch's sample, takes the due codes out of the queue and sets
DEFERRED with its fault if one of them was due earlier; the sample is at least 157 ticks after the previous latch, and
while a span change holds the output at 0 no latch falls. SPAN_CHANGE of a flux or bias output of a present tile is
the write of its span: refused with 0x0501 for an unlisted span, while the channel runs and the value changes, and
while a change is in progress; else stored, and a new span is staged. SPAN_CHANGE_END 3,126 ticks after its boundary
ends the change: the new span is in force, and a bias output that was live places the change's code (CODE_AFTER, or
the code that replaced it). -/
def Obligations.BiasAndSpan : Prop :=
  (∀ (s : State) (t c l : Nat), s.nextLatch t c = some l → l < 128 * (s.now + 1) → s.outsOn = true →
    (let due := (s.bias t c).waiting.filter (fun w => decide (s.codeDue t c w ≤ l));
     let u := s.setBias t c { s.bias t c with waiting := (s.bias t c).waiting.filter (fun w => decide (l < s.codeDue t c w)) };
     let v := match due.getLast? with
       | some w => u.latchCode t c l w.code
       | none => u;
     exec (.biasLatch t c) s = .next (if due.any (fun w => decide (s.codeDue t c w < l)) then
       (v.wr F.BIA_STATUS_DEFERRED [t, c] 1).note (.tile t (97 + c / 8)) 2 (c % 8) else v))) ∧
  (∀ (s : State) (t c l m : Nat), s.nextLatch t c = some l → (s.bias t c).latched = some m → m + 157 * 128 ≤ l) ∧
  (∀ (s : State) (t c sp : Nat) (a : BitVec 20), t < s.variant.tiles → c < 64 →
    exec (.spanChange .bias t c sp a) s = .next (s.writeSpan .bias t c sp a) ∧
    exec (.spanChange .flux t c sp a) s = .next (s.writeSpan .flux t c sp a)) ∧
  (∀ (s : State) (t c sp : Nat) (a : BitVec 20),
    (spanListed .bias sp = false ∨ s.spanChanging .bias t c = true ∨
      (s.rd F.BIA_SPAN_SPAN [t, c] ≠ sp ∧ s.outRunning .bias t c = true)) →
    s.writeSpan .bias t c sp a = s.refuse (spanAddr .bias t c) 0x0501) ∧
  (∀ (s : State) (t c sp : Nat) (a : BitVec 20), spanListed .bias sp = true → s.spanChanging .bias t c = false →
    s.outRunning .bias t c = false → s.rd F.BIA_SPAN_SPAN [t, c] ≠ sp →
    s.writeSpan .bias t c sp a = ((s.wr F.BIA_SPAN_SPAN [t, c] sp).wr F.BIA_SPAN_CODE_AFTER [t, c] a.toNat).stage
      (.spanChange .bias t c sp a) false) ∧
  (∀ (s : State) (t c l : Nat) (r : SpanRun), s.nextLatch t c = some l → (s.bias t c).change = some r → r.live = true →
    l < s.stepAt t c r.at_) ∧
  (∀ (s : State) (t c : Nat) (r : SpanRun), (s.bias t c).change = some r → r.at_ + 3126 ≤ s.now →
    exec (.spanChangeEnd .bias t c) s = .next (s.setBias t c { s.bias t c with
      change := none, span := r.span,
      waiting := if r.live ∧ s.outsOn then insertCode ⟨128 * (r.at_ + 3126), r.after, true, 0⟩ (s.bias t c).waiting
        else (s.bias t c).waiting })) ∧
  (∀ (s : State) (t c : Nat) (r : SpanRun), (s.flux t c).change = some r → r.at_ + 3126 ≤ s.now →
    exec (.spanChangeEnd .flux t c) s = .next (s.setFlux t c ⟨r.span, none⟩))

/-- SEG_OPEN and SEG_SEAL stage the segment's STATE bit. ENV_MEM_WRITE writes its sample in a page of an OPEN resident
segment that no SEALED one covers, and changes nothing else of the envelope memory; elsewhere it writes no sample,
sets WR_REFUSED and records the page. STRM_JUMP_REQUEST stages the target. STRM_WP_WRITE sets WP when it lies between
the WP in force and the ring's size beyond CP, counted modulo 2^32, and sets RING_ERR otherwise. STREAM_FETCH, while
the rate allows, takes the ring samples up to WP or the end of the block and moves FP; a block with a poisoned line is
not in the buffer. STREAM_BLOCK_ARRIVE counts the samples missed, moves what has arrived by a block and discards the
samples whose play time has come. STREAM_UNDERRUN is the under-run's record. GEN_ENABLE stages EN and GEN_RESTART a
restart. -/
def Obligations.SegmentsAndStreams : Prop :=
  (∀ (s : State) (t g : Nat), t < s.variant.tiles → g < 256 →
    exec (.segOpen t g) s = .next (s.stage (.word (R.TIL_SEG.addr [t, g] 0) 0 4) false) ∧
    exec (.segSeal t g) s = .next (s.stage (.word (R.TIL_SEG.addr [t, g] 0) 4 4) false)) ∧
  (∀ (s : State) (t n : Nat) (v : Word), t < s.variant.tiles → n < 2 ^ 20 → s.pageOpen t (n / 1024) = true →
    s.pageSealed t (n / 1024) = false →
    ∃ u, exec (.envMemWrite t n v) s = .next u ∧ SMap.get 0 u.stores.env (2 ^ 20 * t + n) = v ∧
      (∀ a, a ≠ 2 ^ 20 * t + n → SMap.get 0 u.stores.env a = SMap.get 0 s.stores.env a) ∧
      u = { s with stores := { s.stores with env := u.stores.env } }) ∧
  (∀ (s : State) (t n : Nat) (v : Word), t < s.variant.tiles → n < 2 ^ 20 →
    (s.pageOpen t (n / 1024) = false ∨ s.pageSealed t (n / 1024) = true) →
    exec (.envMemWrite t n v) s =
      .next ((s.wr F.TIL_ENV_STATUS_WR_REFUSED [t] 1).wr F.TIL_ENV_STATUS_WR_PAGE [t] (n / 1024))) ∧
  (∀ (s : State) (t k g : Nat), t < s.variant.tiles → k < 64 → g < 256 →
    exec (.strmJumpRequest t k g) s = .next (s.stage (.word (R.TIL_STRM_JUMP.addr [t, k] 0) (BitVec.ofNat 32 g) 0xFF) false)) ∧
  (∀ (s : State) (t k : Nat) (v cp wp : Word), t < 7 → k < 64 → cp = BitVec.ofNat 32 (s.strmCp t k) →
    wp = BitVec.ofNat 32 (s.rd F.QMG_STRM_WP_WP [t, k]) →
    exec (.strmWpWrite t k v) s = .next (if (v - cp).toNat ≤ s.ringSize t k ∧ (wp - cp).toNat ≤ (v - cp).toNat then
      s.wr F.QMG_STRM_WP_WP [t, k] v.toNat else s.wr F.QMG_STRM_STATUS_RING_ERR [t, k] 1)) ∧
  (∀ (s : State) (t k n : Nat) (r : StreamRun), r = s.strm t k → (s.strmState t k = kOpen ∨ s.strmState t k = kPlaying) →
    n = min ((BitVec.ofNat 32 (s.rd F.QMG_STRM_WP_WP [t, k]) : Word) - BitVec.ofNat 32 r.fetched).toNat (64 - r.fetched % 64) →
    0 < n → s.shutdown = false → s.rateOk t k n = true →
    (r.fetched % 64 ≠ 0 ∨ r.fetched + 64 ≤ s.strmReleased t k / 64 * 64 + s.strmWin t k) →
    exec (.streamFetch t k) s = .next ((s.setStrm t k { r with
      fetched := r.fetched + n, buf := s.ringWords t k r.fetched r.buf n,
      gone := if s.memPoisoned (s.ringBase t k + 4 * (r.fetched % s.ringSize t k)) (4 * n) then
        r.gone ++ [(r.fetched, r.fetched + n)] else r.gone,
      rate := r.rate.filter (fun e => decide (s.now < e.1 + s.strmWin t k / 8)) ++ [(s.now, n)] }).wr F.QMG_STRM_FP_FP [t, k] (short (r.fetched + n)))) ∧
  (∀ (s u : State) (t k late : Nat) (r : StreamRun), (s.strm t k).arrived < (s.strm t k).fetched → u = s.noteUnderrun t k →
    r = u.strm t k → late = min (min r.fetched (64 * (r.arrived / 64 + 1))) (u.playedRing t k) →
    exec (.streamBlockArrive t k) s = .next (u.setStrm t k { r with
      arrived := max r.arrived (min r.fetched (64 * (r.arrived / 64 + 1))),
      gone := if r.arrived < late then r.gone ++ [(r.arrived, late)] else r.gone })) ∧
  (∀ (s : State) (t k : Nat), t < s.variant.tiles → k < 64 → exec (.streamUnderrun t k) s = .next (s.noteUnderrun t k)) ∧
  (∀ (s : State) (t g : Nat), t < s.variant.tiles → g < 32 →
    exec (.genEnable t g) s = .next (s.stage (.word (R.TIL_GEN_CTRL.addr [t, g] 0) 1 1) false) ∧
    exec (.genRestart t g) s = .next (s.stage (.genRestart t g) false))

/-- COMMIT_POINT of a PLAYING stream with no successor fixed, in the tick of its commit sample or later, fixes the
successor: the segment again while repeats are left, else a pending jump's target (whose request is then consumed) or
the end; NEXT shows it with FIXED 1 unless it is the end. PASS_END of a PLAYING stream whose pass is over, with its
missing samples counted and no rewind, begins the next pass at the sample where the last ended, clears FIXED, and
makes the stream BROKEN if the successor's check failed, ENDED at the end, counts the pass when the segment repeats,
and is at the new segment with PASS 0 when it moves. -/
def Obligations.StreamPasses : Prop :=
  (∀ (s : State) (t k f : Nat) (j : Bool) (r : StreamRun), r = s.strm t k → s.strmState t k = kPlaying → r.fixedK = none →
    r.rewound = false → s.commitSample t k < 128 * (s.now + 1) → s.successor t k = (f, j) →
    (let u := if j then s.wr F.TIL_STRM_NEXT_PENDING [t, k] 0 else s;
     let v := u.setStrm t k { r with
       fixedK := some f, replay := r.replay.tail, failed := decide (f < 512) && u.succBad t k (f % 256),
       checks := r.checks.map (fun c => { c with log := c.log ++ [f] }) };
     exec (.commitPoint t k) s = .next (if f < 512 then
       (v.wr F.TIL_STRM_NEXT_SUCC [t, k] (f % 256)).wr F.TIL_STRM_NEXT_FIXED [t, k] 1 else v))) ∧
  (∀ (s : State) (t k f : Nat) (r : StreamRun), (s.strm t k).fixedK = some f → s.strmState t k = kPlaying →
    (s.strm t k).rewound = false → s.passStop t k < 128 * (s.now + 1) →
    r = (s.countMissing t k ((s.strm t k).passStart + s.segLen t (s.strmCur t k))).strm t k → r.rewound = false →
    (let g := s.strmCur t k;
     let stop := (s.strm t k).passStart + s.segLen t g;
     let u := s.countMissing t k stop;
     let ring := if u.segType t g = 2 ∧ f ≥ 256 then r.ringAt + u.segLen t g else r.ringAt;
     let pass := u.rd F.TIL_STRM_PASS_PASS [t, k];
     let v := (u.wr F.TIL_STRM_NEXT_FIXED [t, k] 0).setStrm t k { r with
       passStart := stop, ringAt := ring, fixedK := none, failed := false, prev := some ((u.wr F.TIL_STRM_NEXT_FIXED [t, k] 0).curPass t k),
       hold := some ((u.wr F.TIL_STRM_NEXT_FIXED [t, k] 0).heldSample t k stop), buf := r.buf.filter (fun e => decide (r.ringAt ≤ e.1)),
       gone := r.gone.filter (fun e => decide (r.ringAt < e.2)) };
     (r.failed = true → exec (.passEnd t k) s = .next (v.wr F.TIL_STRM_STATUS_STATE [t, k] kBroken)) ∧
     (r.failed = false → 512 ≤ f →
       (let e := (v.wr F.TIL_STRM_STATUS_STATE [t, k] kEnded).wr F.TIL_STRM_PASS_PASS [t, k] (pass + 1);
        exec (.passEnd t k) s = .next (if e.outs.pulses.any (fun p => p.taps t k && decide (stop < (e.tapped p).2)) then
          e.wr F.TIL_STRM_STATUS_TAP_ENDED [t, k] 1 else e))) ∧
     (r.failed = false → f < 256 → exec (.passEnd t k) s = .next (v.wr F.TIL_STRM_PASS_PASS [t, k] (pass + 1))) ∧
     (r.failed = false → 256 ≤ f → f < 512 →
       exec (.passEnd t k) s = .next ((v.wr F.TIL_STRM_STATUS_CUR [t, k] (f % 256)).wr F.TIL_STRM_PASS_PASS [t, k] 0))))

/-- The value an advance hands out at count i since the restart is, modulo 2^32: in linear mode START + STEP * (i mod
COUNT); in march mode LO + STEP * k for k = i mod 2n below n, and LO + STEP * (2n - 1 - k) from n on, with n = (HI -
LO) div STEP + 1; in gray mode START + (j xor (j >> 1)) with j = i mod 2^W; in lfsr mode the state s, after s = (s >>
1) xor POLY when its bit 0 is 1 and s >> 1 otherwise, is the value where RANGE is 0, and (s * RANGE) >> 32 otherwise.
An advance raises i by one; a restart sets i to 0 and, in lfsr mode, loads s from SEED (START). -/
def Obligations.GeneratorSequences : Prop :=
  (∀ (s : State) (t g : Nat) (f : Fld → Word), (∀ x, f x = BitVec.ofNat 32 (s.rd x [t, g])) →
    ((s.genAdvance t g).2.gen t g).i = (s.gen t g).i + 1 ∧
    (s.rd F.TIL_GEN_CTRL_MODE [t, g] = 0 → (s.genAdvance t g).1.toNat = ((f F.TIL_GEN_START_START).toNat +
      (f F.TIL_GEN_STEP_STEP).toNat * ((s.gen t g).i % (f F.TIL_GEN_LIMIT_LIMIT).toNat)) % 2 ^ 32) ∧
    (s.rd F.TIL_GEN_CTRL_MODE [t, g] = 1 → (f F.TIL_GEN_START_START).toNat ≤ (f F.TIL_GEN_LIMIT_LIMIT).toNat →
      ∀ n k, n = ((f F.TIL_GEN_LIMIT_LIMIT).toNat - (f F.TIL_GEN_START_START).toNat) / (f F.TIL_GEN_STEP_STEP).toNat + 1 →
        k = (s.gen t g).i % (2 * n) →
        (s.genAdvance t g).1.toNat = ((f F.TIL_GEN_START_START).toNat +
          (f F.TIL_GEN_STEP_STEP).toNat * (if k < n then k else 2 * n - 1 - k)) % 2 ^ 32) ∧
    (s.rd F.TIL_GEN_CTRL_MODE [t, g] = 2 → (f F.TIL_GEN_STEP_STEP).toNat < 32 →
      ∀ j : Word, j = BitVec.ofNat 32 ((s.gen t g).i % 2 ^ (f F.TIL_GEN_STEP_STEP).toNat) →
        (s.genAdvance t g).1 = f F.TIL_GEN_START_START + (j ^^^ (j >>> 1))) ∧
    (s.rd F.TIL_GEN_CTRL_MODE [t, g] = 3 →
      ((s.genAdvance t g).2.gen t g).s = (if (s.gen t g).s.getLsbD 0 then ((s.gen t g).s >>> 1) ^^^ f F.TIL_GEN_STEP_STEP
        else (s.gen t g).s >>> 1) ∧
      (s.genAdvance t g).1.toNat = (if f F.TIL_GEN_LIMIT_LIMIT = 0 then ((s.genAdvance t g).2.gen t g).s.toNat
        else ((s.genAdvance t g).2.gen t g).s.toNat * (f F.TIL_GEN_LIMIT_LIMIT).toNat / 2 ^ 32)) ∧
    ((s.genReset t g).gen t g).i = 0 ∧
    (s.rd F.TIL_GEN_CTRL_MODE [t, g] = 3 → ((s.genReset t g).gen t g).s = f F.TIL_GEN_START_START))

/-- CAP_ARM in IDLE or DONE, CAP_STOP and CAP_FORCE of a present tile's engine that no job holds stage the bit's
action for the next boundary; CAP_ARM in another state, and each of the three while a job holds the engine, sets
ARM_REFUSED. CAP_ARM_TIME_REACHED in WAIT_TIME with its time reached enters REARM; CAP_REARM_END eight ticks later
enters ARMED. CAP_TRIGGER of legal codes of a tapped line, none in the future, feeds the tap's samples to the engine
one after another: one that meets a condition is counted in CAP_MISSED in REARM and, in ARMED, enters TRIGGERED,
recording the sample, its causes, PRIMARY and the pretrigger taken. CAP_RECORD_DONE in TRIGGERED feeds further
samples; in short mode, once the last sample of the record is in, the samples stand in the tile's capture memory and
the engine is DONE with its header. -/
def Obligations.CaptureEngine : Prop :=
  (∀ (s : State) (t : Nat), t < s.variant.tiles → s.rdB F.CAP_STATUS_HELD [t] = false →
    (s.capState t = cIdle ∨ s.capState t = cDone) →
    exec (.capArm t) s = .next { s with staged := s.staged.filter (fun e => decide (e.act ≠ .capArm t)) ++ [⟨.capArm t, s.now, false⟩] }) ∧
  (∀ (s : State) (t : Nat), t < s.variant.tiles → s.rdB F.CAP_STATUS_HELD [t] = false →
    exec (.capStop t) s = .next { s with staged := s.staged.filter (fun e => decide (e.act ≠ .capStop t)) ++ [⟨.capStop t, s.now, false⟩] } ∧
    exec (.capForce t) s = .next { s with staged := s.staged.filter (fun e => decide (e.act ≠ .capForce t)) ++ [⟨.capForce t, s.now, false⟩] }) ∧
  (∀ (s : State) (t : Nat), t < s.variant.tiles → s.rdB F.CAP_STATUS_HELD [t] = true →
    exec (.capArm t) s = .next (s.wr F.CAP_STATUS_ARM_REFUSED [t] 1) ∧
    exec (.capStop t) s = .next (s.wr F.CAP_STATUS_ARM_REFUSED [t] 1) ∧
    exec (.capForce t) s = .next (s.wr F.CAP_STATUS_ARM_REFUSED [t] 1)) ∧
  (∀ (s : State) (t : Nat), t < s.variant.tiles → s.capState t ≠ cIdle → s.capState t ≠ cDone →
    exec (.capArm t) s = .next (s.wr F.CAP_STATUS_ARM_REFUSED [t] 1)) ∧
  (∀ (s : State) (t b : Nat), s.capState t = cWait → (s.cap t).wake = some b → b ≤ s.now →
    exec (.capArmTimeReached t) s =
      .next ((s.setCap t { s.cap t with since := s.now, wake := none }).wr F.CAP_STATUS_STATE [t] cRearm)) ∧
  (∀ (s : State) (t : Nat) (r : CapRun), r = s.cap t → s.capState t = cRearm → r.since + 8 ≤ s.now →
    exec (.capRearmEnd t) s =
      .next ((s.setCap t { r with since := r.since + 8, armTick := r.since + 8 }).wr F.CAP_STATUS_STATE [t] cArmed)) ∧
  (∀ (s : State) (t first : Nat) (codes : List Int), t < s.variant.tiles → (s.cap t).set.kind < 2 →
    (∀ c ∈ codes, -2048 ≤ c ∧ c ≤ 2047) →
    s.tapIndex 0 first + codes.length ≤ 64 * (if s.capState t = cWait then s.now else s.now + 1) →
    exec (.capTrigger t first codes) s = .next (s.capFeed t (s.tapInput t (s.tapIndex 0 first) codes).1
      (s.tapInput t (s.tapIndex 0 first) codes).2)) ∧
  (∀ (s : State) (t causes k : Nat) (r : CapRun) (e : CapEval) (x : Int × Int) (first : Bool), r = s.cap t →
    first = decide (r.place (s.capState t) r.next = .armed ∧ r.next = tapBoundary r.set.kind r.since) →
    capStep (s.capCfg t) r.ev x first = (e, k) → causes = k + (if capSlew (s.capCfg t) r.past x then 8 else 0) → causes ≠ 0 →
    (let q := { r with next := r.next + 1, ev := e, past := (x :: r.past).take 64 };
     (r.place (s.capState t) r.next = .rearm → s.capTake t x = (s.setCap t q).count F.CAP_MISSED_TRIG_MISSED [t] 1) ∧
     (r.place (s.capState t) r.next = .armed → r.forced r.next = false → s.capTake t x = (s.setCap t { q with
       force := none, kept := r.kept ++ [x],
       trig := some (r.next, causes, capPrimary causes, r.kept.length, s.rd F.CAP_MISSED_TRIG_MISSED [t]) }).wr
       F.CAP_STATUS_STATE [t] cTriggered))) ∧
  (∀ (s u : State) (t first n c p valid m : Nat) (codes : List Int) (r : CapRun),
    u = s.tapCodes t first codes → r = u.cap t → u.capState t = cTriggered → r.trig = some (n, c, p, valid, m) →
    r.aborted = none → r.gaps = [] → r.set.long = false →
    (r.next + r.set.pre ≤ n + (r.set.len - 1) → exec (.capRecordDone t ⟨first, codes⟩ []) s = .next (u.setCap t r)) ∧
    (n + (r.set.len - 1) < r.next + r.set.pre → r.job = none → exec (.capRecordDone t ⟨first, codes⟩ []) s =
      .next (((u.setCap t r).capStore t).capDone t (((u.setCap t r).capStore t).cap t).lastIndex 0)) ∧
    ((u.setCap t r).capStore t).stores.capMem = SMap.putList 0 u.stores.capMem (2 ^ 21 * t)
      (recordBytes u.freeCtr r.set.kind r.set.pre valid (r.set.len - 1) [] r.kept))

/-- TDC_EDGE of an enabled, unfenced input, not a glitch, of a selected polarity, outside the dead time of the last
stamp and the tick after a swap, is stamped and counted by an open frequency gate; inside the dead time it is lost
with DEADTIME; one shorter than FILT counts as a glitch with its fault. A stamp for the log appends one record below
1,024 records; at 1,024 it is dropped: OVF is set, DROPPED counts and the fault is recorded. TDC_FIFO_POP answers word
3 of the first record and removes it, and answers 0 of an empty log. INTERVAL_START_EXPIRE of a start older than 2^30
ticks clears it and counts EXPIRED. TDC_FREQ_GO while BUSY is 0 stages the start. TDC_FREQ_GATE_END at the end of the
gate writes edges, span and the frequency (0 for fewer than two edges), clears BUSY, sets DONE and, for fewer than two
edges, NO_SIGNAL. TDC_LINE_SWAP, after a calibration, has the lines swap at the next boundary; on lost lock it also
records the fault and marks the tick, and with both lines bad the input takes the unit fault. -/
def Obligations.TimingInputs : Prop :=
  (∀ (s u : State) (i bin held b : Nat) (rise e : Bool), b = s.binIn bin → e = (rise != s.rdB F.TDC_IN_CFG_INV [i]) →
    u = s.wrB F.TDC_IN_STATUS_LEVEL [i] (e != decide (held < s.rd F.TDC_IN_CFG_FILT [i])) →
    i < 10 → b / 5120 ≤ s.now → u.rdB F.TDC_IN_CFG_EN [i] = true → u.fenced ⟨13, 0xFF, i⟩ = false →
    (held < s.rd F.TDC_IN_CFG_FILT [i] → exec (.tdcEdge i bin rise held) s =
      .next ((u.count F.TDC_IN_STATUS_GLITCH [i] 1).note (.spine 3) 4 i)) ∧
    (s.rd F.TDC_IN_CFG_FILT [i] ≤ held → selects (u.rd F.TDC_IN_CFG_POL [i]) e = true → (u.tdcIn i).swapAt ≠ b / 5120 + 1 →
      ((∀ l, (u.tdcIn i).lastBin = some l → b < l ∨ l + 1280 ≤ b) → exec (.tdcEdge i bin rise held) s =
        .next ((u.stampEdge i b bin e).freqEdge i b e)) ∧
      (∀ l, (u.tdcIn i).lastBin = some l → l ≤ b → b < l + 1280 →
        exec (.tdcEdge i bin rise held) s = .next (u.loseEdge i true)))) ∧
  (∀ (s : State) (i bin : Nat) (rise lost : Bool) (seq : Word),
    (s.tdc.log.length < 1024 → ∃ r, (s.logStamp i bin rise lost seq).tdc.log = s.tdc.log ++ [r] ∧ r.getD 3 0 = seq ∧
      r.getD 0 0 = BitVec.ofNat 32 (bin / 5120) ∧ (s.logStamp i bin rise lost seq).regs = s.regs) ∧
    (1024 ≤ s.tdc.log.length → s.logStamp i bin rise lost seq =
      ((s.wr F.TDC_FIFO_STATUS_OVF [] 1).count F.TDC_FIFO_STATUS_DROPPED [] 1).note (.spine 3) 2 i)) ∧
  (∀ (s : State) (r : List Word) (rest : List (List Word)), s.tdc.log = r :: rest →
    exec .tdcFifoPop s = .next ({ s with tdc := { s.tdc with log := rest } }.emit (.regData [r.getD 3 0]))) ∧
  (∀ s : State, s.tdc.log = [] → exec .tdcFifoPop s = .next (s.emit (.regData [0]))) ∧
  (∀ (s : State) (k b tk : Nat), s.ivStart k = some (b, tk) → tk + 2 ^ 30 < s.now →
    exec (.intervalStartExpire k) s = .next ((s.setIvStart k none).count F.TDC_IV_COUNT_EXPIRED [k] 1) ∧
    (s.setIvStart k none).ivStart k = none) ∧
  (∀ s : State, s.rdB F.TDC_FREQ_STATUS_BUSY [] = false → exec .tdcFreqGo s = .next (s.stage .freqGo false)) ∧
  (∀ (s : State) (r : FreqRun) (f span : Nat), s.tdc.freq = some r → r.start + s.rd F.TDC_FREQ_GATE_GATE [] ≤ s.now →
    span = r.last - r.first →
    f = (if r.n < 2 ∨ span = 0 then 0 else (roundDiv (((r.n - 1) * 8 * 10 ^ 14 : Nat) : Int) span).toNat) →
    (let u := { s with tdc := { s.tdc with freq := none } };
     let v := (u.wr F.TDC_FREQ_EDGES_N [] r.n).wr F.TDC_FREQ_SPAN_LO_SPAN_LO [] span;
     let w := (v.wr F.TDC_FREQ_SPAN_HI_SPAN_HI [] (span / 2 ^ 32)).wr F.TDC_FREQ_MHZ_LO_F_LO [] f;
     let x := (w.wr F.TDC_FREQ_MHZ_HI_F_HI [] (f / 2 ^ 32)).wr F.TDC_FREQ_STATUS_BUSY [] 0;
     let y := (if r.n < 2 then x.wr F.TDC_FREQ_STATUS_NO_SIGNAL [] 1 else x).wr F.TDC_FREQ_STATUS_DONE [] 1;
     exec .tdcFreqGateEnd s = .next (if y.rdB F.TDC_FREQ_CFG_IRQ [] then y.signal 96 else y))) ∧
  (∀ (s : State) (i : Nat), i < 10 → s.fenced ⟨13, 0xFF, i⟩ = false →
    exec (.tdcLineSwap i false) s = .next (s.setTdcIn i { s.tdcIn i with dllBad := false, swap := true }) ∧
    ((s.tdcIn i).dllBad = false → exec (.tdcLineSwap i true) s =
      .next ((s.setTdcIn i { s.tdcIn i with swapAt := s.now + 1, dllBad := true, swap := true }).note (.spine 3) 1 i)) ∧
    ((s.tdcIn i).dllBad = true → exec (.tdcLineSwap i true) s =
      .next ((s.setTdcIn i { s.tdcIn i with swapAt := s.now + 1, dllBad := true, swap := false }).fault (.spine 3) 0 i)))

/-- SCAN_ENABLE of a present tile stages SCAN_EN. SENSE_SLOT_START of a running tile's list whose ADC is free and
whose next slot's time has come begins the slot, ending the scan first when every list has ended it.
SENSE_CONVERSION_DONE at the end of a conversion frees the list: a scan conversion of a pair sets its flags, runs the
current check unless settling, delivers the record to SNS_RESULT and the SCAN jobs, and applies the range rules; an
injected one writes SNS_INJ_RESULT, sets DONE, leaves BUSY for a waiting request only, and signals with IRQ 1; the
first conversion after a range change is discarded, but for the sticky flags. SNS_INJ_GO of a present list stages its
request. SNS_INJ_TIME with SRC 0xA at the register's time raises the request: while one waits it counts as IGNORED,
else it waits and BUSY is set. SENSE_ROTATE after 32 scans at a scan boundary moves the spare one phase on, bringing
the corrections of the ADC it stood in for. -/
def Obligations.SenseScan : Prop :=
  (∀ (s : State) (t : Nat) (on : Bool), t < s.variant.tiles →
    exec (.scanEnable t on) s = .next (s.stage (.word (R.SNS_CTRL.addr [t] 0) (if on then 1 else 0) 1) false)) ∧
  (∀ (s u v : State) (t k a : Nat), k < 4 → (s.senseTile t).running = true → (s.senseList t k).using_ = .idle →
    v = s.takeLists t → u = (if v.scanOver t then v.endScan t else v) → u.adcOf t k = some a →
    (u.senseTile t).running = true → (u.senseList t k).begun < u.scanSlots t → u.slotAt t k ≤ 32 * u.now →
    exec (.senseSlotStart t k) s = .next (u.beginSlot t k a)) ∧
  (∀ (s u : State) (t k a p : Nat) (o : SenseObs), (s.senseList t k).using_ = .pair p false false → a = (s.senseList t k).adc →
    s.slotAt t k ≤ 32 * s.now →
    u = s.endSlot t k a (s.slotAt t k - s.tConv t) o →
    exec (.senseConversionDone t k o) s = .next (u.setSenseList t k { u.senseList t k with using_ := .idle }) ∧
    (let c := s.senseCheck t a p (s.slotAt t k - s.tConv t) o;
     let v := s.senseFlags t p c;
     let w := if c.settling then v else v.currentCheck t p o.imon;
     u = (w.deliverSense t p (w.senseRecord t a p o c false)).rangeRule t p c.v)) ∧
  (∀ (s u : State) (t k a p : Nat) (o : SenseObs), (s.senseList t k).using_ = .injected p → a = (s.senseList t k).adc →
    s.slotAt t k ≤ 32 * s.now → u = s.endSlot t k a (s.slotAt t k - s.tConv t) o →
    exec (.senseConversionDone t k o) s = .next (u.setSenseList t k { u.senseList t k with using_ := .idle }) ∧
    (let c := s.senseCheck t a p (s.slotAt t k - s.tConv t) o;
     let v := s.senseFlags t p c;
     let w := v.putRecord R.SNS_INJ_RESULT [t, k] (v.senseRecord t a p o c true);
     let x := (w.wr F.SNS_INJ_STATUS_BUSY [t, k] (if (w.senseList t k).inj then 1 else 0)).wr F.SNS_INJ_STATUS_DONE [t, k] 1;
     u = if x.rdB F.SNS_INJ_CTRL_IRQ [t, k] then x.signal (128 + 128 * t + 120) else x)) ∧
  (∀ (s u : State) (t k p : Nat) (b : Bool) (o : SenseObs), (s.senseList t k).using_ = .pair p b true →
    s.slotAt t k ≤ 32 * s.now → u = s.senseSticky t p o.clamp o.overload →
    exec (.senseConversionDone t k o) s = .next (u.setSenseList t k { u.senseList t k with using_ := .idle })) ∧
  (∀ (s : State) (t k : Nat), t < s.variant.tiles → k < 4 →
    exec (.snsInjGo t k) s = .next (s.stage (.snsInj t k) false)) ∧
  (∀ (s u : State) (t k : Nat), s.rd F.SNS_INJ_CTRL_SRC [t, k] = 0xA → (s.senseList t k).timeDone = false →
    reached (s.rd F.SNS_INJ_TIME_TICK [t, k]) (short s.grid) = true →
    u = s.setSenseList t k { s.senseList t k with timeDone := true } →
    (u.rdB F.SNS_INJ_STATUS_BUSY [t, k] = true →
      exec (.snsInjTime t k) s = .next (u.count F.SNS_INJ_STATUS_IGNORED [t, k] 1)) ∧
    (u.rdB F.SNS_INJ_STATUS_BUSY [t, k] = false → exec (.snsInjTime t k) s =
      .next ((u.setSenseList t k { u.senseList t k with inj := true }).wr F.SNS_INJ_STATUS_BUSY [t, k] 1))) ∧
  (∀ (s : State) (t ph : Nat), ph = (s.senseTile t).cycle / 32 → (s.senseTile t).running = true → s.rotates t = true →
    s.scanOver t = true → ((s.senseTile t).cycle + 1) % 32 = 0 → s.rd F.SNS_ADC_LIST [t, 4] = (if ph < 4 then ph else noList) →
    (∀ o, (s.calU ⟨6, t, if ph < 4 then ph else 4⟩).result = some o →
      exec (.senseRotate t) s = .next ((s.bring ⟨6, t, if ph < 4 then ph else 4⟩ o).rotate t ((ph + 1) % 5))) ∧
    ((s.calU ⟨6, t, if ph < 4 then ph else 4⟩).result = none →
      exec (.senseRotate t) s = .next (s.rotate t ((ph + 1) % 5))))

/-- WINDOW_END of a window whose decision is due, with all its codes, gives its raw point by integration, with the
settings it latched, of the samples they give, and the window's RANGE_SETTLE and OVERRANGE; without crosstalk
correction that point is classified and, unless NODEC or gapped, published to the tile's decisions at the tick of E
plus L_DEC; with correction, the windows of the MEAS are corrected together once each has its raw point. The class of
a point is the index of a centroid at least distance, the lowest on a tie; with at least two centroids, MARGIN is set
exactly when the nearest two coincide or the difference of the squared distances, squared, is below 4 MARGIN^2 times
their squared distance. -/
def Obligations.WindowsAndClasses : Prop :=
  (∀ (s : State) (t l k : Nat) (x : List Int) (w w' : Window) (v : WinLatch) (raw : Int × Int) (sat : Bool) (u : State),
    s.rdo.windows.find? (fun w => w.on t l && decide (w.tone = k) && w.raw.isNone && !w.dead) = some w →
    decisionTick w.e ≤ s.now → x.length = 8 * w.wlen + 40 → (∀ c ∈ x, -2048 ≤ c ∧ c ≤ 2047) → v = w.latch.getD (s.latchOf w) →
    s.integrate w v (s.samples w x) = (raw, sat) → u = s.noteSat w sat →
    w' = { w with
      raw := some raw
      latch := some v
      sat := sat
      rangeSettle := (List.range w.wlen).any (u.masked w)
      overrange := ((x.drop 20).take (8 * w.wlen)).any overCode } →
    (w.xt = true → exec (.windowEnd t l k x) s = .next ((u.putWindow w').correctGroup w')) ∧
    (w.xt = false → exec (.windowEnd t l k x) s = .next ((u.putWindow w').classifyWindow w' raw false w.e))) ∧
  (∀ (s v : State) (w : Window) (iq : Int × Int) (e c : Nat) (m : Bool), v = s.gapNow w.tile w.line →
    classify (s.centroids [w.tile, w.line, w.tone]) (s.rd F.RDO_TONE_MARGIN_MARGIN [w.tile, w.line, w.tone]) iq = (c, m) →
    (let g := ((v.rdo.windows.find? (fun x => x.same w)).map (fun x => x.gapped)).getD w.gapped;
     let u := v.putWindow { w with
       sat := w.sat || false
       gapped := g
       out := some (iq.1, iq.2, c, m) };
     s.classifyWindow w iq false e = if w.nodec || g then u else
       u.publish w.tile (writeOf (128 * w.tile + 16 * w.line + w.tone) c srcReadout false m
         (u.gridAt (decisionTick e)) (u.gridAt w.issue)))) ∧
  (∀ (cs : List (Int × Int)) (margin : Nat) (p : Int × Int), cs ≠ [] → ∃ c, (classify cs margin p).1 = c ∧ c < cs.length ∧
    (∀ i, i < cs.length → dist2 p (cs.getD c (0, 0)) ≤ dist2 p (cs.getD i (0, 0))) ∧
    (∀ i, i < c → dist2 p (cs.getD c (0, 0)) < dist2 p (cs.getD i (0, 0)))) ∧
  (∀ (a b p : Int × Int) (margin q : Nat), q = dist2 a b → dist2 p a ≤ dist2 p b →
    ((classify [a, b] margin p).2 = true ↔ q = 0 ∨ (dist2 p b - dist2 p a) * (dist2 p b - dist2 p a) < 4 * margin * margin * q))

/-- AGC_STEP of a present line with AUTO 1 and gain above 0 stages a step down. SLICE_ROTATE of a line with ROT_EN, no
failed slice and 2^20 ticks since the last move moves the spare to the next of 17 positions and writes CAL_TICK.
SLICE_SPARE_IN_PLACE ends the repair: windows with samples in the interval are gapped and the spare holds the failed
position unless the offline slice returned to it. XT_SWAP sets PENDING and stages the swap, after which every element
in force equals its shadow and PENDING reads 0. WEIGHT_WRITE is discarded with W_REFUSED while an open window has
latched the selected set; else it changes exactly that weight of the store, and windows that have latched the set and
still await their result keep the old one. -/
def Obligations.GainAndSlices : Prop :=
  (∀ (s : State) (t l : Nat), t < s.variant.tiles → l < 8 → s.rdB F.RDO_IN_CTRL_AUTO [t, l] = true →
    s.rd F.RDO_STATUS_GAIN [t, l] ≠ 0 → exec (.agcStep t l) s = .next (s.stage (.agcStep t l) false)) ∧
  (∀ (s : State) (t l : Nat), t < s.variant.tiles → l < 8 → s.rdB F.RDO_SLICE_ROT_EN [t, l] = true →
    s.rd F.RDO_SLICE_FAILED [t, l] = 0 → (s.line t l).rotSince + 2 ^ 20 ≤ s.now →
    (let u := s.wr F.RDO_SLICE_SPARE_POS [t, l] ((s.rd F.RDO_SLICE_SPARE_POS [t, l] + 1) % 17);
     exec (.sliceRotate t l) s = .next ((u.setLine t l { s.line t l with rotSince := u.now }).wr F.RDO_CAL_TICK_TICK [t, l]
       (short u.grid)))) ∧
  (∀ (s : State) (t l p f : Nat) (own : Bool), (s.line t l).repair = some (p, f, own) →
    (let u := s.gapNow t l;
     let v := if own then u else u.wr F.RDO_SLICE_SPARE_POS [t, l] p;
     exec (.sliceSpareInPlace t l) s = .next (v.setLine t l { v.line t l with repair := none }))) ∧
  (∀ (s : State) (t l : Nat), t < s.variant.tiles → l < 8 → exec (.xtSwap t l) s =
    .next ((s.wr F.RDO_XT_CTRL_PENDING [t, l] 1).stage (.xtSwap t l) false)) ∧
  (∀ (s : State) (t l d tone set : Nat) (v : Word) (mine : Window → Bool), t < s.variant.tiles → l < 8 → d < 4096 →
    tone = s.rd F.RDO_WSEL_TONE [t, l] → set = s.rd F.RDO_WSEL_SET [t, l] →
    mine = (fun w => w.on t l && decide (w.tone = tone) && decide (w.set = set) && w.latch.isSome) →
    (s.rdo.windows.any (fun w => mine w && w.openAt s.now) = true →
      exec (.weightWrite t l d v) s = .next (s.wr F.RDO_STATUS_W_REFUSED [t, l] 1)) ∧
    (s.rdo.windows.any (fun w => mine w && w.openAt s.now) = false →
      ∃ u, exec (.weightWrite t l d v) s = .next u ∧
        SMap.get 0x7FFF u.stores.weights (weightKey (8 * t + l) tone set d) = v ∧
        (∀ k, k ≠ weightKey (8 * t + l) tone set d →
          SMap.get 0x7FFF u.stores.weights k = SMap.get 0x7FFF s.stores.weights k) ∧
        u.regs = s.regs ∧ u.mem = s.mem ∧
        u.rdo.windows = s.rdo.windows.map (fun w => if mine w ∧ w.raw = none ∧ (∀ e ∈ w.oldW, e.1 ≠ d) then { w with
          oldW := w.oldW ++ [(d, SMap.get 0x7FFF s.stores.weights (weightKey (8 * t + l) tone set d))] } else w)))

/-- DECISION_UPDATE takes the oldest update on its way to the replica: at the hub it is applied, forwarded and
exported; at an unfenced tile it is applied there, unless the ring is being rebuilt, and the register writes sent
right after it arrive. A replica accepts a write that is aged, whose VTICK is more than 2^30 ticks past, or whose
origin is not before VTICK, takes its content and sets valid; it leaves the entry as it is otherwise; an invalidation
clears valid and aged and sets VTICK. The hub counts a write it does not accept. SLOT_AGED of a slot whose VTICK is
that old sets aged. DEC_SW_WRITE of class 3 is refused with 0x0501, of a slot no software owns sets SW_REFUSED, else
it is staged. DEC_QUEUE_SEND sends what waits for the port, then the next group, as much as the width has room for in
the tick. RING_REBUILD_DONE ends the rebuild. SPINE_LINK_RETRY records the retry. -/
def Obligations.DecisionFabric : Prop :=
  (∀ (s u : State) (r : Nat) (m : FabMsg) (d : Update) (rest : List FabMsg), takeMsg r s.dec.fabric = some (m, rest) →
    m.body = .upd d → u = { s with dec := { s.dec with fabric := rest } } →
    (r = 7 → exec (.decisionUpdate r) s = .next (u.hubUpdate m.src d)) ∧
    (r ≠ 7 → s.dec.rebuild = none → u.tileFenced r = false →
      exec (.decisionUpdate r) s = .next ((u.applyAt r d).releaseWrites r)) ∧
    m.dest = r) ∧
  (∀ (s : State) (v : Slot) (u : Update),
    (u.inval = true → s.updated v u = some { v with
      valid := false
      aged := false
      vtick := u.vtick }) ∧
    (u.inval = false → (v.aged = true ∨ s.vtickOld v = true ∨ 0 ≤ shortDiff u.origin.toNat v.vtick.toNat) →
      s.updated v u = some { v with
        cls := u.cls
        valid := true
        late := u.late
        margin := u.margin
        src := u.src
        tick := u.tick
        origin := u.origin }) ∧
    (u.inval = false → v.aged = false → s.vtickOld v = false → shortDiff u.origin.toNat v.vtick.toNat < 0 →
      s.updated v u = none)) ∧
  (∀ (s : State) (u : Update), s.updated (s.slot 7 u.slot) u = none → s.hubApply u = s.countRejected u) ∧
  (∀ (s : State) (r i : Nat), r ≤ 7 → i < 1024 → s.vtickOld (s.slot r i) = true → (s.slot r i).aged = false →
    exec (.slotAged r i) s = .next (s.setSlot r i { s.slot r i with aged := true })) ∧
  (∀ (s : State) (v : Word), bits v.toNat 6 2 = 3 →
    exec (.decSwWrite v) s = .next (s.refuse (R.SPN_DEC_SW.addr [] 0) 0x0501)) ∧
  (∀ (s : State) (v : Word) (p : Nat), bits v.toNat 6 2 ≠ 3 → s.slotUser (960 + bits v.toNat 0 6) = .software p →
    exec (.decSwWrite v) s = .next (s.stage (.decSw v) false)) ∧
  (∀ (s : State) (v : Word), bits v.toNat 6 2 ≠ 3 → s.slotUser (960 + bits v.toNat 0 6) = .none →
    exec (.decSwWrite v) s = .next (s.wr F.SPN_DEC_STATUS_SW_REFUSED [] 1)) ∧
  (∀ (s u : State) (p n : Nat), p < 4 → u = s.flushPort p → n = u.perTick p - u.sentNow p →
    exec (.decQueueSend p) s = .next (((u.decQueue p).take n).foldl (fun s m => s.sendD p m)
      ((u.setDecQueue p ((u.decQueue p).drop n)).noteSent p (min n (u.decQueue p).length)))) ∧
  (∀ s : State, exec .ringRebuildDone s = .next { s with dec := { s.dec with rebuild := none } }) ∧
  (∀ (s : State) (t l : Nat), t < s.variant.tiles → l < 32 →
    exec (.spineLinkRetry t l) s = .next (s.note (.tile t 107) 3 l))

/-- GROUP_FIRE in a tick after the last member became fresh makes no member fresh, waits for each decoder that uses
the group, and sets the parity to the exclusive or of INV and the members' bits (class 1, and with MAP class 2), LEAK,
MARG and GLATE where a member is class 2, margined or late, and the latest origin. DECODER_FIRE of a TABLE or PASS
decoder in a tick after its last group fired consumes the firings, counts, and queues its outputs one tick later, or
four for an entry served from the mirror; a parity error at the lookup queues none and begins the repair.
EXT_DECODER_FIRE sends the round with the groups' flags on the decoder's port and holds it, the oldest of eight being
lost. TABLE_RELOAD_DONE restores the entry from the mirror. DECODE_TABLE_WRITE outside a busy region writes table and
mirror, and sets TBL_WR_REFUSED inside one. SYN_BASE_WRITE stages BASE. -/
def Obligations.SyndromeUnit : Prop :=
  (∀ (s : State) (g h : Nat) (v w : Group) (es : List Slot), v = s.group g → v.dueAt = some h → h < s.now → s.shutdown = false →
    es = v.members.map (s.slot 7) →
    w = { v with
      fresh := []
      dueAt := none
      fired := some s.now
      waiting := s.groupUsers g
      parity := es.foldl (fun b e => b != (decide (e.cls = 1) || (v.map && decide (e.cls = 2)))) v.inv
      leak := es.any (fun e => decide (e.cls = 2))
      marg := es.any (fun e => e.margin)
      glate := es.any (fun e => e.late)
      origin := BitVec.ofNat 32 (latest (es.map (fun e => e.origin.toNat))) } →
    (let a := s.putGroup g w;
     let b := (a.wrB F.SPN_SYN_GRP_STATE_PARITY [g] w.parity).wrB F.SPN_SYN_GRP_STATE_LEAK [g] w.leak;
     let c := (b.wrB F.SPN_SYN_GRP_STATE_MARG [g] w.marg).wrB F.SPN_SYN_GRP_STATE_GLATE [g] w.glate;
     exec (.groupFire g) s = .next (c.wr F.SPN_SYN_GRP_ORIGIN_GORIGIN [g] w.origin.toNat))) ∧
  (∀ (s u : State) (d f e entry at_ src : Nat) (err mir late margin : Bool) (gs : List Nat), gs = (s.decoder d).groups →
    (s.decMode d = 1 ∨ s.decMode d = 2) → s.lastFired d gs = some f → f < s.now →
    e = s.rd F.SPN_SYN_DEC_BASE_BASE [d] + s.decIndex gs → mir = (decide (s.decMode d = 1) && s.stores.tableMir.contains e) →
    entry = (SMap.get 0 (if mir then s.stores.tableMirror else s.stores.table) e).toNat →
    at_ = s.now + (if mir then 4 else 1) → src = (if s.decMode d = 1 then srcTable else srcPass) →
    late = gs.any (fun g => (s.group g).glate) → margin = gs.any (fun g => (s.group g).marg || (s.group g).leak) →
    u = ((s.consume d gs).count F.SPN_SYN_DEC_FIRES_FIRES [d] 1).wr F.SPN_SYN_DEC_FIRE_TICK_TICK [d]
      (short ((s.consume d gs).count F.SPN_SYN_DEC_FIRES_FIRES [d] 1).grid) →
    (decide (s.decMode d = 1) && err && !mir) = false →
    exec (.decoderFire d err) s = .next (u.setDecoder d { u.decoder d with
      out := (u.decoder d).out ++ (List.range 16).filterMap (fun i => (s.decClass d entry i).map (fun c =>
        (at_, writeOf (896 + 16 * d + i) c src late margin (s.gridAt at_)
          (latest (gs.map (fun g => (s.group g).origin.toNat)))))) })) ∧
  (∀ (s u : State) (d f e : Nat) (gs : List Nat), gs = (s.decoder d).groups → s.decMode d = 1 → s.lastFired d gs = some f →
    f < s.now → e = s.rd F.SPN_SYN_DEC_BASE_BASE [d] + s.decIndex gs → s.stores.tableMir.contains e = false →
    u = ((s.consume d gs).count F.SPN_SYN_DEC_FIRES_FIRES [d] 1).wr F.SPN_SYN_DEC_FIRE_TICK_TICK [d]
      (short ((s.consume d gs).count F.SPN_SYN_DEC_FIRES_FIRES [d] 1).grid) →
    exec (.decoderFire d true) s = .next (u.tableError d e)) ∧
  (∀ (s u : State) (d f port : Nat) (gs : List Nat) (round : BitVec 16) (origin : Word), gs = (s.decoder d).mask →
    s.decMode d = 3 → s.lastFired d gs = some f → port = s.rd F.SPN_SYN_DEC_CFG_PORT [d] →
    round = BitVec.ofNat 16 (s.rd F.SPN_SYN_DEC_STATE_ROUND [d] + 1) →
    origin = BitVec.ofNat 32 (latest (gs.map (fun g => (s.group g).origin.toNat))) →
    u = (((s.consume d gs).count F.SPN_SYN_DEC_FIRES_FIRES [d] 1).wr F.SPN_SYN_DEC_FIRE_TICK_TICK [d]
      (short s.grid)).wr F.SPN_SYN_DEC_STATE_ROUND [d] round.toNat →
    u.portCarries port = true → (u.decoder d).rounds.length < 8 →
    (let b := fun (x : Bool) (n : Nat) => if x then n else 0;
     exec (.extDecoderFire d) s = .next ((u.setRounds d ((u.decoder d).rounds ++
       [⟨round, origin, gs.any (fun g => (s.group g).leak || (s.group g).marg), u.now⟩])).sendP port
       (.parity d round origin (gs.map (fun g =>
         (g, b (s.group g).parity 1 + b (s.group g).leak 2 + b (s.group g).marg 4 + b (s.group g).glate 8))))))) ∧
  (∀ (s : State) (e : Nat), s.stores.tableRepair.any (fun r => decide (r.1 = e)) = true →
    ∃ u, exec (.tableReloadDone e) s = .next u ∧ SMap.get 0 u.stores.table e = SMap.get 0 s.stores.tableMirror e ∧
      u.stores.tableMirror = s.stores.tableMirror ∧ u.stores.tableRepair.any (fun r => decide (r.1 = e)) = false ∧
      (∀ k, k ≠ e → SMap.get 0 u.stores.table k = SMap.get 0 s.stores.table k) ∧ u.regs = s.regs) ∧
  (∀ (s : State) (e : Nat) (v : Word), e < 2 ^ 18 →
    (s.tableBusy e = true → exec (.decodeTableWrite e v) s = .next (s.wr F.SPN_DEC_STATUS_TBL_WR_REFUSED [] 1)) ∧
    (s.tableBusy e = false → ∃ u, exec (.decodeTableWrite e v) s = .next u ∧ SMap.get 0 u.stores.table e = v ∧
      SMap.get 0 u.stores.tableMirror e = v ∧ u.regs = s.regs ∧
      (∀ k, k ≠ e → SMap.get 0 u.stores.table k = SMap.get 0 s.stores.table k ∧
        SMap.get 0 u.stores.tableMirror k = SMap.get 0 s.stores.tableMirror k))) ∧
  (∀ (s : State) (d : Nat) (v : Word), d < 4 → exec (.synBaseWrite d v) s = .next (s.stage (.synBase d v) true))

/-- LANE_TRAIN_STEP of a lane that does not wait: a training set that fails its CHK in COMMA or PARAM is counted as a
code error and nothing else; DETECT, after 100 us, passes to BIT_LOCK; BIT_LOCK notes figure of merit and equaliser
and passes to COMMA from FOM_MIN on; COMMA of its own lane number marks the lane ready and the port may enter DESKEW,
of another number is a failed attempt with FAIL_STEP 6; DESKEW of at most 16 symbols passes every lane in it to PARAM,
which sends TS1; a TS2 in PARAM is answered with TS2 and makes the port ACTIVE. A failed attempt writes FAIL_STEP and
ATTEMPTS and waits 1 ms times 2 to the attempts before it; the eighth makes the lane ABSENT with cause 1.
TRAIN_STEP_TIMEOUT after 10 ms in a step fails the lane's attempt, in DESKEW and PARAM that of every lane in it.
TRAIN_RETRY at the end of the wait enters DETECT and sends TS1. DEEP_POLL of a lane ABSENT for 100 ms runs DETECT 2 ms
later. TRAINING_SIGNAL_LOSS in a later step makes the lane ABSENT with cause 2. DESKEW_WAIT_EXPIRE 10 ms after the
first COMMA enters DESKEW. BVN_RETRAIN of an enabled port not in TEST returns all trainable lanes to DETECT with
ATTEMPTS 0. -/
def Obligations.LaneTraining : Prop :=
  (∀ (s : State) (p l : Nat) (o : TrainObs), p < 4 → l < 4 → (s.lane p l).wait = 0 →
    (s.lane p l).since + (if s.laneState p l = lDetect then 15625 else 0) ≤ s.now →
    ((s.laneState p l = lComma ∨ s.laneState p l = lParam) → o.chk ≠ goodChk o →
      exec (.laneTrainStep p l o) s = .next (s.count F.BVN_LANE_ERR_CODE_ERR [p, l] 1)) ∧
    (s.laneState p l = lDetect → (s.lane p l).polls = false → s.portState p = pTraining →
      exec (.laneTrainStep p l o) s = .next (let u := (s.putLane p l lBitLock).wr F.BVN_LANE_STATUS_ABSENT_CAUSE [p, l] 0;
        if u.portState p = pDown then u.setPortState p pTraining else u)) ∧
    (s.laneState p l = lBitLock → exec (.laneTrainStep p l o) s = .next (
      let u := s.wr F.BVN_LANE_STATUS_FOM [p, l] o.fom;
      let v := (u.wr F.BVN_LANE_EQ_CTLE [p, l] o.ctle).wrI F.BVN_LANE_EQ_DFE1 [p, l] o.dfe1;
      let w := (v.wrI F.BVN_LANE_EQ_DFE2 [p, l] o.dfe2).wrI F.BVN_LANE_EQ_DFE3 [p, l] o.dfe3;
      if w.rd F.BVN_FOM_MIN [] ≤ o.fom then w.putLane p l lComma else w)) ∧
    (s.laneState p l = lComma → o.chk = goodChk o → (s.lane p l).commaOk = false → o.laneSeen = l →
      exec (.laneTrainStep p l o) s = .next (
        let u := (s.wrB F.BVN_LANE_STATUS_POL_INV [p, l] o.polInv).setLane p l { s.lane p l with commaOk := true };
        let v := if (u.port p).commaAt.isNone then u.setPort p { u.port p with commaAt := some u.now } else u;
        v.tryDeskew p)) ∧
    (s.laneState p l = lComma → o.chk = goodChk o → (s.lane p l).commaOk = false → o.laneSeen ≠ l →
      exec (.laneTrainStep p l o) s = .next ((s.failAttempt p l 6).tryDeskew p)) ∧
    (s.laneState p l = lDeskew → o.skew ≤ 16 →
      exec (.laneTrainStep p l o) s = .next ((s.lanesIn p lDeskew).foldl (fun s k => s.sendTs p k false)
        ((s.lanesIn p lDeskew).foldl (fun s k => s.putLane p k lParam) s))) ∧
    (s.laneState p l = lParam → o.chk = goodChk o → o.second = true → exec (.laneTrainStep p l o) s =
      .next (((s.lanesIn p lParam).foldl (fun s k => s.sendTs p k true) s).enterActive p o))) ∧
  (∀ (s : State) (p l c k : Nat), k = s.rd F.BVN_LANE_STATUS_ATTEMPTS [p, l] + 1 →
    (let u := (s.wr F.BVN_LANE_STATUS_FAIL_STEP [p, l] c).wr F.BVN_LANE_STATUS_ATTEMPTS [p, l] (min k 8);
     s.failAttempt p l c = if 8 ≤ k then u.absentLane p l 1 else
       u.setLane p l { LaneRun.idle with
         since := u.now
         wait := u.now + 156250 * 2 ^ (k - 1) })) ∧
  (∀ (s : State) (p l st : Nat), p < 4 → l < 4 → st = s.laneState p l → (s.lane p l).wait = 0 →
    (s.lane p l).since + 1562500 ≤ s.now → (s.lane p l).polls = false →
    (st = 1 ∨ st = 2 ∨ (st = 3 ∧ (s.lane p l).commaOk = false) →
      exec (.trainStepTimeout p l) s = .next (((s.failAttempt p l st).tryDeskew p).checkDown p)) ∧
    (st = 4 ∨ st = 5 → exec (.trainStepTimeout p l) s =
      .next ((((s.lanesIn p st).foldl (fun s l => s.failAttempt p l st) s).tryDeskew p).checkDown p))) ∧
  (∀ (s : State) (p l : Nat), p < 4 → l < 4 → (s.lane p l).wait ≠ 0 → (s.lane p l).wait ≤ s.now →
    exec (.trainRetry p l) s = .next ((s.putLane p l lDetect).sendTs p l false)) ∧
  (∀ (s : State) (p l : Nat), p < 4 → l < 4 → s.laneState p l = lAbsent → (s.lane p l).since + 15625000 ≤ s.now →
    exec (.deepPoll p l) s = .next (((s.wr F.BVN_LANE_STATUS_TSTATE [p, l] lDetect).setLane p l { LaneRun.idle with
      since := s.now + 312500
      polls := true }).sendTs p l false)) ∧
  (∀ (s : State) (p l : Nat), p < 4 → l < 4 → 2 ≤ s.laneState p l → s.laneState p l ≤ 5 →
    exec (.trainingSignalLoss p l) s = .next (((s.absentLane p l 2).tryDeskew p).checkDown p)) ∧
  (∀ (s : State) (p t : Nat), p < 4 → (s.port p).commaAt = some t → t + 1562500 ≤ s.now → s.portState p = pTraining →
    exec (.deskewWaitExpire p) s = .next (s.enterDeskew p)) ∧
  (∀ (s : State) (p : Nat), p < 4 → s.rdB F.BVN_PORT_CTRL_EN [p] = true → s.rdB F.BVN_PORT_CTRL_TEST [p] = false →
    exec (.bvnRetrain p) s = .next ((s.trainable p).foldl (fun s l => s.detectLane p l) (s.portTrains p)))

/-- LANE_FAIL of some of the lanes in use records each one's unit fault; of all of them by loss of signal it is the
partner's removal. SKIP_SEND, when 62.5 ticks have passed, counts and sends a SKIP; SKIP_RECEIVE deletes above half
fill and inserts below it on every trained lane, an overflow or underflow is a code error. RST_RECEIVE goes to its
mask, answers unless it answers our own request, and replays; a narrower mask of the partner counts in WIDTH_DROPS; an
RST or RPL that fails its check is a code error. RPL_RECEIVE with our counts ends the rejection. ACK_RECEIVE frees
what is acknowledged and sends what waits. NAK_RECEIVE counts and replays. MSG_ERROR of a message begins a NAK unless
one is open, of a symbol is a line error. NAK_REPEAT 157 ticks later repeats it. ACK_SEND sends the counts and is due
no more. DEC_RECEIVE counts and imports the decision. PKT_ANSWER_RECEIVE for an EXTERNAL decoder of the port counts
and answers it, else it is a bad message. PKT_MANAGEMENT_RECEIVE of 1 to 512 bytes counts and delivers them. BVN_WIDEN
to a wider width begins a re-stripe. BVN_INJ inverts a bit at once in TEST and marks an active lane in ACTIVE. -/
def Obligations.PortMessages : Prop :=
  (∀ (s : State) (p bad use : Nat) (ls : BitVec 4) (lost : Bool), p < 4 → use = s.rd F.BVN_PORT_STATUS_IN_USE [p] →
    bad = ls.toNat &&& use → bad ≠ 0 → s.portCarries p = true →
    (bad = use → lost = true → exec (.laneFail p ⟨ls, lost⟩) s = .next (s.removal p)) ∧
    (bad ≠ use ∨ lost = false → exec (.laneFail p ⟨ls, lost⟩) s =
      .next (((List.range 4).filter (fun l => bit bad l)).foldl (fun s l => s.fault (.spine (4 + p)) 0 l) s))) ∧
  (∀ (s : State) (p : Nat) (r : PortRun), p < 4 → s.portCarries p = true → r = s.port p → r.skipAt ≤ 2 * s.now + 1 →
    exec (.skipSend p) s = .next ((s.setPort p { r with
      skips := r.skips + 1
      skipAt := r.skipAt + 125 }).transmit p (.skip p))) ∧
  (∀ (s : State) (p : Nat) (d f : Int) (ls : List Nat), p < 4 → s.portCarries p = true → f = (s.port p).fill + d →
    ls = (List.range 4).filter (fun l => decide (s.laneState p l = lActive) || decide (s.laneState p l = lStandby)) →
    ((16 < f → f ≤ 32 → exec (.skipReceive p d) s = .next (ls.foldl (fun s l => s.count F.BVN_LANE_SKIP_DELETED [p, l] 1)
       (s.setPort p { s.port p with fill := f.toNat - 1 }))) ∧
     (0 ≤ f → f < 16 → exec (.skipReceive p d) s = .next (ls.foldl (fun s l => s.count F.BVN_LANE_SKIP_INSERTED [p, l] 1)
       (s.setPort p { s.port p with fill := f.toNat + 1 }))) ∧
     (f < 0 ∨ 32 < f → exec (.skipReceive p d) s = .next (ls.foldl (fun s l => s.lineError p l false)
       (s.setPort p { s.port p with fill := 16 }))))) ∧
  (∀ (s : State) (p : Nat) (m : BitVec 4) (d q : Word) (r : PortRun) (mine : Bool), p < 4 → s.portCarries p = true → m ≠ 0 →
    r = { s.port p with cur := [], os := [], tx := (s.port p).tx.filter (fun e => decide (e.rank ≠ 0)) } →
    mine = (match (s.port p).restripe with | some x => x.2.2 | none => false) →
    (let u := if laneCount m.toNat < s.rd F.BVN_PORT_STATUS_WIDTH [p] ∧ mine = false then
       s.count F.BVN_PORT_COUNT2_WIDTH_DROPS [p] 1 else s;
     let v := (u.applyMask p m.toNat).setPort p { r with
       restripe := none
       nakAt := none };
     exec (.rstReceive p m d ⟨q, xorBytes (rstBody m d q)⟩) s =
       .next (((if mine then v else v.transmit p (.rst p m r.dCount r.pCount)).setPortState p pActive).replay p d q))) ∧
  (∀ (s : State) (p : Nat) (m : BitVec 4) (d q : Word) (c : Byte), p < 4 → s.portCarries p = true →
    (c ≠ xorBytes (rstBody m d q) → exec (.rstReceive p m d ⟨q, c⟩) s = .next (s.badSet p)) ∧
    (c ≠ xorBytes (rplBody d q) → exec (.rplReceive p d ⟨q, c⟩) s = .next (s.badSet p)) ∧
    (d = (s.port p).dCount → q = (s.port p).pCount → exec (.rplReceive p d ⟨q, xorBytes (rplBody d q)⟩) s =
      .next (s.setPort p { s.port p with nakAt := none })) ∧
    exec (.ackReceive p d ⟨q, crc8 (countBody d q)⟩) s = .next ((s.setPort p ((s.port p).ack d q)).flushPort p) ∧
    (c ≠ crc8 (countBody d q) → exec (.ackReceive p d ⟨q, c⟩) s = .next (s.msgFails p))) ∧
  (∀ (s : State) (p : Nat) (d q : Word), p < 4 → s.portState p = pActive →
    exec (.nakReceive p d ⟨q, crc8 (countBody d q)⟩) s =
      .next (((s.count F.BVN_PORT_COUNT_REPLAYS [p] 1).note (.spine (4 + p)) 3 0).replay p d q)) ∧
  (∀ (s : State) (p l x y : Nat), p < 4 → s.portState p = pActive →
    ((s.port p).nakAt = none → exec (.msgError ⟨p, .crc⟩) s = .next ((s.setPort p { s.port p with nakAt := some s.now }).transmit p
      (.nak p (s.port p).dCount (s.port p).pCount))) ∧
    ((s.port p).nakAt ≠ none → exec (.msgError ⟨p, .crc⟩) s = .next s) ∧
    (controlKnown x y = false → exec (.msgError ⟨p, (.control l x y false)⟩) s = .next (s.lineError p l false)) ∧
    exec (.msgError ⟨p, (.code l false)⟩) s = .next (s.lineError p l false) ∧
    exec (.msgError ⟨p, (.disparity l false)⟩) s = .next (s.lineError p l true)) ∧
  (∀ (s : State) (p t : Nat), p < 4 → s.portCarries p = true → (s.port p).nakAt = some t → t + 157 ≤ s.now →
    exec (.nakRepeat p) s = .next ((s.setPort p { s.port p with nakAt := some s.now }).transmit p
      (.nak p (s.port p).dCount (s.port p).pCount))) ∧
  (∀ (s : State) (p : Nat), p < 4 → s.portState p = pActive → (s.port p).ackDue = true → exec (.ackSend p) s =
    .next ((s.setPort p { s.port p with
      ackDue := false
      ackAt := s.now }).transmit p (.ack p (s.port p).dCount (s.port p).pCount))) ∧
  (∀ (s : State) (p : Nat) (m : DecMsg), s.portTakes p = true → exec (.decReceive p ⟨m, crc8 (decBody m)⟩) s =
    .next ((s.setPort p { s.port p with
      dCount := (s.port p).dCount + 1
      ackDue := true }).importDec p m)) ∧
  (∀ (s u : State) (p d : Nat) (r : BitVec 16) (c : Word) (e : BitVec 32), s.portTakes p = true → u = s.countP p →
    e = crc32 (pktBody 2 (answerPayload d r c)) →
    (d < 4 → u.decMode d = 3 → u.rd F.SPN_SYN_DEC_CFG_PORT [d] = p →
      exec (.pktAnswerReceive p d r ⟨c, e⟩) s = .next (u.extAnswer d r c)) ∧
    (4 ≤ d ∨ u.decMode d ≠ 3 ∨ u.rd F.SPN_SYN_DEC_CFG_PORT [d] ≠ p →
      exec (.pktAnswerReceive p d r ⟨c, e⟩) s = .next (u.badMsg p))) ∧
  (∀ (s : State) (p : Nat) (bs : List Byte), s.portTakes p = true →
    (1 ≤ bs.length → bs.length ≤ 512 →
      exec (.pktManagementReceive p ⟨bs, crc32 (pktBody 0x10 bs)⟩) s = .next ((s.countP p).emit (.mgmt p bs))) ∧
    (bs.length = 0 ∨ 512 < bs.length →
      exec (.pktManagementReceive p ⟨bs, crc32 (pktBody 0x10 bs)⟩) s = .next ((s.countP p).badMsg p))) ∧
  (∀ (s : State) (p w good : Nat), p < 4 → good = ((List.range 4).filter (fun l => bit (s.rd F.BVN_PORT_STATUS_GOOD [p]) l &&
      (decide (s.laneState p l = lActive) || decide (s.laneState p l = lStandby)))).foldl (fun m l => m + 2 ^ l) 0 →
    w = widthFor (min (laneCount good) (s.rd F.BVN_PORT_CTRL_WIDTH_MAX [p])) → s.portState p = pActive →
    s.rd F.BVN_PORT_STATUS_WIDTH [p] < w → exec (.bvnWiden p) s = .next (s.startRestripe p (lowLanes good w))) ∧
  (∀ (s : State) (p l : Nat), p < 4 → l < 4 →
    (s.portState p = pTest → exec (.bvnInj p l) s = .next (s.emit (.inverted p l))) ∧
    (s.portState p = pActive → s.laneState p l = lActive →
      exec (.bvnInj p l) s = .next (s.setLane p l { s.lane p l with inject := true })))

/-- ANNOUNCE_SEND of an ACTIVE port whose announcement is due sends DOMAIN, MASTER_ID, HOPS, the traced, in-domain and
holdover flags and, upstream of a slave, the subtree, and is next due 156,250 ticks later. ANNOUNCE_RECEIVE notes the
announcement (with a wrong CRC it is a bad message); a slave that hears its upstream partner of the same domain takes
one hop more, or HOP_LIMIT at 31; the domain is judged anew. ANNOUNCE_TIMEOUT after 3 ms judges the ports anew.
DELAY_REQ_SEND of a slave when due sends the next sequence number on the lowest lane with a time of the present tick;
an unanswered request is lost. DELAY_REQ of this domain on a downstream port of a master or in-domain slave is
answered. DELAY_RESP of the pending request, in time, on its lane and near the median, is a valid exchange: theta and
d enter the last sixteen, EXCH counts and the lock state moves; else it is lost; one of a partner known to be foreign
sets FOREIGN. -/
def Obligations.DomainsAndExchanges : Prop :=
  (∀ (s u v : State) (p n t : Nat), p < 4 → s.portState p = pActive → SMap.get 0 s.ts.annAt p ≤ s.now → s.draw = (n, u) →
    u.binNow = (t, v) →
    exec (.announceSend p) s = .next ((v.setTs { v.ts with annAt := SMap.put 0 v.ts.annAt p (v.now + 156250) }).transmit p
      (.announce p (Config.freeNat n % 65536) (v.lowLane p) t {
        domain := BitVec.ofNat 32 (v.rd F.TIM_TS_DOMAIN_DOMAIN [])
        masterId := BitVec.ofNat 32 (v.rd F.TIM_TS_MASTER_MASTER_ID [])
        hops := v.rd F.TIM_TS_STATUS_HOPS []
        freqTraced := v.freqTraced
        inDomain := v.selfInDomain
        holdover := decide (v.tsState = tsHoldoverSt)
        subtree := if v.tsRole = roleSlave ∧ v.tsUp = p then v.subtree else 0 }))) ∧
  (∀ (s u : State) (p q l t : Nat) (a : Announce) (c : BitVec 16), p < 4 → s.portCarries p = true →
    u = s.setTs { s.ts with heard := s.ts.heard.filter (fun e => decide (e.1 ≠ p)) ++ [(p, ⟨a, s.now⟩)] } →
    (c = crc16 (annBody q l t a) → exec (.announceReceive p ⟨q, l, t, a, c⟩) s =
      .next (if u.tsRole = roleSlave ∧ u.tsUp = p ∧ u.upstreamIds = some true then (u.hearHops a).syncInDomain
        else u.syncInDomain)) ∧
    (c ≠ crc16 (annBody q l t a) → exec (.announceReceive p ⟨q, l, t, a, c⟩) s = .next (s.badMsg p)) ∧
    (a.hops < 31 → u.hearHops a = u.wr F.TIM_TS_STATUS_HOPS [] (a.hops + 1))) ∧
  (∀ (s : State) (p : Nat) (h : Heard), p < 4 → s.heard p = some h → h.tick + 468750 < s.now →
    exec (.announceTimeout p) s = .next s.syncDomains.syncSize) ∧
  (∀ (s u v : State) (p t1 : Nat), p = s.tsUp → s.tsRole = roleSlave → s.portState p = pActive → s.ts.reqAt ≤ s.now →
    u = (if s.ts.req.isSome then s.exchLost else s) → u.binNow = (t1, v) →
    (let seq := (v.ts.seq + 1) % 65536;
     let w := v.setTs { v.ts with
       seq := seq
       req := some (seq, t1, v.lowLane p, v.now)
       reqAt := v.now + 2 ^ v.rd F.TIM_TS_CFG_PERIOD [] };
     exec .delayReqSend s = .next (w.transmit p (.delayReq p seq (v.lowLane p) t1
       (BitVec.ofNat 32 (w.rd F.TIM_TS_DOMAIN_DOMAIN [])))))) ∧
  (∀ (s u : State) (p q l t1 t2 t3 : Nat) (d : Word), s.tsDown.contains p = true → s.portState p = pActive →
    (s.tsRole = roleMaster ∨ (s.tsRole = roleSlave ∧ s.selfInDomain = true)) → d.toNat = s.rd F.TIM_TS_DOMAIN_DOMAIN [] →
    s.binNow = (t3, u) → exec (.delayReq p q l ⟨(t1, d), crc16 (reqBody q l t1 d)⟩ t2) s =
      .next (u.transmit p (.delayResp p q l t2 t3))) ∧
  (∀ (s : State) (q l k t1 t2 t3 t4 a : Nat) (c : BitVec 16), s.ts.req = some (q, t1, l, a) → s.tsRole = roleSlave →
    c = crc16 (respBody q k t2 t3) →
    (s.upstreamIds = some false →
      exec (.delayResp q k t2 ⟨t3, c⟩ t4) s = .next (let u := (s.setTs { s.ts with req := none }).wr F.TIM_TS_STATUS_FOREIGN [] 1;
        if s.rdB F.TIM_TS_STATUS_FOREIGN [] then u else u.note (.spine 8) 3 0)) ∧
    (s.upstreamIds ≠ some false → ∀ theta d : Int, d = ((t4 : Int) - t3) + ((t2 : Int) - t1) →
      theta = ((t4 : Int) - t3) - ((t2 : Int) - t1) - 2 * s.rdI F.TIM_TS_ASYM_ASYM [k] →
      (k = l → s.now ≤ a + 2 ^ s.rd F.TIM_TS_CFG_PERIOD [] →
        (s.ts.exch = [] ∨ |2 * d - median2 (s.ts.exch.map Prod.snd)| ≤ 320) →
        exec (.delayResp q k t2 ⟨t3, c⟩ t4) s = .next (let u := s.setTs { s.ts with
            req := none
            invalid := 0
            exch := (theta, d) :: s.ts.exch.take 15 };
          (((u.count F.TIM_TS_COUNT_EXCH [] 1).showExch.lockStep theta).steer.syncInDomain))) ∧
      (k ≠ l ∨ a + 2 ^ s.rd F.TIM_TS_CFG_PERIOD [] < s.now ∨
        (s.ts.exch ≠ [] ∧ 320 < |2 * d - median2 (s.ts.exch.map Prod.snd)|) →
        exec (.delayResp q k t2 ⟨t3, c⟩ t4) s = .next s.exchLost)))

/-- TIME_STEP of a master whose EPOCH is due makes the present tick the EPOCH; of a slave in STEP_WAIT in IDLE or SAFE
it moves TICK back by its mean theta, rounded to ticks, and takes that off the noted exchanges; both then disable the
timed events, return captures in WAIT_TIME to IDLE and set STEPPED with the tick. TS_HOLD_EXPIRE of a holdover past
TIM_TS_HOLD judges the domain anew. SYNC_OUT_PULSE of a master with SYNC_OUT at a tick that PERIOD divides drives the
pulse 8 ticks later and sends SYN downstream. SYN_RECEIVE of a slave's upstream port pairs the EVENT with a stamp
within 2 ms, or keeps it. SYNC_MISSING 2 ms after a stamp records it. SYNC_CAL_DONE after 4,096 pairs adds the mean to
ASYM and answers lane and value. TIMED_EVENT_FIRE of an enabled event whose target is reached takes its action, sets
FIRED, and clears EN or moves the target by PERIOD. -/
def Obligations.StepsAndEvents : Prop :=
  (∀ s : State, s.tsRole = roleMaster → s.ts.epochDue = true →
    (let u := { s with clk := { s.clk with off := (s.ts.epoch : Int) - s.now } };
     let v := (u.setTs { u.ts with epochDue := false }).setTsState tsMaster;
     exec .timeStep s = .next v.afterStep ∧
     (s.clk.gridValid = true → s.ts.epoch < 2 ^ 57 → v.grid = s.ts.epoch))) ∧
  (∀ (s : State) (n : Int), s.tsRole = roleSlave → s.tsState = tsStepWait → (s.mode = mIdle ∨ s.mode = mSafe) →
    s.ts.exch ≠ [] → n = roundDiv s.ts.thetaSum (10240 * s.ts.exch.length) →
    (let u := { s with clk := { s.clk with off := s.clk.off - n } };
     let v := u.setTs { u.ts with
       exch := u.ts.exch.map (fun e => (e.1 - 10240 * n, e.2))
       inWin := 0
       outWin := 0
       req := u.ts.req.map (fun r => (r.1, ((r.2.1 : Int) - 5120 * n).toNat, r.2.2.1, r.2.2.2)) };
     exec .timeStep s = .next ((v.setTsState tsFine).showExch.afterStep))) ∧
  (∀ (s : State) (h : Nat), s.tsState = tsHoldoverSt → s.ts.holdAt = some h →
    h + 156250 * s.rd F.TIM_TS_HOLD_HOLD [] ≤ s.now → exec .tsHoldExpire s = .next s.syncInDomain) ∧
  (∀ (s u : State) (n : Nat), s.tsRole = roleMaster → s.rdB F.TIM_TS_CFG_SYNC_OUT [] = true →
    s.grid % s.rd F.TIM_SYNC_CFG_PERIOD [] = 0 → s.ts.synAt ≤ s.now → s.draw = (n, u) →
    (let v := u.setTs { u.ts with synAt := u.now + 1 };
     exec .syncOutPulse s = .next ((v.emit (.syncOut (v.grid + 8))).sendSyn (Config.freeNat n % 256) (BitVec.ofNat 32 v.grid)))) ∧
  (∀ (s u : State) (p id l x : Nat) (e : Word) (c : BitVec 16), c = crc16 (synBody id e l x) → s.tsRole = roleSlave → p = s.tsUp → s.portCarries p = true →
    u = (if s.selfInDomain then s.sendSyn id e else s) → u.rdB F.TIM_SYNC_CFG_IN_EN [] = true →
    (∀ t, u.ts.stamps.find? (fun t => near2ms t.2 u.now) = some t → exec (.synReceive p id e ⟨(l, x), c⟩) s =
      .next ((u.setTs { u.ts with stamps := u.ts.stamps.erase t }).syncPair t.1 e)) ∧
    (u.ts.stamps.find? (fun t => near2ms t.2 u.now) = none →
      exec (.synReceive p id e ⟨(l, x), c⟩) s = .next (u.setTs { u.ts with events := u.ts.events ++ [(e, u.now)] }))) ∧
  (∀ (s : State) (t : Nat × Nat) (rest : List (Nat × Nat)), s.ts.stamps = t :: rest → t.2 + 312500 < s.now →
    exec .syncMissing s = .next ((s.setTs { s.ts with stamps := rest }).note (.spine 8) 5 0)) ∧
  (∀ (s : State) (n k l : Nat) (sum v : Int), s.ts.cal = some (n, k, sum, l) → 4096 ≤ k →
    v = clamp32 (s.rdI F.TIM_TS_ASYM_ASYM [l] + roundDiv sum 8192) →
    (let u := (s.setTs { s.ts with cal := none }).wrI F.TIM_TS_ASYM_ASYM [l] v;
     exec .syncCalDone s = .next (u.ok n (leBytes 1 l ++ leBytes 4 (unsigned 32 v))))) ∧
  (∀ (s u : State) (k : Nat), k < 8 → s.rdB F.TIM_EVT_CTRL_EN [k] = true →
    reached (s.rd F.TIM_EVT_TARGET_TICK [k]) (short s.grid) = true → u = (s.eventAction k).wr F.TIM_EVT_CTRL_FIRED [k] 1 →
    (u.rd F.TIM_EVT_PERIOD_PERIOD [k] = 0 → exec (.timedEventFire k) s = .next (u.wr F.TIM_EVT_CTRL_EN [k] 0)) ∧
    (u.rd F.TIM_EVT_PERIOD_PERIOD [k] ≠ 0 → exec (.timedEventFire k) s = .next (u.wr F.TIM_EVT_TARGET_TICK [k]
      ((u.rd F.TIM_EVT_TARGET_TICK [k] + u.rd F.TIM_EVT_PERIOD_PERIOD [k]) % 2 ^ 32))))

/-- LINK_UP of a link that may train sets MODE (1 CXL, 2 PCIe; the first fixes it), LINK_UP, WIDTH, SPEED and, below
x8 or speed code 5, DEGRADED with its fault, and ends the outage. LINK_OUTAGE of an up link ends a previous outage,
resets the port, counts the outage and records it; PCIE_REFCLK_LOSS stops the CXL clocks and is an outage. D3HOT_WRITE
sets D3HOT and begins an outage, D0_WRITE ends both and sends the vectors that waited. CONFIG_REQUEST answers retry
until configuration space is ready; then a read answers its word (0x5C071F3E at offset 0) and a control bit is
written: Cache_Enable shown as CACHE_ON, the CXL controls in CXL mode only. VIRAL_RECEIVE with Viral_Enable in CXL
mode is the fault VIRAL_RECEIVED. CACHE_SNOOP in CXL mode is answered a miss. -/
def Obligations.HostLink : Prop :=
  (∀ (s : State) (cxl : Bool) (w v want : Nat), want = (if cxl then 1 else 2) → s.boot.perstN = true → s.boot.seqHold = false →
    s.linkUp = false → (s.rd F.SPN_HIF_STATUS_MODE [] = 0 ∨ s.rd F.SPN_HIF_STATUS_MODE [] = want) →
    (w = 1 ∨ w = 2 ∨ w = 4 ∨ w = 8) → 1 ≤ v → v ≤ 5 → (cxl = true → 3 ≤ v) →
    (let a := (s.wr F.SPN_HIF_STATUS_MODE [] want).wr F.SPN_HIF_STATUS_LINK_UP [] 1;
     let b := (a.wr F.SPN_HIF_STATUS_WIDTH [] (widthCode w)).wr F.SPN_HIF_STATUS_SPEED [] v;
     let c := b.wrB F.SPN_HIF_STATUS_DEGRADED [] (decide (w < 8) || decide (v < 5));
     let d := c.setHif { c.hif with
       refclk := true
       cxlDown := false };
     exec (.linkUp cxl w v) s = .next (State.outageEnd (if decide (w < 8) || decide (v < 5) then d.note (.spine 0) 2 0 else d)))) ∧
  (∀ s : State, s.linkUp = true →
    exec .linkOutage s = .next ((s.outageEnd.portReset.outageBegin).note (.spine 0) 3 0)) ∧
  (∀ s : State, s.linkUp = true → (let u := s.setHif { s.hif with
       refclk := false
       cxlDown := true };
     exec .pcieRefclkLoss s = .next ((u.outageEnd.portReset.outageBegin).note (.spine 0) 3 0))) ∧
  (∀ s : State, s.linkUp = true → s.d3hot = false →
    exec .d3hotWrite s = .next ((s.wr F.SPN_HIF_STATUS_D3HOT [] 1).outageBegin)) ∧
  (∀ s : State, s.d3hot = true → exec .d0Write s = .next ((s.wr F.SPN_HIF_STATUS_D3HOT [] 0).outageEnd).flushMsix) ∧
  (∀ (s : State) (r : CfgReq), s.linkUp = true → s.hif.cfgReady = false → exec (.configRequest r) s = .next (s.emit .retry)) ∧
  (∀ s : State, s.linkUp = true → s.hif.cfgReady = true →
    (∀ off, exec (.configRequest (.read off)) s = .next (s.emit (.regData [s.cfgRead off]))) ∧ s.cfgRead 0 = 0x5C071F3E ∧
    (∀ b, exec (.configRequest (.msixEnable b)) s = .next (s.setHif { s.hif with msixEn := b }).flushMsix) ∧
    (∀ off v, exec (.configRequest (.other off v)) s = .next (s.setHif { s.hif with cfg := SMap.put 0 s.hif.cfg off v })) ∧
    (∀ b, s.cxlMode = true →
      exec (.configRequest (.cacheEnable b)) s = .next ((s.setHif { s.hif with cacheEn := b }).wrB F.SPN_HIF_STATUS_CACHE_ON [] b) ∧
      exec (.configRequest (.memEnable b)) s = .next (s.setHif { s.hif with memEn := b }) ∧
      exec (.configRequest (.viralEnable b)) s = .next (s.setHif { s.hif with viralEn := b })) ∧
    (∀ b, s.cxlMode = false → exec (.configRequest (.cacheEnable b)) s = .next s ∧
      exec (.configRequest (.memEnable b)) s = .next s ∧ exec (.configRequest (.viralEnable b)) s = .next s)) ∧
  (∀ s : State, s.cxlMode = true → s.linkUp = true → s.hif.viralEn = true →
    exec .viralReceive s = .next (s.fault (.spine 0) 1 0)) ∧
  (∀ (s : State) (a : Nat), s.cxlMode = true → s.linkCarries = true →
    exec (.cacheSnoop a) s = .next (s.emit (.snoopMiss a)))

/-- HDM_COMMIT of an unlocked decoder of a ready port with one way and a size of at most that decoder's half of the
host region commits base, size and lock; with more ways or a larger size it sets the decoder's error. CXLMEM_REQUEST
of an up link in CXL mode with MEM_ACTIVE and Mem_Enable, without viral, to an address that a decoder maps: a write of
up to 64 bytes stores byte k at the mapped address plus k, leaves every other byte as it was and is answered done; a
read answers the 64 bytes of the mapped address, poisoned with its record when the line is; an address that no decoder
maps reads as ones. RESULT_DELIVERY on a link that carries traffic without viral writes every job's staged results
into host memory in order, with the poison of their lines, empties the staging of every job, takes its bytes off the
partitions' use, and leaves device memory and the registers as they were. -/
def Obligations.HostMemoryRequests : Prop :=
  (∀ (s : State) (d b z : Nat) (l : Bool), d < 2 → s.linkUp = true → s.hif.cfgReady = true → (s.hdm d).locked = false →
    z ≤ (if d = 0 then s.hostSize / 2 else s.hostSize - s.hostSize / 2) → exec (.hdmCommit d b z 1 l) s = .next (s.setHdm d {
      base := b
      size := z
      committed := true
      locked := l
      err := false })) ∧
  (∀ (s : State) (d b z w : Nat) (l : Bool), d < 2 → s.linkUp = true → s.hif.cfgReady = true → (s.hdm d).locked = false →
    (w ≠ 1 ∨ (if d = 0 then s.hostSize / 2 else s.hostSize - s.hostSize / 2) < z) →
    exec (.hdmCommit d b z w l) s = .next (s.setHdm d {
      base := b
      size := z
      committed := false
      locked := false
      err := true })) ∧
  (∀ (s : State) (h a : Nat) (data : List Byte), s.cxlMode = true → s.linkUp = true → s.d3hot = false → s.viral = false →
    s.rdB F.SPN_HIF_STATUS_MEM_ACTIVE [] = true → s.hif.memEn = true → s.hdmMap h = some a → data.length ≤ 64 →
    exec (.cxlmemRequest true h data) s = .next ((s.memWrite a data).emit .writeDone) ∧
    (∀ (k : Nat) (hk : k < data.length), ((s.memWrite a data).emit .writeDone).byteAt (a + k) = data[k]) ∧
    (∀ x, x < a ∨ a + data.length ≤ x → ((s.memWrite a data).emit .writeDone).byteAt x = s.byteAt x) ∧
    exec (.cxlmemRequest false h data) s = .next (if s.memPoisoned a 64 then
      ((s.emit (.readData (s.memRead a 64) true)).setHif { s.hif with ras := s.hif.ras + 1 }).note (.spine 0) 4 0
      else s.emit (.readData (s.memRead a 64) false))) ∧
  (∀ (s : State) (h : Nat) (data : List Byte), s.cxlMode = true → s.linkUp = true → s.d3hot = false → data.length ≤ 64 →
    s.hdmMap h = none →
    exec (.cxlmemRequest false h data) s = .next (s.emit (.readData (List.replicate 64 0xFF) false)) ∧
    exec (.cxlmemRequest true h data) s = .next (s.emit .masterAbort)) ∧
  (∀ (s : State) (h a : Nat), s.hif.hdm0.committed = true → s.hif.hdm0.base ≤ h → h < s.hif.hdm0.base + s.hif.hdm0.size →
    s.hdmMap h = some (h - s.hif.hdm0.base)) ∧
  (∀ s : State, s.linkCarries = true → s.viral = false → ∃ t, exec .resultDelivery s = .next t ∧
    t.emitted = s.emitted ++ s.qm.jobs.flatMap (fun e => e.2.staged.map (fun p => .hostWrite p.1 p.2
      (e.2.bad.filter (fun l => decide (p.1 < 64 * l + 64) && decide (64 * l < p.1 + p.2.length))))) ∧
    (∀ j, t.job j = { s.job j with
      staged := []
      bad := [] }) ∧
    (∀ q, t.part q = { s.part q with inUse := (s.part q).inUse -
      (s.qm.jobs.map (fun e => if e.2.part = q then (e.2.staged.map (fun p => p.2.length)).sum else 0)).sum }) ∧
    t.mem = s.mem ∧ t.regs = s.regs)

/-- MEM_READY of an accepted boot image (the retired devices of a changed Sinter are forgotten), once, with a
supported, trained and tested configuration whose retired devices leave no codeword group with two, writes capacity,
ranks and density, FITTED of each fitted device, the retired ones, TESTED, the host size 4 CAP - CAP/4 - 16 and the
staging pool, and sets MEM_ACTIVE; else it sets MEM_FAIL. PATROL_PASS_END keeps each device's count as LAST_PASS,
clears it and counts the pass. DEV_RETIRE_THRESHOLD of a fitted device not retired records it and retires it, or, in a
group that has one retired, records the second. MEM_UNCORRECTABLE counts, notes device, owner and line address,
poisons the line and records it, a ring block or a staged result line being lost; in the firmware region it is the
fault FW_UNCORR, or FW_CORR where one copy is good. MEM_INIT_DONE sets INIT_DONE. -/
def Obligations.DeviceMemory : Prop :=
  (∀ (s : State) (o : MemObs) (old bad : List Nat), s.boot.accepted = true → s.rdB F.SPN_HIF_STATUS_MEM_ACTIVE [] = false →
    s.rdB F.SPN_HIF_STATUS_MEM_FAIL [] = false → 
    old = (s.msvc.sinterRetired.filter (fun d => !o.changed.contains (d / 40))).filter (deviceFitted o.ranks) →
    bad = o.badDevs.filter (fun d => deviceFitted o.ranks d && !old.contains d) →
    (let z := { s with msvc := { s.msvc with
       sinterRetired := s.msvc.sinterRetired.filter (fun d => !o.changed.contains (d / 40)) } };
     let a := (z.wr F.MEM_CFG_CAPACITY [] o.capacity).wr F.MEM_CFG_RANKS [] (o.ranks - 1);
     let b := (a.wr F.MEM_CFG_DENSITY [] ((o.density - 16) / 8)).wrB F.MEM_CFG_DOWN [] o.down;
     let c := b.wrB F.MEM_STATUS_TRAINED [] o.trained;
     ((memSupported o && o.trained && o.testOk && groupsOk (old ++ bad)) = true →
       (let d := ((List.range 80).filter (deviceFitted o.ranks)).foldl (fun s d => s.wr F.MEM_DEV_ERR_FITTED [d] 1) c;
        let e := bad.foldl (fun s d => s.retire d 3) ((old.foldl State.reRetire d).wr F.MEM_STATUS_RETIRED [] old.length);
        let f := (e.wr F.MEM_STATUS_TESTED [] 1).wr F.MEM_HOST_SIZE_H [] (4 * o.capacity - o.capacity / 4 - 16);
        let g := f.wr F.QMG_STAGE_POOL_POOL [] (64 * o.capacity);
        let h := { g with msvc := { g.msvc with
          initBlocks := []
          allInit := false } };
        exec (.memReady o) s = .next (h.wr F.SPN_HIF_STATUS_MEM_ACTIVE [] 1).advise)) ∧
     ((memSupported o && o.trained && o.testOk && groupsOk (old ++ bad)) = false →
       exec (.memReady o) s = .next ((c.wr F.MEM_STATUS_MEM_FAIL [] 1).wr F.SPN_HIF_STATUS_MEM_FAIL [] 1)))) ∧
  (∀ (s u : State), s.rdB F.SPN_HIF_STATUS_MEM_ACTIVE [] = true →
    u = (List.range 80).foldl (fun s d =>
      (s.wr F.MEM_DEV_ERR_LAST_PASS [d] (min 4095 (s.rd F.MEM_DEV_ERR_CE_COUNT [d]))).wr F.MEM_DEV_ERR_CE_COUNT [d] 0) s →
    exec .patrolPassEnd s = .next ((u.count F.MEM_PATROL_PASSES [] 1).wr F.MEM_PATROL_PROGRESS [] 0)) ∧
  (∀ (s u : State) (d n : Nat), s.rdB F.SPN_HIF_STATUS_MEM_ACTIVE [] = true → s.rdB F.MEM_DEV_ERR_FITTED [d] = true →
    s.rdB F.MEM_DEV_ERR_RETIRED [d] = false → n = s.rd F.MEM_RETIRE_THR_THR [] - s.rd F.MEM_DEV_ERR_CE_COUNT [d] →
    u = ((((s.count F.MEM_DEV_ERR_CE_COUNT [d] n).count F.MEM_CE_TOTAL_COUNT [] n).wr F.MEM_LAST_ERR_DEVICE [] d).wr
      F.MEM_LAST_ERR_UE [] 0).note (.spine 10) 5 d →
    exec (.devRetireThreshold d) s =
      .next (if u.groupRetired d then u.note (.spine 10) 2 d else (u.retire d 2).advise)) ∧
  (∀ (s u : State) (a d : Nat) (w : MemOwner), s.rdB F.SPN_HIF_STATUS_MEM_ACTIVE [] = true → a < s.memCap →
    (d < 80 ∨ d = 0x7F) →
    (let b := ((s.count F.MEM_UE_TOTAL_COUNT [] 1).wr F.MEM_LAST_ERR_DEVICE [] d).wr F.MEM_LAST_ERR_UE [] 1;
     let c := (b.wr F.MEM_LAST_ERR_OWNER [] (ownerCode w)).wr F.MEM_LAST_ERR_LO_ADDR_LO [] (64 * (a / 64));
     u = c.wr F.MEM_LAST_ERR_HI_ADDR_HI [] (64 * (a / 64) / 2 ^ 32)) →
    (∀ both, w = .firmware both →
      exec (.memUncorrectable a d w) s = .next (u.fault (.spine 10) (if both then 0 else 4) d)) ∧
    (∀ v, v = ((if u.msvc.poison.contains (a / 64) then u else
        { u with msvc := { u.msvc with poison := u.msvc.poison ++ [a / 64] } }).note (.spine 10) 3 d) →
      (w = .hostRead ∨ w = .hostCopy ∨ (w = .patrol ∧ u.memCap - 2 ^ 32 > a) → exec (.memUncorrectable a d w) s = .next v) ∧
      (∀ t k, w = .ring t k → exec (.memUncorrectable a d w) s = .next (v.ringLoss t k a)) ∧
      (∀ n l, w = .staging n l → exec (.memUncorrectable a d w) s = .next (v.updJob n (fun b => { b with bad := b.bad ++ [l] }))))) ∧
  (∀ s : State, s.rdB F.SPN_HIF_STATUS_MEM_ACTIVE [] = true → exec .memInitDone s =
    .next { s.wr F.MEM_STATUS_INIT_DONE [] 1 with msvc := { s.msvc with
      initBlocks := []
      allInit := true } })

/-- TXN_BEGIN of a partition that exists, with none OPEN, opens one with the next TXN_ID of the partition, written
with the tick into its registers, and answers it. TXN_SET with 1 to 125 entries, each of which the transaction may
stage, that keep it within 4,096 entries and all within 16,384, puts each entry in the place of an earlier one of the
same item or at the end, and answers their number, while 10 s have not passed since its TXN_BEGIN. TXN_COMMIT with
none COMMITTED, a tick that is a multiple of 128 and every entry's checks passed, at 1,563 to 1,562,500,000 ticks from
now (1,563 for tick 0), commits it and answers the sample. TXN_ROLLBACK ends the OPEN transaction and answers OK; of a
committed one it is refused with 0x0906. TXN_TIMEOUT 1,562,500,000 ticks after TXN_BEGIN ends it, keeps its TXN_ID as
timed out and sets TIMEOUT. -/
def Obligations.Transactions : Prop :=
  (∀ (n : Nat) (s : State) (p : List Byte), s.asked n 0x10 false (bytesOk 4 [1, 2, 3]) p → s.txnPartOk (leAt p 0 1) = true →
    s.openTxn (leAt p 0 1) = none →
    (let q := leAt p 0 1;
     let k := SMap.get 0 s.mb.seq q;
     let id : Word := BitVec.ofNat 32 (q + 256 * ((Config.txnSeq q + k) % 2 ^ 24));
     let u := State.setOpen { s with mb := { s.mb with seq := SMap.put 0 s.mb.seq q (k + 1) } } q (some {
       id := id
       entries := []
       begin_ := s.now
       commit := 0
       order := 0
       applied := false });
     exec (.txnBegin n) s = .next (((u.wr F.SPN_TXN_TXN_ID [q] id.toNat).wr F.SPN_TXN_BEGIN_TICK [q] (short u.grid)).respond
       n stOk 0 0 id (leBytes 4 id.toNat)))) ∧
  (∀ (n q : Nat) (s : State) (p : List Byte) (t : Txn) (es l : List TxnEntry), s.asked n 0x11 true txnSetLayout p →
    s.named (s.mbx n).req.txnId = some (q, t) → s.txnInTime ((s.mbx n).req.txnId.toNat % 256) → es = txnEntries p → es.length ≠ 0 → es.length ≤ 125 →
    firstReason (s.stageEntryReason q) 0 es = none → l = es.foldl putEntry t.entries → l.length ≤ 4096 →
    s.txnTotal - t.entries.length + l.length ≤ 16384 →
    exec (.txnSet n) s =
      .next ((s.setOpen q (some { t with entries := l })).respond n stOk 0 0 t.id (leBytes 2 l.length))) ∧
  (∀ (n q tick c : Nat) (s u : State) (p : List Byte) (t : Txn), s.asked n 0x12 true (bytesOk 8 []) p →
    s.named (s.mbx n).req.txnId = some (q, t) → s.txnInTime ((s.mbx n).req.txnId.toNat % 256) → u = s.settleTxns → tick = leAt p 0 8 →
    c = (if tick = 0 then u.now + 1563 else u.fromGrid (tick / 128)) → u.commTxn q = none → tick % 128 = 0 →
    firstReason (u.checkEntry n c t.entries) 0 t.entries = none → u.now + 1563 ≤ c → c ≤ u.now + 1562500000 →
    exec (.txnCommit n) s = .next (u.acceptTxn n q t c)) ∧
  (∀ (n q : Nat) (s : State) (p : List Byte) (t : Txn), s.asked n 0x13 true (bytesOk 0 []) p →
    s.named (s.mbx n).req.txnId = some (q, t) → s.txnInTime ((s.mbx n).req.txnId.toNat % 256) →
    exec (.txnRollback n) s = .next ((s.setOpen q none).respond n stOk 0 0 t.id [])) ∧
  (∀ (n : Nat) (s : State) (p : List Byte) (t : Txn), s.asked n 0x13 true (bytesOk 0 []) p →
    s.named (s.mbx n).req.txnId = none → s.txnInTime ((s.mbx n).req.txnId.toNat % 256) →
    s.commTxn ((s.mbx n).req.txnId.toNat % 256) = some t → t.id = (s.mbx n).req.txnId →
    exec (.txnRollback n) s = .next (s.respond n stRefused 0x0906 whole (s.mbx n).req.txnId [])) ∧
  (∀ (s u : State) (q : Nat) (t : Txn), s.openTxn q = some t → t.begin_ + 1562500000 ≤ s.now → u = s.setOpen q none →
    exec (.txnTimeout q) s =
      .next (State.wr { u with mb := { u.mb with timedOut := u.mb.timedOut ++ [t.id] } } F.SPN_TXN_TIMEOUT [q] 1))

/-- UNIT_ENABLE of a valid range of outputs runs the enable check of each in turn; with a unit accepted it answers
ACCEPTED and REASON of each, with none it is refused with the first reason. UNIT_DISABLE switches each output of the
range off and answers OK. FENCE of a unit that may be fenced fences it and answers OK; refused, it answers its reason
and fences nothing. MEM_RETIRE is FENCE of a DRAM device and refuses another unit with 0x0501. UNFENCE of a unit that
is not fenced answers OK; of a fenced one it answers IN_PROGRESS, and its final response returns the unit to service
and answers OK, or FAILED with 0x0402. FENCE refuses TDC input 9 with 0x0501, an absent unit with 0x0102 and a second
device of a codeword group with 0x0B03. -/
def Obligations.UnitCommands : Prop :=
  (∀ (n t : Nat) (s u : State) (p : List Byte) (k : OutKind) (cs rs : List Nat), s.asked n 0x20 false (bytesOk 8 [5, 6, 7]) p →
    s.enRange p = .ok (k, t, cs) → u = cs.foldl (fun (s : State) c => (s.enableOn k t c).enableDone k t c) s →
    rs = cs.map (fun c => u.rd (fEnReason k) [t, c]) →
    (rs.all (fun x => decide (x ≠ 0)) = false → exec (.unitEnable n) s =
      .next (u.ok n (rs.flatMap (fun x => leBytes 2 (if x = 0 then 1 else 0) ++ leBytes 2 x)))) ∧
    (rs.all (fun x => decide (x ≠ 0)) = true → exec (.unitEnable n) s = .next (u.deny n (rs.headD 0) 0))) ∧
  (∀ (n t : Nat) (s : State) (p : List Byte) (k : OutKind) (cs : List Nat), s.asked n 0x21 false (bytesOk 8 [5, 6, 7]) p →
    s.enRange p = .ok (k, t, cs) →
    exec (.unitDisable n) s = .next ((cs.foldl (fun s c => s.enableOff k t c) s).ok n [])) ∧
  (∀ (n : Nat) (s : State) (p : List Byte) (v : UnitDesc), s.asked n 0x22 false (bytesOk 4 []) p → v = unitOfWord (leAt p 0 4) →
    (s.fenceReason v = 0 → exec (.fence n) s = .next ((s.fenceUnit v true).ok n [])) ∧
    (s.fenceReason v ≠ 0 → exec (.fence n) s = .next (s.deny n (s.fenceReason v) whole))) ∧
  (∀ (n : Nat) (s : State) (p : List Byte) (v : UnitDesc), s.asked n 0xA1 false (bytesOk 4 []) p → v = unitOfWord (leAt p 0 4) →
    (v.kind = 14 → s.fenceReason v = 0 → exec (.memRetire n) s = .next ((s.fenceUnit v true).ok n [])) ∧
    (v.kind ≠ 14 → exec (.memRetire n) s = .next (s.deny n 0x0501 whole))) ∧
  (∀ (n : Nat) (s : State) (p : List Byte) (v : UnitDesc), s.asked n 0x23 false (bytesOk 4 []) p → v = unitOfWord (leAt p 0 4) →
    s.unfenceReason v = 0 →
    (s.ownFence v = true → exec (.unfence n) s = .next (s.progress n)) ∧
    (s.ownFence v = false → exec (.unfence n) s = .next (s.ok n []))) ∧
  (∀ (n : Nat) (s : State) (o : FinalObs) (v : UnitDesc), n < 64 → s.mbxState n = mBusy → (s.mbx n).inProg = true →
    (s.mbx n).req.opcode = 0x23 → v = unitOfWord (leAt (s.mbx n).req.payload 0 4) →
    (o.ok = true → exec (.commandFinalResponse n o) s =
      .next ((((s.unfenceUnit v).logUnit 3 4 v (leBytes 2 0)).advise).ok n [])) ∧
    (o.ok = false → exec (.commandFinalResponse n o) s = .next ((s.logUnit 3 4 v (leBytes 2 0x0402)).fail n 0x0402))) ∧
  (∀ (s : State) (v : UnitDesc), (v.valid = true → v.present s.variant = false → s.fenceReason v = 0x0102) ∧
    (v.valid = true → v.present s.variant = true → v.kind = 13 → v.index = 9 → s.fenceReason v = 0x0501) ∧
    (v.valid = true → v.present s.variant = true → v.kind = 14 → s.rdB F.MEM_DEV_ERR_FITTED [v.index] = true →
      s.ownFence v = false → s.groupRetired v.index = true → s.fenceReason v = 0x0B03))

/-- PROGRAM_LOAD of up to 8,192 instructions that every check accepts writes instruction i at BASE plus i of the
cluster's memory and nothing else there, sets the region's BASE, LAST, VALID and PART, and answers OK; of more it
answers IN_PROGRESS. NANO_LOAD of words that every check accepts writes them from FIRST on in the inactive bank and
answers OK. NANO_SWAP that no check refuses begins the swap and answers IN_PROGRESS; NANO_SWAP_DONE, once no thread
reads the old bank, ends it and answers the bank. PATCH_STAGE and USER_UCODE_STAGE of an image that every check
accepts show STATE 1 and answer IN_PROGRESS. PATCH_APPLY of a stage that may be applied begins it and answers
IN_PROGRESS; PATCH_APPLY_DONE, once every thread reads the staged bank, shows the new version and identity, raises the
minimum SVN, empties the stage and answers. PATCH_DISCARD empties a stage that does not apply, and refuses one that
does with 0x0906. -/
def Obligations.ProgramsAndImages : Prop :=
  (∀ (n : Nat) (s : State) (p : List Byte) (a : ProgAsk), s.asked n 0x30 false (bytesOk 16 []) p → a = progAsk p →
    s.progReason a = none →
    (8192 < progLen a → exec (.programLoad n) s = .next (s.progress n)) ∧
    (progLen a ≤ 8192 → ∃ u, exec (.programLoad n) s = .next (u.ok n []) ∧ u = s.writeProgram a ∧
      (∀ i, i < progLen a → SMap.get 0 u.stores.sram (65536 * (9 * a.tile + a.cluster) + a.base + i) =
        BitVec.ofNat 64 (leAt (s.memRead a.src (8 * progLen a)) (8 * i) 8)) ∧
      (∀ k, k < 65536 * (9 * a.tile + a.cluster) + a.base ∨ 65536 * (9 * a.tile + a.cluster) + a.base + progLen a ≤ k →
        SMap.get 0 u.stores.sram k = SMap.get 0 s.stores.sram k))) ∧
  (∀ (n t c first cnt src : Nat) (b : Bool) (s : State) (p : List Byte) (ws : List NanoWord),
    s.asked n 0x35 false (bytesOk 14 []) p → t = leAt p 0 1 → c = leAt p 1 1 → first = leAt p 2 2 → cnt = leAt p 4 2 →
    src = leAt p 6 8 → ws = (wordsOf (s.memRead src (32 * cnt)) 32 cnt).map (fun w => BitVec.ofNat 256 w) →
    s.clusterReason t c = 0 → 0 < cnt → first + cnt ≤ 4096 → s.inactiveNano (9 * t + c) = some b →
    s.swapping (9 * t + c) = false → s.srcOk src (32 * cnt) = true → firstReason (nanoReason c) 0 ws = none →
    exec (.nanoLoad n) s = .next (State.ok { s with stores := { s.stores with
      nano := SMap.putList 0 s.stores.nano (4096 * bankKey (9 * t + c) b + first) ws } } n [])) ∧
  (∀ (n t c : Nat) (s : State) (p : List Byte), s.asked n 0x36 false (bytesOk 2 []) p → t = leAt p 0 1 → c = leAt p 1 1 →
    s.swapReason t c = none → exec (.nanoSwap n) s =
      .next ((s.beginSwap (9 * t + c) ((s.inactiveNano (9 * t + c)).getD false) 0 (some n)).progress n)) ∧
  (∀ (t c g k n : Nat) (b : Bool) (s u : State), s.stores.nanoSwap.find? (fun w => decide (w.1 = 9 * t + c)) = some (g, b, k, some n) →
    s.nanoRead (9 * t + c) (!b) = false →
    u = { s with stores := { s.stores with nanoSwap := s.stores.nanoSwap.filter (fun w => decide (w.1 ≠ 9 * t + c)) } } →
    u.working n 0x36 = true → exec (.nanoSwapDone t c) s = .next (u.ok n [if b then 1 else 0]).settleTxns) ∧
  (∀ (n a l : Nat) (s : State) (p : List Byte), s.asked n 0x31 false (bytesOk 12 []) p → a = leAt p 0 8 → l = leAt p 8 4 →
    s.stageReason n true 0x7F a l = none →
    exec (.patchStage n) s = .next ((s.wr F.SPN_MCODE_STAGE_STATE [] 1).progress n)) ∧
  (∀ (n t a l : Nat) (s : State) (p : List Byte), s.asked n 0x32 false (bytesOk 13 []) p → t = leAt p 0 1 → a = leAt p 1 8 →
    l = leAt p 9 4 → t < 0x80 → s.stageReason n false t a l = none →
    exec (.userUcodeStage n) s = .next ((s.wr F.SPN_MCODE_STAGE_STATE [] 1).progress n)) ∧
  (∀ (n : Nat) (s : State) (p : List Byte), s.asked n 0x33 false (bytesOk 0 []) p →
    (s.applyReason n = 0 → exec (.patchApply n) s = .next ((s.beginApply 0 (some n)).progress n)) ∧
    (s.applyReason n ≠ 0 → exec (.patchApply n) s = .next (s.deny n (s.applyReason n) whole))) ∧
  (∀ (n : Nat) (s : State) (u : UStage), s.stores.ustage = some u → u.applying = true → s.applied u = true → u.mbx = some n →
    (s.endApply u).working n 0x33 = true →
    exec .patchApplyDone s = .next (((s.endApply u).ok n (wordBytes [((s.endApply u).regWord R.SPN_MCODE_VER [] 0).toNat,
      ((s.endApply u).regWord R.SPN_MCODE_ID [] 0).toNat])).settleTxns)) ∧
  (∀ (n : Nat) (s : State) (p : List Byte) (u : UStage), s.asked n 0x34 false (bytesOk 0 []) p → s.stores.ustage = some u →
    (u.applying = false → exec (.patchDiscard n) s =
      .next ((State.showStage { s with stores := { s.stores with ustage := none } }).ok n [])) ∧
    (u.applying = true → exec (.patchDiscard n) s = .next (s.deny n 0x0906 whole)))

/-- PART_CREATE of a free partition with POLICY 1 or 2 whose quota fits the pool sets VALID, the policy and the quota.
PART_DESTROY of an idle one without queue pairs or a committed transaction releases all it has and clears its
registers. PART_POLICY of an idle one sets its policy and that of its open streams. PART_ASSIGN of units in range, of
idle owners, none of another partition or an absent tile, adds them to the partition (OP 0) or releases them (OP 1).
QP_CREATE of a free pair with proper rings and a vector from 1,024 to 2,047 sets it up with heads and tails 0 and
phase 1 and counts it; QP_DELETE of one without jobs clears it and counts it off. PLAN_LOAD of a plan that every check
accepts stores it with the resources that its regions name and answers their counts. PLAN_DROP of a plan no job uses
drops it. JOB_ABORT of jobs with that tag marks each and stages its end. Each answers OK. -/
def Obligations.PartitionCommands : Prop :=
  (∀ (n q pol k : Nat) (s : State) (p : List Byte), s.asked n 0x40 false (bytesOk 6 []) p → q = leAt p 0 1 → pol = leAt p 1 1 →
    k = leAt p 2 4 → q < 64 → (pol = 1 ∨ pol = 2) → s.partValid q = false →
    s.quotaSum + k ≤ s.rd F.QMG_STAGE_POOL_POOL [] →
    exec (.partCreate n) s = .next ((((s.wr F.QMG_PART_CFG_VALID [q] 1).wr F.QMG_PART_CFG_POLICY [q] (pol - 1)).wr
      F.QMG_PART_QUOTA_QUOTA [q] k).ok n [])) ∧
  (∀ (n q : Nat) (s : State) (p : List Byte), s.asked n 0x41 false (bytesOk 1 []) p → q = leAt p 0 1 → s.created q = true →
    s.partBusy q = false → s.rd F.QMG_PART_CFG_QUEUES [q] = 0 → s.commTxn q = none →
    exec (.partDestroy n) s =
      .next ((((s.releasePart q).setRegWord R.QMG_PART_CFG [q] 0 0).wr F.QMG_PART_QUOTA_QUOTA [q] 0).ok n [])) ∧
  (∀ (n q pol : Nat) (s : State) (p : List Byte), s.asked n 0x42 false (bytesOk 2 []) p → q = leAt p 0 1 → pol = leAt p 1 1 →
    s.created q = true → (pol = 1 ∨ pol = 2) → s.partBusy q = false →
    exec (.partPolicy n) s = .next (((s.wr F.QMG_PART_CFG_POLICY [q] (pol - 1)).streamPolicy q (pol - 1)).ok n [])) ∧
  (∀ (n q kind op first cnt : Nat) (s : State) (p : List Byte) (us : List Nat), s.asked n 0x43 false (bytesOk 7 []) p →
    q = leAt p 0 1 → kind = leAt p 1 1 → op = leAt p 2 1 → first = leAt p 3 2 → cnt = leAt p 5 2 →
    us = (List.range cnt).map (fun i => first + i) → s.created q = true → assignCount kind ≠ 0 → op ≤ 1 → cnt ≠ 0 →
    first + cnt ≤ assignCount kind → (s.partBusy q || us.any (fun i => s.ownerBusy (s.unitOwner kind i))) = false →
    (∀ i ∈ us, s.unitOwner kind i = none ∨ s.unitOwner kind i = some q) →
    (∀ i ∈ us, i / (assignCount kind / 7) < s.variant.tiles) →
    exec (.partAssign n) s = .next ((s.setPart q ((s.part q).units kind (fun l =>
      if op = 0 then l.filter (fun i => !us.contains i) ++ us else l.filter (fun i => !us.contains i)))).ok n [])) ∧
  (∀ (n q k : Nat) (s : State) (p : List Byte), s.asked n 0x44 false (bytesOk 25 []) p → q = leAt p 0 2 → k = leAt p 2 1 →
    q < 4096 → s.created k = true → s.rdB F.QMG_QP_VALID [q] = false → ringOk (leAt p 19 2) (leAt p 3 8) 64 = true →
    ringOk (leAt p 21 2) (leAt p 11 8) 32 = true → 1024 ≤ leAt p 23 2 → leAt p 23 2 ≤ 2047 →
    (let u := s.setQp q {
       sqAddr := leAt p 3 8
       cqAddr := leAt p 11 8
       sqLen := leAt p 19 2
       cqLen := leAt p 21 2
       sqTail := 0
       cqHead := 0
       done := [] };
     let v := (((u.wr F.QMG_QP_VALID [q] 1).pairStart q).wr F.QMG_QP_CFG_PART [q] k).wr F.QMG_QP_CFG_VECTOR [q] (leAt p 23 2);
     exec (.qpCreate n) s = .next ((v.wr F.QMG_PART_CFG_QUEUES [k] (v.rd F.QMG_PART_CFG_QUEUES [k] + 1)).ok n []))) ∧
  (∀ (n q k : Nat) (s : State) (p : List Byte), s.asked n 0x45 false (bytesOk 2 []) p → q = leAt p 0 2 →
    k = s.rd F.QMG_QP_CFG_PART [q] → q < 4096 → s.rdB F.QMG_QP_VALID [q] = true →
    s.qm.jobs.any (fun e => decide (e.2.qp = q)) = false →
    (let u := (((s.setQp q .idle).wr F.QMG_QP_VALID [q] 0).pairStart q).setRegWord R.QMG_QP_CFG [q] 0 0;
     exec (.qpDelete n) s = .next ((u.wr F.QMG_PART_CFG_QUEUES [k] (u.rd F.QMG_PART_CFG_QUEUES [k] - 1)).ok n []))) ∧
  (∀ (n num part : Nat) (s : State) (p b : List Byte), s.asked n 0x46 false (bytesOk 15 []) p → num = leAt p 0 2 →
    part = leAt p 2 1 → b = s.memRead (leAt p 3 8) (leAt p 11 4) → num ≤ 1023 → s.created part = true →
    s.srcOk (leAt p 3 8) (leAt p 11 4) = true → s.planHeld num = false → planOk b (planOf part b) = true →
    s.planReason (planOf part b) = none →
    (let v := s.scanPlan (planOf part b);
     exec (.planLoad n) s = .next ((s.setPlan num v).ok n
       (leBytes 1 v.lines.length ++ leBytes 1 v.gens.length ++ leBytes 2 v.brdSlots.length)))) ∧
  (∀ (n num : Nat) (s : State) (p : List Byte), s.asked n 0x47 false (bytesOk 2 []) p → num = leAt p 0 2 → num ≤ 1023 →
    s.planHeld num = false → exec (.planDrop n) s = .next ((s.setPlan num .idle).ok n [])) ∧
  (∀ (n q : Nat) (tag : Word) (s : State) (p : List Byte) (js : List Nat), s.asked n 0x48 false (bytesOk 6 []) p →
    q = leAt p 0 2 → tag = BitVec.ofNat 32 (leAt p 2 4) →
    js = s.jobsWhere (fun _ b => decide (b.qp = q) && decide (b.tag = tag)) → js.isEmpty = false →
    exec (.jobAbort n) s = .next ((js.foldl (fun (s : State) j =>
      (s.updJob j (fun b => { b with abort := true })).stage (.jobAbort j) false) s).ok n []))

/-- Accepted by all their checks: DEC_SLOT_ASSIGN gives a free classical slot to a port's imports (KIND 2) or software
(3), or releases it (0); DEC_EXPORT_SET and DEC_IMPORT_SET set a port's list and its count; SYND_GROUP_SET sets a
group's members, MAP and INV, none fresh; SYND_DECODER_SET gives a decoder its setting. TIME_CONFIG in IDLE writes the
configuration and starts the service anew, unless it has stepped; TIME_REINIT in IDLE starts it anew with the epoch.
SYNC_CAL of a LOCKED service with a pair in the last 10 ms, the input's filter 0 and none at work, begins the
averaging. CAL_RUN that no check refuses begins its calibrations. CAL_REF_DECLARE of a value from 1,000,000 to
5,000,000 in IDLE or SAFE with no open job and none at work begins the transfer. The last three answer IN_PROGRESS,
the others OK. -/
def Obligations.DecisionAndTimeCommands : Prop :=
  (∀ (n slot kind q port : Nat) (s : State) (p : List Byte), s.asked n 0x50 false (bytesOk 5 []) p → slot = leAt p 0 2 →
    kind = leAt p 2 1 → q = leAt p 3 1 → port = leAt p 4 1 → 960 ≤ slot → slot ≤ 1023 → port ≤ 3 →
    (kind = 2 ∨ kind = 3 → s.created q = true → s.partBusy q = false → s.slotUser slot = .none →
      exec (.decSlotAssign n) s =
        .next ((s.setSlotUser slot (if kind = 2 then .imp port q else .software q)).ok n [])) ∧
    (∀ j t, kind = 0 → (s.slotUser slot = .imp j t ∨ s.slotUser slot = .software t) →
      exec (.decSlotAssign n) s = .next ((s.releaseSlot slot).ok n []))) ∧
  (∀ (n port : Nat) (s : State) (p : List Byte) (l : List Nat), s.asked n 0x51 false (listOk 2) p → port = leAt p 0 1 →
    l = slotList p 2 (leAt p 1 1) → port ≤ 3 → l.length ≤ 64 → l.any (fun i => decide (1023 < i)) = false →
    l.findIdx? s.slotAbsent = none → s.concerned ((SMap.get [] s.dec.exports port ++ l).map s.slotOwner) = false →
    exec (.decExportSet n) s = .next ((State.wr { s with dec := { s.dec with exports := SMap.put [] s.dec.exports port l.dedup } }
      F.SPN_DEC_PORT_EXPORTS [port] l.dedup.length).ok n [])) ∧
  (∀ (n port : Nat) (s : State) (p : List Byte) (es : List (Nat × Nat)), s.asked n 0x52 false (listOk 4) p →
    port = leAt p 0 1 → es = (List.range (leAt p 1 1)).map (fun i => (leAt p (2 + 4 * i) 2, leAt p (4 + 4 * i) 2)) →
    port ≤ 3 → es.length ≤ 64 →
    es.any (fun (e : Nat × Nat) => decide (1023 < e.1) || decide (e.2 < 960) || decide (1023 < e.2)) = false →
    s.concerned ((SMap.get [] s.dec.imports port ++ es).map (fun e => s.userPart e.2)) = false →
    es.findIdx? (fun e => !s.importOf port e.2) = none → s.sameDomain port = true →
    exec (.decImportSet n) s = .next ((State.wr { s with dec := { s.dec with imports := SMap.put [] s.dec.imports port es } }
      F.SPN_DEC_PORT_IMPORTS [port] es.length).ok n (leBytes 1 es.length))) ∧
  (∀ (n g fl : Nat) (s : State) (p : List Byte) (l : List Nat) (ps : List (Option Nat)),
    s.asked n 0x53 false (fun b => decide (3 ≤ b.length) && decide (b.length = 3 + 2 * leAt b 2 1)) p → g = leAt p 0 1 →
    fl = leAt p 1 1 → l = slotList p 3 (leAt p 2 1) → ps = (s.groupUsers g).map (fun d => some (s.rd F.SPN_SYN_DEC_CFG_PART [d])) →
    l.isEmpty = false → l.length ≤ 64 → fl ≤ 3 →
    l.findIdx? (fun i => decide (1023 < i) || (decide (896 ≤ i) && decide (i < 960))) = none → l.findIdx? s.slotAbsent = none →
    s.concerned (((s.group g).members ++ l).map s.slotOwner ++ ps) = false →
    l.findIdx? (fun i => ps.any (fun x => decide (s.slotOwner i ≠ x))) = none →
    (let u := s.putGroup g { Group.idle with
       members := l.dedup
       map := bit fl 0
       inv := bit fl 1 };
     let v := (u.wr F.SPN_SYN_GRP_CFG_COUNT [g] l.dedup.length).wrB F.SPN_SYN_GRP_CFG_MAP [g] (bit fl 0);
     exec (.syndGroupSet n) s = .next ((v.wrB F.SPN_SYN_GRP_CFG_INV [g] (bit fl 1)).ok n []))) ∧
  (∀ (n : Nat) (s : State) (p : List Byte) (a : DecAsk), s.asked n 0x54 false (bytesOk 61 []) p → a = decAsk p →
    a.fieldsOk = true → s.created a.part = true → s.concerned [some a.part,
      if (s.decoder a.dec).owned then some (s.rd F.SPN_SYN_DEC_CFG_PART [a.dec]) else none] = false → s.decForeign a = false →
    exec (.syndDecoderSet n) s = .next ((s.putDecoder a).ok n [])) ∧
  (∀ (n : Nat) (s : State) (p : List Byte) (a : TimeAsk), s.asked n 0x60 false (bytesOk 21 []) p → a = timeAsk p →
    s.timeReason a = 0 →
    (s.rdB F.TIM_TS_STATUS_STEPPED [] = true → exec (.timeConfig n) s = .next ((s.writeTime a).syncInDomain.ok n [])) ∧
    (s.rdB F.TIM_TS_STATUS_STEPPED [] = false → exec (.timeConfig n) s =
      .next ((((s.writeTime a).wr F.TIM_TS_STATUS_HOPS [] 0).tsRestart a.epoch).ok n []))) ∧
  (∀ (n : Nat) (s : State) (p : List Byte), s.asked n 0x61 false (bytesOk 8 []) p →
    (s.mode = mIdle → exec (.timeReinit n) s = .next ((s.tsRestart (leAt p 0 8)).ok n [])) ∧
    (s.mode ≠ mIdle → exec (.timeReinit n) s = .next (s.deny n 0x0502 whole))) ∧
  (∀ (n : Nat) (s : State) (p : List Byte), s.asked n 0x62 false (bytesOk 0 []) p → s.ts.cal = none →
    s.rd F.TDC_IN_CFG_FILT [8] = 0 → s.tsState = tsLocked → s.pairFresh = true →
    exec (.syncCal n) s = .next ((s.setTs { s.ts with cal := some (n, 0, 0, s.lowLane s.tsUp) }).progress n)) ∧
  (∀ (n : Nat) (s : State) (p : List Byte), s.asked n 0x70 false (fun p => bytesOk 44 (3 :: (List.range 34).map (· + 10)) p &&
      decide (leAt p 1 1 < 8) && decide (leAt p 2 1 < 2)) p → s.calRefusal (calAsk p 0) false = 0 →
    exec (.calRun n) s = .next ((s.beginCal (calAsk p 0) (some n) none).progress n)) ∧
  (∀ (n v : Nat) (s : State) (p : List Byte), s.asked n 0x71 false (bytesOk 8 []) p → s.cal.refReq = none → v = leAt p 0 4 →
    1000000 ≤ v → v ≤ 5000000 → s.allIdle = true → (s.mode = mIdle ∨ s.mode = mSafe) →
    exec (.calRefDeclare n) s =
      .next (State.progress { s with cal := { s.cal with refReq := some (n, v, leAt p 4 4) } } n))

/-- Writing SQ_TAIL or CQ_HEAD of a valid pair with an index of the ring that does not step back over the other
pointer moves that pointer alone; a freed CQ entry clears CQ_FULL. Any other value sets DB_ERR alone. An entry of a
pair whose turn it is, while fetching is not paused, is taken by the row of its KIND alone: SQ_HEAD moves on round the
ring, the pair becomes the last served, and a RUN entry's plan names its resources anew. If no check of admission, of
TIMING or of a committed transaction fails, the job is in flight in the lowest free slot, its start fixed by TIMING
unless the partition is CONTINUITY; with the first reason otherwise the entry's completion with that reason waits
behind the pair's others. -/
def Obligations.QueueEntries : Prop :=
  (∀ (q v h l : Nat) (s : State), q < 4096 → h = s.rd F.QMG_QP_SQ_HEAD [q] → l = (s.qp q).sqLen →
    (s.rdB F.QMG_QP_VALID [q] = true → v < l → ((s.qp q).sqTail + l - h) % l ≤ (v + l - h) % l →
      exec (.sqTailDoorbell q v) s = .next (s.setQp q { s.qp q with sqTail := v })) ∧
    (s.rdB F.QMG_QP_VALID [q] = false ∨ l ≤ v ∨ (v + l - h) % l < ((s.qp q).sqTail + l - h) % l →
      exec (.sqTailDoorbell q v) s = .next (s.wr F.QMG_QP_DB_ERR [q] 1))) ∧
  (∀ (q v t h l : Nat) (s : State), q < 4096 → t = s.rd F.QMG_QP_CQ_TAIL [q] → h = (s.qp q).cqHead → l = (s.qp q).cqLen →
    (s.rdB F.QMG_QP_VALID [q] = true → v < l → (v + l - h) % l ≤ (t + l - h) % l →
      (let u := s.setQp q { s.qp q with cqHead := v };
       exec (.cqHeadDoorbell q v) s = .next (if u.cqFree q then u.wr F.QMG_QP_CQ_FULL [q] 0 else u))) ∧
    (s.rdB F.QMG_QP_VALID [q] = false ∨ l ≤ v ∨ (t + l - h) % l < (v + l - h) % l →
      exec (.cqHeadDoorbell q v) s = .next (s.wr F.QMG_QP_DB_ERR [q] 1))) ∧
  (∀ (c : Instr) (q k h r : Nat) (e : List Byte) (s u v : State) (a b : Job),
    k = leAt e 0 1 → (c = .submitRun q e ∧ (k ≤ 1 ∨ 7 ≤ k)) ∨ (c = .submitCapture q e ∧ k = 2) ∨
      (c = .submitCalibrate q e ∧ k = 3) ∨ (c = .submitStreamOpen q e ∧ k = 4) ∨ (c = .submitStreamClose q e ∧ k = 5) ∨
      (c = .submitScan q e ∧ k = 6) → q < 4096 → e.length = 64 → s.fetchPaused = false → s.entriesRead = true → s.qpTurn q = true →
    h = (s.rd F.QMG_QP_SQ_HEAD [q] + 1) % (s.qp q).sqLen →
    u = { s.wr F.QMG_QP_SQ_HEAD [q] h with qm := { s.qm with rr := q } } →
    a = jobOf e q (u.rd F.QMG_QP_CFG_PART [q]) u.now h →
    v = (if a.kind = 1 ∧ u.planLoaded a.plan then u.setPlan a.plan (u.scanPlan (u.plan a.plan)) else u) →
    b = (if v.continuity a.part then a else { a with startAt := v.fixedStart a }) →
    r = (if v.admitReason e b ≠ 0 then v.admitReason e b
      else if v.continuity a.part = false ∧ v.timingReason b ≠ 0 then v.timingReason b
      else if v.txnLocks b = true then 0x0908 else 0) →
    (r = 0 → exec c s = .next (State.takePubs (let w := v.setJob v.freeSlot { b with order := v.qm.admits, nextAt := b.startAt };
        { w with qm := { w.qm with admits := w.qm.admits + 1 } }) v.freeSlot false)) ∧
    (r ≠ 0 → exec c s = .next (v.setQp q { v.qp q with done := (v.qp q).done ++ [⟨none, b.tag, r, h⟩] })))

/-- When the start tick of an open job that has not begun is known and has come, its work begins, with LATE_START
where it starts late. An open RUN job whose next shot is due and has room cuts the threads of the shot before, parks
it, counts the new shot and begins it at its tick (now, with the wait added to the latency, after a wait for room);
without room it waits. A struck shot whose threads have ended and whose recoveries have come begins again at the tick
after the last of them, later shots and the latency moving by the delay; an earlier struck shot then runs again too. A
shot whose windows are closed and whose threads have ended counts in the completion; the last one ends the job with
status 0 unless an earlier shot is still to be run again. At its deadline an open job ends with status 3 and its
threads are cut. The oldest completion of a pair whose results are out, while an entry is free and the link carries,
is written with its eight words; CQ_TAIL moves on, PHASE turns at the ring's end, and the vector signals when it asks
or the status is 1. -/
def Obligations.JobsAndShots : Prop :=
  (∀ (j t : Nat) (late : Bool) (s u : State), s.startOf j = some (t, late) → (s.job j).open_ = true → (s.job j).begun = false →
    t ≤ s.now → u = s.setJob j { s.job j with
      startAt := some t
      begun := true
      nextAt := none } →
    exec (.jobStart j) s = .next ((if late = true then u.jobFlag j 5 else u).beginJob j t)) ∧
  (∀ (j t : Nat) (s : State) (b : Job), b = s.job j → b.nextAt = some t → b.open_ = true → b.kind = 1 → b.begun = true →
    t ≤ s.now → b.rerun = [] → b.redo = [] → b.shotsRun < b.shots →
    (s.noRoom j = true → exec (.shotStart j) s = .next (s.setJob j { b with held := true })) ∧
    (s.noRoom j = false → ∀ a, a = (if b.held = true then s.now else t) →
      exec (.shotStart j) s = .next ((((s.cutThreads j a).parkShot j true).updJob j (fun c =>
        let c := if c.held then c.addLatency (a - t) else c
        { c with
          held := false
          no := c.shotsRun
          shotsRun := c.shotsRun + 1
          pendTrig := none
          nextAt := if c.trigEach || decide (c.shots ≤ c.shotsRun + 1) then none else some (a + c.period) })).beginShot j a))) ∧
  (∀ (j r d : Nat) (s w u : State) (b : Job), b = s.job j → b.recAt = some r → s.rerunReady j = true → r < s.now →
    b.shotAt ≤ r → d = r + 1 - b.shotAt → w = s.parkShot j false →
    u = (w.partStrms b.part).foldl (fun s e =>
      if (s.strm e.1 e.2).rewound then s.resumeStream e.1 e.2 j b.shotAt (r + 1) else s) w →
    exec (.shotRerun j) s = .next (State.beginShot (u.updJob j (fun c =>
      { c.addLatency d with
        no := b.no
        nextAt := if c.trigEach then c.pendTrig.map (fun e => max (e + 8) (r + 1 + c.period)) else c.nextAt.map (· + d) })) j (r + 1))) ∧
  (∀ (j : Nat) (s : State) (b : Job) (x : Redo) (rest : List Redo), b = s.job j → b.rerun = [] → b.redo = x :: rest →
    b.open_ = true → b.begun = true → b.shotAt < s.now → (s.liveThreads j).isEmpty = true → s.recovered j x.start x.aw = true →
    (∀ t k, x.aw ≠ .stream t k) → exec (.shotRerun j) s =
      .next (((s.parkShot j true).updJob j (fun c => { c with redo := rest })).rerunShot j x.start x.no s.now)) ∧
  (∀ (j : Nat) (s u : State) (b : Job), b = s.job j →
    (∀ t rest, b.tails = t :: rest → s.shotWindows j t.start = false →
      exec (.shotComplete j) s = .next ((s.setJob j { b with tails := rest }).tallyShot j t.start t.status t.counts)) ∧
    (b.tails = [] → b.present = true → b.kind = 1 → b.running = true → b.rerun = [] → (s.liveThreads j).isEmpty = true →
      s.shotWindows j b.shotAt = false → u = (s.tallyShot j b.shotAt b.shotStatus true).updJob j
        (fun c => { c with running := false }) →
      exec (.shotComplete j) s = .next (if b.ended.isSome then u.settleJob j
        else if b.shots ≤ b.shotsRun ∧ b.redo = [] then u.endJob j 0 0 else u))) ∧
  (∀ (j : Nat) (s : State) (b : Job), b = s.job j → b.present = true → b.deadline ≠ 0 → b.admitAt + b.deadline ≤ s.now →
    exec (.jobDeadline j) s = .next ((if b.open_ = true then s.cutJob j 3 else s).cutThreads j (b.admitAt + b.deadline))) ∧
  (∀ (q tail phase st r : Nat) (s u v : State) (d : Done) (rest : List Done) (b : Job), (s.qp q).done = d :: rest →
    s.cqFree q = true → s.linkCarries = true → s.viral = false → tail = s.rd F.QMG_QP_CQ_TAIL [q] →
    phase = s.rd F.QMG_QP_PHASE [q] → u = s.emit (.completion q tail (completionWords b st r phase)) →
    v = (State.setQp ((u.wr F.QMG_QP_CQ_TAIL [q] ((tail + 1) % (s.qp q).cqLen)).wr F.QMG_QP_PHASE [q]
      (if (tail + 1) % (s.qp q).cqLen = 0 then 1 - phase else phase)) q { s.qp q with done := rest }).wr F.QMG_QP_CQ_FULL [q] 0 →
    (d.job = none → st = 1 → r = d.reason → b = { Job.idle with
        tag := d.tag
        sqHead := d.sqHead } →
      exec (.completionPost q) s = .next (v.signal (v.rd F.QMG_QP_CFG_VECTOR [q]))) ∧
    (∀ j, d.job = some j → s.resultsOut j = true → b = s.job j → (st, r) = b.ended.getD (0, 0) →
      exec (.completionPost q) s = .next ((if b.irq = true ∨ st = 1 then v.signal (v.rd F.QMG_QP_CFG_VECTOR [q]) else v).freeJob j)))

/-- A present converter unit outside rotation that has drifted or aged becomes due outside RESET; a due one becomes
stale after its grace, its CAL_VALID clears and CAL_STALE is recorded. In its gap and turn a due unit begins its
calibration or its next step; a step counts once its ticks have passed, and a commitment on the unit before then
discards it (one that the command reports is discarded at once). A unit not held whose calibration has come to its end
completes: corrections within limits wait for the next boundary, others fail; a lead step measured gives its output
back, a lead above 1,000 ohm failing; a fit ends with its result. A step held for 60 s fails with 0x0602. The waiting
result goes, with its CRC and the next SEQ, to the copy with the lower SEQ. At the end of boot calibration every unit
at work ends, those named failing; the next boundary brings the corrections, clears FOREGROUND and sets IDLE_READY. -/
def Obligations.CalibrationEvents : Prop :=
  (∀ (u : UnitDesc) (s : State), u.valid = true → u.present s.variant = true → converterKind u.kind = true →
    s.rotating u = false → s.mode ≠ mReset → s.rdB F.SPN_CAL_CFG2_AUTO [] = true →
    (s.drifted u (s.calU u).temp = true ∨ (s.calU u).opsec + 60 * s.rd F.SPN_CAL_CFG_MAXAGE [] ≤ s.opSec) →
    exec (.calDue u) s = .next (s.makeDue u)) ∧
  (∀ (u : UnitDesc) (d : Nat) (s : State) (k : CalUnit), k = s.calU u → k.due = some d →
    d + 156250000 * s.rd F.SPN_CAL_CFG2_GRACE [] ≤ s.now → k.stale = false → converterKind u.kind = true →
    exec (.calStale u) s = .next ((((s.setCalU u { k with stale := true }).setCalValid u false).syncStale).fault (.spine 11) 0
      (calTile u))) ∧
  (∀ (u : UnitDesc) (d : Bool) (s v : State) (k : CalUnit), v = s.settleStep u false → k = v.calU u → k.due.isSome = true →
    v.fenced u = false → (v.gapTotal u).isSome = true → v.inGap u = true → v.calTurn u = true → k.stepFrom = none →
    (k.work = .none → exec (.gapCalStep u d) s =
      .next ((v.startCal u (.gap 0)).updCalU u (fun k => { k with stepFrom := if d = true then none else some v.now }))) ∧
    (∀ n, k.work = .gap n → exec (.gapCalStep u d) s =
      .next (v.setCalU u { k with stepFrom := if d = true then none else some v.now }))) ∧
  (∀ (u : UnitDesc) (n t : Nat) (b : Bool) (s : State) (k : CalUnit), k = s.calU u → k.work = .gap n → k.stepFrom = some t →
    (t + stepTicks u n ≤ s.now → s.settleStep u b = s.setCalU u { k with
      work := .gap (n + 1)
      stepFrom := none }) ∧
    (s.now < t + stepTicks u n → s.commitOn u = s.setCalU u { k with stepFrom := none })) ∧
  (∀ (u : UnitDesc) (o : CalObs) (s w : State), u.valid = true → u.present s.variant = true → s.fenced u = false →
    s.isHeld u = false → s.isComing u = false →
    (s.calReady u = true → w = (if (s.calU u).work = .none ∧ s.foreground u = false then s.startCal u .none else s) →
      exec (.calComplete u o) s = .next (if o.pass = true then
        { w with cal := { w.cal with coming := w.cal.coming ++ [(u, o)] } } else (w.completeCal u o).rehold u)) ∧
    (s.calReady u = false → u.kind ≠ 6 → s.stepWanted u = some 1 → s.leadReady u = true → w = s.leadBack u →
      exec (.calComplete u o) s = .next (State.rehold (if o.pass = true ∧ leadOhms o ≤ 32000 then
        ((w.wr F.SNS_LEAD_R_LEAD [u.tile, u.index] (leadOhms o).toNat).wr F.SNS_LEAD_LEAD_VALID [u.tile, u.index] 1).noteStep
          u 1 true 0
       else (w.fault (.spine 11) 1 (calTile u)).noteStep u 1 false 0x0602) u)) ∧
    (s.calReady u = false → s.stepWanted u = some 2 → exec (.calComplete u o) s = .next (State.rehold
      (if o.pass = true then (s.updCalU u (fun k => { k with fits := k.fits + 1 })).noteStep u 2 true 0
       else (s.fault (.spine 11) 1 (calTile u)).noteStep u 2 false 0x0602) u))) ∧
  (∀ (u : UnitDesc) (t : Nat) (s : State), (s.calU u).work = .held t → t + 9375000000 ≤ s.now →
    exec (.calHoldTimeout u) s = .next ((s.updCalU u (fun k => { k with work := .none })).failCal u 0x0602)) ∧
  (∀ (u : UnitDesc) (c : CalObs) (s v : State) (k : CalUnit) (r : CalRec), k = s.calU u → k.unwritten = some c →
    s.shutdown = false → (k.written = none ∨ ∃ w, k.written = some w ∧ w + 600 ≤ s.opSec) → r.crc = r.sum →
    r = { (⟨u.word, max (recSeq k.recA) (recSeq k.recB) + 1, k.opsec, k.temp, 0x21, 0, c⟩ : CalRec) with crc := r.crc } →
    v = s.setCalU u { (if recSeq k.recA ≤ recSeq k.recB then { k with recA := some r } else { k with recB := some r } : CalUnit)
      with
      unwritten := none
      written := some s.opSec } →
    exec (.calRecordWrite u) s = .next (v.wrB F.SPN_CAL_STATUS_NV_PENDING [] (v.cal.units.any (fun e => e.2.unwritten.isSome)))) ∧
  (∀ (bad : List UnitDesc) (s v : State) (us : List UnitDesc), s.cal.boot = true →
    us = (s.cal.reqs.filter (fun r => decide (r.scope = 1) && r.mbx.isNone)).flatMap (fun r => r.todo.map Prod.fst) →
    v = us.foldl (fun s u => s.bootUnit bad u) s →
    exec (.bootCalDone bad) s = .next { v with cal := { v.cal with
      reqs := v.cal.reqs.filter (fun r => !(decide (r.scope = 1) && r.mbx.isNone)) } }) ∧
  (∀ (s w : State),
    w = s.cal.coming.foldl (fun s e => s.bringOne e.1 e.2) { s with cal := { s.cal with coming := [] } } →
    w.cal.refDue = none → w.cal.boot = true → w.cal.reqs.any (fun r => decide (r.scope = 1) && r.mbx.isNone) = false →
    s.bringCorrections = (State.wr { w with cal := { w.cal with boot := false } } F.SPN_CAL_STATUS_FOREGROUND [] 0).wr
      F.MBX_GLOBAL_IDLE_READY [] 1)

/-- A sample of a present sensor sampled fast, more than 5 degrees below every threshold, due, and between its 1 kHz
samples keeps the reading, with the largest one in whole degrees; the counts toward and away from each threshold and
toward shutdown rise to 4 or begin anew (a complete one stays owed, log 109), and 4 such samples end the fast
sampling; a due sample without an answer counts toward failure. After 4 readings in line a working sensor enters or
leaves WARN, CRIT or RATE, an entry being recorded, a leaving not. After 4 bad or silent samples it fails: its states
clear and it is excluded; a tile left with fewer than 6 or a spine with fewer than 3 records its loss. The first
working sensor 4 times at 112 degrees begins shutdown: SHUTDOWN, SHUT_COUNT, the tick, THERM_N, the fault, and no tile
scans. After 10 s below 90 degrees SHUTDOWN and THERM_N clear, and a part in SAFE starts its boot calibration. A
THM_CFG value in order is staged, else refused; MAX_CLEAR clears every MAX. -/
def Obligations.Temperature : Prop :=
  (∀ (n : Nat) (s : State) (v : Sensor), n < 6 + 12 * s.variant.tiles → v = s.sensor n → v.due s.now (s.sensFast n) = true →
    exec (.thermSample n none) s = .next (s.setSensor n { v with
      last := some s.now
      slowAt := if v.onGrid s.now (s.sensFast n) = true then s.now else v.slowAt
      silent := if s.sensFailed n = false ∧ 4 ≤ v.silent then 4 else min 4 (v.silent + 1) })) ∧
  (∀ (n : Nat) (t : Int) (s u : State) (v : Sensor), n < 6 + 12 * s.variant.tiles → s.now < (s.sensor n).slowAt + 156250 →
    s.sensFast n = true → (∀ l, (s.sensor n).last = some l → l + 7812 ≤ s.now) →
    (∀ l, l = s.threshold .warn ∨ l = s.threshold .crit ∨ l = shutLevel → 640 < l - t) →
    v = { s.sensor n with
      last := some s.now
      silent := owed (!s.sensFailed n) false (s.sensor n).silent
      bad := owed (!s.sensFailed n) (decide (t < -5120) || decide (19200 < t)) (s.sensor n).bad
      warnUp := owed (!s.inState n .warn) (decide (s.threshold .warn ≤ t)) (s.sensor n).warnUp
      warnDown := owed (s.inState n .warn) (decide (t < s.leaveLevel .warn)) (s.sensor n).warnDown
      critUp := owed (!s.inState n .crit) (decide (s.threshold .crit ≤ t)) (s.sensor n).critUp
      critDown := owed (s.inState n .crit) (decide (t < s.leaveLevel .crit)) (s.sensor n).critDown
      hotUp := owed (!s.shutdown) (decide (shutLevel ≤ t)) (s.sensor n).hotUp
      far := min 4 ((s.sensor n).far + 1) } →
    u = (s.putSens n F.THM_SENS_TEMP F.THM_SENS_T_TEMP (unsigned 16 t)).putSens n F.THM_SENS_FAST F.THM_SENS_T_FAST
      (if 4 ≤ v.far then 0 else 1) →
    exec (.thermSample n (some t)) s = .next (State.dwell (State.setSensor
      (if u.sens n F.THM_SENS_MAX F.THM_SENS_T_MAX < min 255 (t / 128).toNat then
        u.putSens n F.THM_SENS_MAX F.THM_SENS_T_MAX (min 255 (t / 128).toNat) else u) n v))) ∧
  (∀ (n : Nat) (s : State), s.works n = true →
    (s.inState n .warn = false → 4 ≤ (s.sensor n).warnUp → exec (.thermStateEntry n .warn) s =
      .next ((s.putSens n F.THM_SENS_WARN F.THM_SENS_T_WARN 1).thermFault 4 n)) ∧
    (s.inState n .crit = false → 4 ≤ (s.sensor n).critUp → exec (.thermStateEntry n .crit) s =
      .next ((s.putSens n F.THM_SENS_CRIT F.THM_SENS_T_CRIT 1).thermFault 1 n)) ∧
    (s.inState n .warn = true → 4 ≤ (s.sensor n).warnDown → exec (.thermStateLeave n .warn) s =
      .next (s.putSens n F.THM_SENS_WARN F.THM_SENS_T_WARN 0)) ∧
    (s.inState n .crit = true → 4 ≤ (s.sensor n).critDown → exec (.thermStateLeave n .crit) s =
      .next (s.putSens n F.THM_SENS_CRIT F.THM_SENS_T_CRIT 0)) ∧
    (s.inRate n = false → 4 ≤ (s.sensor n).rateUp → exec (.thermRateEntry n) s =
      .next ((s.putSens n F.THM_SENS_RATE F.THM_SENS_T_RATE 1).thermFault 3 n)) ∧
    (s.inRate n = true → 4 ≤ (s.sensor n).rateDown → exec (.thermRateLeave n) s =
      .next (s.putSens n F.THM_SENS_RATE F.THM_SENS_T_RATE 0))) ∧
  (∀ (n : Nat) (s u : State), s.works n = true → (4 ≤ (s.sensor n).bad ∨ 4 ≤ (s.sensor n).silent) →
    u = State.dwell (State.note ((((s.putSens n F.THM_SENS_FAILED F.THM_SENS_T_FAILED 1).putSens n F.THM_SENS_WARN
      F.THM_SENS_T_WARN 0).putSens n F.THM_SENS_CRIT F.THM_SENS_T_CRIT 0).putSens n F.THM_SENS_RATE F.THM_SENS_T_RATE 0)
      (.spine 2) 5 n) →
    (n < 6 → exec (.thermSensorFail n) s =
      .next (if ((List.range 6).filter u.works).length < 3 then u.fault (.spine 2) 2 n else u)) ∧
    (∀ t, 6 ≤ n → t = (n - 6) / 12 → exec (.thermSensorFail n) s =
      .next (if ((List.range 12).filter (fun k => u.works (6 + 12 * t + k))).length < 6 then u.fault (.spine 2) 6 t else u))) ∧
  (∀ (n : Nat) (s u v : State), s.sensors.find? (fun n => s.works n && decide (4 ≤ (s.sensor n).hotUp)) = some n →
    s.shutdown = false →
    u = (let w := ((s.wr F.THM_STATUS_SHUTDOWN [] 1).count F.THM_STATUS_SHUT_COUNT [] 1).wr F.THM_SD_TICK_TICK [] (short s.grid);
      ({ w with therm := { w.therm with thermN := true } } : State).fault (.spine 2) 0 n) →
    v = (List.range u.variant.tiles).foldl (fun s t => (s.haltScan t).capSafe t) u →
    exec .thermShutdown s = .next (((v.wr F.MBX_GLOBAL_IDLE_READY [] 0).abandonCal).dwell)) ∧
  (∀ (t : Nat) (s u : State), s.therm.dwellAt = some t → s.shutdown = true → t + 1562500000 ≤ s.now →
    u = (State.wr { s with
        therm := { s.therm with
          dwellAt := none
          thermN := false }
        clk := { s.clk with strobe := true } } F.THM_STATUS_SHUTDOWN [] 0).wr F.THM_STATUS_DWELL [] 0 →
    exec .thermRestart s = .next (if u.mode = mSafe then (u.setMode mSafe 3).beginBootCal else u)) ∧
  (∀ (v : Word) (s : State),
    exec (.thmCfgWrite v) s = .next (if thmCfgOk v.toNat = true then s.stage (.thmCfg v) false
      else s.refuse (R.THM_CFG.addr [] 0) 0x0803)) ∧
  (∀ (s : State), exec .maxClear s = .next ((List.range (6 + 12 * s.variant.tiles)).foldl
    (fun s n => s.putSens n F.THM_SENS_MAX F.THM_SENS_T_MAX 0) s))

/-- Real faults that a live block defines, of units in range, other than CLIP (rendered), are recorded in one cycle
with their severities after what each does to its unit's registers, each taken when detected. An FLT_INJECT with GO 1
of a block that is live waits for the next boundary when INJ_EN is 1, the fault defined and the unit in range, and
counts INJ_REFUSED otherwise. The hold of ERR_N ends at its tick, and the policy applies. Without spine-link traffic
for 64 ticks a tile makes its outputs safe; a repaired lane ends its interruption. A missed heartbeat makes the
standby active, counts and logs the handover and restarts the failed core; with no standby the firmware is lost, ERR_N
asserts and every mailbox is OFFLINE. The restarted core becomes the standby within 2 s, or it is lost. An audit
adopts each disagreeing present unit. LOG_WRITE moves the oldest buffered record into the ring of 16,384. PEAK_CLR
clears the peak. -/
def Obligations.FaultEvents : Prop :=
  (∀ (b : FltBlk) (fs : List FaultEv) (s : State), b.live s.variant = true →
    (∀ f ∈ fs, (s.faultSev b f.bit).isSome = true ∧ unitOk b f.bit f.unit = true ∧ f.real = true ∧ f.inj = false ∧
      clipBit b f.bit = false ∧
      (b = .spine 0 → f.bit = 1 → s.hif.viralEn = true)) →
    exec (.faultRecord b fs) s = .next (s.faultEvents b ((s.laneFaults b fs).map (fun f => (f, true))))) ∧
  (∀ (b : FltBlk) (v : Word) (s : State), b.live s.variant = true → injGo v = true →
    (s.rdB F.SPN_FLT_CTRL_INJ_EN [] = true ∧ (s.faultSev b (injBit v)).isSome = true ∧ unitOk b (injBit v) (injUnit v) = true →
      exec (.fltInject b v) s = .next { s with staged := s.staged ++ [⟨.fltInject b v, s.now, false⟩] }) ∧
    (s.rdB F.SPN_FLT_CTRL_INJ_EN [] = false ∨ s.faultSev b (injBit v) = none ∨ unitOk b (injBit v) (injUnit v) = false →
      exec (.fltInject b v) s = .next (b.wr s F.FLT_COUNT_INJ_REFUSED F.TFLT_COUNT_INJ_REFUSED 1))) ∧
  (∀ (t : Nat) (s : State), s.flt.errHold = some t → t ≤ s.now →
    exec .errHoldExpire s = .next (State.errPolicy { s with flt := { s.flt with errHold := none } })) ∧
  (∀ (n : Nat) (s : State), exec (.spineLaneRepairDone n) s =
    .next { s with flt := { s.flt with repairAt := SMap.put 0 s.flt.repairAt n 0 } }) ∧
  (∀ (n t : Nat) (s : State), t = SMap.get 0 s.flt.silent n → t ≠ 0 → t + 63 ≤ s.now →
    exec (.tileLinkSilence n) s = .next { s with outs := { s.outs with
      en := s.outs.en.map (fun e => if decide (e.1 / 100 % 10 = n) = true then (e.1, { e.2 with hadValue := false }) else e)
      bias := s.outs.bias.map (fun e => if e.1 / 64 = n then (e.1, { e.2 with
        code := 0
        waiting := []
        safeAt := if (SMap.get .idle s.outs.en (outKey .bias n (e.1 % 64))).hadValue = true then some s.now
          else e.2.safeAt }) else e) } }) ∧
  (∀ (c : Nat) (s u : State), c = s.rd F.MBX_GLOBAL_ACTIVE_CORE [] → s.rdB F.MBX_GLOBAL_FW_READY [] = true → s.flt.lost = false →
    (s.rdB F.MBX_GLOBAL_STANDBY_READY [] = true → u = ((s.fault (.spine 12) 1 c).handover).wr F.MBX_GLOBAL_STANDBY_READY [] 0 →
      exec .heartbeatMiss s = .next { u with flt := { u.flt with restart := some u.now } }) ∧
    (s.rdB F.MBX_GLOBAL_STANDBY_READY [] = false → u = s.fault (.spine 12) 0 c →
      exec .heartbeatMiss s = .next ((List.range 64).foldl (fun s n => s.wr F.MBX_STATUS_STATE [n] 3)
        (State.wr { u with flt := { u.flt with
          lost := true
          errN := true } } F.MBX_GLOBAL_FW_READY [] 0)))) ∧
  (∀ (t : Nat) (ok : Bool) (s u : State), s.flt.restart = some t →
    (ok = true → s.now ≤ t + 312500000 → exec (.standbyRestartDone ok) s = .next (State.wr { s with flt := { s.flt with
      restart := none
      standbyLost := false } } F.MBX_GLOBAL_STANDBY_READY [] 1)) ∧
    (ok = false ∨ t + 312500000 < s.now → u = { s with flt := { s.flt with
        restart := none
        standbyLost := true } } →
      exec (.standbyRestartDone ok) s = .next ((u.fault (.spine 12) 2 (1 - u.rd F.MBX_GLOBAL_ACTIVE_CORE [])).advise))) ∧
  (∀ (us : List UnitDesc) (s : State), s.rdB F.MBX_GLOBAL_FW_READY [] = true → s.flt.lost = false →
    (∀ u ∈ us, u.valid = true ∧ u.present s.variant = true) →
    exec (.fwAudit us) s = .next (us.foldl (fun s u => (s.fault (.spine 12) 3 (s.rd F.MBX_GLOBAL_ACTIVE_CORE [])).logEvent 6 1 3 1 0x70C
      (s.rd F.MBX_GLOBAL_ACTIVE_CORE []) (BitVec.ofNat 32 u.word) []) s)) ∧
  (∀ (r : LogRec) (l : List LogRec) (s : State), s.flt.logBuf = r :: l → s.shutdown = false →
    exec .logWrite s = .next { s with flt := { s.flt with
      logBuf := l
      log := (s.flt.log ++ [r]).drop (s.flt.log.length + 1 - 16384) } }) ∧
  (∀ (n : Nat) (s : State), n < 72 * s.variant.tiles → exec (.peakClr n) s = .next (s.updThr n (fun t => { t with peak := 0 })))

/-- A rail coming up in its order marks it in range; out of order, or VHVP or VHVN more than 1 ms late, it also resets
and holds the part with SEQ_ERR, as finding it so does. A drop of a rail from 1 to 7 with PERST_N high and no hold
resets the part with DROP and DROP_RAIL, else only marks it. PERST asserted resets the part; deasserted it counts the
boot, which starts at once when the supplies and clock are ready. Losing VAUX clears the AON domain and the tick's
age. The ROM records the first cause why the preferred slot fails and takes that slot when none does, else the other
slot with FALLBACK; with both failing BOOT_FAIL and ERR_N are set. Firmware ready after an accepted image with memory
decided and the clock locked loads microcode (with memory), corrections and the reference, logs the boot, makes the
mailboxes IDLE, enters SAFE, and begins boot calibration outside shutdown. -/
def Obligations.SupplyAndBoot : Prop :=
  (∀ (r : Nat) (s u : State), r < 8 → s.railGood r = false → (r = 0 ∨ s.railGood 0 = true) → u = s.setRail r true →
    (s.railOrder r = true → s.hvLate r = false → exec (.railReturn r) s = .next u) ∧
    (s.railOrder r = false ∨ s.hvLate r = true → ∀ v, v = u.resetPart.wr F.SPN_RAIL_STATUS_SEQ_ERR [] 1 →
      exec (.railReturn r) s = .next { v with boot := { v.boot with
        seqHold := true
        seqLow := false } } ∧
      (s.railGood 0 = true → exec (.railSeqError r) s = .next { v with boot := { v.boot with
        seqHold := true
        seqLow := false } }))) ∧
  (∀ (r : Nat) (s u : State), 1 ≤ r → r < 8 → s.railGood r = true → u = s.setRail r false →
    (u.boot.perstN = true → u.boot.seqHold = false → exec (.railDrop r) s =
      .next ((u.resetPart.wr F.SPN_RAIL_STATUS_DROP [] 1).wr F.SPN_RAIL_STATUS_DROP_RAIL [] r)) ∧
    (u.boot.perstN = false ∨ u.boot.seqHold = true → exec (.railDrop r) s = .next u)) ∧
  (∀ (s : State), exec .perstAssert s =
    .next { s.resetPart with boot := { s.resetPart.boot with perstN := false } }) ∧
  (∀ (s u : State), s.boot.perstN = false → u = { s with
      boot := { s.boot with perstN := true }
      flt := { s.flt with bootCount := s.flt.bootCount + 1 } } →
    exec .perstDeassert s = .next (if u.bootable = true then { u with boot := { u.boot with started := true } } else u)) ∧
  (∀ (t : Nat) (s : State), s.boot.perstN = true → s.boot.seqHold = false → s.boot.started = false → s.hif.refclk = true →
    s.boot.railsAt = some t → t + 3906250 ≤ s.now →
    exec .bootStart s = .next { s with boot := { s.boot with started := true } }) ∧
  (∀ (s u : State), u = s.hardReset [] .idle { Boot.idle with perstN := s.boot.perstN } →
    exec .vauxLoss s = .next { u with clk := { u.clk with age := 0 } }) ∧
  (∀ (p : Bool) (x y z : Bool) (a b o : SlotObs) (c1 c2 : Nat) (s u v : State), s.boot.started = true → s.boot.accepted = false →
    s.rdB F.SPN_BOOT_STATUS_BOOT_FAIL [] = false → p = s.boot.preferred →
    c1 = slotCause (if p = true then b else a) s.boot.minSvn → c2 = slotCause (if p = true then a else b) s.boot.minSvn →
    u = (let w := s.wrB F.SPN_BOOT_STATUS_FLASH_8D [] x;
      ({ w with boot := { w.boot with
        slotA := some a
        slotB := some b } } : State).wr (if p = true then F.SPN_BOOT_STATUS_B_CAUSE else F.SPN_BOOT_STATUS_A_CAUSE) [] c1) →
    v = (if c1 = 0 then u else if c2 = 0 then
      (u.wr (if p = true then F.SPN_BOOT_STATUS_A_CAUSE else F.SPN_BOOT_STATUS_B_CAUSE) [] c2).wr F.SPN_BOOT_STATUS_FALLBACK [] 1
      else (u.wr (if p = true then F.SPN_BOOT_STATUS_A_CAUSE else F.SPN_BOOT_STATUS_B_CAUSE) [] c2).wr F.SPN_BOOT_STATUS_BOOT_FAIL [] 1) →
    (c1 = 0 ∨ c2 = 0 → y = (if c1 = 0 then p else !p) → z = y → o = (if y = true then b else a) →
      exec (.bootImageCheck a b x) s = .next (let w := State.wr (State.setRegWord ((v.wrB F.SPN_BOOT_STATUS_IMAGE [] y).wrB
        F.MBX_GLOBAL_FW_IMAGE [] z) R.SPN_FW_VER [] 0 o.version) F.SPN_FW_SVN_RUNNING [] o.svn;
        { w with boot := { w.boot with accepted := true } })) ∧
    (c1 ≠ 0 → c2 ≠ 0 → exec (.bootImageCheck a b x) s =
      .next (State.configReady { v with flt := { v.flt with errN := true } }))) ∧
  (∀ (mem : Bool) (s u v : State), mem = s.rdB F.SPN_HIF_STATUS_MEM_ACTIVE [] → s.boot.accepted = true →
    s.rdB F.MBX_GLOBAL_FW_READY [] = false → s.flt.lost = false → (mem = true ∨ s.rdB F.SPN_HIF_STATUS_MEM_FAIL [] = true) →
    s.rdB F.TIM_PLL_STATUS_LOCKED [] = true → u = (if mem = true then s.loadMicrocode else s) →
    v = ((((List.range 64).foldl (fun s n => s.wr F.MBX_STATUS_STATE [n] 0) ((((u.loadAll.loadRef).logEvent 8 0 0 0 0x700 0 0xFFFFFFFF
      []).wr F.MBX_GLOBAL_FW_READY [] 1).wr F.MBX_GLOBAL_STANDBY_READY [] 1)).configReady).setMode mSafe 0).errPolicy.advise →
    exec .fwReady s = .next (if v.shutdown = true then v else v.beginBootCal))
end

