-- ==== Sys2Proof/Laws/Maps.lean ====
section
/-! SUPPORT. Laws of the sparse maps: reading what was written, reading beside it, and the canonical form. -/

namespace Sys2Proof.Machine

variable {α : Type} {d : α} {m : SMap α} {i j : Nat} {v : α}

@[simp] theorem SMap.get_nil : SMap.get d [] i = d := rfl

theorem SMap.get_insert_self : SMap.get d (SMap.insert m i v) i = v := by
  induction m with
  | nil => simp [SMap.insert, SMap.get]
  | cons e t ih =>
    obtain ⟨k, w⟩ := e
    by_cases hk : k = i
    · simp [SMap.insert, SMap.get, hk]
    · by_cases hl : i < k
      · simp [SMap.insert, SMap.get, hk, hl]
      · simp [SMap.insert, SMap.get, hk, hl, ih]

theorem SMap.get_insert_other (h : j ≠ i) : SMap.get d (SMap.insert m i v) j = SMap.get d m j := by
  induction m with
  | nil => simp [SMap.insert, SMap.get, Ne.symm h]
  | cons e t ih =>
    obtain ⟨k, w⟩ := e
    by_cases hk : k = i
    · subst hk
      simp [SMap.insert, SMap.get, Ne.symm h]
    · by_cases hl : i < k
      · simp [SMap.insert, SMap.get, hk, hl, Ne.symm h]
      · simp [SMap.insert, SMap.get, hk, hl, ih]

theorem SMap.get_remove_self : SMap.get d (SMap.remove m i) i = d := by
  induction m with
  | nil => rfl
  | cons e t ih =>
    obtain ⟨k, w⟩ := e
    by_cases hk : k = i
    · simp [SMap.remove, hk, ih]
    · simp [SMap.remove, SMap.get, hk, ih]

theorem SMap.get_remove_other (h : j ≠ i) : SMap.get d (SMap.remove m i) j = SMap.get d m j := by
  induction m with
  | nil => rfl
  | cons e t ih =>
    obtain ⟨k, w⟩ := e
    by_cases hk : k = i
    · subst hk
      simp [SMap.remove, SMap.get, ih, Ne.symm h]
    · simp [SMap.remove, SMap.get, hk, ih]

variable [DecidableEq α]

/-- A key reads what was written to it. -/
@[simp] theorem SMap.get_put_self : SMap.get d (SMap.put d m i v) i = v := by
  by_cases h : v = d
  · simp [SMap.put, h, SMap.get_remove_self]
  · simp [SMap.put, h, SMap.get_insert_self]

/-- Every other key reads as before. -/
theorem SMap.get_put_other (h : j ≠ i) : SMap.get d (SMap.put d m i v) j = SMap.get d m j := by
  by_cases hv : v = d
  · simp [SMap.put, hv, SMap.get_remove_other h]
  · simp [SMap.put, hv, SMap.get_insert_other h]

omit [DecidableEq α] in
theorem SMap.mem_insert {e : Nat × α} (h : e ∈ SMap.insert m i v) : e = (i, v) ∨ e ∈ m := by
  induction m with
  | nil => simpa [SMap.insert] using h
  | cons f t ih =>
    obtain ⟨k, w⟩ := f
    by_cases hk : k = i
    · simp [SMap.insert, hk] at h
      rcases h with h | h <;> simp [h]
    · by_cases hl : i < k
      · simpa [SMap.insert, hk, hl] using h
      · simp [SMap.insert, hk, hl] at h
        rcases h with h | h
        · simp [h]
        · rcases ih h with h | h <;> simp [h]

omit [DecidableEq α] in
theorem SMap.remove_sublist : (SMap.remove m i).Sublist m := by
  induction m with
  | nil => exact List.Sublist.slnil
  | cons f t ih =>
    obtain ⟨k, w⟩ := f
    by_cases hk : k = i
    · simpa [SMap.remove, hk] using ih.cons (k, w)
    · simpa [SMap.remove, hk] using ih.cons_cons (k, w)

omit [DecidableEq α] in
/-- A part of a canonical map, in its order, is canonical. -/
theorem SMap.wf_sublist {l : SMap α} (hs : l.Sublist m) (h : SMap.wf d m) : SMap.wf d l :=
  ⟨h.1.sublist hs, fun e he => h.2 e (hs.subset he)⟩

omit [DecidableEq α] in
theorem SMap.wf_insert (hv : v ≠ d) (h : SMap.wf d m) : SMap.wf d (SMap.insert m i v) := by
  induction m with
  | nil => simp [SMap.insert, SMap.wf, hv]
  | cons f t ih =>
    obtain ⟨k, w⟩ := f
    have ht : SMap.wf d t := SMap.wf_sublist (List.sublist_cons_self _ _) h
    have hlt : ∀ e ∈ t, k < e.1 := fun e he => List.rel_of_pairwise_cons h.1 he
    by_cases hk : k = i
    · subst hk
      simp only [SMap.insert, if_pos]
      exact ⟨List.pairwise_cons.2 ⟨hlt, ht.1⟩, by
        intro e he
        rcases List.mem_cons.1 he with rfl | he
        · exact hv
        · exact ht.2 e he⟩
    · by_cases hl : i < k
      · simp only [SMap.insert, hk, hl, if_false, if_true]
        refine ⟨List.pairwise_cons.2 ⟨?_, h.1⟩, ?_⟩
        · intro e he
          rcases List.mem_cons.1 he with rfl | he
          · exact hl
          · exact Nat.lt_trans hl (hlt e he)
        · intro e he
          rcases List.mem_cons.1 he with rfl | he
          · exact hv
          · exact h.2 e he
      · simp only [SMap.insert, hk, hl, if_false]
        have hi := ih ht
        refine ⟨List.pairwise_cons.2 ⟨?_, hi.1⟩, ?_⟩
        · intro e he
          rcases SMap.mem_insert he with rfl | he
          · exact Nat.lt_of_le_of_ne (Nat.le_of_not_lt hl) hk
          · exact hlt e he
        · intro e he
          rcases List.mem_cons.1 he with rfl | he
          · exact h.2 _ List.mem_cons_self
          · exact hi.2 e he

/-- Writing keeps the canonical form. -/
theorem SMap.wf_put (h : SMap.wf d m) : SMap.wf d (SMap.put d m i v) := by
  by_cases hv : v = d
  · simpa [SMap.put, hv] using SMap.wf_sublist SMap.remove_sublist h
  · simpa [SMap.put, hv] using SMap.wf_insert hv h

theorem SMap.wf_putList {vs : List α} (h : SMap.wf d m) : SMap.wf d (SMap.putList d m i vs) := by
  induction vs generalizing m i with
  | nil => exact h
  | cons v vs ih => exact ih (SMap.wf_put h)

omit [DecidableEq α] in
theorem SMap.wf_filter {p : Nat × α → Bool} (h : SMap.wf d m) : SMap.wf d (m.filter p) :=
  SMap.wf_sublist List.filter_sublist h

/-- A key outside the written range reads as before. -/
theorem SMap.get_putList_other {vs : List α} (h : j < i ∨ i + vs.length ≤ j) :
    SMap.get d (SMap.putList d m i vs) j = SMap.get d m j := by
  induction vs generalizing m i with
  | nil => rfl
  | cons v vs ih =>
    simp only [List.length_cons] at h
    rw [SMap.putList, ih (by omega), SMap.get_put_other (by omega)]

/-- A key of the written range reads the value written there. -/
theorem SMap.get_putList_self {vs : List α} {k : Nat} (h : k < vs.length) :
    SMap.get d (SMap.putList d m i vs) (i + k) = vs[k] := by
  induction vs generalizing m i k with
  | nil => simp at h
  | cons v vs ih =>
    cases k with
    | zero => rw [SMap.putList, SMap.get_putList_other (by omega)]; simp
    | succ k =>
      simp only [List.length_cons] at h
      have e : i + (k + 1) = i + 1 + k := by omega
      rw [e]
      exact ih (by omega)

omit [DecidableEq α] in
/-- A key that no entry has. -/
theorem SMap.get_none {m : SMap α} (h : ∀ e ∈ m, e.1 ≠ i) : SMap.get d m i = d := by
  induction m with
  | nil => rfl
  | cons e t ih =>
    obtain ⟨k, v⟩ := e
    have hk : k ≠ i := h (k, v) List.mem_cons_self
    simpa [SMap.get, hk] using ih fun e he => h e (List.mem_cons_of_mem _ he)

omit [DecidableEq α] in
/-- A filtered map reads as before or the default. -/
theorem SMap.get_filter {m : SMap α} {p : Nat × α → Bool} (h : SMap.wf d m) :
    SMap.get d (m.filter p) i = SMap.get d m i ∨ SMap.get d (m.filter p) i = d := by
  induction m with
  | nil => exact .inl rfl
  | cons e t ih =>
    have ht : SMap.wf d t := SMap.wf_sublist (List.sublist_cons_self e t) h
    obtain ⟨k, v⟩ := e
    by_cases hp : p (k, v) = true
    · rw [List.filter_cons_of_pos hp]
      by_cases hk : k = i
      · exact .inl (by simp [SMap.get, hk])
      · simpa [SMap.get, hk] using ih ht
    · rw [List.filter_cons_of_neg hp]
      by_cases hk : k = i
      · refine .inr ((ih ht).elim (fun hx => hx.trans (SMap.get_none fun e he => ?_)) id)
        have := (List.pairwise_cons.1 h.1).1 e he
        simp only at this
        omega
      · simpa [SMap.get, hk] using ih ht

omit [DecidableEq α] in
/-- A key that the filter keeps. -/
theorem SMap.get_filter_of {m : SMap α} {p : Nat × α → Bool} (h : ∀ v, p (i, v) = true) :
    SMap.get d (m.filter p) i = SMap.get d m i := by
  induction m with
  | nil => rfl
  | cons e t ih =>
    obtain ⟨k, v⟩ := e
    by_cases hp : p (k, v) = true
    · rw [List.filter_cons_of_pos hp]
      by_cases hk : k = i
      · simp [SMap.get, hk]
      · simpa [SMap.get, hk] using ih
    · rw [List.filter_cons_of_neg hp]
      have hk : k ≠ i := fun e => hp (e ▸ h v)
      simpa [SMap.get, hk] using ih

omit [DecidableEq α] in
theorem SMap.remove_absent {m : SMap α} (h : ∀ e ∈ m, e.1 ≠ i) : SMap.remove m i = m := by
  induction m with
  | nil => rfl
  | cons e t ih =>
    obtain ⟨k, v⟩ := e
    have hk : k ≠ i := h (k, v) List.mem_cons_self
    simp [SMap.remove, hk, ih fun e he => h e (List.mem_cons_of_mem _ he)]

/-- Writing what a key reads leaves a map in canonical form as it is. -/
theorem SMap.put_same {m : SMap α} (h : SMap.wf d m) : SMap.put d m i (SMap.get d m i) = m := by
  induction m with
  | nil => simp [SMap.put, SMap.get, SMap.remove]
  | cons e t ih =>
    obtain ⟨k, v⟩ := e
    have ht : SMap.wf d t := SMap.wf_sublist (List.sublist_cons_self _ t) h
    have hlt := (List.pairwise_cons.1 h.1).1
    by_cases hk : k = i
    · have hv : v ≠ d := h.2 (k, v) List.mem_cons_self
      simp [SMap.put, SMap.get, SMap.insert, hk, hv]
    · have hi := ih ht
      simp only [SMap.get, hk, if_false]
      by_cases hd : SMap.get d t i = d
      · rw [hd] at hi ⊢
        simp only [SMap.put, if_true] at hi ⊢
        simp [SMap.remove, hk, hi]
      · simp only [SMap.put, hd, if_false] at hi ⊢
        have : ¬i < k := fun hlt2 => hd (SMap.get_none fun e he => by have := hlt e he; simp only at this; omega)
        simp [SMap.insert, hk, this, hi]

end Sys2Proof.Machine
end

