-- ==== Sys2Proof/Laws/State.lean ====
section
/-! SUPPORT. What each setter of State leaves alone: one lemma per field per setter, true by unfolding the setter. -/

namespace Sys2Proof.Machine

variable (s : State)

@[simp] theorem State.setRegWord_variant (r : Reg) (ix : List Nat) (w : Nat) (v : Word) : (s.setRegWord r ix w v).variant = s.variant := rfl
@[simp] theorem State.setRegWord_pending (r : Reg) (ix : List Nat) (w : Nat) (v : Word) : (s.setRegWord r ix w v).pending = s.pending := rfl
@[simp] theorem State.setRegWord_freeCtr (r : Reg) (ix : List Nat) (w : Nat) (v : Word) : (s.setRegWord r ix w v).freeCtr = s.freeCtr := rfl
@[simp] theorem State.setRegWord_emitted (r : Reg) (ix : List Nat) (w : Nat) (v : Word) : (s.setRegWord r ix w v).emitted = s.emitted := rfl
@[simp] theorem State.setRegWord_mem (r : Reg) (ix : List Nat) (w : Nat) (v : Word) : (s.setRegWord r ix w v).mem = s.mem := rfl
@[simp] theorem State.setRegWord_stores (r : Reg) (ix : List Nat) (w : Nat) (v : Word) : (s.setRegWord r ix w v).stores = s.stores := rfl
@[simp] theorem State.setRegWord_clk (r : Reg) (ix : List Nat) (w : Nat) (v : Word) : (s.setRegWord r ix w v).clk = s.clk := rfl
@[simp] theorem State.setRegWord_staged (r : Reg) (ix : List Nat) (w : Nat) (v : Word) : (s.setRegWord r ix w v).staged = s.staged := rfl
@[simp] theorem State.setRegWord_couples (r : Reg) (ix : List Nat) (w : Nat) (v : Word) : (s.setRegWord r ix w v).couples = s.couples := rfl
@[simp] theorem State.setRegWord_threads (r : Reg) (ix : List Nat) (w : Nat) (v : Word) : (s.setRegWord r ix w v).threads = s.threads := rfl
@[simp] theorem State.setRegWord_bars (r : Reg) (ix : List Nat) (w : Nat) (v : Word) : (s.setRegWord r ix w v).bars = s.bars := rfl
@[simp] theorem State.setRegWord_outs (r : Reg) (ix : List Nat) (w : Nat) (v : Word) : (s.setRegWord r ix w v).outs = s.outs := rfl
@[simp] theorem State.setRegWord_strms (r : Reg) (ix : List Nat) (w : Nat) (v : Word) : (s.setRegWord r ix w v).strms = s.strms := rfl
@[simp] theorem State.setRegWord_sense (r : Reg) (ix : List Nat) (w : Nat) (v : Word) : (s.setRegWord r ix w v).sense = s.sense := rfl
@[simp] theorem State.setRegWord_rdo (r : Reg) (ix : List Nat) (w : Nat) (v : Word) : (s.setRegWord r ix w v).rdo = s.rdo := rfl
@[simp] theorem State.setRegWord_dec (r : Reg) (ix : List Nat) (w : Nat) (v : Word) : (s.setRegWord r ix w v).dec = s.dec := rfl
@[simp] theorem State.setRegWord_caps (r : Reg) (ix : List Nat) (w : Nat) (v : Word) : (s.setRegWord r ix w v).caps = s.caps := rfl
@[simp] theorem State.setRegWord_tdc (r : Reg) (ix : List Nat) (w : Nat) (v : Word) : (s.setRegWord r ix w v).tdc = s.tdc := rfl
@[simp] theorem State.setRegWord_bvn (r : Reg) (ix : List Nat) (w : Nat) (v : Word) : (s.setRegWord r ix w v).bvn = s.bvn := rfl
@[simp] theorem State.setRegWord_ts (r : Reg) (ix : List Nat) (w : Nat) (v : Word) : (s.setRegWord r ix w v).ts = s.ts := rfl
@[simp] theorem State.setRegWord_hif (r : Reg) (ix : List Nat) (w : Nat) (v : Word) : (s.setRegWord r ix w v).hif = s.hif := rfl
@[simp] theorem State.setRegWord_qm (r : Reg) (ix : List Nat) (w : Nat) (v : Word) : (s.setRegWord r ix w v).qm = s.qm := rfl
@[simp] theorem State.setRegWord_mb (r : Reg) (ix : List Nat) (w : Nat) (v : Word) : (s.setRegWord r ix w v).mb = s.mb := rfl
@[simp] theorem State.setRegWord_msvc (r : Reg) (ix : List Nat) (w : Nat) (v : Word) : (s.setRegWord r ix w v).msvc = s.msvc := rfl
@[simp] theorem State.setRegWord_cal (r : Reg) (ix : List Nat) (w : Nat) (v : Word) : (s.setRegWord r ix w v).cal = s.cal := rfl
@[simp] theorem State.setRegWord_therm (r : Reg) (ix : List Nat) (w : Nat) (v : Word) : (s.setRegWord r ix w v).therm = s.therm := rfl
@[simp] theorem State.setRegWord_flt (r : Reg) (ix : List Nat) (w : Nat) (v : Word) : (s.setRegWord r ix w v).flt = s.flt := rfl
@[simp] theorem State.setRegWord_boot (r : Reg) (ix : List Nat) (w : Nat) (v : Word) : (s.setRegWord r ix w v).boot = s.boot := rfl

@[simp] theorem State.wr_variant (f : Fld) (ix : List Nat) (v : Nat) : (s.wr f ix v).variant = s.variant := rfl
@[simp] theorem State.wr_pending (f : Fld) (ix : List Nat) (v : Nat) : (s.wr f ix v).pending = s.pending := rfl
@[simp] theorem State.wr_freeCtr (f : Fld) (ix : List Nat) (v : Nat) : (s.wr f ix v).freeCtr = s.freeCtr := rfl
@[simp] theorem State.wr_emitted (f : Fld) (ix : List Nat) (v : Nat) : (s.wr f ix v).emitted = s.emitted := rfl
@[simp] theorem State.wr_mem (f : Fld) (ix : List Nat) (v : Nat) : (s.wr f ix v).mem = s.mem := rfl
@[simp] theorem State.wr_stores (f : Fld) (ix : List Nat) (v : Nat) : (s.wr f ix v).stores = s.stores := rfl
@[simp] theorem State.wr_clk (f : Fld) (ix : List Nat) (v : Nat) : (s.wr f ix v).clk = s.clk := rfl
@[simp] theorem State.wr_staged (f : Fld) (ix : List Nat) (v : Nat) : (s.wr f ix v).staged = s.staged := rfl
@[simp] theorem State.wr_couples (f : Fld) (ix : List Nat) (v : Nat) : (s.wr f ix v).couples = s.couples := rfl
@[simp] theorem State.wr_threads (f : Fld) (ix : List Nat) (v : Nat) : (s.wr f ix v).threads = s.threads := rfl
@[simp] theorem State.wr_bars (f : Fld) (ix : List Nat) (v : Nat) : (s.wr f ix v).bars = s.bars := rfl
@[simp] theorem State.wr_outs (f : Fld) (ix : List Nat) (v : Nat) : (s.wr f ix v).outs = s.outs := rfl
@[simp] theorem State.wr_strms (f : Fld) (ix : List Nat) (v : Nat) : (s.wr f ix v).strms = s.strms := rfl
@[simp] theorem State.wr_sense (f : Fld) (ix : List Nat) (v : Nat) : (s.wr f ix v).sense = s.sense := rfl
@[simp] theorem State.wr_rdo (f : Fld) (ix : List Nat) (v : Nat) : (s.wr f ix v).rdo = s.rdo := rfl
@[simp] theorem State.wr_dec (f : Fld) (ix : List Nat) (v : Nat) : (s.wr f ix v).dec = s.dec := rfl
@[simp] theorem State.wr_caps (f : Fld) (ix : List Nat) (v : Nat) : (s.wr f ix v).caps = s.caps := rfl
@[simp] theorem State.wr_tdc (f : Fld) (ix : List Nat) (v : Nat) : (s.wr f ix v).tdc = s.tdc := rfl
@[simp] theorem State.wr_bvn (f : Fld) (ix : List Nat) (v : Nat) : (s.wr f ix v).bvn = s.bvn := rfl
@[simp] theorem State.wr_ts (f : Fld) (ix : List Nat) (v : Nat) : (s.wr f ix v).ts = s.ts := rfl
@[simp] theorem State.wr_hif (f : Fld) (ix : List Nat) (v : Nat) : (s.wr f ix v).hif = s.hif := rfl
@[simp] theorem State.wr_qm (f : Fld) (ix : List Nat) (v : Nat) : (s.wr f ix v).qm = s.qm := rfl
@[simp] theorem State.wr_mb (f : Fld) (ix : List Nat) (v : Nat) : (s.wr f ix v).mb = s.mb := rfl
@[simp] theorem State.wr_msvc (f : Fld) (ix : List Nat) (v : Nat) : (s.wr f ix v).msvc = s.msvc := rfl
@[simp] theorem State.wr_cal (f : Fld) (ix : List Nat) (v : Nat) : (s.wr f ix v).cal = s.cal := rfl
@[simp] theorem State.wr_therm (f : Fld) (ix : List Nat) (v : Nat) : (s.wr f ix v).therm = s.therm := rfl
@[simp] theorem State.wr_flt (f : Fld) (ix : List Nat) (v : Nat) : (s.wr f ix v).flt = s.flt := rfl
@[simp] theorem State.wr_boot (f : Fld) (ix : List Nat) (v : Nat) : (s.wr f ix v).boot = s.boot := rfl

@[simp] theorem State.wrB_variant (f : Fld) (ix : List Nat) (b : Bool) : (s.wrB f ix b).variant = s.variant := rfl
@[simp] theorem State.wrB_pending (f : Fld) (ix : List Nat) (b : Bool) : (s.wrB f ix b).pending = s.pending := rfl
@[simp] theorem State.wrB_freeCtr (f : Fld) (ix : List Nat) (b : Bool) : (s.wrB f ix b).freeCtr = s.freeCtr := rfl
@[simp] theorem State.wrB_emitted (f : Fld) (ix : List Nat) (b : Bool) : (s.wrB f ix b).emitted = s.emitted := rfl
@[simp] theorem State.wrB_mem (f : Fld) (ix : List Nat) (b : Bool) : (s.wrB f ix b).mem = s.mem := rfl
@[simp] theorem State.wrB_stores (f : Fld) (ix : List Nat) (b : Bool) : (s.wrB f ix b).stores = s.stores := rfl
@[simp] theorem State.wrB_clk (f : Fld) (ix : List Nat) (b : Bool) : (s.wrB f ix b).clk = s.clk := rfl
@[simp] theorem State.wrB_staged (f : Fld) (ix : List Nat) (b : Bool) : (s.wrB f ix b).staged = s.staged := rfl
@[simp] theorem State.wrB_couples (f : Fld) (ix : List Nat) (b : Bool) : (s.wrB f ix b).couples = s.couples := rfl
@[simp] theorem State.wrB_threads (f : Fld) (ix : List Nat) (b : Bool) : (s.wrB f ix b).threads = s.threads := rfl
@[simp] theorem State.wrB_bars (f : Fld) (ix : List Nat) (b : Bool) : (s.wrB f ix b).bars = s.bars := rfl
@[simp] theorem State.wrB_outs (f : Fld) (ix : List Nat) (b : Bool) : (s.wrB f ix b).outs = s.outs := rfl
@[simp] theorem State.wrB_strms (f : Fld) (ix : List Nat) (b : Bool) : (s.wrB f ix b).strms = s.strms := rfl
@[simp] theorem State.wrB_sense (f : Fld) (ix : List Nat) (b : Bool) : (s.wrB f ix b).sense = s.sense := rfl
@[simp] theorem State.wrB_rdo (f : Fld) (ix : List Nat) (b : Bool) : (s.wrB f ix b).rdo = s.rdo := rfl
@[simp] theorem State.wrB_dec (f : Fld) (ix : List Nat) (b : Bool) : (s.wrB f ix b).dec = s.dec := rfl
@[simp] theorem State.wrB_caps (f : Fld) (ix : List Nat) (b : Bool) : (s.wrB f ix b).caps = s.caps := rfl
@[simp] theorem State.wrB_tdc (f : Fld) (ix : List Nat) (b : Bool) : (s.wrB f ix b).tdc = s.tdc := rfl
@[simp] theorem State.wrB_bvn (f : Fld) (ix : List Nat) (b : Bool) : (s.wrB f ix b).bvn = s.bvn := rfl
@[simp] theorem State.wrB_ts (f : Fld) (ix : List Nat) (b : Bool) : (s.wrB f ix b).ts = s.ts := rfl
@[simp] theorem State.wrB_hif (f : Fld) (ix : List Nat) (b : Bool) : (s.wrB f ix b).hif = s.hif := rfl
@[simp] theorem State.wrB_qm (f : Fld) (ix : List Nat) (b : Bool) : (s.wrB f ix b).qm = s.qm := rfl
@[simp] theorem State.wrB_mb (f : Fld) (ix : List Nat) (b : Bool) : (s.wrB f ix b).mb = s.mb := rfl
@[simp] theorem State.wrB_msvc (f : Fld) (ix : List Nat) (b : Bool) : (s.wrB f ix b).msvc = s.msvc := rfl
@[simp] theorem State.wrB_cal (f : Fld) (ix : List Nat) (b : Bool) : (s.wrB f ix b).cal = s.cal := rfl
@[simp] theorem State.wrB_therm (f : Fld) (ix : List Nat) (b : Bool) : (s.wrB f ix b).therm = s.therm := rfl
@[simp] theorem State.wrB_flt (f : Fld) (ix : List Nat) (b : Bool) : (s.wrB f ix b).flt = s.flt := rfl
@[simp] theorem State.wrB_boot (f : Fld) (ix : List Nat) (b : Bool) : (s.wrB f ix b).boot = s.boot := rfl

@[simp] theorem State.wrI_variant (f : Fld) (ix : List Nat) (v : Int) : (s.wrI f ix v).variant = s.variant := rfl
@[simp] theorem State.wrI_pending (f : Fld) (ix : List Nat) (v : Int) : (s.wrI f ix v).pending = s.pending := rfl
@[simp] theorem State.wrI_freeCtr (f : Fld) (ix : List Nat) (v : Int) : (s.wrI f ix v).freeCtr = s.freeCtr := rfl
@[simp] theorem State.wrI_emitted (f : Fld) (ix : List Nat) (v : Int) : (s.wrI f ix v).emitted = s.emitted := rfl
@[simp] theorem State.wrI_mem (f : Fld) (ix : List Nat) (v : Int) : (s.wrI f ix v).mem = s.mem := rfl
@[simp] theorem State.wrI_stores (f : Fld) (ix : List Nat) (v : Int) : (s.wrI f ix v).stores = s.stores := rfl
@[simp] theorem State.wrI_clk (f : Fld) (ix : List Nat) (v : Int) : (s.wrI f ix v).clk = s.clk := rfl
@[simp] theorem State.wrI_staged (f : Fld) (ix : List Nat) (v : Int) : (s.wrI f ix v).staged = s.staged := rfl
@[simp] theorem State.wrI_couples (f : Fld) (ix : List Nat) (v : Int) : (s.wrI f ix v).couples = s.couples := rfl
@[simp] theorem State.wrI_threads (f : Fld) (ix : List Nat) (v : Int) : (s.wrI f ix v).threads = s.threads := rfl
@[simp] theorem State.wrI_bars (f : Fld) (ix : List Nat) (v : Int) : (s.wrI f ix v).bars = s.bars := rfl
@[simp] theorem State.wrI_outs (f : Fld) (ix : List Nat) (v : Int) : (s.wrI f ix v).outs = s.outs := rfl
@[simp] theorem State.wrI_strms (f : Fld) (ix : List Nat) (v : Int) : (s.wrI f ix v).strms = s.strms := rfl
@[simp] theorem State.wrI_sense (f : Fld) (ix : List Nat) (v : Int) : (s.wrI f ix v).sense = s.sense := rfl
@[simp] theorem State.wrI_rdo (f : Fld) (ix : List Nat) (v : Int) : (s.wrI f ix v).rdo = s.rdo := rfl
@[simp] theorem State.wrI_dec (f : Fld) (ix : List Nat) (v : Int) : (s.wrI f ix v).dec = s.dec := rfl
@[simp] theorem State.wrI_caps (f : Fld) (ix : List Nat) (v : Int) : (s.wrI f ix v).caps = s.caps := rfl
@[simp] theorem State.wrI_tdc (f : Fld) (ix : List Nat) (v : Int) : (s.wrI f ix v).tdc = s.tdc := rfl
@[simp] theorem State.wrI_bvn (f : Fld) (ix : List Nat) (v : Int) : (s.wrI f ix v).bvn = s.bvn := rfl
@[simp] theorem State.wrI_ts (f : Fld) (ix : List Nat) (v : Int) : (s.wrI f ix v).ts = s.ts := rfl
@[simp] theorem State.wrI_hif (f : Fld) (ix : List Nat) (v : Int) : (s.wrI f ix v).hif = s.hif := rfl
@[simp] theorem State.wrI_qm (f : Fld) (ix : List Nat) (v : Int) : (s.wrI f ix v).qm = s.qm := rfl
@[simp] theorem State.wrI_mb (f : Fld) (ix : List Nat) (v : Int) : (s.wrI f ix v).mb = s.mb := rfl
@[simp] theorem State.wrI_msvc (f : Fld) (ix : List Nat) (v : Int) : (s.wrI f ix v).msvc = s.msvc := rfl
@[simp] theorem State.wrI_cal (f : Fld) (ix : List Nat) (v : Int) : (s.wrI f ix v).cal = s.cal := rfl
@[simp] theorem State.wrI_therm (f : Fld) (ix : List Nat) (v : Int) : (s.wrI f ix v).therm = s.therm := rfl
@[simp] theorem State.wrI_flt (f : Fld) (ix : List Nat) (v : Int) : (s.wrI f ix v).flt = s.flt := rfl
@[simp] theorem State.wrI_boot (f : Fld) (ix : List Nat) (v : Int) : (s.wrI f ix v).boot = s.boot := rfl

@[simp] theorem State.count_variant (f : Fld) (ix : List Nat) (n : Nat) : (s.count f ix n).variant = s.variant := rfl
@[simp] theorem State.count_pending (f : Fld) (ix : List Nat) (n : Nat) : (s.count f ix n).pending = s.pending := rfl
@[simp] theorem State.count_freeCtr (f : Fld) (ix : List Nat) (n : Nat) : (s.count f ix n).freeCtr = s.freeCtr := rfl
@[simp] theorem State.count_emitted (f : Fld) (ix : List Nat) (n : Nat) : (s.count f ix n).emitted = s.emitted := rfl
@[simp] theorem State.count_mem (f : Fld) (ix : List Nat) (n : Nat) : (s.count f ix n).mem = s.mem := rfl
@[simp] theorem State.count_stores (f : Fld) (ix : List Nat) (n : Nat) : (s.count f ix n).stores = s.stores := rfl
@[simp] theorem State.count_clk (f : Fld) (ix : List Nat) (n : Nat) : (s.count f ix n).clk = s.clk := rfl
@[simp] theorem State.count_staged (f : Fld) (ix : List Nat) (n : Nat) : (s.count f ix n).staged = s.staged := rfl
@[simp] theorem State.count_couples (f : Fld) (ix : List Nat) (n : Nat) : (s.count f ix n).couples = s.couples := rfl
@[simp] theorem State.count_threads (f : Fld) (ix : List Nat) (n : Nat) : (s.count f ix n).threads = s.threads := rfl
@[simp] theorem State.count_bars (f : Fld) (ix : List Nat) (n : Nat) : (s.count f ix n).bars = s.bars := rfl
@[simp] theorem State.count_outs (f : Fld) (ix : List Nat) (n : Nat) : (s.count f ix n).outs = s.outs := rfl
@[simp] theorem State.count_strms (f : Fld) (ix : List Nat) (n : Nat) : (s.count f ix n).strms = s.strms := rfl
@[simp] theorem State.count_sense (f : Fld) (ix : List Nat) (n : Nat) : (s.count f ix n).sense = s.sense := rfl
@[simp] theorem State.count_rdo (f : Fld) (ix : List Nat) (n : Nat) : (s.count f ix n).rdo = s.rdo := rfl
@[simp] theorem State.count_dec (f : Fld) (ix : List Nat) (n : Nat) : (s.count f ix n).dec = s.dec := rfl
@[simp] theorem State.count_caps (f : Fld) (ix : List Nat) (n : Nat) : (s.count f ix n).caps = s.caps := rfl
@[simp] theorem State.count_tdc (f : Fld) (ix : List Nat) (n : Nat) : (s.count f ix n).tdc = s.tdc := rfl
@[simp] theorem State.count_bvn (f : Fld) (ix : List Nat) (n : Nat) : (s.count f ix n).bvn = s.bvn := rfl
@[simp] theorem State.count_ts (f : Fld) (ix : List Nat) (n : Nat) : (s.count f ix n).ts = s.ts := rfl
@[simp] theorem State.count_hif (f : Fld) (ix : List Nat) (n : Nat) : (s.count f ix n).hif = s.hif := rfl
@[simp] theorem State.count_qm (f : Fld) (ix : List Nat) (n : Nat) : (s.count f ix n).qm = s.qm := rfl
@[simp] theorem State.count_mb (f : Fld) (ix : List Nat) (n : Nat) : (s.count f ix n).mb = s.mb := rfl
@[simp] theorem State.count_msvc (f : Fld) (ix : List Nat) (n : Nat) : (s.count f ix n).msvc = s.msvc := rfl
@[simp] theorem State.count_cal (f : Fld) (ix : List Nat) (n : Nat) : (s.count f ix n).cal = s.cal := rfl
@[simp] theorem State.count_therm (f : Fld) (ix : List Nat) (n : Nat) : (s.count f ix n).therm = s.therm := rfl
@[simp] theorem State.count_flt (f : Fld) (ix : List Nat) (n : Nat) : (s.count f ix n).flt = s.flt := rfl
@[simp] theorem State.count_boot (f : Fld) (ix : List Nat) (n : Nat) : (s.count f ix n).boot = s.boot := rfl

@[simp] theorem State.emit_variant (e : Emit) : (s.emit e).variant = s.variant := rfl
@[simp] theorem State.emit_pending (e : Emit) : (s.emit e).pending = s.pending := rfl
@[simp] theorem State.emit_freeCtr (e : Emit) : (s.emit e).freeCtr = s.freeCtr := rfl
@[simp] theorem State.emit_regs (e : Emit) : (s.emit e).regs = s.regs := rfl
@[simp] theorem State.emit_mem (e : Emit) : (s.emit e).mem = s.mem := rfl
@[simp] theorem State.emit_stores (e : Emit) : (s.emit e).stores = s.stores := rfl
@[simp] theorem State.emit_clk (e : Emit) : (s.emit e).clk = s.clk := rfl
@[simp] theorem State.emit_staged (e : Emit) : (s.emit e).staged = s.staged := rfl
@[simp] theorem State.emit_couples (e : Emit) : (s.emit e).couples = s.couples := rfl
@[simp] theorem State.emit_threads (e : Emit) : (s.emit e).threads = s.threads := rfl
@[simp] theorem State.emit_bars (e : Emit) : (s.emit e).bars = s.bars := rfl
@[simp] theorem State.emit_outs (e : Emit) : (s.emit e).outs = s.outs := rfl
@[simp] theorem State.emit_strms (e : Emit) : (s.emit e).strms = s.strms := rfl
@[simp] theorem State.emit_sense (e : Emit) : (s.emit e).sense = s.sense := rfl
@[simp] theorem State.emit_rdo (e : Emit) : (s.emit e).rdo = s.rdo := rfl
@[simp] theorem State.emit_dec (e : Emit) : (s.emit e).dec = s.dec := rfl
@[simp] theorem State.emit_caps (e : Emit) : (s.emit e).caps = s.caps := rfl
@[simp] theorem State.emit_tdc (e : Emit) : (s.emit e).tdc = s.tdc := rfl
@[simp] theorem State.emit_bvn (e : Emit) : (s.emit e).bvn = s.bvn := rfl
@[simp] theorem State.emit_ts (e : Emit) : (s.emit e).ts = s.ts := rfl
@[simp] theorem State.emit_hif (e : Emit) : (s.emit e).hif = s.hif := rfl
@[simp] theorem State.emit_qm (e : Emit) : (s.emit e).qm = s.qm := rfl
@[simp] theorem State.emit_mb (e : Emit) : (s.emit e).mb = s.mb := rfl
@[simp] theorem State.emit_msvc (e : Emit) : (s.emit e).msvc = s.msvc := rfl
@[simp] theorem State.emit_cal (e : Emit) : (s.emit e).cal = s.cal := rfl
@[simp] theorem State.emit_therm (e : Emit) : (s.emit e).therm = s.therm := rfl
@[simp] theorem State.emit_flt (e : Emit) : (s.emit e).flt = s.flt := rfl
@[simp] theorem State.emit_boot (e : Emit) : (s.emit e).boot = s.boot := rfl

@[simp] theorem State.setThr_variant (g : Nat) (t : Thread) : (s.setThr g t).variant = s.variant := rfl
@[simp] theorem State.setThr_pending (g : Nat) (t : Thread) : (s.setThr g t).pending = s.pending := rfl
@[simp] theorem State.setThr_freeCtr (g : Nat) (t : Thread) : (s.setThr g t).freeCtr = s.freeCtr := rfl
@[simp] theorem State.setThr_emitted (g : Nat) (t : Thread) : (s.setThr g t).emitted = s.emitted := rfl
@[simp] theorem State.setThr_regs (g : Nat) (t : Thread) : (s.setThr g t).regs = s.regs := rfl
@[simp] theorem State.setThr_mem (g : Nat) (t : Thread) : (s.setThr g t).mem = s.mem := rfl
@[simp] theorem State.setThr_stores (g : Nat) (t : Thread) : (s.setThr g t).stores = s.stores := rfl
@[simp] theorem State.setThr_clk (g : Nat) (t : Thread) : (s.setThr g t).clk = s.clk := rfl
@[simp] theorem State.setThr_staged (g : Nat) (t : Thread) : (s.setThr g t).staged = s.staged := rfl
@[simp] theorem State.setThr_couples (g : Nat) (t : Thread) : (s.setThr g t).couples = s.couples := rfl
@[simp] theorem State.setThr_bars (g : Nat) (t : Thread) : (s.setThr g t).bars = s.bars := rfl
@[simp] theorem State.setThr_outs (g : Nat) (t : Thread) : (s.setThr g t).outs = s.outs := rfl
@[simp] theorem State.setThr_strms (g : Nat) (t : Thread) : (s.setThr g t).strms = s.strms := rfl
@[simp] theorem State.setThr_sense (g : Nat) (t : Thread) : (s.setThr g t).sense = s.sense := rfl
@[simp] theorem State.setThr_rdo (g : Nat) (t : Thread) : (s.setThr g t).rdo = s.rdo := rfl
@[simp] theorem State.setThr_dec (g : Nat) (t : Thread) : (s.setThr g t).dec = s.dec := rfl
@[simp] theorem State.setThr_caps (g : Nat) (t : Thread) : (s.setThr g t).caps = s.caps := rfl
@[simp] theorem State.setThr_tdc (g : Nat) (t : Thread) : (s.setThr g t).tdc = s.tdc := rfl
@[simp] theorem State.setThr_bvn (g : Nat) (t : Thread) : (s.setThr g t).bvn = s.bvn := rfl
@[simp] theorem State.setThr_ts (g : Nat) (t : Thread) : (s.setThr g t).ts = s.ts := rfl
@[simp] theorem State.setThr_hif (g : Nat) (t : Thread) : (s.setThr g t).hif = s.hif := rfl
@[simp] theorem State.setThr_qm (g : Nat) (t : Thread) : (s.setThr g t).qm = s.qm := rfl
@[simp] theorem State.setThr_mb (g : Nat) (t : Thread) : (s.setThr g t).mb = s.mb := rfl
@[simp] theorem State.setThr_msvc (g : Nat) (t : Thread) : (s.setThr g t).msvc = s.msvc := rfl
@[simp] theorem State.setThr_cal (g : Nat) (t : Thread) : (s.setThr g t).cal = s.cal := rfl
@[simp] theorem State.setThr_therm (g : Nat) (t : Thread) : (s.setThr g t).therm = s.therm := rfl
@[simp] theorem State.setThr_flt (g : Nat) (t : Thread) : (s.setThr g t).flt = s.flt := rfl
@[simp] theorem State.setThr_boot (g : Nat) (t : Thread) : (s.setThr g t).boot = s.boot := rfl

@[simp] theorem State.updThr_variant (g : Nat) (f : Thread → Thread) : (s.updThr g f).variant = s.variant := rfl
@[simp] theorem State.updThr_pending (g : Nat) (f : Thread → Thread) : (s.updThr g f).pending = s.pending := rfl
@[simp] theorem State.updThr_freeCtr (g : Nat) (f : Thread → Thread) : (s.updThr g f).freeCtr = s.freeCtr := rfl
@[simp] theorem State.updThr_emitted (g : Nat) (f : Thread → Thread) : (s.updThr g f).emitted = s.emitted := rfl
@[simp] theorem State.updThr_regs (g : Nat) (f : Thread → Thread) : (s.updThr g f).regs = s.regs := rfl
@[simp] theorem State.updThr_mem (g : Nat) (f : Thread → Thread) : (s.updThr g f).mem = s.mem := rfl
@[simp] theorem State.updThr_stores (g : Nat) (f : Thread → Thread) : (s.updThr g f).stores = s.stores := rfl
@[simp] theorem State.updThr_clk (g : Nat) (f : Thread → Thread) : (s.updThr g f).clk = s.clk := rfl
@[simp] theorem State.updThr_staged (g : Nat) (f : Thread → Thread) : (s.updThr g f).staged = s.staged := rfl
@[simp] theorem State.updThr_couples (g : Nat) (f : Thread → Thread) : (s.updThr g f).couples = s.couples := rfl
@[simp] theorem State.updThr_bars (g : Nat) (f : Thread → Thread) : (s.updThr g f).bars = s.bars := rfl
@[simp] theorem State.updThr_outs (g : Nat) (f : Thread → Thread) : (s.updThr g f).outs = s.outs := rfl
@[simp] theorem State.updThr_strms (g : Nat) (f : Thread → Thread) : (s.updThr g f).strms = s.strms := rfl
@[simp] theorem State.updThr_sense (g : Nat) (f : Thread → Thread) : (s.updThr g f).sense = s.sense := rfl
@[simp] theorem State.updThr_rdo (g : Nat) (f : Thread → Thread) : (s.updThr g f).rdo = s.rdo := rfl
@[simp] theorem State.updThr_dec (g : Nat) (f : Thread → Thread) : (s.updThr g f).dec = s.dec := rfl
@[simp] theorem State.updThr_caps (g : Nat) (f : Thread → Thread) : (s.updThr g f).caps = s.caps := rfl
@[simp] theorem State.updThr_tdc (g : Nat) (f : Thread → Thread) : (s.updThr g f).tdc = s.tdc := rfl
@[simp] theorem State.updThr_bvn (g : Nat) (f : Thread → Thread) : (s.updThr g f).bvn = s.bvn := rfl
@[simp] theorem State.updThr_ts (g : Nat) (f : Thread → Thread) : (s.updThr g f).ts = s.ts := rfl
@[simp] theorem State.updThr_hif (g : Nat) (f : Thread → Thread) : (s.updThr g f).hif = s.hif := rfl
@[simp] theorem State.updThr_qm (g : Nat) (f : Thread → Thread) : (s.updThr g f).qm = s.qm := rfl
@[simp] theorem State.updThr_mb (g : Nat) (f : Thread → Thread) : (s.updThr g f).mb = s.mb := rfl
@[simp] theorem State.updThr_msvc (g : Nat) (f : Thread → Thread) : (s.updThr g f).msvc = s.msvc := rfl
@[simp] theorem State.updThr_cal (g : Nat) (f : Thread → Thread) : (s.updThr g f).cal = s.cal := rfl
@[simp] theorem State.updThr_therm (g : Nat) (f : Thread → Thread) : (s.updThr g f).therm = s.therm := rfl
@[simp] theorem State.updThr_flt (g : Nat) (f : Thread → Thread) : (s.updThr g f).flt = s.flt := rfl
@[simp] theorem State.updThr_boot (g : Nat) (f : Thread → Thread) : (s.updThr g f).boot = s.boot := rfl

@[simp] theorem State.setJob_variant (j : Nat) (b : Job) : (s.setJob j b).variant = s.variant := rfl
@[simp] theorem State.setJob_pending (j : Nat) (b : Job) : (s.setJob j b).pending = s.pending := rfl
@[simp] theorem State.setJob_freeCtr (j : Nat) (b : Job) : (s.setJob j b).freeCtr = s.freeCtr := rfl
@[simp] theorem State.setJob_emitted (j : Nat) (b : Job) : (s.setJob j b).emitted = s.emitted := rfl
@[simp] theorem State.setJob_regs (j : Nat) (b : Job) : (s.setJob j b).regs = s.regs := rfl
@[simp] theorem State.setJob_mem (j : Nat) (b : Job) : (s.setJob j b).mem = s.mem := rfl
@[simp] theorem State.setJob_stores (j : Nat) (b : Job) : (s.setJob j b).stores = s.stores := rfl
@[simp] theorem State.setJob_clk (j : Nat) (b : Job) : (s.setJob j b).clk = s.clk := rfl
@[simp] theorem State.setJob_staged (j : Nat) (b : Job) : (s.setJob j b).staged = s.staged := rfl
@[simp] theorem State.setJob_couples (j : Nat) (b : Job) : (s.setJob j b).couples = s.couples := rfl
@[simp] theorem State.setJob_threads (j : Nat) (b : Job) : (s.setJob j b).threads = s.threads := rfl
@[simp] theorem State.setJob_bars (j : Nat) (b : Job) : (s.setJob j b).bars = s.bars := rfl
@[simp] theorem State.setJob_outs (j : Nat) (b : Job) : (s.setJob j b).outs = s.outs := rfl
@[simp] theorem State.setJob_strms (j : Nat) (b : Job) : (s.setJob j b).strms = s.strms := rfl
@[simp] theorem State.setJob_sense (j : Nat) (b : Job) : (s.setJob j b).sense = s.sense := rfl
@[simp] theorem State.setJob_rdo (j : Nat) (b : Job) : (s.setJob j b).rdo = s.rdo := rfl
@[simp] theorem State.setJob_dec (j : Nat) (b : Job) : (s.setJob j b).dec = s.dec := rfl
@[simp] theorem State.setJob_caps (j : Nat) (b : Job) : (s.setJob j b).caps = s.caps := rfl
@[simp] theorem State.setJob_tdc (j : Nat) (b : Job) : (s.setJob j b).tdc = s.tdc := rfl
@[simp] theorem State.setJob_bvn (j : Nat) (b : Job) : (s.setJob j b).bvn = s.bvn := rfl
@[simp] theorem State.setJob_ts (j : Nat) (b : Job) : (s.setJob j b).ts = s.ts := rfl
@[simp] theorem State.setJob_hif (j : Nat) (b : Job) : (s.setJob j b).hif = s.hif := rfl
@[simp] theorem State.setJob_mb (j : Nat) (b : Job) : (s.setJob j b).mb = s.mb := rfl
@[simp] theorem State.setJob_msvc (j : Nat) (b : Job) : (s.setJob j b).msvc = s.msvc := rfl
@[simp] theorem State.setJob_cal (j : Nat) (b : Job) : (s.setJob j b).cal = s.cal := rfl
@[simp] theorem State.setJob_therm (j : Nat) (b : Job) : (s.setJob j b).therm = s.therm := rfl
@[simp] theorem State.setJob_flt (j : Nat) (b : Job) : (s.setJob j b).flt = s.flt := rfl
@[simp] theorem State.setJob_boot (j : Nat) (b : Job) : (s.setJob j b).boot = s.boot := rfl

@[simp] theorem State.updJob_variant (j : Nat) (f : Job → Job) : (s.updJob j f).variant = s.variant := rfl
@[simp] theorem State.updJob_pending (j : Nat) (f : Job → Job) : (s.updJob j f).pending = s.pending := rfl
@[simp] theorem State.updJob_freeCtr (j : Nat) (f : Job → Job) : (s.updJob j f).freeCtr = s.freeCtr := rfl
@[simp] theorem State.updJob_emitted (j : Nat) (f : Job → Job) : (s.updJob j f).emitted = s.emitted := rfl
@[simp] theorem State.updJob_regs (j : Nat) (f : Job → Job) : (s.updJob j f).regs = s.regs := rfl
@[simp] theorem State.updJob_mem (j : Nat) (f : Job → Job) : (s.updJob j f).mem = s.mem := rfl
@[simp] theorem State.updJob_stores (j : Nat) (f : Job → Job) : (s.updJob j f).stores = s.stores := rfl
@[simp] theorem State.updJob_clk (j : Nat) (f : Job → Job) : (s.updJob j f).clk = s.clk := rfl
@[simp] theorem State.updJob_staged (j : Nat) (f : Job → Job) : (s.updJob j f).staged = s.staged := rfl
@[simp] theorem State.updJob_couples (j : Nat) (f : Job → Job) : (s.updJob j f).couples = s.couples := rfl
@[simp] theorem State.updJob_threads (j : Nat) (f : Job → Job) : (s.updJob j f).threads = s.threads := rfl
@[simp] theorem State.updJob_bars (j : Nat) (f : Job → Job) : (s.updJob j f).bars = s.bars := rfl
@[simp] theorem State.updJob_outs (j : Nat) (f : Job → Job) : (s.updJob j f).outs = s.outs := rfl
@[simp] theorem State.updJob_strms (j : Nat) (f : Job → Job) : (s.updJob j f).strms = s.strms := rfl
@[simp] theorem State.updJob_sense (j : Nat) (f : Job → Job) : (s.updJob j f).sense = s.sense := rfl
@[simp] theorem State.updJob_rdo (j : Nat) (f : Job → Job) : (s.updJob j f).rdo = s.rdo := rfl
@[simp] theorem State.updJob_dec (j : Nat) (f : Job → Job) : (s.updJob j f).dec = s.dec := rfl
@[simp] theorem State.updJob_caps (j : Nat) (f : Job → Job) : (s.updJob j f).caps = s.caps := rfl
@[simp] theorem State.updJob_tdc (j : Nat) (f : Job → Job) : (s.updJob j f).tdc = s.tdc := rfl
@[simp] theorem State.updJob_bvn (j : Nat) (f : Job → Job) : (s.updJob j f).bvn = s.bvn := rfl
@[simp] theorem State.updJob_ts (j : Nat) (f : Job → Job) : (s.updJob j f).ts = s.ts := rfl
@[simp] theorem State.updJob_hif (j : Nat) (f : Job → Job) : (s.updJob j f).hif = s.hif := rfl
@[simp] theorem State.updJob_mb (j : Nat) (f : Job → Job) : (s.updJob j f).mb = s.mb := rfl
@[simp] theorem State.updJob_msvc (j : Nat) (f : Job → Job) : (s.updJob j f).msvc = s.msvc := rfl
@[simp] theorem State.updJob_cal (j : Nat) (f : Job → Job) : (s.updJob j f).cal = s.cal := rfl
@[simp] theorem State.updJob_therm (j : Nat) (f : Job → Job) : (s.updJob j f).therm = s.therm := rfl
@[simp] theorem State.updJob_flt (j : Nat) (f : Job → Job) : (s.updJob j f).flt = s.flt := rfl
@[simp] theorem State.updJob_boot (j : Nat) (f : Job → Job) : (s.updJob j f).boot = s.boot := rfl

@[simp] theorem State.setQp_variant (q : Nat) (v : Qp) : (s.setQp q v).variant = s.variant := rfl
@[simp] theorem State.setQp_pending (q : Nat) (v : Qp) : (s.setQp q v).pending = s.pending := rfl
@[simp] theorem State.setQp_freeCtr (q : Nat) (v : Qp) : (s.setQp q v).freeCtr = s.freeCtr := rfl
@[simp] theorem State.setQp_emitted (q : Nat) (v : Qp) : (s.setQp q v).emitted = s.emitted := rfl
@[simp] theorem State.setQp_regs (q : Nat) (v : Qp) : (s.setQp q v).regs = s.regs := rfl
@[simp] theorem State.setQp_mem (q : Nat) (v : Qp) : (s.setQp q v).mem = s.mem := rfl
@[simp] theorem State.setQp_stores (q : Nat) (v : Qp) : (s.setQp q v).stores = s.stores := rfl
@[simp] theorem State.setQp_clk (q : Nat) (v : Qp) : (s.setQp q v).clk = s.clk := rfl
@[simp] theorem State.setQp_staged (q : Nat) (v : Qp) : (s.setQp q v).staged = s.staged := rfl
@[simp] theorem State.setQp_couples (q : Nat) (v : Qp) : (s.setQp q v).couples = s.couples := rfl
@[simp] theorem State.setQp_threads (q : Nat) (v : Qp) : (s.setQp q v).threads = s.threads := rfl
@[simp] theorem State.setQp_bars (q : Nat) (v : Qp) : (s.setQp q v).bars = s.bars := rfl
@[simp] theorem State.setQp_outs (q : Nat) (v : Qp) : (s.setQp q v).outs = s.outs := rfl
@[simp] theorem State.setQp_strms (q : Nat) (v : Qp) : (s.setQp q v).strms = s.strms := rfl
@[simp] theorem State.setQp_sense (q : Nat) (v : Qp) : (s.setQp q v).sense = s.sense := rfl
@[simp] theorem State.setQp_rdo (q : Nat) (v : Qp) : (s.setQp q v).rdo = s.rdo := rfl
@[simp] theorem State.setQp_dec (q : Nat) (v : Qp) : (s.setQp q v).dec = s.dec := rfl
@[simp] theorem State.setQp_caps (q : Nat) (v : Qp) : (s.setQp q v).caps = s.caps := rfl
@[simp] theorem State.setQp_tdc (q : Nat) (v : Qp) : (s.setQp q v).tdc = s.tdc := rfl
@[simp] theorem State.setQp_bvn (q : Nat) (v : Qp) : (s.setQp q v).bvn = s.bvn := rfl
@[simp] theorem State.setQp_ts (q : Nat) (v : Qp) : (s.setQp q v).ts = s.ts := rfl
@[simp] theorem State.setQp_hif (q : Nat) (v : Qp) : (s.setQp q v).hif = s.hif := rfl
@[simp] theorem State.setQp_mb (q : Nat) (v : Qp) : (s.setQp q v).mb = s.mb := rfl
@[simp] theorem State.setQp_msvc (q : Nat) (v : Qp) : (s.setQp q v).msvc = s.msvc := rfl
@[simp] theorem State.setQp_cal (q : Nat) (v : Qp) : (s.setQp q v).cal = s.cal := rfl
@[simp] theorem State.setQp_therm (q : Nat) (v : Qp) : (s.setQp q v).therm = s.therm := rfl
@[simp] theorem State.setQp_flt (q : Nat) (v : Qp) : (s.setQp q v).flt = s.flt := rfl
@[simp] theorem State.setQp_boot (q : Nat) (v : Qp) : (s.setQp q v).boot = s.boot := rfl

@[simp] theorem State.setPart_variant (p : Nat) (v : Part) : (s.setPart p v).variant = s.variant := rfl
@[simp] theorem State.setPart_pending (p : Nat) (v : Part) : (s.setPart p v).pending = s.pending := rfl
@[simp] theorem State.setPart_freeCtr (p : Nat) (v : Part) : (s.setPart p v).freeCtr = s.freeCtr := rfl
@[simp] theorem State.setPart_emitted (p : Nat) (v : Part) : (s.setPart p v).emitted = s.emitted := rfl
@[simp] theorem State.setPart_regs (p : Nat) (v : Part) : (s.setPart p v).regs = s.regs := rfl
@[simp] theorem State.setPart_mem (p : Nat) (v : Part) : (s.setPart p v).mem = s.mem := rfl
@[simp] theorem State.setPart_stores (p : Nat) (v : Part) : (s.setPart p v).stores = s.stores := rfl
@[simp] theorem State.setPart_clk (p : Nat) (v : Part) : (s.setPart p v).clk = s.clk := rfl
@[simp] theorem State.setPart_staged (p : Nat) (v : Part) : (s.setPart p v).staged = s.staged := rfl
@[simp] theorem State.setPart_couples (p : Nat) (v : Part) : (s.setPart p v).couples = s.couples := rfl
@[simp] theorem State.setPart_threads (p : Nat) (v : Part) : (s.setPart p v).threads = s.threads := rfl
@[simp] theorem State.setPart_bars (p : Nat) (v : Part) : (s.setPart p v).bars = s.bars := rfl
@[simp] theorem State.setPart_outs (p : Nat) (v : Part) : (s.setPart p v).outs = s.outs := rfl
@[simp] theorem State.setPart_strms (p : Nat) (v : Part) : (s.setPart p v).strms = s.strms := rfl
@[simp] theorem State.setPart_sense (p : Nat) (v : Part) : (s.setPart p v).sense = s.sense := rfl
@[simp] theorem State.setPart_rdo (p : Nat) (v : Part) : (s.setPart p v).rdo = s.rdo := rfl
@[simp] theorem State.setPart_dec (p : Nat) (v : Part) : (s.setPart p v).dec = s.dec := rfl
@[simp] theorem State.setPart_caps (p : Nat) (v : Part) : (s.setPart p v).caps = s.caps := rfl
@[simp] theorem State.setPart_tdc (p : Nat) (v : Part) : (s.setPart p v).tdc = s.tdc := rfl
@[simp] theorem State.setPart_bvn (p : Nat) (v : Part) : (s.setPart p v).bvn = s.bvn := rfl
@[simp] theorem State.setPart_ts (p : Nat) (v : Part) : (s.setPart p v).ts = s.ts := rfl
@[simp] theorem State.setPart_hif (p : Nat) (v : Part) : (s.setPart p v).hif = s.hif := rfl
@[simp] theorem State.setPart_mb (p : Nat) (v : Part) : (s.setPart p v).mb = s.mb := rfl
@[simp] theorem State.setPart_msvc (p : Nat) (v : Part) : (s.setPart p v).msvc = s.msvc := rfl
@[simp] theorem State.setPart_cal (p : Nat) (v : Part) : (s.setPart p v).cal = s.cal := rfl
@[simp] theorem State.setPart_therm (p : Nat) (v : Part) : (s.setPart p v).therm = s.therm := rfl
@[simp] theorem State.setPart_flt (p : Nat) (v : Part) : (s.setPart p v).flt = s.flt := rfl
@[simp] theorem State.setPart_boot (p : Nat) (v : Part) : (s.setPart p v).boot = s.boot := rfl

@[simp] theorem State.setMbx_variant (n : Nat) (m : Mbx) : (s.setMbx n m).variant = s.variant := rfl
@[simp] theorem State.setMbx_pending (n : Nat) (m : Mbx) : (s.setMbx n m).pending = s.pending := rfl
@[simp] theorem State.setMbx_freeCtr (n : Nat) (m : Mbx) : (s.setMbx n m).freeCtr = s.freeCtr := rfl
@[simp] theorem State.setMbx_emitted (n : Nat) (m : Mbx) : (s.setMbx n m).emitted = s.emitted := rfl
@[simp] theorem State.setMbx_regs (n : Nat) (m : Mbx) : (s.setMbx n m).regs = s.regs := rfl
@[simp] theorem State.setMbx_mem (n : Nat) (m : Mbx) : (s.setMbx n m).mem = s.mem := rfl
@[simp] theorem State.setMbx_stores (n : Nat) (m : Mbx) : (s.setMbx n m).stores = s.stores := rfl
@[simp] theorem State.setMbx_clk (n : Nat) (m : Mbx) : (s.setMbx n m).clk = s.clk := rfl
@[simp] theorem State.setMbx_staged (n : Nat) (m : Mbx) : (s.setMbx n m).staged = s.staged := rfl
@[simp] theorem State.setMbx_couples (n : Nat) (m : Mbx) : (s.setMbx n m).couples = s.couples := rfl
@[simp] theorem State.setMbx_threads (n : Nat) (m : Mbx) : (s.setMbx n m).threads = s.threads := rfl
@[simp] theorem State.setMbx_bars (n : Nat) (m : Mbx) : (s.setMbx n m).bars = s.bars := rfl
@[simp] theorem State.setMbx_outs (n : Nat) (m : Mbx) : (s.setMbx n m).outs = s.outs := rfl
@[simp] theorem State.setMbx_strms (n : Nat) (m : Mbx) : (s.setMbx n m).strms = s.strms := rfl
@[simp] theorem State.setMbx_sense (n : Nat) (m : Mbx) : (s.setMbx n m).sense = s.sense := rfl
@[simp] theorem State.setMbx_rdo (n : Nat) (m : Mbx) : (s.setMbx n m).rdo = s.rdo := rfl
@[simp] theorem State.setMbx_dec (n : Nat) (m : Mbx) : (s.setMbx n m).dec = s.dec := rfl
@[simp] theorem State.setMbx_caps (n : Nat) (m : Mbx) : (s.setMbx n m).caps = s.caps := rfl
@[simp] theorem State.setMbx_tdc (n : Nat) (m : Mbx) : (s.setMbx n m).tdc = s.tdc := rfl
@[simp] theorem State.setMbx_bvn (n : Nat) (m : Mbx) : (s.setMbx n m).bvn = s.bvn := rfl
@[simp] theorem State.setMbx_ts (n : Nat) (m : Mbx) : (s.setMbx n m).ts = s.ts := rfl
@[simp] theorem State.setMbx_hif (n : Nat) (m : Mbx) : (s.setMbx n m).hif = s.hif := rfl
@[simp] theorem State.setMbx_qm (n : Nat) (m : Mbx) : (s.setMbx n m).qm = s.qm := rfl
@[simp] theorem State.setMbx_msvc (n : Nat) (m : Mbx) : (s.setMbx n m).msvc = s.msvc := rfl
@[simp] theorem State.setMbx_cal (n : Nat) (m : Mbx) : (s.setMbx n m).cal = s.cal := rfl
@[simp] theorem State.setMbx_therm (n : Nat) (m : Mbx) : (s.setMbx n m).therm = s.therm := rfl
@[simp] theorem State.setMbx_flt (n : Nat) (m : Mbx) : (s.setMbx n m).flt = s.flt := rfl
@[simp] theorem State.setMbx_boot (n : Nat) (m : Mbx) : (s.setMbx n m).boot = s.boot := rfl

@[simp] theorem State.withPending_variant (q : List Instr) : (s.withPending q).variant = s.variant := rfl
@[simp] theorem State.withPending_freeCtr (q : List Instr) : (s.withPending q).freeCtr = s.freeCtr := rfl
@[simp] theorem State.withPending_emitted (q : List Instr) : (s.withPending q).emitted = s.emitted := rfl
@[simp] theorem State.withPending_regs (q : List Instr) : (s.withPending q).regs = s.regs := rfl
@[simp] theorem State.withPending_mem (q : List Instr) : (s.withPending q).mem = s.mem := rfl
@[simp] theorem State.withPending_stores (q : List Instr) : (s.withPending q).stores = s.stores := rfl
@[simp] theorem State.withPending_clk (q : List Instr) : (s.withPending q).clk = s.clk := rfl
@[simp] theorem State.withPending_staged (q : List Instr) : (s.withPending q).staged = s.staged := rfl
@[simp] theorem State.withPending_couples (q : List Instr) : (s.withPending q).couples = s.couples := rfl
@[simp] theorem State.withPending_threads (q : List Instr) : (s.withPending q).threads = s.threads := rfl
@[simp] theorem State.withPending_bars (q : List Instr) : (s.withPending q).bars = s.bars := rfl
@[simp] theorem State.withPending_outs (q : List Instr) : (s.withPending q).outs = s.outs := rfl
@[simp] theorem State.withPending_strms (q : List Instr) : (s.withPending q).strms = s.strms := rfl
@[simp] theorem State.withPending_sense (q : List Instr) : (s.withPending q).sense = s.sense := rfl
@[simp] theorem State.withPending_rdo (q : List Instr) : (s.withPending q).rdo = s.rdo := rfl
@[simp] theorem State.withPending_dec (q : List Instr) : (s.withPending q).dec = s.dec := rfl
@[simp] theorem State.withPending_caps (q : List Instr) : (s.withPending q).caps = s.caps := rfl
@[simp] theorem State.withPending_tdc (q : List Instr) : (s.withPending q).tdc = s.tdc := rfl
@[simp] theorem State.withPending_bvn (q : List Instr) : (s.withPending q).bvn = s.bvn := rfl
@[simp] theorem State.withPending_ts (q : List Instr) : (s.withPending q).ts = s.ts := rfl
@[simp] theorem State.withPending_hif (q : List Instr) : (s.withPending q).hif = s.hif := rfl
@[simp] theorem State.withPending_qm (q : List Instr) : (s.withPending q).qm = s.qm := rfl
@[simp] theorem State.withPending_mb (q : List Instr) : (s.withPending q).mb = s.mb := rfl
@[simp] theorem State.withPending_msvc (q : List Instr) : (s.withPending q).msvc = s.msvc := rfl
@[simp] theorem State.withPending_cal (q : List Instr) : (s.withPending q).cal = s.cal := rfl
@[simp] theorem State.withPending_therm (q : List Instr) : (s.withPending q).therm = s.therm := rfl
@[simp] theorem State.withPending_flt (q : List Instr) : (s.withPending q).flt = s.flt := rfl
@[simp] theorem State.withPending_boot (q : List Instr) : (s.withPending q).boot = s.boot := rfl

@[simp] theorem State.withPending_pending (q : List Instr) : (s.withPending q).pending = q := rfl
@[simp] theorem State.emit_emitted (e : Emit) : (s.emit e).emitted = s.emitted ++ [e] := rfl
@[simp] theorem State.withPending_same : s.withPending s.pending = s := rfl

end Sys2Proof.Machine
end

