-- ==== Sys2Proof/Laws/Registers.lean ====
section
/-! SUPPORT. Laws of the register file: a field reads what was written to it, and every other field and register reads as
before (00 R12, R14; 01 R24, R25). -/

namespace Sys2Proof.Machine

/-! ## Bit fields -/

theorem bits_lt (n lo w : Nat) : bits n lo w < 2 ^ w := Nat.mod_lt _ (Nat.two_pow_pos w)

/-- A number as what lies above, in and below a bit field. -/
theorem bits_split (n lo w : Nat) :
    n = (n / 2 ^ (lo + w)) * 2 ^ (lo + w) + bits n lo w * 2 ^ lo + n % 2 ^ lo := by
  have h1 := Nat.div_add_mod n (2 ^ lo)
  have h2 := Nat.div_add_mod (n / 2 ^ lo) (2 ^ w)
  have h3 : n / 2 ^ (lo + w) = n / 2 ^ lo / 2 ^ w := by rw [Nat.pow_add, Nat.div_div_eq_div_mul]
  unfold bits
  rw [h3, Nat.pow_add]
  calc n = 2 ^ lo * (n / 2 ^ lo) + n % 2 ^ lo := h1.symm
    _ = 2 ^ lo * (2 ^ w * (n / 2 ^ lo / 2 ^ w) + n / 2 ^ lo % 2 ^ w) + n % 2 ^ lo := by rw [h2]
    _ = _ := by ring

theorem setBits_eq (n lo w v : Nat) :
    setBits n lo w v = (n / 2 ^ (lo + w)) * 2 ^ (lo + w) + v % 2 ^ w * 2 ^ lo + n % 2 ^ lo := by
  have h := bits_split n lo w
  unfold setBits
  omega

/-- The low part of a number with a field replaced. -/
theorem setBits_low (n lo w v : Nat) : v % 2 ^ w * 2 ^ lo + n % 2 ^ lo < 2 ^ (lo + w) := by
  have h1 : n % 2 ^ lo < 2 ^ lo := Nat.mod_lt _ (Nat.two_pow_pos lo)
  have h2 : v % 2 ^ w + 1 ≤ 2 ^ w := Nat.mod_lt _ (Nat.two_pow_pos w)
  have h3 : (v % 2 ^ w + 1) * 2 ^ lo ≤ 2 ^ w * 2 ^ lo := Nat.mul_le_mul_right _ h2
  rw [Nat.pow_add, Nat.mul_comm (2 ^ lo)]
  calc v % 2 ^ w * 2 ^ lo + n % 2 ^ lo < v % 2 ^ w * 2 ^ lo + 2 ^ lo := by omega
    _ = (v % 2 ^ w + 1) * 2 ^ lo := by ring
    _ ≤ _ := h3

theorem setBits_div (n lo w v : Nat) : setBits n lo w v / 2 ^ (lo + w) = n / 2 ^ (lo + w) := by
  rw [setBits_eq, Nat.add_assoc, Nat.add_comm, Nat.add_mul_div_right _ _ (Nat.two_pow_pos _),
    Nat.div_eq_of_lt (setBits_low n lo w v), Nat.zero_add]

theorem setBits_mod (n lo w v : Nat) : setBits n lo w v % 2 ^ (lo + w) = v % 2 ^ w * 2 ^ lo + n % 2 ^ lo := by
  rw [setBits_eq, Nat.add_assoc, Nat.mul_comm, Nat.mul_add_mod, Nat.mod_eq_of_lt (setBits_low n lo w v)]

theorem setBits_mod_low (n lo w v : Nat) : setBits n lo w v % 2 ^ lo = n % 2 ^ lo := by
  have h : setBits n lo w v % 2 ^ (lo + w) % 2 ^ lo = setBits n lo w v % 2 ^ lo :=
    Nat.mod_mod_of_dvd _ (pow_dvd_pow 2 (Nat.le_add_right lo w))
  rw [← h, setBits_mod, Nat.mul_comm, Nat.mul_add_mod, Nat.mod_mod]

/-- The field reads the low bits of what was written. -/
@[simp] theorem bits_setBits_self (n lo w v : Nat) : bits (setBits n lo w v) lo w = v % 2 ^ w := by
  have h : setBits n lo w v % 2 ^ (lo + w) / 2 ^ lo = v % 2 ^ w := by
    rw [setBits_mod, Nat.mul_comm, Nat.mul_add_div (Nat.two_pow_pos lo), Nat.div_eq_of_lt (Nat.mod_lt _ (Nat.two_pow_pos lo)),
      Nat.add_zero]
  unfold bits
  rw [Nat.pow_add, Nat.mod_mul_right_div_self] at h
  exact h

/-- A field below the written one reads as before. -/
theorem bits_setBits_below {lo' w' lo : Nat} (n w v : Nat) (h : lo' + w' ≤ lo) :
    bits (setBits n lo w v) lo' w' = bits n lo' w' := by
  have key : ∀ x : Nat, x % 2 ^ lo / 2 ^ lo' % 2 ^ w' = x / 2 ^ lo' % 2 ^ w' := by
    intro x
    have e : 2 ^ lo = 2 ^ lo' * 2 ^ (lo - lo') := by rw [← Nat.pow_add]; congr 1; omega
    rw [e, Nat.mod_mul_right_div_self]
    exact Nat.mod_mod_of_dvd _ (pow_dvd_pow 2 (by omega))
  unfold bits
  rw [← key, setBits_mod_low, key]

/-- A field above the written one reads as before. -/
theorem bits_setBits_above {lo' lo w : Nat} (n w' v : Nat) (h : lo + w ≤ lo') :
    bits (setBits n lo w v) lo' w' = bits n lo' w' := by
  have key : ∀ x : Nat, x / 2 ^ lo' = x / 2 ^ (lo + w) / 2 ^ (lo' - (lo + w)) := by
    intro x
    rw [Nat.div_div_eq_div_mul, ← Nat.pow_add]
    congr 2
    omega
  unfold bits
  rw [key, setBits_div, ← key]

theorem setBits_lt {n lo w v m : Nat} (hn : n < 2 ^ m) (h : lo + w ≤ m) : setBits n lo w v < 2 ^ m := by
  have e : 2 ^ m = 2 ^ (lo + w) * 2 ^ (m - (lo + w)) := by rw [← Nat.pow_add]; congr 1; omega
  have hd : setBits n lo w v / 2 ^ (lo + w) < 2 ^ (m - (lo + w)) := by
    rw [setBits_div]
    exact Nat.div_lt_of_lt_mul (by rw [← e]; exact hn)
  rw [e]
  exact (Nat.div_lt_iff_lt_mul (Nat.two_pow_pos _)).1 hd |>.trans_eq (Nat.mul_comm _ _)

/-! ## Register words -/

variable (s : State)

/-- The instance depends on the variant alone. -/
theorem State.regWord_congr {s t : State} (hv : t.variant = s.variant) (hr : t.regs = s.regs) (r : Reg) (ix : List Nat)
    (w : Nat) : t.regWord r ix w = s.regWord r ix w := by
  simp only [State.regWord, hv, hr]

theorem State.rd_congr {s t : State} (hv : t.variant = s.variant) (hr : t.regs = s.regs) (f : Fld) (ix : List Nat) :
    t.rd f ix = s.rd f ix := by
  simp only [State.rd, State.regWord_congr hv hr]

/-- A register instance that exists reads the word written to it. -/
theorem State.regWord_setRegWord_self {r : Reg} {ix : List Nat} {w : Nat} {v : Word} (h : r.exists_ s.variant ix w = true) :
    (s.setRegWord r ix w v).regWord r ix w = v := by
  simp [State.regWord, State.setRegWord, h]

/-- A register word at another address reads as before. -/
theorem State.regWord_setRegWord_other {r q : Reg} {ix jx : List Nat} {w u : Nat} {v : Word}
    (h : q.addr jx u ≠ r.addr ix w) : (s.setRegWord r ix w v).regWord q jx u = s.regWord q jx u := by
  by_cases he : r.exists_ s.variant ix w = true
  · simp [State.regWord, State.setRegWord, he, SMap.get_put_other h]
  · simp [State.regWord, State.setRegWord, he]

/-! ## Fields -/

/-- A field of 32 bits at most reads what was written to it. -/
theorem State.rd_wr_self {f : Fld} {ix : List Nat} {v : Nat} (he : f.reg.exists_ s.variant ix f.word = true)
    (hf : f.lo + f.width ≤ 32) : (s.wr f ix v).rd f ix = v % 2 ^ f.width := by
  have hlt : setBits (s.regWord f.reg ix f.word).toNat f.lo f.width v < 2 ^ 32 := setBits_lt (BitVec.isLt _) hf
  simp only [State.rd, State.wr, State.regWord_setRegWord_self s he, BitVec.toNat_ofNat, Nat.mod_eq_of_lt hlt,
    bits_setBits_self]

/-- A field of another word reads as before. -/
theorem State.rd_wr_other {f g : Fld} {ix jx : List Nat} {v : Nat} (h : g.reg.addr jx g.word ≠ f.reg.addr ix f.word) :
    (s.wr f ix v).rd g jx = s.rd g jx := by
  simp only [State.rd, State.wr, State.regWord_setRegWord_other s h]

/-- Another field of the same word reads as before. -/
theorem State.rd_wr_beside {f g : Fld} {ix : List Nat} {v : Nat} (hr : g.reg = f.reg) (hw : g.word = f.word)
    (hf : f.lo + f.width ≤ 32) (hd : g.lo + g.width ≤ f.lo ∨ f.lo + f.width ≤ g.lo) :
    (s.wr f ix v).rd g ix = s.rd g ix := by
  by_cases he : f.reg.exists_ s.variant ix f.word = true
  · have hlt : setBits (s.regWord f.reg ix f.word).toNat f.lo f.width v < 2 ^ 32 := setBits_lt (BitVec.isLt _) hf
    simp only [State.rd, State.wr, hr, hw, State.regWord_setRegWord_self s he, BitVec.toNat_ofNat, Nat.mod_eq_of_lt hlt]
    rcases hd with hd | hd
    · exact bits_setBits_below _ _ _ hd
    · exact bits_setBits_above _ _ _ hd
  · simp [State.rd, State.wr, hr, hw, State.regWord, State.setRegWord, he]

theorem State.rdB_wr_other {f g : Fld} {ix jx : List Nat} {v : Nat} (h : g.reg.addr jx g.word ≠ f.reg.addr ix f.word) :
    (s.wr f ix v).rdB g jx = s.rdB g jx := by
  simp only [State.rdB, State.rd_wr_other s h]

/-- A bit reads the bit written to it. -/
theorem State.rdB_wrB_self {f : Fld} {ix : List Nat} {b : Bool} (he : f.reg.exists_ s.variant ix f.word = true)
    (hw : f.width = 1) (hf : f.lo + f.width ≤ 32) : (s.wrB f ix b).rdB f ix = b := by
  simp only [State.rdB, State.wrB, State.rd_wr_self s he hf, hw]
  cases b <;> rfl

/-- Writing what a register reads changes nothing. -/
theorem State.setRegWord_same {s : State} {r : Reg} {ix : List Nat} {w : Nat} (h : SMap.wf 0 s.regs) :
    s.setRegWord r ix w (s.regWord r ix w) = s := by
  unfold State.setRegWord State.regWord
  by_cases he : r.exists_ s.variant ix w = true
  · simp only [he, if_true, BitVec.xor_assoc, BitVec.xor_self, BitVec.xor_zero, SMap.put_same h]
  · simp only [he, Bool.false_eq_true, if_false]

/-- A write under an empty mask changes nothing. -/
theorem State.setMasked_none {s : State} {r : Reg} {ix : List Nat} {w : Nat} {v : Word} (h : SMap.wf 0 s.regs) :
    s.setMasked r ix w v 0 = s := by
  have : maskWord (s.regWord r ix w) v 0 = s.regWord r ix w := by
    show (s.regWord r ix w &&& BitVec.allOnes 32) ||| (v &&& 0) = _
    rw [BitVec.and_allOnes]
    simp
  rw [State.setMasked, this, State.setRegWord_same h]

end Sys2Proof.Machine
end

