-- ==== Sys2Proof/Laws/Mailbox.lean ====
section
/-! SUPPORT. Laws of the mailboxes: what a response leaves (17 R371, R373-R375), and when a command's own effect runs. -/

namespace Sys2Proof.Machine

variable (s : State)

theorem State.asks_lt {n op : Nat} (h : s.asks n op = true) : n < 64 := by
  simp only [State.asks, Bool.and_eq_true, decide_eq_true_eq] at h
  exact h.1.1.1.1

/-- A command whose request passes the common checks has its own effect. -/
theorem State.command_asked {n op : Nat} {txn : Bool} {layout : List Byte → Bool} {p : List Byte}
    {body : State → MbxReq → State} (h : s.asked n op txn layout p) : s.command n op txn layout body = body s (s.mbx n).req := by
  simp only [State.command, h.1, if_true, h.2.1, h.2.2.2, h.2.2.1, Bool.and_self]

/-- With no open transaction that has timed out, none lapses. -/
theorem State.lapseTxn_inTime {p : Nat} (h : s.txnInTime p) : s.lapseTxn p = s := by
  unfold State.lapseTxn
  split
  · rename_i t ht
    rw [if_neg (Nat.not_le.2 (h t ht))]
  · rfl

/-- A request whose header does not pass is refused. -/
theorem State.command_badHeader {n op : Nat} {txn : Bool} {layout : List Byte → Bool} {body : State → MbxReq → State}
    (h : s.asks n op = true) (hh : headerOk (s.mbx n).req txn = false) : s.command n op txn layout body = s.deny n 0x0A01 whole := by
  simp [State.command, h, hh]

/-- Without such a request nothing happens. -/
theorem State.command_idle {n op : Nat} {txn : Bool} {layout : List Byte → Bool} {body : State → MbxReq → State}
    (h : s.asks n op = false) : s.command n op txn layout body = s := by
  simp [State.command, h]

@[simp] theorem State.mbx_setMbx_self {n : Nat} {m : Mbx} : (s.setMbx n m).mbx n = m := by
  simp [State.mbx, State.setMbx]

theorem State.mbx_setMbx_other {n k : Nat} {m : Mbx} (h : k ≠ n) : (s.setMbx n m).mbx k = s.mbx k := by
  simp [State.mbx, State.setMbx, SMap.get_put_other h]

/-- What signalling a vector leaves: everything but the pending bits and the messages sent. -/
theorem State.signal_eq (v : Nat) :
    s.signal v = { s with hif := { s.hif with pba := (s.signal v).hif.pba }, emitted := (s.signal v).emitted } := by
  unfold State.signal State.sendMsix State.emit
  split <;> rfl

@[simp] theorem State.signal_regs (v : Nat) : (s.signal v).regs = s.regs := by rw [State.signal_eq]
@[simp] theorem State.signal_variant (v : Nat) : (s.signal v).variant = s.variant := by rw [State.signal_eq]
@[simp] theorem State.signal_mb (v : Nat) : (s.signal v).mb = s.mb := by rw [State.signal_eq]
@[simp] theorem State.signal_mem (v : Nat) : (s.signal v).mem = s.mem := by rw [State.signal_eq]

theorem mbxStatus_exists {n : Nat} (v : Variant) (h : n < 64) : F.MBX_STATUS_STATE.reg.exists_ v [n] F.MBX_STATUS_STATE.word = true := by
  have hk : ∀ v : Variant, ∀ k : Fin 64, F.MBX_STATUS_STATE.reg.exists_ v [k.1] F.MBX_STATUS_STATE.word = true := by
    intro v
    cases v <;> decide
  exact hk v ⟨n, h⟩

theorem State.mbxState_wr {n k : Nat} (h : n < 64) (v : Nat) :
    (s.wr F.MBX_STATUS_STATE [n] v).mbxState k = if k = n then v % 4 else s.mbxState k := by
  split
  · rename_i e
    subst e
    exact State.rd_wr_self s (mbxStatus_exists s.variant h) (by decide)
  · rename_i e
    refine State.rd_wr_other s ?_
    simp [Reg.addr, offsetOf, F.MBX_STATUS_STATE, R.MBX_STATUS]
    omega

end Sys2Proof.Machine
end

