-- ==== Sys2Proof/Laws/Memory.lean ====
section
/-! SUPPORT. Laws of device memory: a write is read back, every other byte stays, and the canonical form is kept (18). -/

namespace Sys2Proof.Machine

variable (s : State)

theorem State.memWrite_mem (addr : Nat) (bytes : List Byte) :
    (s.memWrite addr bytes).mem = SMap.putList 0 s.mem addr bytes := by
  cases bytes with
  | nil => rfl
  | cons b bs => simp [State.memWrite]

@[simp] theorem State.memWrite_regs (addr : Nat) (bytes : List Byte) : (s.memWrite addr bytes).regs = s.regs := by
  cases bytes <;> rfl

@[simp] theorem State.memWrite_variant (addr : Nat) (bytes : List Byte) :
    (s.memWrite addr bytes).variant = s.variant := by
  cases bytes <;> rfl

@[simp] theorem State.memWrite_pending (addr : Nat) (bytes : List Byte) :
    (s.memWrite addr bytes).pending = s.pending := by
  cases bytes <;> rfl

/-- A byte outside the written range stays. -/
theorem State.byteAt_memWrite_other {addr a : Nat} {bytes : List Byte} (h : a < addr ∨ addr + bytes.length ≤ a) :
    (s.memWrite addr bytes).byteAt a = s.byteAt a := by
  rw [State.byteAt, State.memWrite_mem, SMap.get_putList_other h, State.byteAt]

/-- A written byte is read back. -/
theorem State.byteAt_memWrite_self {addr k : Nat} {bytes : List Byte} (h : k < bytes.length) :
    (s.memWrite addr bytes).byteAt (addr + k) = bytes[k] := by
  rw [State.byteAt, State.memWrite_mem, SMap.get_putList_self h]

theorem SMap.getList_eq {α : Type} {d : α} {m : SMap α} {i n : Nat} {vs : List α} (hl : vs.length = n)
    (h : ∀ k (hk : k < vs.length), SMap.get d m (i + k) = vs[k]) : SMap.getList d m i n = vs := by
  induction n generalizing i vs with
  | zero => simp [SMap.getList, List.length_eq_zero_iff.1 hl]
  | succ n ih =>
    cases vs with
    | nil => simp at hl
    | cons v vs =>
      have h0 := h 0 (by simp)
      simp only [Nat.add_zero, List.getElem_cons_zero] at h0
      rw [SMap.getList, h0, ih (by simpa using hl)]
      intro k hk
      have := h (k + 1) (by simpa using hk)
      rw [show i + 1 + k = i + (k + 1) by omega]
      simpa using this

/-- Bytes just written are read back. -/
theorem State.memRead_memWrite (addr : Nat) (bytes : List Byte) :
    (s.memWrite addr bytes).memRead addr bytes.length = bytes :=
  SMap.getList_eq rfl (fun _ hk => State.byteAt_memWrite_self s hk)

/-- Every memory operation keeps the canonical form. -/
theorem State.memWrite_wf {addr : Nat} {bytes : List Byte} (h : Memory.wf s.mem) : Memory.wf (s.memWrite addr bytes).mem := by
  rw [State.memWrite_mem]
  exact SMap.wf_putList h

end Sys2Proof.Machine
end

