-- ==== Sys2Proof/Laws/Steady.lean ====
section
/-! SUPPORT. What every command keeps: the variant, the queue and the invariant. -/

namespace Sys2Proof.Machine

/-- From `s₀` to `t` the variant and the queue stay and the invariant is kept; device memory stays unless `μ`, and MODE
unless `δ`. -/
def Steady (μ δ : Bool) (s₀ t : State) : Prop :=
  t.variant = s₀.variant ∧ t.pending = s₀.pending ∧ (s₀.Inv → t.Inv) ∧ (μ = false → t.mem = s₀.mem) ∧
    (δ = false → t.mode = s₀.mode)

/-- The same of an outcome that is a next state, and of the partial results of the operations. -/
def SteadyO (μ δ : Bool) (s₀ : State) : Host.Outcome State Fault Refusal → Prop
  | .next t => Steady μ δ s₀ t
  | _ => True

def SteadyOpt (μ δ : Bool) (s₀ : State) : Option State → Prop
  | some t => Steady μ δ s₀ t
  | none => True

def SteadyE (μ δ : Bool) (s₀ : State) : Except Nat State → Prop
  | .ok t => Steady μ δ s₀ t
  | .error _ => True

def SteadyEW (μ δ : Bool) (s₀ : State) : Except Nat (Word × State) → Prop
  | .ok t => Steady μ δ s₀ t.2
  | .error _ => True

variable {μ δ : Bool} {s₀ t : State}

theorem Steady.refl (s : State) : Steady μ δ s s := ⟨rfl, rfl, id, fun _ => rfl, fun _ => rfl⟩

theorem SteadyO.next (h : Steady μ δ s₀ t) : SteadyO μ δ s₀ (.next t) := h
theorem SteadyOpt.some (h : Steady μ δ s₀ t) : SteadyOpt μ δ s₀ (.some t) := h
theorem SteadyOpt.none : SteadyOpt μ δ s₀ .none := trivial
theorem SteadyOpt.elim {o : Option State} (h : SteadyOpt μ δ s₀ o) (e : o = .some t) : Steady μ δ s₀ t := by subst e; exact h
theorem SteadyE.ok (h : Steady μ δ s₀ t) : SteadyE μ δ s₀ (.ok t) := h
theorem SteadyE.error {n : Nat} : SteadyE μ δ s₀ (.error n) := trivial
theorem SteadyE.elim {o : Except Nat State} (h : SteadyE μ δ s₀ o) (e : o = .ok t) : Steady μ δ s₀ t := by subst e; exact h
theorem SteadyEW.ok {w : Word} (h : Steady μ δ s₀ t) : SteadyEW μ δ s₀ (.ok (w, t)) := h
theorem SteadyEW.error {n : Nat} : SteadyEW μ δ s₀ (.error n) := trivial
theorem SteadyEW.elim {w : Word} {o : Except Nat (Word × State)} (h : SteadyEW μ δ s₀ o) (e : o = .ok (w, t)) :
    Steady μ δ s₀ t := by subst e; exact h

theorem Steady.ite {c : Prop} [Decidable c] {a b : State} (ha : Steady μ δ s₀ a) (hb : Steady μ δ s₀ b) :
    Steady μ δ s₀ (if c then a else b) := by split <;> assumption
theorem SteadyO.ite {c : Prop} [Decidable c] {a b : Host.Outcome State Fault Refusal} (ha : SteadyO μ δ s₀ a)
    (hb : SteadyO μ δ s₀ b) : SteadyO μ δ s₀ (if c then a else b) := by split <;> assumption
theorem SteadyOpt.ite {c : Prop} [Decidable c] {a b : Option State} (ha : SteadyOpt μ δ s₀ a) (hb : SteadyOpt μ δ s₀ b) :
    SteadyOpt μ δ s₀ (if c then a else b) := by split <;> assumption
theorem SteadyE.ite {c : Prop} [Decidable c] {a b : Except Nat State} (ha : SteadyE μ δ s₀ a) (hb : SteadyE μ δ s₀ b) :
    SteadyE μ δ s₀ (if c then a else b) := by split <;> assumption
theorem SteadyEW.ite {c : Prop} [Decidable c] {a b : Except Nat (Word × State)} (ha : SteadyEW μ δ s₀ a)
    (hb : SteadyEW μ δ s₀ b) : SteadyEW μ δ s₀ (if c then a else b) := by split <;> assumption

/-- A fold of an operation that is steady on every item. -/
theorem Steady.foldl {α : Type} {f : State → α → State} {l : List α}
    (hf : ∀ x a, Steady μ δ s₀ x → Steady μ δ s₀ (f x a)) (h : Steady μ δ s₀ t) : Steady μ δ s₀ (l.foldl f t) := by
  induction l generalizing t with
  | nil => exact h
  | cons a l ih => exact ih (hf _ _ h)

/-- A change of fields other than the variant, the queue, the registers and the memory. -/
theorem Steady.mk_ {fc em a1 a2 a3 a4 a5 a6 a7 a8 a9 b0 b1 b2 b3 b4 b5 b6 b7 b8 b9 c0 c1 c2 c3} (h : Steady μ δ s₀ t) :
    Steady μ δ s₀ ⟨t.variant, t.pending, fc, em, t.regs, t.mem, a1, a2, a3, a4, a5, a6, a7, a8, a9, b0, b1, b2, b3, b4, b5,
      b6, b7, b8, b9, c0, c1, c2, c3⟩ := h

/-! ## The two places that hold the registers and the memory -/

/-- The words of SPN_ID and SPN_MODE. -/
theorem regWord_id (s : State) : s.regWord R.SPN_ID [] 0 = SMap.get 0 s.regs 0 ^^^ resetWord s.variant R.SPN_ID [] 0 := rfl
theorem regWord_mode (s : State) : s.regWord R.SPN_MODE [] 0 = SMap.get 0 s.regs 4 := by
  show SMap.get 0 s.regs 4 ^^^ 0 = _
  simp

/-- The invariant in terms of the register map. -/
theorem inv_iff (s : State) : s.Inv ↔
    SMap.wf 0 s.regs ∧ Memory.wf s.mem ∧ SMap.get 0 s.regs 0 = 0 ∧ bits (SMap.get 0 s.regs 4).toNat 0 3 ≤ 5 := by
  have h1 : s.idFixed ↔ SMap.get 0 s.regs 0 = 0 := by
    rw [State.idFixed, regWord_id]
    constructor
    · intro h
      have := congrArg (· ^^^ resetWord s.variant R.SPN_ID [] 0) h
      simpa [BitVec.xor_assoc] using this
    · intro h
      rw [h]
      exact BitVec.zero_xor
  have h2 : s.mode = bits (SMap.get 0 s.regs 4).toNat 0 3 := by
    show bits (s.regWord R.SPN_MODE [] 0).toNat 0 3 = _
    rw [regWord_mode]
  simp only [State.Inv, State.canonical, State.legalMode, h1, h2, and_assoc]

theorem mode_eq (s : State) : s.mode = bits (SMap.get 0 s.regs 4).toNat 0 3 := by
  show bits (s.regWord R.SPN_MODE [] 0).toNat 0 3 = _
  rw [regWord_mode]

/-- A change of the register map alone that keeps its form, the identity and the mode. -/
theorem Steady.regs {m : SMap Word} (h : Steady μ δ s₀ t) (hw : SMap.wf 0 t.regs → SMap.wf 0 m)
    (hi : SMap.get 0 m 0 = SMap.get 0 t.regs 0) (hm : bits (SMap.get 0 t.regs 4).toNat 0 3 ≤ 5 →
      bits (SMap.get 0 m 4).toNat 0 3 ≤ 5)
    (hd : δ = false → bits (SMap.get 0 m 4).toNat 0 3 = bits (SMap.get 0 t.regs 4).toNat 0 3) :
    Steady μ δ s₀ { t with regs := m } := by
  refine ⟨h.1, h.2.1, fun hs => ?_, h.2.2.2.1, fun e => ?_⟩
  · have ht := (inv_iff t).1 (h.2.2.1 hs)
    exact (inv_iff _).2 ⟨hw ht.1, ht.2.1, hi.trans ht.2.2.1, hm ht.2.2.2⟩
  · rw [← h.2.2.2.2 e, mode_eq, mode_eq]
    exact hd e

/-- The same where the words of SPN_ID and SPN_MODE stay. -/
theorem Steady.regs' {m : SMap Word} (h : Steady μ δ s₀ t) (hw : SMap.wf 0 t.regs → SMap.wf 0 m)
    (hi : ∀ k, k < 8 → SMap.get 0 m k = SMap.get 0 t.regs k) : Steady μ δ s₀ { t with regs := m } :=
  Steady.regs h hw (hi 0 (by omega)) (fun hm => (hi 4 (by omega)).symm ▸ hm) (fun _ => by rw [hi 4 (by omega)])

/-- Writing a word of any register past SPN_ID and SPN_MODE. -/
theorem steady_setRegWord (s : State) (r : Reg) (ix : List Nat) (w : Nat) (v : Word) (h : Steady μ δ s₀ s)
    (hb : 8 ≤ r.base) : Steady μ δ s₀ (s.setRegWord r ix w v) := by
  have ha : ∀ k, k < 8 → k ≠ r.addr ix w := by
    intro k hk
    unfold Reg.addr
    omega
  refine Steady.regs' h (fun hw => ?_) (fun k hk => ?_)
  · by_cases he : r.exists_ s.variant ix w = true
    · simpa [he] using SMap.wf_put hw
    · simpa [he] using hw
  · by_cases he : r.exists_ s.variant ix w = true
    · simp [he, SMap.get_put_other (ha k hk)]
    · simp [he]

theorem steady_memWrite (s : State) (addr : Nat) (bytes : List Byte) (h : Steady true δ s₀ s) :
    Steady true δ s₀ (s.memWrite addr bytes) := by
  refine ⟨by simpa using h.1, by simpa using h.2.1, fun hs => ?_, fun e => absurd e (by decide), fun e => ?_⟩
  · have ht := (inv_iff s).1 (h.2.2.1 hs)
    exact (inv_iff _).2 ⟨by simpa using ht.1, State.memWrite_wf s ht.2.1, by simpa using ht.2.2.1, by simpa using ht.2.2.2⟩
  · rw [← h.2.2.2.2 e, mode_eq, mode_eq]
    simp

/-- Writing a field of SPN_MODE beside MODE, or a legal mode. -/
theorem steady_wr_mode (s : State) (f : Fld) (v : Nat) (h : Steady μ δ s₀ s) (hr : f.reg = R.SPN_MODE) (hw : f.word = 0)
    (hf : (f.lo = 0 ∧ f.width = 3 ∧ v ≤ 5 ∧ δ = true) ∨ (3 ≤ f.lo ∧ f.lo + f.width ≤ 32)) : Steady μ δ s₀ (s.wr f [] v) := by
  have e : (s.wr f [] v) = { s with
      regs := (SMap.put 0 s.regs 4 (BitVec.ofNat 32 (setBits (SMap.get 0 s.regs 4).toNat f.lo f.width v))) } := by
    have hx : s.regWord f.reg [] f.word = SMap.get 0 s.regs 4 := by rw [hr, hw, regWord_mode]
    have hz : ∀ x : Word, s.setRegWord f.reg [] f.word x = { s with regs := SMap.put 0 s.regs 4 x } := by
      intro x
      rw [hr, hw]
      show { s with regs := SMap.put 0 s.regs 4 (x ^^^ 0) } = _
      simp
    rw [State.wr, hx, hz]
  rw [e]
  have hl : f.lo + f.width ≤ 32 := by omega
  have hp : bits (SMap.get 0 (SMap.put 0 s.regs 4 (BitVec.ofNat 32 (setBits (SMap.get 0 s.regs 4).toNat f.lo f.width v))) 4).toNat
      0 3 = bits (setBits (SMap.get 0 s.regs 4).toNat f.lo f.width v) 0 3 := by
    rw [SMap.get_put_self, BitVec.toNat_ofNat, Nat.mod_eq_of_lt (setBits_lt (BitVec.isLt _) hl)]
  have hb : 3 ≤ f.lo → bits (setBits (SMap.get 0 s.regs 4).toNat f.lo f.width v) 0 3 = bits (SMap.get 0 s.regs 4).toNat 0 3 :=
    fun h3 => bits_setBits_below _ _ _ (by omega)
  refine Steady.regs h SMap.wf_put (SMap.get_put_other (by decide)) (fun hm => ?_) (fun e => ?_)
  · rw [hp]
    rcases hf with ⟨h0, h3, hv, _⟩ | ⟨h0, _⟩
    · rw [h0, h3, bits_setBits_self]
      omega
    · rw [hb h0]
      exact hm
  · rw [hp]
    rcases hf with ⟨_, _, _, ht⟩ | ⟨h0, _⟩
    · rw [ht] at e
      cases e
    · exact hb h0

/-- Entries dropped from the register map; the word of SPN_MODE only where MODE may change. -/
theorem Steady.filter {p : Nat × Word → Bool} (h : Steady μ δ s₀ t) (hp : δ = false → ∀ v, p (4, v) = true) :
    Steady μ δ s₀ { t with regs := t.regs.filter p } := by
  refine ⟨h.1, h.2.1, fun hs => ?_, h.2.2.2.1, fun e => ?_⟩
  · have ht := (inv_iff t).1 (h.2.2.1 hs)
    refine (inv_iff _).2 ⟨SMap.wf_filter ht.1, ht.2.1, ?_, ?_⟩
    · exact (SMap.get_filter ht.1).elim (fun e => e.trans ht.2.2.1) id
    · rcases SMap.get_filter (p := p) (i := 4) ht.1 with e | e
      · exact e ▸ ht.2.2.2
      · rw [e]
        decide
  · rw [← h.2.2.2.2 e, mode_eq, mode_eq]
    show bits (SMap.get 0 (t.regs.filter p) 4).toNat 0 3 = _
    rw [SMap.get_filter_of (hp e)]

/-! ## Registers named by an address -/

/-- A register that no write of the host changes, or one past SPN_ID and SPN_MODE. -/
def Reg.Kept (r : Reg) : Prop := 8 ≤ r.base ∨ ∀ f ∈ r.fields, f.access = .ro

theorem Reg.kept_maskBy {r : Reg} (h : r.Kept) (w : Nat) (p : Access → Bool) (hp : p .ro = false) :
    8 ≤ r.base ∨ r.maskBy w p = 0 := by
  refine h.imp (fun x => x) fun hf => ?_
  have e : (r.fieldsOf w).filter (fun f => p f.access) = [] := by
    refine List.filter_eq_nil_iff.2 fun f hm => ?_
    rw [hf f (List.mem_filter.1 hm).1, hp]
    decide
  rw [Reg.maskBy, e]
  rfl

/-- The mask of the writable bits of such a register, under any other mask. -/
theorem Reg.kept_and {r : Reg} (h : r.Kept) (w : Nat) (p : Access → Bool) (m : Word) (hp : p .ro = false) :
    8 ≤ r.base ∨ m &&& BitVec.ofNat 32 (r.maskBy w p) = 0 :=
  (r.kept_maskBy h w p hp).imp (fun x => x) fun e => by rw [e]; simp

theorem findReg_mem {addr : Nat} {l : List Reg} {r : Reg} {ix : List Nat} {w : Nat}
    (h : findReg addr l = some (r, ix, w)) : r ∈ l := by
  induction l with
  | nil => simp [findReg] at h
  | cons q l ih =>
    simp only [findReg] at h
    split at h
    · simp only [Option.some.injEq, Prod.mk.injEq] at h
      exact h.1 ▸ List.mem_cons_self
    · exact List.mem_cons_of_mem _ (ih h)

theorem regTable_kept : ∀ r ∈ regTable, r.Kept := by
  have h : regTable.all (fun r => decide (8 ≤ r.base) || r.fields.all (fun f => decide (f.access = .ro))) = true := by
    decide +kernel
  intro r hr
  have := List.all_eq_true.1 h r hr
  simpa [Reg.Kept] using this

theorem findReg_kept {addr : Nat} {r : Reg} {ix : List Nat} {w : Nat}
    (h : findReg addr regTable = some (r, ix, w)) : r.Kept := regTable_kept r (findReg_mem h)

/-- Writing bits of a register under a mask that is empty for SPN_ID and SPN_MODE. -/
theorem steady_setMasked (s : State) (r : Reg) (ix : List Nat) (w : Nat) (v mask : Word) (h : Steady μ δ s₀ s)
    (hb : 8 ≤ r.base ∨ mask = 0) : Steady μ δ s₀ (s.setMasked r ix w v mask) := by
  rcases hb with hb | hb
  · exact steady_setRegWord _ _ _ _ _ h hb
  · have e : s.setMasked r ix w v mask = s.setRegWord r ix w (s.regWord r ix w) := by
      have e : ∀ x : Word, maskWord x v 0 = x := fun x => by
        rw [maskWord, show ~~~(0 : Word) = BitVec.allOnes 32 by decide, BitVec.and_allOnes, show v &&& (0 : Word) = 0 from
          BitVec.and_zero, show x ||| (0 : Word) = x from BitVec.or_zero]
      rw [State.setMasked, hb, e]
    rw [e]
    have g : ∀ k, SMap.get 0 (s.setRegWord r ix w (s.regWord r ix w)).regs k = SMap.get 0 s.regs k := by
      intro k
      by_cases he : r.exists_ s.variant ix w = true
      · by_cases hk : k = r.addr ix w
        · subst hk
          simp [State.setRegWord, he, State.regWord]
        · simp [State.setRegWord, he, SMap.get_put_other hk]
      · simp [State.setRegWord, he]
    refine Steady.regs' h (fun hw => ?_) (fun k _ => g k)
    by_cases he : r.exists_ s.variant ix w = true
    · simpa [he] using SMap.wf_put hw
    · simpa [he] using hw

end Sys2Proof.Machine
end

