-- ==== Sys2Proof/Laws/SteadyShared.lean ====
section
/-! SUPPORT. What every operation keeps (`Steady`): the operations that the families share. -/

namespace Sys2Proof.Machine

/-! ## Regs -/

theorem steady_wr {μ δ : Bool} {s₀ : State} (s : State) (f : Fld) (ix : List Nat) (v : Nat) (h_s : Steady μ δ s₀ s)
    (hb_f : 8 ≤ f.reg.base) :
    Steady μ δ s₀ (s.wr f ix v) := by
  delta State.wr
  try lift_lets
  repeat' first
    | with_reducible assumption
    | with_reducible apply steady_setRegWord

theorem steady_wrB {μ δ : Bool} {s₀ : State} (s : State) (f : Fld) (ix : List Nat) (b : Bool)
    (h_s : Steady μ δ s₀ s) (hb_f : 8 ≤ f.reg.base) :
    Steady μ δ s₀ (s.wrB f ix b) := by
  delta State.wrB
  try lift_lets
  repeat' first
    | with_reducible assumption
    | with_reducible apply steady_wr

theorem steady_wrI {μ δ : Bool} {s₀ : State} (s : State) (f : Fld) (ix : List Nat) (v : Int) (h_s : Steady μ δ s₀ s)
    (hb_f : 8 ≤ f.reg.base) :
    Steady μ δ s₀ (s.wrI f ix v) := by
  delta State.wrI
  try lift_lets
  repeat' first
    | with_reducible assumption
    | with_reducible apply steady_wr

theorem steady_count {μ δ : Bool} {s₀ : State} (s : State) (f : Fld) (ix : List Nat) (n : Nat)
    (h_s : Steady μ δ s₀ s) (hb_f : 8 ≤ f.reg.base) :
    Steady μ δ s₀ (s.count f ix n) := by
  delta State.count
  try lift_lets
  repeat' first
    | with_reducible assumption
    | with_reducible apply steady_wr

/-! ## Signals -/

theorem steady_emit {μ δ : Bool} {s₀ : State} (s : State) (e : Emit) (h_s : Steady μ δ s₀ s) :
    Steady μ δ s₀ (s.emit e) := by
  delta State.emit
  try lift_lets
  repeat' first
    | with_reducible exact Steady.mk_ (by assumption)

theorem steady_sendMsix {μ δ : Bool} {s₀ : State} (s : State) (v : Nat) (h_s : Steady μ δ s₀ s) :
    Steady μ δ s₀ (s.sendMsix v) := by
  delta State.sendMsix
  try lift_lets
  repeat' first
    | with_reducible assumption
    | (intro x; (fail_if_success have : State := x); clear_value x)
    | with_reducible apply steady_emit

theorem steady_signal {μ δ : Bool} {s₀ : State} (s : State) (v : Nat) (h_s : Steady μ δ s₀ s) :
    Steady μ δ s₀ (s.signal v) := by
  delta State.signal
  try lift_lets
  repeat' first
    | with_reducible assumption
    | (intro x; (fail_if_success have : State := x); clear_value x)
    | with_reducible apply steady_sendMsix
    | with_reducible apply Steady.ite
    | with_reducible exact Steady.mk_ (by assumption)

theorem steady_draw {μ δ : Bool} {s₀ : State} (s : State) (h_s : Steady μ δ s₀ s) :
    Steady μ δ s₀ (s.draw).2 := by
  delta State.draw
  try lift_lets
  repeat' first
    | with_reducible exact Steady.mk_ (by assumption)

theorem steady_refuse {μ δ : Bool} {s₀ : State} (s : State) (addr reason : Nat) (h_s : Steady μ δ s₀ s) :
    Steady μ δ s₀ (s.refuse addr reason) := by
  delta State.refuse
  try lift_lets
  repeat' first
    | with_reducible assumption
    | (intro x; (fail_if_success have : State := x); clear_value x)
    | with_reducible apply steady_wr
    | with_reducible apply Steady.ite
    | (with_reducible show 8 ≤ _; decide)

theorem steady_logEvent {μ δ : Bool} {s₀ : State} (s : State) (kind sev bit : Nat) (flags : BitVec 8)
    (block : BitVec 16) (unit : Nat) (desc : Word) (data : List Byte) (h_s : Steady μ δ s₀ s) :
    Steady μ δ s₀ (s.logEvent kind sev bit flags block unit desc data) := by
  delta State.logEvent
  try lift_lets
  repeat' first
    | (intro x; (fail_if_success have : State := x); clear_value x)
    | with_reducible apply Steady.ite
    | with_reducible exact Steady.mk_ (by assumption)

theorem steady_FltBlk_wr {μ δ : Bool} {s₀ : State} (b : FltBlk) (s : State) (f g : Fld) (v : Nat)
    (h_s : Steady μ δ s₀ s) (hb_f : 8 ≤ f.reg.base) (hb_g : 8 ≤ g.reg.base) :
    Steady μ δ s₀ (FltBlk.wr b s f g v) := by
  delta FltBlk.wr
  try lift_lets
  repeat' first
    | with_reducible assumption
    | with_reducible apply steady_wr
    | (split <;> try lift_lets)

theorem steady_FltBlk_count {μ δ : Bool} {s₀ : State} (b : FltBlk) (s : State) (f g : Fld) (n : Nat)
    (h_s : Steady μ δ s₀ s) (hb_f : 8 ≤ f.reg.base) (hb_g : 8 ≤ g.reg.base) :
    Steady μ δ s₀ (FltBlk.count b s f g n) := by
  delta FltBlk.count
  try lift_lets
  repeat' first
    | with_reducible assumption
    | with_reducible apply steady_count
    | (split <;> try lift_lets)

theorem steady_recordOne {μ δ : Bool} {s₀ : State} (s : State) (b : FltBlk) (f : FaultRec) (h_s : Steady μ δ s₀ s) :
    Steady μ δ s₀ (s.recordOne b f) := by
  have hor : ∀ t (x y : Fld), Steady μ δ s₀ t → 8 ≤ x.reg.base → 8 ≤ y.reg.base →
      Steady μ δ s₀ (b.wr t x y (b.rd t x y ||| 2 ^ f.bit)) := fun t x y h hx hy => steady_FltBlk_wr _ _ _ _ _ h hx hy
  unfold State.recordOne
  dsimp only
  generalize bit (b.rd s F.FLT_STATUS_STATUS F.TFLT_STATUS_STATUS) f.bit = was
  generalize bit (b.rd s F.FLT_MASK_MASK F.TFLT_MASK_MASK) f.bit = masked
  generalize bit (b.rd s F.FLT_ACTION_PIN F.TFLT_ACTION_PIN) f.bit = act
  have h1 := hor s F.FLT_STATUS_STATUS F.TFLT_STATUS_STATUS h_s (by decide) (by decide)
  have h2 := Steady.ite (c := f.real = true) (hor _ F.FLT_REAL_REAL F.TFLT_REAL_REAL h1 (by decide) (by decide)) h1
  have h3 := Steady.ite (c := f.inj = true) (hor _ F.FLT_INJ_INJ F.TFLT_INJ_INJ h2 (by decide) (by decide)) h2
  have h4 := steady_FltBlk_count b _ F.FLT_COUNT_RECORDED F.TFLT_COUNT_RECORDED 1 h3 (by decide) (by decide)
  have h5 := Steady.ite (c := (!was && !masked) = true) (steady_signal _ b.vector h4) h4
  revert h5
  generalize (if (!was && !masked) = true then _ else _ : State) = u
  intro h5
  have h6 : Steady μ δ s₀ (if act = true then { u with flt := { u.flt with errN := true, errHold := some (u.now + 39063) } } else u) :=
    Steady.ite (Steady.mk_ h5) h5
  split
  · exact steady_logEvent _ _ _ _ _ _ _ _ _ h6
  · exact h6

theorem steady_record {μ δ : Bool} {s₀ : State} (s : State) (b : FltBlk) (fs : List FaultRec) (h_s : Steady μ δ s₀ s) :
    Steady μ δ s₀ (s.record b fs) := by
  delta State.record
  try lift_lets
  repeat' first
    | with_reducible assumption
    | (intro x; have hx : Steady μ δ s₀ x := ?_; (on_goal 1 => clear_value x); on_goal 2 => (subst x; try lift_lets))
    | with_reducible apply steady_recordOne
    | with_reducible apply steady_FltBlk_wr
    | with_reducible apply Steady.ite
    | with_reducible apply Steady.foldl
    | (with_reducible show 8 ≤ _; decide)
    | (intro x a hx; try lift_lets)
    | (split <;> try lift_lets)

theorem steady_note {μ δ : Bool} {s₀ : State} (s : State) (b : FltBlk) (bit unit : Nat) (h_s : Steady μ δ s₀ s) :
    Steady μ δ s₀ (s.note b bit unit) := by
  delta State.note
  try lift_lets
  repeat' first
    | with_reducible assumption
    | with_reducible apply steady_record
    | with_reducible apply Steady.ite

/-! ## Shots -/

theorem steady_setThr {μ δ : Bool} {s₀ : State} (s : State) (g : Nat) (t : Thread) (h_s : Steady μ δ s₀ s) :
    Steady μ δ s₀ (s.setThr g t) := by
  delta State.setThr
  try lift_lets
  repeat' first
    | with_reducible exact Steady.mk_ (by assumption)

theorem steady_updThr {μ δ : Bool} {s₀ : State} (s : State) (g : Nat) (f : Thread → Thread) (h_s : Steady μ δ s₀ s) :
    Steady μ δ s₀ (s.updThr g f) := by
  delta State.updThr
  try lift_lets
  repeat' first
    | with_reducible assumption
    | with_reducible apply steady_setThr

theorem steady_setJob {μ δ : Bool} {s₀ : State} (s : State) (j : Nat) (b : Job) (h_s : Steady μ δ s₀ s) :
    Steady μ δ s₀ (s.setJob j b) := by
  delta State.setJob
  try lift_lets
  repeat' first
    | (intro x; (fail_if_success have : State := x); clear_value x)
    | with_reducible exact Steady.mk_ (by assumption)

theorem steady_updJob {μ δ : Bool} {s₀ : State} (s : State) (j : Nat) (f : Job → Job) (h_s : Steady μ δ s₀ s) :
    Steady μ δ s₀ (s.updJob j f) := by
  delta State.updJob
  try lift_lets
  repeat' first
    | with_reducible assumption
    | with_reducible apply steady_setJob

theorem steady_setQp {μ δ : Bool} {s₀ : State} (s : State) (q : Nat) (v : Qp) (h_s : Steady μ δ s₀ s) :
    Steady μ δ s₀ (s.setQp q v) := by
  delta State.setQp
  try lift_lets
  repeat' first
    | (intro x; (fail_if_success have : State := x); clear_value x)
    | with_reducible exact Steady.mk_ (by assumption)

theorem steady_setPart {μ δ : Bool} {s₀ : State} (s : State) (p : Nat) (v : Part) (h_s : Steady μ δ s₀ s) :
    Steady μ δ s₀ (s.setPart p v) := by
  delta State.setPart
  try lift_lets
  repeat' first
    | (intro x; (fail_if_success have : State := x); clear_value x)
    | with_reducible exact Steady.mk_ (by assumption)

theorem steady_syncPart {μ δ : Bool} {s₀ : State} (s : State) (p : Nat) (h_s : Steady μ δ s₀ s) :
    Steady μ δ s₀ (s.syncPart p) := by
  delta State.syncPart
  try lift_lets
  repeat' first
    | with_reducible assumption
    | with_reducible apply steady_wr
    | with_reducible apply Steady.ite
    | (with_reducible show 8 ≤ _; decide)

theorem steady_syncParts {μ δ : Bool} {s₀ : State} (s : State) (h_s : Steady μ δ s₀ s) :
    Steady μ δ s₀ (s.syncParts) := by
  delta State.syncParts
  try lift_lets
  repeat' first
    | with_reducible assumption
    | with_reducible apply steady_syncPart
    | with_reducible apply Steady.foldl

theorem steady_markPeers {μ δ : Bool} {s₀ : State} (s : State) (j g e : Nat) (h_s : Steady μ δ s₀ s) :
    Steady μ δ s₀ (s.markPeers j g e) := by
  delta State.markPeers
  try lift_lets
  repeat' first
    | with_reducible exact Steady.mk_ (by assumption)

theorem steady_failBars {μ δ : Bool} {s₀ : State} (s : State) (j e : Nat) (h_s : Steady μ δ s₀ s) :
    Steady μ δ s₀ (s.failBars j e) := by
  delta State.failBars
  try lift_lets
  repeat' first
    | with_reducible exact Steady.mk_ (by assumption)

theorem steady_endThread {μ δ : Bool} {s₀ : State} (s : State) (g status e : Nat) (h_s : Steady μ δ s₀ s) :
    Steady μ δ s₀ (s.endThread g status e) := by
  delta State.endThread
  try lift_lets
  repeat' first
    | with_reducible assumption
    | (intro x; have hx : Steady μ δ s₀ x := ?_; (on_goal 1 => clear_value x); on_goal 2 => (subst x; try lift_lets))
    | (intro x; (fail_if_success have : State := x); clear_value x)
    | with_reducible apply steady_failBars
    | with_reducible apply steady_markPeers
    | with_reducible apply steady_updJob
    | with_reducible apply steady_setThr
    | with_reducible apply Steady.ite
    | (split <;> try lift_lets)

theorem steady_endThreads {μ δ : Bool} {s₀ : State} (s : State) (gs : List Nat) (status e : Nat)
    (h_s : Steady μ δ s₀ s) :
    Steady μ δ s₀ (s.endThreads gs status e) := by
  delta State.endThreads
  try lift_lets
  repeat' first
    | with_reducible assumption
    | with_reducible apply steady_endThread
    | with_reducible apply Steady.foldl
    | (intro x a hx; try lift_lets)

theorem steady_jobFlag {μ δ : Bool} {s₀ : State} (s : State) (j i : Nat) (h_s : Steady μ δ s₀ s) :
    Steady μ δ s₀ (s.jobFlag j i) := by
  delta State.jobFlag
  try lift_lets
  repeat' first
    | with_reducible assumption
    | with_reducible apply steady_updJob

theorem steady_stageBytes {μ δ : Bool} {s₀ : State} (s : State) (j : Nat) (bytes : List Byte) (h_s : Steady μ δ s₀ s) :
    Steady μ δ s₀ (s.stageBytes j bytes) := by
  delta State.stageBytes
  try lift_lets
  repeat' first
    | with_reducible assumption
    | (intro x; have hx : Steady μ δ s₀ x := ?_; (on_goal 1 => clear_value x); on_goal 2 => (subst x; try lift_lets))
    | (intro x; (fail_if_success have : State := x); clear_value x)
    | with_reducible apply steady_jobFlag
    | with_reducible apply steady_setPart
    | with_reducible apply steady_updJob
    | with_reducible apply Steady.ite

theorem steady_stageRecord {μ δ : Bool} {s₀ : State} (s : State) (j shot : Nat) (bytes : List Byte)
    (h_s : Steady μ δ s₀ s) :
    Steady μ δ s₀ (s.stageRecord j shot bytes) := by
  delta State.stageRecord
  try lift_lets
  repeat' first
    | with_reducible assumption
    | (intro x; (fail_if_success have : State := x); clear_value x)
    | with_reducible apply steady_stageBytes
    | with_reducible apply steady_jobFlag
    | with_reducible apply steady_updJob
    | with_reducible apply Steady.ite
    | (split <;> try lift_lets)

theorem steady_stageAverages {μ δ : Bool} {s₀ : State} (s : State) (j : Nat) (h_s : Steady μ δ s₀ s) :
    Steady μ δ s₀ (s.stageAverages j) := by
  delta State.stageAverages
  try lift_lets
  repeat' first
    | with_reducible assumption
    | (intro x; have hx : Steady μ δ s₀ x := ?_; (on_goal 1 => clear_value x); on_goal 2 => (subst x; try lift_lets))
    | (intro x; (fail_if_success have : State := x); clear_value x)
    | with_reducible apply steady_stageBytes
    | with_reducible apply Steady.foldl
    | with_reducible exact Steady.mk_ (by assumption)
    | (intro x a hx; try lift_lets)

theorem steady_setBar {μ δ : Bool} {s₀ : State} (s : State) (b : Nat) (r : Barrier) (h_s : Steady μ δ s₀ s) :
    Steady μ δ s₀ (s.setBar b r) := by
  delta State.setBar
  try lift_lets
  repeat' first
    | with_reducible assumption
    | (intro x; have hx : Steady μ δ s₀ x := ?_; (on_goal 1 => clear_value x); on_goal 2 => (subst x; try lift_lets))
    | (intro x; (fail_if_success have : State := x); clear_value x)
    | with_reducible apply steady_wrB
    | with_reducible apply steady_wr
    | with_reducible apply Steady.foldl
    | with_reducible exact Steady.mk_ (by assumption)
    | (with_reducible show 8 ≤ _; decide)
    | (intro x a hx; try lift_lets)

theorem steady_holdSharers {μ δ : Bool} {s₀ : State} (s : State) (j : Nat) (h_s : Steady μ δ s₀ s) :
    Steady μ δ s₀ (s.holdSharers j) := by
  delta State.holdSharers
  try lift_lets
  repeat' first
    | (intro x; (fail_if_success have : State := x); clear_value x)
    | with_reducible exact Steady.mk_ (by assumption)

theorem steady_setSenseTile {μ δ : Bool} {s₀ : State} (s : State) (t : Nat) (v : SenseTile) (h_s : Steady μ δ s₀ s) :
    Steady μ δ s₀ (s.setSenseTile t v) := by
  delta State.setSenseTile
  try lift_lets
  repeat' first
    | (intro x; (fail_if_success have : State := x); clear_value x)
    | with_reducible exact Steady.mk_ (by assumption)

theorem steady_stopScan {μ δ : Bool} {s₀ : State} (s : State) (t : Nat) (h_s : Steady μ δ s₀ s) :
    Steady μ δ s₀ (s.stopScan t) := by
  delta State.stopScan
  try lift_lets
  repeat' first
    | with_reducible assumption
    | (intro x; (fail_if_success have : State := x); clear_value x)
    | with_reducible apply steady_setSenseTile
    | with_reducible apply steady_wr
    | (with_reducible show 8 ≤ _; decide)

theorem steady_settleJob {μ δ : Bool} {s₀ : State} (s : State) (j : Nat) (h_s : Steady μ δ s₀ s) :
    Steady μ δ s₀ (s.settleJob j) := by
  delta State.settleJob
  try lift_lets
  repeat' first
    | with_reducible assumption
    | (intro x; have hx : Steady μ δ s₀ x := ?_; (on_goal 1 => clear_value x); on_goal 2 => (subst x; try lift_lets))
    | with_reducible apply steady_holdSharers
    | with_reducible apply steady_setBar
    | with_reducible apply steady_stageAverages
    | with_reducible apply Steady.foldl
    | (intro x a hx; try lift_lets)

theorem steady_endJob {μ δ : Bool} {s₀ : State} (s : State) (j status reason : Nat) (h_s : Steady μ δ s₀ s) :
    Steady μ δ s₀ (s.endJob j status reason) := by
  delta State.endJob
  try lift_lets
  repeat' first
    | with_reducible assumption
    | (intro x; have hx : Steady μ δ s₀ x := ?_; (on_goal 1 => clear_value x); on_goal 2 => (subst x; try lift_lets))
    | (intro x; (fail_if_success have : State := x); clear_value x)
    | with_reducible apply steady_settleJob
    | with_reducible apply steady_stopScan
    | with_reducible apply steady_setQp
    | with_reducible apply steady_setJob
    | with_reducible apply Steady.ite
    | with_reducible apply Steady.foldl

theorem steady_strike {μ δ : Bool} {s₀ : State} (s : State) (j : Nat) (aw : Option Await) (h_s : Steady μ δ s₀ s) :
    Steady μ δ s₀ (s.strike j aw) := by
  delta State.strike
  try lift_lets
  repeat' first
    | with_reducible assumption
    | (intro x; have hx : Steady μ δ s₀ x := ?_; (on_goal 1 => clear_value x); on_goal 2 => (subst x; try lift_lets))
    | (intro x; (fail_if_success have : State := x); clear_value x)
    | with_reducible apply steady_endThreads
    | with_reducible apply steady_updJob
    | with_reducible apply steady_setJob
    | with_reducible apply Steady.ite
    | (split <;> try lift_lets)

theorem steady_strikeTail {μ δ : Bool} {s₀ : State} (s : State) (j shot : Nat) (status : BitVec 8)
    (aw : Option Await) (h_s : Steady μ δ s₀ s) :
    Steady μ δ s₀ (s.strikeTail j shot status aw) := by
  delta State.strikeTail
  try lift_lets
  repeat' first
    | with_reducible assumption
    | (intro x; (fail_if_success have : State := x); clear_value x)
    | with_reducible apply steady_setJob
    | with_reducible apply Steady.ite
    | (split <;> try lift_lets)

theorem steady_strikeShot {μ δ : Bool} {s₀ : State} (s : State) (j shot : Nat) (aw : Option Await)
    (h_s : Steady μ δ s₀ s) :
    Steady μ δ s₀ (s.strikeShot j shot aw) := by
  delta State.strikeShot
  try lift_lets
  repeat' first
    | with_reducible assumption
    | with_reducible apply steady_strikeTail
    | with_reducible apply steady_strike
    | with_reducible apply Steady.ite

theorem steady_doom {μ δ : Bool} {s₀ : State} (s : State) (j : Nat) (h_s : Steady μ δ s₀ s) :
    Steady μ δ s₀ (s.doom j) := by
  delta State.doom
  try lift_lets
  repeat' first
    | with_reducible assumption
    | with_reducible apply steady_strike
    | with_reducible apply steady_endJob
    | with_reducible apply Steady.ite

theorem steady_doomBy {μ δ : Bool} {s₀ : State} (s : State) (fencing : Nat → Bool) (j : Nat) (h_s : Steady μ δ s₀ s) :
    Steady μ δ s₀ (s.doomBy fencing j) := by
  delta State.doomBy
  try lift_lets
  repeat' first
    | with_reducible assumption
    | (intro x; have hx : Steady μ δ s₀ x := ?_; (on_goal 1 => clear_value x); on_goal 2 => (subst x; try lift_lets))
    | (intro x; (fail_if_success have : State := x); clear_value x)
    | with_reducible apply steady_strike
    | with_reducible apply steady_endJob
    | with_reducible apply steady_endThreads
    | with_reducible apply Steady.ite

theorem steady_setMbx {μ δ : Bool} {s₀ : State} (s : State) (n : Nat) (m : Mbx) (h_s : Steady μ δ s₀ s) :
    Steady μ δ s₀ (s.setMbx n m) := by
  delta State.setMbx
  try lift_lets
  repeat' first
    | (intro x; (fail_if_success have : State := x); clear_value x)
    | with_reducible exact Steady.mk_ (by assumption)

theorem steady_respond {μ δ : Bool} {s₀ : State} (s : State) (n status reason detail : Nat) (txn : Word)
    (payload : List Byte) (h_s : Steady μ δ s₀ s) :
    Steady μ δ s₀ (s.respond n status reason detail txn payload) := by
  delta State.respond
  try lift_lets
  repeat' first
    | with_reducible assumption
    | (intro x; have hx : Steady μ δ s₀ x := ?_; (on_goal 1 => clear_value x); on_goal 2 => (subst x; try lift_lets))
    | (intro x; (fail_if_success have : State := x); clear_value x)
    | with_reducible apply steady_setMbx
    | with_reducible apply steady_signal
    | with_reducible apply steady_wr
    | with_reducible apply Steady.ite
    | (with_reducible show 8 ≤ _; decide)

theorem steady_ok {μ δ : Bool} {s₀ : State} (s : State) (n : Nat) (payload : List Byte) (h_s : Steady μ δ s₀ s) :
    Steady μ δ s₀ (s.ok n payload) := by
  delta State.ok
  try lift_lets
  repeat' first
    | with_reducible assumption
    | with_reducible apply steady_respond

theorem steady_deny {μ δ : Bool} {s₀ : State} (s : State) (n reason detail : Nat) (h_s : Steady μ δ s₀ s) :
    Steady μ δ s₀ (s.deny n reason detail) := by
  delta State.deny
  try lift_lets
  repeat' first
    | with_reducible assumption
    | with_reducible apply steady_respond

theorem steady_fail {μ δ : Bool} {s₀ : State} (s : State) (n reason : Nat) (h_s : Steady μ δ s₀ s) :
    Steady μ δ s₀ (s.fail n reason) := by
  delta State.fail
  try lift_lets
  repeat' first
    | with_reducible assumption
    | with_reducible apply steady_respond

theorem steady_progress {μ δ : Bool} {s₀ : State} (s : State) (n : Nat) (h_s : Steady μ δ s₀ s) :
    Steady μ δ s₀ (s.progress n) := by
  delta State.progress
  try lift_lets
  repeat' first
    | with_reducible assumption
    | with_reducible apply steady_respond

/-! ## Capture -/

theorem steady_setCap {μ δ : Bool} {s₀ : State} (s : State) (t : Nat) (r : CapRun) (h_s : Steady μ δ s₀ s) :
    Steady μ δ s₀ (s.setCap t r) := by
  delta State.setCap
  try lift_lets
  repeat' first
    | with_reducible exact Steady.mk_ (by assumption)

theorem steady_capStart {μ δ : Bool} {s₀ : State} (s : State) (t : Nat) (job : Option Nat) (wait : Bool)
    (h_s : Steady μ δ s₀ s) :
    Steady μ δ s₀ (s.capStart t job wait) := by
  delta State.capStart
  try lift_lets
  repeat' first
    | with_reducible assumption
    | (intro x; (fail_if_success have : State := x); clear_value x)
    | with_reducible apply steady_setCap
    | with_reducible apply steady_wr
    | (with_reducible show 8 ≤ _; decide)

theorem steady_applyCapArm {μ δ : Bool} {s₀ : State} (s : State) (t : Nat) (h_s : Steady μ δ s₀ s) :
    Steady μ δ s₀ (s.applyCapArm t) := by
  delta State.applyCapArm
  try lift_lets
  repeat' first
    | with_reducible assumption
    | with_reducible apply steady_capStart
    | with_reducible apply steady_wr
    | with_reducible apply Steady.ite
    | (with_reducible show 8 ≤ _; decide)

theorem steady_capWriteHeader {δ : Bool} {s₀ : State} (s : State) (t : Nat) (hdr : List Nat)
    (h_s : Steady true δ s₀ s) :
    Steady true δ s₀ (s.capWriteHeader t hdr) := by
  delta State.capWriteHeader
  try lift_lets
  repeat' first
    | with_reducible assumption
    | (intro x; have hx : Steady true δ s₀ x := ?_; (on_goal 1 => clear_value x); on_goal 2 => (subst x; try lift_lets))
    | with_reducible apply steady_memWrite
    | with_reducible apply steady_setRegWord
    | with_reducible apply Steady.ite
    | with_reducible apply Steady.foldl
    | (with_reducible show 8 ≤ _; decide)
    | (intro x a hx; try lift_lets)

theorem steady_capDone {δ : Bool} {s₀ : State} (s : State) (t last cause : Nat) (h_s : Steady true δ s₀ s) :
    Steady true δ s₀ (s.capDone t last cause) := by
  delta State.capDone
  try lift_lets
  repeat' first
    | with_reducible assumption
    | (intro x; have hx : Steady true δ s₀ x := ?_; (on_goal 1 => clear_value x); on_goal 2 => (subst x; try lift_lets))
    | (intro x; (fail_if_success have : State := x); clear_value x)
    | with_reducible apply steady_capWriteHeader
    | with_reducible apply steady_setCap
    | with_reducible apply steady_signal
    | with_reducible apply steady_wr
    | with_reducible apply Steady.ite
    | (with_reducible show 8 ≤ _; decide)

theorem steady_capStore {δ : Bool} {s₀ : State} (s : State) (t : Nat) (h_s : Steady true δ s₀ s) :
    Steady true δ s₀ (s.capStore t) := by
  delta State.capStore
  try lift_lets
  repeat' first
    | with_reducible assumption
    | (intro x; have hx : Steady true δ s₀ x := ?_; (on_goal 1 => clear_value x); on_goal 2 => (subst x; try lift_lets))
    | (intro x; (fail_if_success have : State := x); clear_value x)
    | with_reducible apply steady_setCap
    | with_reducible apply steady_memWrite
    | with_reducible apply Steady.ite
    | with_reducible exact Steady.mk_ (by assumption)

theorem steady_capDeliver {μ δ : Bool} {s₀ : State} (s : State) (t : Nat) (h_s : Steady μ δ s₀ s) :
    Steady μ δ s₀ (s.capDeliver t) := by
  delta State.capDeliver
  try lift_lets
  repeat' first
    | with_reducible assumption
    | (intro x; have hx : Steady μ δ s₀ x := ?_; (on_goal 1 => clear_value x); on_goal 2 => (subst x; try lift_lets))
    | (intro x; (fail_if_success have : State := x); clear_value x)
    | with_reducible apply steady_endJob
    | with_reducible apply steady_stageBytes
    | with_reducible apply steady_updJob
    | (split <;> try lift_lets)

theorem steady_capFinish {δ : Bool} {s₀ : State} (s : State) (t : Nat) (h_s : Steady true δ s₀ s) :
    Steady true δ s₀ (s.capFinish t) := by
  delta State.capFinish
  try lift_lets
  repeat' first
    | with_reducible assumption
    | (intro x; have hx : Steady true δ s₀ x := ?_; (on_goal 1 => clear_value x); on_goal 2 => (subst x; try lift_lets))
    | (intro x; (fail_if_success have : State := x); clear_value x)
    | with_reducible apply steady_capDeliver
    | with_reducible apply steady_capStore
    | with_reducible apply steady_capDone
    | with_reducible apply steady_capWriteHeader
    | with_reducible apply steady_setCap
    | (split <;> try lift_lets)

theorem steady_capAbort {δ : Bool} {s₀ : State} (s : State) (t cause : Nat) (h_s : Steady true δ s₀ s) :
    Steady true δ s₀ (s.capAbort t cause) := by
  delta State.capAbort
  try lift_lets
  repeat' first
    | with_reducible assumption
    | (intro x; have hx : Steady true δ s₀ x := ?_; (on_goal 1 => clear_value x); on_goal 2 => (subst x; try lift_lets))
    | (intro x; (fail_if_success have : State := x); clear_value x)
    | with_reducible apply steady_capFinish
    | with_reducible apply steady_capDone
    | with_reducible apply steady_setCap
    | with_reducible apply steady_endJob
    | with_reducible apply steady_jobFlag
    | with_reducible apply Steady.ite
    | (split <;> try lift_lets)

theorem steady_applyCapStop {δ : Bool} {s₀ : State} (s : State) (t : Nat) (h_s : Steady true δ s₀ s) :
    Steady true δ s₀ (s.applyCapStop t) := by
  delta State.applyCapStop
  try lift_lets
  repeat' first
    | with_reducible assumption
    | with_reducible apply steady_capAbort
    | with_reducible apply steady_wr
    | with_reducible apply Steady.ite
    | (with_reducible show 8 ≤ _; decide)

theorem steady_applyCapForce {μ δ : Bool} {s₀ : State} (s : State) (t : Nat) (h_s : Steady μ δ s₀ s) :
    Steady μ δ s₀ (s.applyCapForce t) := by
  delta State.applyCapForce
  try lift_lets
  repeat' first
    | with_reducible assumption
    | (intro x; (fail_if_success have : State := x); clear_value x)
    | with_reducible apply steady_setCap
    | with_reducible apply steady_count
    | with_reducible apply steady_wr
    | with_reducible apply Steady.ite
    | (with_reducible show 8 ≤ _; decide)

theorem steady_capSafe {δ : Bool} {s₀ : State} (s : State) (t : Nat) (h_s : Steady true δ s₀ s) :
    Steady true δ s₀ (s.capSafe t) := by
  delta State.capSafe
  try lift_lets
  repeat' first
    | with_reducible assumption
    | with_reducible apply steady_capAbort
    | with_reducible apply steady_wr
    | with_reducible apply Steady.ite
    | (with_reducible show 8 ≤ _; decide)

theorem steady_capTapFenced {δ : Bool} {s₀ : State} (s : State) (t : Nat) (line : Bool) (unit : Nat)
    (h_s : Steady true δ s₀ s) :
    Steady true δ s₀ (s.capTapFenced t line unit) := by
  delta State.capTapFenced
  try lift_lets
  repeat' first
    | with_reducible assumption
    | with_reducible apply steady_capAbort
    | with_reducible apply steady_note
    | with_reducible apply Steady.ite

theorem steady_capControl {μ δ : Bool} {s₀ : State} (s : State) (t : Nat) (act : StagedAct) (h_s : Steady μ δ s₀ s) :
    Steady μ δ s₀ (s.capControl t act) := by
  delta State.capControl
  try lift_lets
  repeat' first
    | with_reducible assumption
    | with_reducible apply steady_wr
    | with_reducible apply Steady.ite
    | with_reducible exact Steady.mk_ (by assumption)
    | (with_reducible show 8 ≤ _; decide)

theorem steady_execCapArm {μ δ : Bool} {s₀ : State} (t : Nat) (s : State) (h_s : Steady μ δ s₀ s) :
    SteadyO μ δ s₀ (execCapArm t s) := by
  delta execCapArm
  try lift_lets
  repeat' first
    | with_reducible assumption
    | with_reducible apply steady_capControl
    | with_reducible apply steady_wr
    | with_reducible apply SteadyO.ite
    | with_reducible apply SteadyO.next
    | (with_reducible show 8 ≤ _; decide)

theorem steady_execCapStop {μ δ : Bool} {s₀ : State} (t : Nat) (s : State) (h_s : Steady μ δ s₀ s) :
    SteadyO μ δ s₀ (execCapStop t s) := by
  delta execCapStop
  try lift_lets
  repeat' first
    | with_reducible assumption
    | with_reducible apply steady_capControl
    | with_reducible apply SteadyO.ite
    | with_reducible apply SteadyO.next

theorem steady_execCapForce {μ δ : Bool} {s₀ : State} (t : Nat) (s : State) (h_s : Steady μ δ s₀ s) :
    SteadyO μ δ s₀ (execCapForce t s) := by
  delta execCapForce
  try lift_lets
  repeat' first
    | with_reducible assumption
    | with_reducible apply steady_capControl
    | with_reducible apply SteadyO.ite
    | with_reducible apply SteadyO.next

theorem steady_execCapArmTimeReached {μ δ : Bool} {s₀ : State} (t : Nat) (s : State) (h_s : Steady μ δ s₀ s) :
    SteadyO μ δ s₀ (execCapArmTimeReached t s) := by
  delta execCapArmTimeReached
  try lift_lets
  repeat' first
    | with_reducible assumption
    | (intro x; (fail_if_success have : State := x); clear_value x)
    | with_reducible apply steady_setCap
    | with_reducible apply steady_wr
    | with_reducible apply SteadyO.ite
    | with_reducible apply SteadyO.next
    | (with_reducible show 8 ≤ _; decide)

theorem steady_rearmEnd {μ δ : Bool} {s₀ : State} (s : State) (t : Nat) (h_s : Steady μ δ s₀ s) :
    Steady μ δ s₀ (s.rearmEnd t) := by
  delta State.rearmEnd
  try lift_lets
  repeat' first
    | with_reducible assumption
    | (intro x; (fail_if_success have : State := x); clear_value x)
    | with_reducible apply steady_setCap
    | with_reducible apply steady_wr
    | with_reducible apply Steady.ite
    | (with_reducible show 8 ≤ _; decide)

theorem steady_execCapRearmEnd {μ δ : Bool} {s₀ : State} (t : Nat) (s : State) (h_s : Steady μ δ s₀ s) :
    SteadyO μ δ s₀ (execCapRearmEnd t s) := by
  delta execCapRearmEnd
  try lift_lets
  repeat' first
    | with_reducible assumption
    | with_reducible apply steady_rearmEnd
    | with_reducible apply SteadyO.next

theorem steady_capTake {μ δ : Bool} {s₀ : State} (s : State) (t : Nat) (x : Int × Int) (h_s : Steady μ δ s₀ s) :
    Steady μ δ s₀ (s.capTake t x) := by
  delta State.capTake
  try lift_lets
  repeat' first
    | with_reducible assumption
    | (intro x; (fail_if_success have : State := x); clear_value x)
    | with_reducible apply steady_setCap
    | with_reducible apply steady_count
    | with_reducible apply steady_wr
    | with_reducible apply Steady.ite
    | (with_reducible show 8 ≤ _; decide)
    | (split <;> try lift_lets)

theorem steady_capFeed {μ δ : Bool} {s₀ : State} (s : State) (t first : Nat) (xs : List (Int × Int))
    (h_s : Steady μ δ s₀ s) :
    Steady μ δ s₀ (s.capFeed t first xs) := by
  delta State.capFeed
  try lift_lets
  repeat' first
    | with_reducible assumption
    | (intro x; have hf : ∀ t a, Steady μ δ s₀ t → Steady μ δ s₀ (x t a) := ?_; (on_goal 1 => clear_value x); on_goal 2 => (subst x; intro t a h; beta_reduce; try lift_lets))
    | (intro x; (fail_if_success have : State := x); clear_value x)
    | with_reducible apply steady_capTake
    | with_reducible apply steady_setCap
    | with_reducible apply hf
    | with_reducible apply Steady.ite
    | with_reducible apply Steady.foldl
    | (intro x a hx; try lift_lets)

/-! ## CalUnits -/

theorem steady_setCalU {μ δ : Bool} {s₀ : State} (s : State) (u : UnitDesc) (c : CalUnit) (h_s : Steady μ δ s₀ s) :
    Steady μ δ s₀ (s.setCalU u c) := by
  delta State.setCalU
  try lift_lets
  repeat' first
    | (intro x; (fail_if_success have : State := x); clear_value x)
    | with_reducible exact Steady.mk_ (by assumption)

theorem steady_updCalU {μ δ : Bool} {s₀ : State} (s : State) (u : UnitDesc) (f : CalUnit → CalUnit)
    (h_s : Steady μ δ s₀ s) :
    Steady μ δ s₀ (s.updCalU u f) := by
  delta State.updCalU
  try lift_lets
  repeat' first
    | with_reducible assumption
    | with_reducible apply steady_setCalU

theorem steady_settleStep {μ δ : Bool} {s₀ : State} (s : State) (u : UnitDesc) (cut : Bool) (h_s : Steady μ δ s₀ s) :
    Steady μ δ s₀ (s.settleStep u cut) := by
  delta State.settleStep
  try lift_lets
  repeat' first
    | with_reducible assumption
    | (intro x; (fail_if_success have : State := x); clear_value x)
    | with_reducible apply steady_setCalU
    | with_reducible apply Steady.ite
    | (split <;> try lift_lets)

theorem steady_commitOn {μ δ : Bool} {s₀ : State} (s : State) (u : UnitDesc) (h_s : Steady μ δ s₀ s) :
    Steady μ δ s₀ (s.commitOn u) := by
  delta State.commitOn
  try lift_lets
  repeat' first
    | with_reducible assumption
    | with_reducible apply steady_settleStep

theorem steady_endCalJobs {μ δ : Bool} {s₀ : State} (s : State) (h_s : Steady μ δ s₀ s) :
    Steady μ δ s₀ (s.endCalJobs) := by
  delta State.endCalJobs
  try lift_lets
  repeat' first
    | with_reducible assumption
    | (intro x; have hx : Steady μ δ s₀ x := ?_; (on_goal 1 => clear_value x); on_goal 2 => (subst x; try lift_lets))
    | (intro x; (fail_if_success have : State := x); clear_value x)
    | with_reducible apply steady_endJob
    | with_reducible apply steady_updJob
    | with_reducible apply Steady.ite
    | with_reducible apply Steady.foldl
    | with_reducible exact Steady.mk_ (by assumption)
    | (intro x a hx; try lift_lets)
    | (split <;> try lift_lets)

theorem steady_noteStep {μ δ : Bool} {s₀ : State} (s : State) (u : UnitDesc) (step : Nat) (ok : Bool) (reason : Nat)
    (h_s : Steady μ δ s₀ s) :
    Steady μ δ s₀ (s.noteStep u step ok reason) := by
  delta State.noteStep
  try lift_lets
  repeat' first
    | (intro x; (fail_if_success have : State := x); clear_value x)
    | with_reducible apply steady_endCalJobs
    | with_reducible exact Steady.mk_ (by assumption)

theorem steady_noteCal {μ δ : Bool} {s₀ : State} (s : State) (u : UnitDesc) (ok : Bool) (reason : Nat)
    (h_s : Steady μ δ s₀ s) :
    Steady μ δ s₀ (s.noteCal u ok reason) := by
  delta State.noteCal
  try lift_lets
  repeat' first
    | with_reducible assumption
    | with_reducible apply steady_noteStep

theorem steady_failCal {μ δ : Bool} {s₀ : State} (s : State) (u : UnitDesc) (reason : Nat) (h_s : Steady μ δ s₀ s) :
    Steady μ δ s₀ (s.failCal u reason) := by
  delta State.failCal
  try lift_lets
  repeat' first
    | (intro x; (fail_if_success have : State := x); clear_value x)
    | with_reducible apply steady_endCalJobs
    | with_reducible exact Steady.mk_ (by assumption)

theorem steady_dropCal {μ δ : Bool} {s₀ : State} (s : State) (u : UnitDesc) (h_s : Steady μ δ s₀ s) :
    Steady μ δ s₀ (s.dropCal u) := by
  delta State.dropCal
  try lift_lets
  repeat' first
    | (intro x; (fail_if_success have : State := x); clear_value x)
    | with_reducible apply steady_updCalU
    | with_reducible exact Steady.mk_ (by assumption)

/-! ## Fences -/

theorem steady_doomAll {μ δ : Bool} {s₀ : State} (s : State) (js : List Nat) (h_s : Steady μ δ s₀ s) :
    Steady μ δ s₀ (s.doomAll js) := by
  delta State.doomAll
  try lift_lets
  repeat' first
    | with_reducible assumption
    | with_reducible apply steady_doom
    | with_reducible apply Steady.foldl

theorem steady_strikeAll {μ δ : Bool} {s₀ : State} (s : State) (js : List Nat) (aw : Await) (h_s : Steady μ δ s₀ s) :
    Steady μ δ s₀ (s.strikeAll js aw) := by
  delta State.strikeAll
  try lift_lets
  repeat' first
    | with_reducible assumption
    | with_reducible apply steady_strike
    | with_reducible apply Steady.foldl
    | (intro x a hx; try lift_lets)

theorem steady_loadPath {μ δ : Bool} {s₀ : State} (s : State) (c : Nat) (h_s : Steady μ δ s₀ s) :
    Steady μ δ s₀ (s.loadPath c) := by
  delta State.loadPath
  try lift_lets
  repeat' first
    | with_reducible assumption
    | (intro x; (fail_if_success have : State := x); clear_value x)
    | with_reducible exact Steady.mk_ (by assumption)
    | (split <;> try lift_lets)

theorem steady_setSpare {μ δ : Bool} {s₀ : State} (s : State) (t g : Nat) (j : SpareJob) (h_s : Steady μ δ s₀ s) :
    Steady μ δ s₀ (s.setSpare t g j) := by
  delta State.setSpare
  try lift_lets
  repeat' first
    | with_reducible assumption
    | (intro x; have hx : Steady μ δ s₀ x := ?_; (on_goal 1 => clear_value x); on_goal 2 => (subst x; try lift_lets))
    | (intro x; (fail_if_success have : State := x); clear_value x)
    | with_reducible apply steady_loadPath
    | with_reducible apply Steady.ite
    | with_reducible exact Steady.mk_ (by assumption)
    | (split <;> try lift_lets)

theorem steady_setDrvFences {μ δ : Bool} {s₀ : State} (s : State) (t g : Nat) (l : List DrvFence)
    (h_s : Steady μ δ s₀ s) :
    Steady μ δ s₀ (s.setDrvFences t g l) := by
  delta State.setDrvFences
  try lift_lets
  repeat' first
    | (intro x; (fail_if_success have : State := x); clear_value x)
    | with_reducible exact Steady.mk_ (by assumption)

theorem steady_advise {μ δ : Bool} {s₀ : State} (s : State) (h_s : Steady μ δ s₀ s) :
    Steady μ δ s₀ (s.advise) := by
  delta State.advise
  try lift_lets
  repeat' first
    | with_reducible assumption
    | (intro x; have hx : Steady μ δ s₀ x := ?_; (on_goal 1 => clear_value x); on_goal 2 => (subst x; try lift_lets))
    | (intro x; (fail_if_success have : State := x); clear_value x)
    | with_reducible apply steady_logEvent
    | with_reducible apply Steady.ite
    | with_reducible apply Steady.foldl
    | with_reducible exact Steady.mk_ (by assumption)
    | (intro x a hx; try lift_lets)

theorem steady_spareIdle {μ δ : Bool} {s₀ : State} (s : State) (t g : Nat) (h_s : Steady μ δ s₀ s) :
    Steady μ δ s₀ (s.spareIdle t g) := by
  delta State.spareIdle
  try lift_lets
  repeat' first
    | with_reducible assumption
    | with_reducible apply steady_setSpare
    | with_reducible apply Steady.ite
    | (split <;> try lift_lets)

theorem steady_fenceDrive {δ : Bool} {s₀ : State} (s : State) (t c : Nat) (h_s : Steady true δ s₀ s) :
    Steady true δ s₀ (s.fenceDrive t c) := by
  delta State.fenceDrive
  try lift_lets
  repeat' first
    | with_reducible assumption
    | (intro x; have hx : Steady true δ s₀ x := ?_; (on_goal 1 => clear_value x); on_goal 2 => (subst x; try lift_lets))
    | (intro x; (fail_if_success have : State := x); clear_value x)
    | with_reducible apply steady_setDrvFences
    | with_reducible apply steady_setSpare
    | with_reducible apply steady_strikeAll
    | with_reducible apply steady_doomAll
    | with_reducible apply steady_dropCal
    | with_reducible apply steady_capTapFenced
    | with_reducible apply steady_wr
    | with_reducible apply Steady.ite
    | (with_reducible show 8 ≤ _; decide)
    | (split <;> try lift_lets)

theorem steady_fenceSpare {μ δ : Bool} {s₀ : State} (s : State) (t g : Nat) (h_s : Steady μ δ s₀ s) :
    Steady μ δ s₀ (s.fenceSpare t g) := by
  delta State.fenceSpare
  try lift_lets
  repeat' first
    | with_reducible assumption
    | (intro x; have hx : Steady μ δ s₀ x := ?_; (on_goal 1 => clear_value x); on_goal 2 => (subst x; try lift_lets))
    | (intro x; have hf : ∀ t a, Steady μ δ s₀ t → Steady μ δ s₀ (x t a) := ?_; (on_goal 1 => clear_value x); on_goal 2 => (subst x; intro t a h; beta_reduce; try lift_lets))
    | with_reducible apply steady_setSpare
    | with_reducible apply steady_strikeAll
    | with_reducible apply steady_doomAll
    | with_reducible apply steady_dropCal
    | with_reducible apply steady_wr
    | with_reducible apply hf
    | (with_reducible show 8 ≤ _; decide)
    | (split <;> try lift_lets)

theorem steady_setLine {μ δ : Bool} {s₀ : State} (s : State) (t l : Nat) (r : LineRun) (h_s : Steady μ δ s₀ s) :
    Steady μ δ s₀ (s.setLine t l r) := by
  delta State.setLine
  try lift_lets
  repeat' first
    | (intro x; (fail_if_success have : State := x); clear_value x)
    | with_reducible exact Steady.mk_ (by assumption)

theorem steady_updWindows {μ δ : Bool} {s₀ : State} (s : State) (f : Window → Window) (h_s : Steady μ δ s₀ s) :
    Steady μ δ s₀ (s.updWindows f) := by
  delta State.updWindows
  try lift_lets
  repeat' first
    | (intro x; (fail_if_success have : State := x); clear_value x)
    | with_reducible exact Steady.mk_ (by assumption)

theorem steady_fenceLine {δ : Bool} {s₀ : State} (s : State) (t l : Nat) (h_s : Steady true δ s₀ s) :
    Steady true δ s₀ (s.fenceLine t l) := by
  delta State.fenceLine
  try lift_lets
  repeat' first
    | with_reducible assumption
    | (intro x; have hx : Steady true δ s₀ x := ?_; (on_goal 1 => clear_value x); on_goal 2 => (subst x; try lift_lets))
    | (intro x; (fail_if_success have : State := x); clear_value x)
    | with_reducible apply steady_updWindows
    | with_reducible apply steady_setLine
    | with_reducible apply steady_doomAll
    | with_reducible apply steady_capTapFenced
    | with_reducible apply steady_strikeShot
    | with_reducible apply steady_wr
    | with_reducible apply Steady.foldl
    | (with_reducible show 8 ≤ _; decide)
    | (intro x a hx; try lift_lets)

theorem steady_gapWindows {μ δ : Bool} {s₀ : State} (s : State) (t l a b : Nat) (h_s : Steady μ δ s₀ s) :
    Steady μ δ s₀ (s.gapWindows t l a b) := by
  delta State.gapWindows
  try lift_lets
  repeat' first
    | with_reducible assumption
    | (intro x; have hx : Steady μ δ s₀ x := ?_; (on_goal 1 => clear_value x); on_goal 2 => (subst x; try lift_lets))
    | (intro x; (fail_if_success have : State := x); clear_value x)
    | with_reducible apply steady_updWindows
    | with_reducible apply steady_strikeShot
    | with_reducible apply steady_wr
    | with_reducible apply Steady.ite
    | with_reducible apply Steady.foldl
    | (with_reducible show 8 ≤ _; decide)
    | (intro x a hx; try lift_lets)

theorem steady_gapNow {μ δ : Bool} {s₀ : State} (s : State) (t l : Nat) (h_s : Steady μ δ s₀ s) :
    Steady μ δ s₀ (s.gapNow t l) := by
  delta State.gapNow
  try lift_lets
  repeat' first
    | with_reducible assumption
    | with_reducible apply steady_gapWindows
    | (split <;> try lift_lets)

theorem steady_fenceSlice {δ : Bool} {s₀ : State} (s : State) (t l p : Nat) (h_s : Steady true δ s₀ s) :
    Steady true δ s₀ (s.fenceSlice t l p) := by
  delta State.fenceSlice
  try lift_lets
  repeat' first
    | with_reducible assumption
    | (intro x; have hx : Steady true δ s₀ x := ?_; (on_goal 1 => clear_value x); on_goal 2 => (subst x; try lift_lets))
    | (intro x; have hf : ∀ t a b, Steady true δ s₀ t → Steady true δ s₀ (x t a b) := ?_; (on_goal 1 => clear_value x); on_goal 2 => (subst x; intro t a b h; beta_reduce; try lift_lets))
    | (intro x; (fail_if_success have : State := x); clear_value x)
    | with_reducible apply steady_gapNow
    | with_reducible apply steady_fenceLine
    | with_reducible apply steady_setLine
    | with_reducible apply steady_wr
    | with_reducible apply hf
    | with_reducible apply Steady.ite
    | (with_reducible show 8 ≤ _; decide)

theorem steady_setAdc {μ δ : Bool} {s₀ : State} (s : State) (t a list role : Nat) (h_s : Steady μ δ s₀ s) :
    Steady μ δ s₀ (s.setAdc t a list role) := by
  delta State.setAdc
  try lift_lets
  repeat' first
    | with_reducible assumption
    | with_reducible apply steady_wr
    | (with_reducible show 8 ≤ _; decide)

theorem steady_setSenseList {μ δ : Bool} {s₀ : State} (s : State) (t k : Nat) (l : SenseList) (h_s : Steady μ δ s₀ s) :
    Steady μ δ s₀ (s.setSenseList t k l) := by
  delta State.setSenseList
  try lift_lets
  repeat' first
    | (intro x; (fail_if_success have : State := x); clear_value x)
    | with_reducible exact Steady.mk_ (by assumption)

theorem steady_loseConversion {μ δ : Bool} {s₀ : State} (s : State) (t k : Nat) (h_s : Steady μ δ s₀ s) :
    Steady μ δ s₀ (s.loseConversion t k) := by
  delta State.loseConversion
  try lift_lets
  repeat' first
    | with_reducible assumption
    | (intro x; have hx : Steady μ δ s₀ x := ?_; (on_goal 1 => clear_value x); on_goal 2 => (subst x; try lift_lets))
    | (intro x; (fail_if_success have : State := x); clear_value x)
    | with_reducible apply steady_setSenseList
    | with_reducible apply steady_wr
    | (with_reducible show 8 ≤ _; decide)
    | (split <;> try lift_lets)

theorem steady_handLists {μ δ : Bool} {s₀ : State} (s : State) (t : Nat) (hs : List (Nat × Nat × Nat))
    (h_s : Steady μ δ s₀ s) :
    Steady μ δ s₀ (s.handLists t hs) := by
  delta State.handLists
  try lift_lets
  repeat' first
    | with_reducible assumption
    | (intro x; (fail_if_success have : State := x); clear_value x)
    | with_reducible apply steady_setAdc
    | with_reducible apply steady_setSenseTile
    | with_reducible apply Steady.ite
    | with_reducible apply Steady.foldl
    | (intro x a hx; try lift_lets)

theorem steady_fenceAdc {μ δ : Bool} {s₀ : State} (s : State) (t a : Nat) (h_s : Steady μ δ s₀ s) :
    Steady μ δ s₀ (s.fenceAdc t a) := by
  delta State.fenceAdc
  try lift_lets
  repeat' first
    | with_reducible assumption
    | (intro x; have hx : Steady μ δ s₀ x := ?_; (on_goal 1 => clear_value x); on_goal 2 => (subst x; try lift_lets))
    | (intro x; have hf : ∀ t, Steady μ δ s₀ t → Steady μ δ s₀ (x t) := ?_; (on_goal 1 => clear_value x); on_goal 2 => (subst x; intro t h; beta_reduce; try lift_lets))
    | (intro x; (fail_if_success have : State := x); clear_value x)
    | with_reducible apply steady_handLists
    | with_reducible apply steady_loseConversion
    | with_reducible apply steady_setAdc
    | with_reducible apply steady_dropCal
    | with_reducible apply steady_setSenseTile
    | with_reducible apply steady_wrB
    | with_reducible apply steady_wr
    | with_reducible apply hf
    | with_reducible apply Steady.ite
    | with_reducible apply Steady.foldl
    | (with_reducible show 8 ≤ _; decide)
    | (intro x a hx; try lift_lets)
    | (split <;> try lift_lets)

theorem steady_haltThread {μ δ : Bool} {s₀ : State} (s : State) (g : Nat) (h_s : Steady μ δ s₀ s) :
    Steady μ δ s₀ (s.haltThread g) := by
  delta State.haltThread
  try lift_lets
  repeat' first
    | with_reducible assumption
    | with_reducible apply steady_endThread
    | with_reducible apply steady_updThr

theorem steady_fenceThread {μ δ : Bool} {s₀ : State} (s : State) (g : Nat) (h_s : Steady μ δ s₀ s) :
    Steady μ δ s₀ (s.fenceThread g) := by
  delta State.fenceThread
  try lift_lets
  repeat' first
    | with_reducible assumption
    | (intro x; have hx : Steady μ δ s₀ x := ?_; (on_goal 1 => clear_value x); on_goal 2 => (subst x; try lift_lets))
    | (intro x; (fail_if_success have : State := x); clear_value x)
    | with_reducible apply steady_haltThread
    | with_reducible apply steady_doomBy
    | with_reducible apply steady_wr
    | with_reducible apply Steady.foldl
    | (with_reducible show 8 ≤ _; decide)
    | (intro x a hx; try lift_lets)

theorem steady_fenceCluster {μ δ : Bool} {s₀ : State} (s : State) (t c : Nat) (h_s : Steady μ δ s₀ s) :
    Steady μ δ s₀ (s.fenceCluster t c) := by
  delta State.fenceCluster
  try lift_lets
  repeat' first
    | with_reducible assumption
    | (intro x; have hx : Steady μ δ s₀ x := ?_; (on_goal 1 => clear_value x); on_goal 2 => (subst x; try lift_lets))
    | with_reducible apply steady_fenceThread
    | with_reducible apply steady_wr
    | with_reducible apply Steady.foldl
    | (with_reducible show 8 ≤ _; decide)
    | (intro x a hx; try lift_lets)

theorem steady_fenceCapture {δ : Bool} {s₀ : State} (s : State) (t : Nat) (h_s : Steady true δ s₀ s) :
    Steady true δ s₀ (s.fenceCapture t) := by
  delta State.fenceCapture
  try lift_lets
  repeat' first
    | with_reducible assumption
    | (intro x; have hx : Steady true δ s₀ x := ?_; (on_goal 1 => clear_value x); on_goal 2 => (subst x; try lift_lets))
    | with_reducible apply steady_doomAll
    | with_reducible apply steady_capAbort
    | with_reducible apply steady_wr
    | with_reducible apply Steady.ite
    | (with_reducible show 8 ≤ _; decide)

theorem steady_fenceTile {δ : Bool} {s₀ : State} (s : State) (t : Nat) (h_s : Steady true δ s₀ s) :
    Steady true δ s₀ (s.fenceTile t) := by
  delta State.fenceTile
  try lift_lets
  repeat' first
    | with_reducible assumption
    | (intro x; have hx : Steady true δ s₀ x := ?_; (on_goal 1 => clear_value x); on_goal 2 => (subst x; try lift_lets))
    | (intro x; (fail_if_success have : State := x); clear_value x)
    | with_reducible apply steady_haltThread
    | with_reducible apply steady_updWindows
    | with_reducible apply steady_capAbort
    | with_reducible apply steady_doomBy
    | with_reducible apply steady_note
    | with_reducible apply steady_wr
    | with_reducible apply Steady.ite
    | with_reducible apply Steady.foldl
    | with_reducible exact Steady.mk_ (by assumption)
    | (with_reducible show 8 ≤ _; decide)
    | (intro x a hx; try lift_lets)

theorem steady_setPort {μ δ : Bool} {s₀ : State} (s : State) (p : Nat) (r : PortRun) (h_s : Steady μ δ s₀ s) :
    Steady μ δ s₀ (s.setPort p r) := by
  delta State.setPort
  try lift_lets
  repeat' first
    | (intro x; (fail_if_success have : State := x); clear_value x)
    | with_reducible exact Steady.mk_ (by assumption)

theorem steady_setLane {μ δ : Bool} {s₀ : State} (s : State) (p l : Nat) (r : LaneRun) (h_s : Steady μ δ s₀ s) :
    Steady μ δ s₀ (s.setLane p l r) := by
  delta State.setLane
  try lift_lets
  repeat' first
    | (intro x; (fail_if_success have : State := x); clear_value x)
    | with_reducible exact Steady.mk_ (by assumption)

theorem steady_setPortState {μ δ : Bool} {s₀ : State} (s : State) (p st : Nat) (h_s : Steady μ δ s₀ s) :
    Steady μ δ s₀ (s.setPortState p st) := by
  delta State.setPortState
  try lift_lets
  repeat' first
    | with_reducible assumption
    | with_reducible apply steady_wr
    | with_reducible apply Steady.ite
    | (with_reducible show 8 ≤ _; decide)

theorem steady_tsHoldover {μ δ : Bool} {s₀ : State} (s : State) (h_s : Steady μ δ s₀ s) :
    Steady μ δ s₀ (s.tsHoldover) := by
  delta State.tsHoldover
  try lift_lets
  repeat' first
    | with_reducible assumption
    | (intro x; have hx : Steady μ δ s₀ x := ?_; (on_goal 1 => clear_value x); on_goal 2 => (subst x; try lift_lets))
    | (intro x; (fail_if_success have : State := x); clear_value x)
    | with_reducible apply steady_note
    | with_reducible apply steady_wrI
    | with_reducible apply steady_wr
    | with_reducible apply Steady.ite
    | with_reducible exact Steady.mk_ (by assumption)
    | (with_reducible show 8 ≤ _; decide)

theorem steady_transmit {μ δ : Bool} {s₀ : State} (s : State) (p : Nat) (e : Emit) (h_s : Steady μ δ s₀ s) :
    Steady μ δ s₀ (s.transmit p e) := by
  delta State.transmit
  try lift_lets
  repeat' first
    | with_reducible assumption
    | (intro x; (fail_if_success have : State := x); clear_value x)
    | with_reducible apply steady_setPort
    | with_reducible apply steady_emit

theorem steady_portDown {μ δ : Bool} {s₀ : State} (s : State) (p : Nat) (h_s : Steady μ δ s₀ s) :
    Steady μ δ s₀ (s.portDown p) := by
  delta State.portDown
  try lift_lets
  repeat' first
    | with_reducible assumption
    | (intro x; have hx : Steady μ δ s₀ x := ?_; (on_goal 1 => clear_value x); on_goal 2 => (subst x; try lift_lets))
    | (intro x; (fail_if_success have : State := x); clear_value x)
    | with_reducible apply steady_tsHoldover
    | with_reducible apply steady_setPortState
    | with_reducible apply steady_setPort
    | with_reducible apply steady_note
    | with_reducible apply steady_wr
    | with_reducible apply Steady.ite
    | (with_reducible show 8 ≤ _; decide)

theorem steady_startRestripe {μ δ : Bool} {s₀ : State} (s : State) (p mask : Nat) (h_s : Steady μ δ s₀ s) :
    Steady μ δ s₀ (s.startRestripe p mask) := by
  delta State.startRestripe
  try lift_lets
  repeat' first
    | with_reducible assumption
    | (intro x; have hx : Steady μ δ s₀ x := ?_; (on_goal 1 => clear_value x); on_goal 2 => (subst x; try lift_lets))
    | (intro x; (fail_if_success have : State := x); clear_value x)
    | with_reducible apply steady_transmit
    | with_reducible apply steady_setPortState
    | with_reducible apply steady_setPort
    | with_reducible apply Steady.foldl
    | (intro x a hx; try lift_lets)

theorem steady_fenceLane {μ δ : Bool} {s₀ : State} (s : State) (p l : Nat) (h_s : Steady μ δ s₀ s) :
    Steady μ δ s₀ (s.fenceLane p l) := by
  delta State.fenceLane
  try lift_lets
  repeat' first
    | with_reducible assumption
    | (intro x; have hx : Steady μ δ s₀ x := ?_; (on_goal 1 => clear_value x); on_goal 2 => (subst x; try lift_lets))
    | (intro x; (fail_if_success have : State := x); clear_value x)
    | with_reducible apply steady_startRestripe
    | with_reducible apply steady_portDown
    | with_reducible apply steady_setPort
    | with_reducible apply steady_count
    | with_reducible apply steady_wr
    | with_reducible apply Steady.ite
    | (with_reducible show 8 ≤ _; decide)

theorem steady_retire {μ δ : Bool} {s₀ : State} (s : State) (d cause : Nat) (h_s : Steady μ δ s₀ s) :
    Steady μ δ s₀ (s.retire d cause) := by
  delta State.retire
  try lift_lets
  repeat' first
    | with_reducible assumption
    | (intro x; have hx : Steady μ δ s₀ x := ?_; (on_goal 1 => clear_value x); on_goal 2 => (subst x; try lift_lets))
    | (intro x; (fail_if_success have : State := x); clear_value x)
    | with_reducible apply steady_note
    | with_reducible apply steady_wr
    | with_reducible exact Steady.mk_ (by assumption)
    | (with_reducible show 8 ≤ _; decide)

theorem steady_atThreshold {μ δ : Bool} {s₀ : State} (s : State) (d : Nat) (h_s : Steady μ δ s₀ s) :
    Steady μ δ s₀ (s.atThreshold d) := by
  delta State.atThreshold
  try lift_lets
  repeat' first
    | with_reducible assumption
    | with_reducible apply steady_retire
    | with_reducible apply steady_advise
    | with_reducible apply steady_note
    | with_reducible apply Steady.ite

theorem steady_countSymbols {μ δ : Bool} {s₀ : State} (s : State) (o : SymObs) (owner : Nat) (h_s : Steady μ δ s₀ s) :
    Steady μ δ s₀ (s.countSymbols o owner) := by
  delta State.countSymbols
  try lift_lets
  repeat' first
    | with_reducible assumption
    | (intro x; have hx : Steady μ δ s₀ x := ?_; (on_goal 1 => clear_value x); on_goal 2 => (subst x; try lift_lets))
    | (intro x; (fail_if_success have : State := x); clear_value x)
    | with_reducible apply steady_atThreshold
    | with_reducible apply steady_count
    | with_reducible apply steady_wr
    | with_reducible apply Steady.ite
    | (with_reducible show 8 ≤ _; decide)

theorem steady_logUnit {μ δ : Bool} {s₀ : State} (s : State) (kind : Nat) (flags : BitVec 8) (u : UnitDesc)
    (data : List Byte) (h_s : Steady μ δ s₀ s) :
    Steady μ δ s₀ (s.logUnit kind flags u data) := by
  delta State.logUnit
  try lift_lets
  repeat' first
    | with_reducible assumption
    | with_reducible apply steady_logEvent

theorem steady_fenceUnit {δ : Bool} {s₀ : State} (s : State) (u : UnitDesc) (host : Bool) (h_s : Steady true δ s₀ s) :
    Steady true δ s₀ (s.fenceUnit u host) := by
  delta State.fenceUnit
  try lift_lets
  repeat' first
    | with_reducible assumption
    | (intro x; have hx : Steady true δ s₀ x := ?_; (on_goal 1 => clear_value x); on_goal 2 => (subst x; try lift_lets))
    | (intro x; (fail_if_success have : State := x); clear_value x)
    | with_reducible apply steady_logUnit
    | with_reducible apply steady_retire
    | with_reducible apply steady_fenceLane
    | with_reducible apply steady_fenceTile
    | with_reducible apply steady_fenceCapture
    | with_reducible apply steady_fenceCluster
    | with_reducible apply steady_fenceThread
    | with_reducible apply steady_fenceAdc
    | with_reducible apply steady_fenceSlice
    | with_reducible apply steady_fenceLine
    | with_reducible apply steady_fenceSpare
    | with_reducible apply steady_fenceDrive
    | with_reducible apply steady_advise
    | with_reducible apply steady_doomAll
    | with_reducible apply steady_dropCal
    | with_reducible apply steady_failCal
    | with_reducible apply steady_wr
    | with_reducible apply Steady.ite
    | (with_reducible show 8 ≤ _; decide)
    | (split <;> try lift_lets)

/-! ## Ops -/

theorem steady_setMode {μ : Bool} {s₀ : State} (s : State) (m cause : Nat) (h_s : Steady μ true s₀ s) (hm : m ≤ 5) :
    Steady μ true s₀ (s.setMode m cause) := by
  have h1 : Steady μ true s₀ (s.wr F.SPN_MODE_SAFE_CAUSE [] cause) := steady_wr_mode s _ _ h_s rfl rfl (.inr (by decide))
  unfold State.setMode
  dsimp only
  apply steady_logEvent
  split
  · exact h1
  · exact steady_wr _ _ _ _ (steady_wr_mode _ _ _ h1 rfl rfl (.inl ⟨rfl, rfl, hm, rfl⟩)) (by decide)

theorem steady_abandonCal {μ δ : Bool} {s₀ : State} (s : State) (h_s : Steady μ δ s₀ s) :
    Steady μ δ s₀ (s.abandonCal) := by
  delta State.abandonCal
  try lift_lets
  repeat' first
    | with_reducible assumption
    | (intro x; have hx : Steady μ δ s₀ x := ?_; (on_goal 1 => clear_value x); on_goal 2 => (subst x; try lift_lets))
    | (intro x; (fail_if_success have : State := x); clear_value x)
    | with_reducible apply steady_respond
    | with_reducible apply steady_wr
    | with_reducible apply Steady.foldl
    | with_reducible exact Steady.mk_ (by assumption)
    | (with_reducible show 8 ≤ _; decide)
    | (intro x a hx; try lift_lets)
    | (split <;> try lift_lets)

theorem steady_safeOutputs {μ δ : Bool} {s₀ : State} (s : State) (h_s : Steady μ δ s₀ s) :
    Steady μ δ s₀ (s.safeOutputs) := by
  delta State.safeOutputs
  try lift_lets
  repeat' first
    | (intro x; (fail_if_success have : State := x); clear_value x)
    | with_reducible exact Steady.mk_ (by assumption)

theorem steady_enterSafe {s₀ : State} (s : State) (cause : Nat) (h_s : Steady true true s₀ s) :
    Steady true true s₀ (s.enterSafe cause) := by
  unfold State.enterSafe
  split
  · exact h_s
  split
  · have h1 : Steady true true s₀ (if cause = 4 then s else s.setMode mSafe cause) :=
      Steady.ite h_s (steady_setMode _ _ _ h_s (by decide))
    revert h1
    generalize (if cause = 4 then s else s.setMode mSafe cause) = u
    intro h1
    dsimp only
    split
    · exact h1
    · exact Steady.foldl (fun x a hx => steady_fail _ _ _ hx) (steady_wr_mode _ _ _ (Steady.mk_ h1) rfl rfl (.inr (by decide)))
  · have h1 : Steady true true s₀ ((s.setMode mSafe cause).wr F.SPN_MODE_CHANGING [] 0) :=
      steady_wr_mode _ _ _ (steady_setMode _ _ _ h_s (by decide)) rfl rfl (.inr (by decide))
    revert h1
    generalize ((s.setMode mSafe cause).wr F.SPN_MODE_CHANGING [] 0) = u
    intro h1
    dsimp only
    refine steady_syncParts _ (steady_abandonCal _ (steady_safeOutputs _ ?_))
    refine Steady.foldl (fun x a hx => steady_setBar _ _ _ hx) (Steady.foldl (fun x a hx => steady_capSafe _ _ hx) ?_)
    refine Steady.foldl (fun x a hx => steady_endThread _ _ _ _ hx) (Steady.foldl (fun x a hx => steady_endJob _ _ _ _ hx) ?_)
    exact Steady.mk_ h1

theorem steady_evalMode {μ : Bool} {s₀ : State} (s : State) (h_s : Steady μ true s₀ s) :
    Steady μ true s₀ (s.evalMode) := by
  have key : ∀ want, want ≤ 5 → Steady μ true s₀ (if s.mode = want then s else s.setMode want (s.rd F.SPN_MODE_SAFE_CAUSE [])) :=
    fun want h => Steady.ite h_s (steady_setMode _ _ _ h_s h)
  unfold State.evalMode
  refine Steady.ite h_s (key _ ?_)
  split
  · decide
  split
  · decide
  split <;> decide

theorem steady_viralOf {μ δ : Bool} {s₀ : State} (s : State) (b : FltBlk) (bit : Nat) (h_s : Steady μ δ s₀ s) :
    Steady μ δ s₀ (s.viralOf b bit) := by
  delta State.viralOf
  try lift_lets
  repeat' first
    | with_reducible assumption
    | with_reducible apply steady_emit
    | with_reducible apply steady_wr
    | with_reducible apply Steady.ite
    | (with_reducible show 8 ≤ _; decide)

theorem steady_react {s₀ : State} (s : State) (b : FltBlk) (f : FaultRec) (h_s : Steady true true s₀ s) :
    Steady true true s₀ (s.react b f) := by
  delta State.react
  try lift_lets
  repeat' first
    | with_reducible assumption
    | (intro x; (fail_if_success have : State := x); clear_value x)
    | with_reducible apply steady_viralOf
    | with_reducible apply steady_enterSafe
    | with_reducible apply steady_fenceUnit
    | with_reducible apply steady_viralOf
    | with_reducible apply steady_enterSafe
    | with_reducible apply Steady.ite
    | (split <;> try lift_lets)

theorem steady_faultCycle {s₀ : State} (s : State) (b : FltBlk) (fs : List (FaultRec × Bool))
    (h_s : Steady true true s₀ s) :
    Steady true true s₀ (s.faultCycle b fs) := by
  delta State.faultCycle
  try lift_lets
  repeat' first
    | with_reducible assumption
    | (intro x; have hx : Steady true true s₀ x := ?_; (on_goal 1 => clear_value x); on_goal 2 => (subst x; try lift_lets))
    | (intro x; (fail_if_success have : State := x); clear_value x)
    | with_reducible apply steady_react
    | with_reducible apply steady_record
    | with_reducible apply Steady.foldl
    | (intro x a hx; try lift_lets)

theorem steady_fault {s₀ : State} (s : State) (b : FltBlk) (bit unit : Nat) (h_s : Steady true true s₀ s) :
    Steady true true s₀ (s.fault b bit unit) := by
  delta State.fault
  try lift_lets
  repeat' first
    | with_reducible assumption
    | with_reducible apply steady_faultCycle
    | with_reducible apply Steady.ite

/-! ## Operands -/

theorem steady_setSlotUser {μ δ : Bool} {s₀ : State} (s : State) (slot : Nat) (u : SlotUser) (h_s : Steady μ δ s₀ s) :
    Steady μ δ s₀ (s.setSlotUser slot u) := by
  delta State.setSlotUser
  try lift_lets
  repeat' first
    | (intro x; (fail_if_success have : State := x); clear_value x)
    | with_reducible exact Steady.mk_ (by assumption)

theorem steady_stage {μ δ : Bool} {s₀ : State} (s : State) (a : StagedAct) (rwh : Bool) (h_s : Steady μ δ s₀ s) :
    Steady μ δ s₀ (s.stage a rwh) := by
  delta State.stage
  try lift_lets
  repeat' first
    | with_reducible exact Steady.mk_ (by assumption)

theorem steady_expireCouple {μ δ : Bool} {s₀ : State} (s : State) (addr : Nat) (h_s : Steady μ δ s₀ s) :
    Steady μ δ s₀ (s.expireCouple addr) := by
  delta State.expireCouple
  try lift_lets
  repeat' first
    | with_reducible assumption
    | (intro x; have hx : Steady μ δ s₀ x := ?_; (on_goal 1 => clear_value x); on_goal 2 => (subst x; try lift_lets))
    | with_reducible apply steady_note
    | with_reducible apply steady_refuse
    | with_reducible apply Steady.ite
    | with_reducible exact Steady.mk_ (by assumption)
    | (split <;> try lift_lets)

theorem steady_stageCouple {μ δ : Bool} {s₀ : State} (s : State) (first : Nat) (second : Bool) (v : Word)
    (h_s : Steady μ δ s₀ s) :
    Steady μ δ s₀ (s.stageCouple first second v) := by
  delta State.stageCouple
  try lift_lets
  repeat' first
    | with_reducible assumption
    | (intro x; have hx : Steady μ δ s₀ x := ?_; (on_goal 1 => clear_value x); on_goal 2 => (subst x; try lift_lets))
    | with_reducible apply steady_expireCouple
    | with_reducible apply steady_stage
    | with_reducible apply Steady.ite
    | with_reducible exact Steady.mk_ (by assumption)
    | (split <;> try lift_lets)

theorem steady_enterWrite {μ δ : Bool} {s₀ : State} (s : State) (r : Reg) (ix : List Nat) (w : Nat) (v : Word)
    (h_s : Steady μ δ s₀ s) (h_r : r.Kept) :
    Steady μ δ s₀ (s.enterWrite r ix w v) := by
  have h1 := steady_setMasked s r ix w v
    (BitVec.ofNat 32 (r.maskBy w (fun a => decide (a = .rw) || decide (a = .rl))) &&& ~~~opMask r w) h_s
    ((r.kept_maskBy h_r w (fun a => decide (a = .rw) || decide (a = .rl)) rfl).imp (fun x => x) fun e => by rw [e]; simp)
  have h2 := steady_setMasked _ r ix w 0 (v &&& BitVec.ofNat 32 (r.maskBy w (fun a => decide (a = .rw1c)))) h1
    (r.kept_and h_r w _ _ rfl)
  unfold State.enterWrite
  dsimp only
  revert h2
  generalize State.setMasked _ r ix w 0 _ = u
  intro h2
  have h3 : ∀ (m : Word) (b : Bool) x, Steady μ δ s₀ x → Steady μ δ s₀ (if m = 0 then x else x.stage (.word (r.addr ix w) v m) b) :=
    fun m b x hx => Steady.ite hx (steady_stage _ _ _ hx)
  split
  · exact steady_stageCouple _ _ _ _ (h3 _ _ _ (h3 _ _ _ h2))
  · exact h3 _ _ _ (h3 _ _ _ h2)

/-! ## Corrections -/

theorem steady_setCalValid {μ δ : Bool} {s₀ : State} (s : State) (u : UnitDesc) (b : Bool) (h_s : Steady μ δ s₀ s) :
    Steady μ δ s₀ (s.setCalValid u b) := by
  delta State.setCalValid
  try lift_lets
  repeat' first
    | with_reducible assumption
    | (intro x; (fail_if_success have : State := x); clear_value x)
    | with_reducible apply steady_wrB
    | (with_reducible show 8 ≤ _; decide)
    | (split <;> try lift_lets)

theorem steady_putCorr {μ δ : Bool} {s₀ : State} (s : State) (u : UnitDesc) (c : CalObs) (h_s : Steady μ δ s₀ s) :
    Steady μ δ s₀ (s.putCorr u c) := by
  delta State.putCorr
  try lift_lets
  repeat' first
    | with_reducible assumption
    | (intro x; have hx : Steady μ δ s₀ x := ?_; (on_goal 1 => clear_value x); on_goal 2 => (subst x; try lift_lets))
    | (intro x; (fail_if_success have : State := x); clear_value x)
    | with_reducible apply steady_wrI
    | with_reducible apply steady_wr
    | with_reducible exact Steady.mk_ (by assumption)
    | (with_reducible show 8 ≤ _; decide)
    | (split <;> try lift_lets)

theorem steady_syncStale {μ δ : Bool} {s₀ : State} (s : State) (h_s : Steady μ δ s₀ s) :
    Steady μ δ s₀ (s.syncStale) := by
  delta State.syncStale
  try lift_lets
  repeat' first
    | with_reducible assumption
    | with_reducible apply steady_wr
    | (with_reducible show 8 ≤ _; decide)

theorem steady_completeCal {s₀ : State} (s : State) (u : UnitDesc) (c : CalObs) (h_s : Steady true true s₀ s) :
    Steady true true s₀ (s.completeCal u c) := by
  delta State.completeCal
  try lift_lets
  repeat' first
    | with_reducible assumption
    | (intro x; have hx : Steady true true s₀ x := ?_; (on_goal 1 => clear_value x); on_goal 2 => (subst x; try lift_lets))
    | (intro x; (fail_if_success have : State := x); clear_value x)
    | with_reducible apply steady_syncStale
    | with_reducible apply steady_putCorr
    | with_reducible apply steady_setCalValid
    | with_reducible apply steady_fault
    | with_reducible apply steady_noteCal
    | with_reducible apply steady_setCalU
    | with_reducible apply steady_wr
    | with_reducible apply Steady.ite
    | (with_reducible show 8 ≤ _; decide)

theorem steady_bring {s₀ : State} (s : State) (u : UnitDesc) (c : CalObs) (h_s : Steady true true s₀ s) :
    Steady true true s₀ (s.bring u c) := by
  delta State.bring
  try lift_lets
  repeat' first
    | with_reducible assumption
    | (intro x; (fail_if_success have : State := x); clear_value x)
    | with_reducible apply steady_completeCal
    | with_reducible apply Steady.ite
    | with_reducible exact Steady.mk_ (by assumption)

theorem steady_startCal {μ δ : Bool} {s₀ : State} (s : State) (u : UnitDesc) (w : CalWork) (h_s : Steady μ δ s₀ s) :
    Steady μ δ s₀ (s.startCal u w) := by
  delta State.startCal
  try lift_lets
  repeat' first
    | with_reducible assumption
    | with_reducible apply steady_updCalU

theorem steady_makeDue {μ δ : Bool} {s₀ : State} (s : State) (u : UnitDesc) (h_s : Steady μ δ s₀ s) :
    Steady μ δ s₀ (s.makeDue u) := by
  delta State.makeDue
  try lift_lets
  repeat' first
    | with_reducible assumption
    | with_reducible apply steady_updCalU

end Sys2Proof.Machine
end

