-- ==== Sys2Proof/Laws/SteadyAnalog.lean ====
section
/-! SUPPORT. What every operation keeps (`Steady`): outputs, sense front end and streams. -/

namespace Sys2Proof.Machine

/-! ## Drive -/

theorem steady_setEn {μ δ : Bool} {s₀ : State} (s : State) (k : OutKind) (t c : Nat) (e : EnRun)
    (h_s : Steady μ δ s₀ s) :
    Steady μ δ s₀ (s.setEn k t c e) := by
  delta State.setEn
  try lift_lets
  repeat' first
    | (intro x; (fail_if_success have : State := x); clear_value x)
    | with_reducible exact Steady.mk_ (by assumption)

theorem steady_startOn {μ δ : Bool} {s₀ : State} (s : State) (k : OutKind) (t c : Nat) (h_s : Steady μ δ s₀ s) :
    Steady μ δ s₀ (s.startOn k t c) := by
  delta State.startOn
  try lift_lets
  repeat' first
    | with_reducible assumption
    | (intro x; have hx : Steady μ δ s₀ x := ?_; (on_goal 1 => clear_value x); on_goal 2 => (subst x; try lift_lets))
    | (with_reducible show 8 ≤ _; cases k <;> decide)
    | (intro x; (fail_if_success have : State := x); clear_value x)
    | with_reducible apply steady_setEn
    | with_reducible apply steady_note
    | with_reducible apply steady_wr
    | with_reducible apply Steady.ite

theorem steady_enableOn {μ δ : Bool} {s₀ : State} (s : State) (k : OutKind) (t c : Nat) (h_s : Steady μ δ s₀ s) :
    Steady μ δ s₀ (s.enableOn k t c) := by
  delta State.enableOn
  try lift_lets
  repeat' first
    | with_reducible assumption
    | (intro x; have hx : Steady μ δ s₀ x := ?_; (on_goal 1 => clear_value x); on_goal 2 => (subst x; try lift_lets))
    | (with_reducible show 8 ≤ _; cases k <;> decide)
    | (intro x; (fail_if_success have : State := x); clear_value x)
    | with_reducible apply steady_setEn
    | with_reducible apply steady_wr
    | with_reducible apply Steady.ite
    | with_reducible exact Steady.mk_ (by assumption)
    | (split <;> try lift_lets)

theorem steady_enableOff {μ δ : Bool} {s₀ : State} (s : State) (k : OutKind) (t c : Nat) (h_s : Steady μ δ s₀ s) :
    Steady μ δ s₀ (s.enableOff k t c) := by
  delta State.enableOff
  try lift_lets
  repeat' first
    | with_reducible assumption
    | (intro x; have hx : Steady μ δ s₀ x := ?_; (on_goal 1 => clear_value x); on_goal 2 => (subst x; try lift_lets))
    | (with_reducible show 8 ≤ _; cases k <;> decide)
    | with_reducible apply steady_setEn
    | with_reducible apply steady_wr
    | (with_reducible show 8 ≤ _; decide)
    | (split <;> try lift_lets)

theorem steady_enableDone {μ δ : Bool} {s₀ : State} (s : State) (k : OutKind) (t c : Nat) (h_s : Steady μ δ s₀ s) :
    Steady μ δ s₀ (s.enableDone k t c) := by
  delta State.enableDone
  try lift_lets
  repeat' first
    | with_reducible assumption
    | (intro x; have hx : Steady μ δ s₀ x := ?_; (on_goal 1 => clear_value x); on_goal 2 => (subst x; try lift_lets))
    | (with_reducible show 8 ≤ _; cases k <;> decide)
    | (intro x; (fail_if_success have : State := x); clear_value x)
    | with_reducible apply steady_enableOff
    | with_reducible apply steady_setEn
    | with_reducible apply steady_wr
    | with_reducible apply Steady.ite
    | (with_reducible show 8 ≤ _; decide)
    | (split <;> try lift_lets)

theorem steady_enableWrite {μ δ : Bool} {s₀ : State} (s : State) (k : OutKind) (t c : Nat) (h_s : Steady μ δ s₀ s) :
    Steady μ δ s₀ (s.enableWrite k t c) := by
  delta State.enableWrite
  try lift_lets
  repeat' first
    | with_reducible assumption
    | with_reducible apply steady_enableOn
    | with_reducible apply steady_refuse
    | with_reducible apply Steady.ite

theorem steady_execDrvEnable {μ δ : Bool} {s₀ : State} (probe : Bool) (tile chan : Nat) (s : State)
    (h_s : Steady μ δ s₀ s) :
    SteadyO μ δ s₀ (execDrvEnable probe tile chan s) := by
  delta execDrvEnable
  try lift_lets
  repeat' first
    | with_reducible assumption
    | with_reducible apply steady_enableWrite
    | with_reducible apply steady_refuse
    | with_reducible apply SteadyO.ite
    | with_reducible apply SteadyO.next

theorem steady_execFlxEnable {μ δ : Bool} {s₀ : State} (tile chan : Nat) (s : State) (h_s : Steady μ δ s₀ s) :
    SteadyO μ δ s₀ (execFlxEnable tile chan s) := by
  delta execFlxEnable
  try lift_lets
  repeat' first
    | with_reducible assumption
    | with_reducible apply steady_enableWrite
    | with_reducible apply SteadyO.next

theorem steady_execBiaEnable {μ δ : Bool} {s₀ : State} (tile chan : Nat) (s : State) (h_s : Steady μ δ s₀ s) :
    SteadyO μ δ s₀ (execBiaEnable tile chan s) := by
  delta execBiaEnable
  try lift_lets
  repeat' first
    | with_reducible assumption
    | with_reducible apply steady_enableWrite
    | with_reducible apply SteadyO.next

theorem steady_execEnableCheckDone {μ δ : Bool} {s₀ : State} (kind : OutKind) (tile chan : Nat) (s : State)
    (h_s : Steady μ δ s₀ s) :
    SteadyO μ δ s₀ (execEnableCheckDone kind tile chan s) := by
  delta execEnableCheckDone
  try lift_lets
  repeat' first
    | with_reducible assumption
    | with_reducible apply steady_enableDone
    | with_reducible apply SteadyO.ite
    | with_reducible apply SteadyO.next

theorem steady_execSpareTakeoverDone {μ δ : Bool} {s₀ : State} (tile group : Nat) (s : State) (h_s : Steady μ δ s₀ s) :
    SteadyO μ δ s₀ (execSpareTakeoverDone tile group s) := by
  delta execSpareTakeoverDone
  try lift_lets
  repeat' first
    | with_reducible assumption
    | with_reducible apply steady_setSpare
    | with_reducible apply SteadyO.next
    | (split <;> try lift_lets)

theorem steady_evicted {μ δ : Bool} {s₀ : State} (s : State) (t g b : Nat) (h_s : Steady μ δ s₀ s) :
    Steady μ δ s₀ (s.evicted t g b) := by
  delta State.evicted
  try lift_lets
  repeat' first
    | with_reducible assumption
    | with_reducible apply steady_spareIdle
    | with_reducible apply steady_setSpare
    | with_reducible apply Steady.ite

theorem steady_execSpareHandback {s₀ : State} (tile group : Nat) (s : State) (h_s : Steady true true s₀ s) :
    SteadyO true true s₀ (execSpareHandback tile group s) := by
  delta execSpareHandback
  try lift_lets
  repeat' first
    | with_reducible assumption
    | with_reducible apply steady_evicted
    | with_reducible apply steady_bring
    | with_reducible apply steady_spareIdle
    | with_reducible apply steady_dropCal
    | with_reducible apply SteadyO.ite
    | with_reducible apply SteadyO.next
    | (split <;> try lift_lets)

theorem steady_execHandbackForced {μ δ : Bool} {s₀ : State} (tile group : Nat) (s : State) (h_s : Steady μ δ s₀ s) :
    SteadyO μ δ s₀ (execHandbackForced tile group s) := by
  delta execHandbackForced
  try lift_lets
  repeat' first
    | with_reducible assumption
    | with_reducible apply steady_evicted
    | with_reducible apply steady_wr
    | with_reducible apply SteadyO.ite
    | with_reducible apply SteadyO.next
    | (with_reducible show 8 ≤ _; decide)
    | (split <;> try lift_lets)

theorem steady_execCalTakeover {μ δ : Bool} {s₀ : State} (tile group : Nat) (s : State) (h_s : Steady μ δ s₀ s) :
    SteadyO μ δ s₀ (execCalTakeover tile group s) := by
  delta execCalTakeover
  try lift_lets
  repeat' first
    | with_reducible assumption
    | with_reducible apply steady_startCal
    | with_reducible apply steady_setSpare
    | with_reducible apply SteadyO.ite
    | with_reducible apply SteadyO.next
    | (split <;> try lift_lets)

theorem steady_execCalOfflineDone {s₀ : State} (tile group : Nat) (chan spare : CalObs) (s : State)
    (h_s : Steady true true s₀ s) :
    SteadyO true true s₀ (execCalOfflineDone tile group chan spare s) := by
  unfold execCalOfflineDone
  split
  · dsimp only
    split
    · exact steady_setSpare _ _ _ _ (Steady.mk_ (steady_updCalU _ _ _ h_s))
    · exact steady_setSpare _ _ _ _ (steady_noteCal _ _ _ _ (steady_fault _ _ _ _ h_s))
  · exact h_s

theorem steady_execSpareFaultHandbackDone {μ δ : Bool} {s₀ : State} (tile group : Nat) (s : State)
    (h_s : Steady μ δ s₀ s) :
    SteadyO μ δ s₀ (execSpareFaultHandbackDone tile group s) := by
  delta execSpareFaultHandbackDone
  try lift_lets
  repeat' first
    | with_reducible assumption
    | with_reducible apply steady_setSpare
    | with_reducible apply SteadyO.next
    | (split <;> try lift_lets)

/-! ## FluxBias -/

theorem steady_setBias {μ δ : Bool} {s₀ : State} (s : State) (t c : Nat) (b : BiasRun) (h_s : Steady μ δ s₀ s) :
    Steady μ δ s₀ (s.setBias t c b) := by
  delta State.setBias
  try lift_lets
  repeat' first
    | (intro x; (fail_if_success have : State := x); clear_value x)
    | with_reducible exact Steady.mk_ (by assumption)

theorem steady_setFlux {μ δ : Bool} {s₀ : State} (s : State) (t c : Nat) (f : FluxRun) (h_s : Steady μ δ s₀ s) :
    Steady μ δ s₀ (s.setFlux t c f) := by
  delta State.setFlux
  try lift_lets
  repeat' first
    | (intro x; (fail_if_success have : State := x); clear_value x)
    | with_reducible exact Steady.mk_ (by assumption)

theorem steady_placeCode {μ δ : Bool} {s₀ : State} (s : State) (t c : Nat) (code : BiasCode) (h_s : Steady μ δ s₀ s) :
    Steady μ δ s₀ (s.placeCode t c code) := by
  delta State.placeCode
  try lift_lets
  repeat' first
    | with_reducible assumption
    | (intro x; have hx : Steady μ δ s₀ x := ?_; (on_goal 1 => clear_value x); on_goal 2 => (subst x; try lift_lets))
    | (intro x; (fail_if_success have : State := x); clear_value x)
    | with_reducible apply steady_setBias
    | with_reducible apply steady_commitOn
    | with_reducible apply Steady.ite
    | (split <;> try lift_lets)

theorem steady_latchCode {μ δ : Bool} {s₀ : State} (s : State) (t c sample : Nat) (code : BitVec 20)
    (h_s : Steady μ δ s₀ s) :
    Steady μ δ s₀ (s.latchCode t c sample code) := by
  delta State.latchCode
  try lift_lets
  repeat' first
    | with_reducible assumption
    | (intro x; have hx : Steady μ δ s₀ x := ?_; (on_goal 1 => clear_value x); on_goal 2 => (subst x; try lift_lets))
    | (intro x; (fail_if_success have : State := x); clear_value x)
    | with_reducible apply steady_setBias
    | with_reducible apply steady_setEn
    | with_reducible apply steady_wr
    | with_reducible apply Steady.ite
    | (with_reducible show 8 ≤ _; decide)

theorem steady_execBiasLatch {μ δ : Bool} {s₀ : State} (tile chan : Nat) (s : State) (h_s : Steady μ δ s₀ s) :
    SteadyO μ δ s₀ (execBiasLatch tile chan s) := by
  delta execBiasLatch
  try lift_lets
  repeat' first
    | with_reducible assumption
    | (intro x; have hx : Steady μ δ s₀ x := ?_; (on_goal 1 => clear_value x); on_goal 2 => (subst x; try lift_lets))
    | (intro x; (fail_if_success have : State := x); clear_value x)
    | with_reducible apply steady_latchCode
    | with_reducible apply steady_setBias
    | with_reducible apply steady_note
    | with_reducible apply steady_wr
    | with_reducible apply Steady.ite
    | with_reducible apply SteadyO.ite
    | with_reducible apply SteadyO.next
    | (with_reducible show 8 ≤ _; decide)
    | (split <;> try lift_lets)

theorem steady_writeSpan {μ δ : Bool} {s₀ : State} (s : State) (k : OutKind) (t c span : Nat) (after : BitVec 20)
    (h_s : Steady μ δ s₀ s) :
    Steady μ δ s₀ (s.writeSpan k t c span after) := by
  delta State.writeSpan
  try lift_lets
  repeat' first
    | with_reducible assumption
    | (intro x; have hx : Steady μ δ s₀ x := ?_; (on_goal 1 => clear_value x); on_goal 2 => (subst x; try lift_lets))
    | (intro x; (fail_if_success have : State := x); clear_value x)
    | with_reducible apply steady_stage
    | with_reducible apply steady_refuse
    | with_reducible apply steady_wr
    | with_reducible apply Steady.ite
    | (with_reducible show 8 ≤ _; decide)
    | (split <;> try lift_lets)

theorem steady_execSpanChange {μ δ : Bool} {s₀ : State} (kind : OutKind) (tile chan span : Nat)
    (codeAfter : BitVec 20) (s : State) (h_s : Steady μ δ s₀ s) :
    SteadyO μ δ s₀ (execSpanChange kind tile chan span codeAfter s) := by
  delta execSpanChange
  try lift_lets
  repeat' first
    | with_reducible assumption
    | with_reducible apply steady_writeSpan
    | with_reducible apply SteadyO.ite
    | with_reducible apply SteadyO.next
    | (split <;> try lift_lets)

theorem steady_applySpan {μ δ : Bool} {s₀ : State} (s : State) (k : OutKind) (t c span : Nat) (after : BitVec 20)
    (h_s : Steady μ δ s₀ s) :
    Steady μ δ s₀ (s.applySpan k t c span after) := by
  delta State.applySpan
  try lift_lets
  repeat' first
    | with_reducible assumption
    | (intro x; (fail_if_success have : State := x); clear_value x)
    | with_reducible apply steady_setFlux
    | with_reducible apply steady_setBias
    | (split <;> try lift_lets)

theorem steady_spanTicks {μ δ : Bool} {s₀ : State} (s : State) (h_s : Steady μ δ s₀ s) :
    Steady μ δ s₀ (s.spanTicks) := by
  delta State.spanTicks
  try lift_lets
  repeat' first
    | (intro x; (fail_if_success have : State := x); clear_value x)
    | with_reducible exact Steady.mk_ (by assumption)

theorem steady_execSpanChangeEnd {μ δ : Bool} {s₀ : State} (kind : OutKind) (tile chan : Nat) (s : State)
    (h_s : Steady μ δ s₀ s) :
    SteadyO μ δ s₀ (execSpanChangeEnd kind tile chan s) := by
  delta execSpanChangeEnd
  try lift_lets
  repeat' first
    | with_reducible assumption
    | (intro x; (fail_if_success have : State := x); clear_value x)
    | with_reducible apply steady_setFlux
    | with_reducible apply steady_setBias
    | with_reducible apply SteadyO.ite
    | with_reducible apply SteadyO.next
    | (split <;> try lift_lets)

/-! ## SenseFE -/

theorem steady_setSensePair {μ δ : Bool} {s₀ : State} (s : State) (t p : Nat) (v : SensePair) (h_s : Steady μ δ s₀ s) :
    Steady μ δ s₀ (s.setSensePair t p v) := by
  delta State.setSensePair
  try lift_lets
  repeat' first
    | (intro x; (fail_if_success have : State := x); clear_value x)
    | with_reducible exact Steady.mk_ (by assumption)

theorem steady_rotate {μ δ : Bool} {s₀ : State} (s : State) (t phase : Nat) (h_s : Steady μ δ s₀ s) :
    Steady μ δ s₀ (s.rotate t phase) := by
  delta State.rotate
  try lift_lets
  repeat' first
    | with_reducible assumption
    | (intro x; have hx : Steady μ δ s₀ x := ?_; (on_goal 1 => clear_value x); on_goal 2 => (subst x; try lift_lets))
    | with_reducible apply steady_setAdc
    | with_reducible apply Steady.ite
    | with_reducible apply Steady.foldl
    | (intro x a hx; try lift_lets)

theorem steady_beginScan {μ δ : Bool} {s₀ : State} (s : State) (t start seq : Nat) (h_s : Steady μ δ s₀ s) :
    Steady μ δ s₀ (s.beginScan t start seq) := by
  delta State.beginScan
  try lift_lets
  repeat' first
    | with_reducible assumption
    | (intro x; have hx : Steady μ δ s₀ x := ?_; (on_goal 1 => clear_value x); on_goal 2 => (subst x; try lift_lets))
    | (intro x; (fail_if_success have : State := x); clear_value x)
    | with_reducible apply steady_setSenseList
    | with_reducible apply steady_wr
    | with_reducible apply Steady.foldl
    | with_reducible exact Steady.mk_ (by assumption)
    | (with_reducible show 8 ≤ _; decide)
    | (intro x a hx; try lift_lets)

theorem steady_applyScanEn {μ δ : Bool} {s₀ : State} (s : State) (t : Nat) (on : Bool) (h_s : Steady μ δ s₀ s) :
    Steady μ δ s₀ (s.applyScanEn t on) := by
  delta State.applyScanEn
  try lift_lets
  repeat' first
    | with_reducible assumption
    | (intro x; have hx : Steady μ δ s₀ x := ?_; (on_goal 1 => clear_value x); on_goal 2 => (subst x; try lift_lets))
    | (intro x; (fail_if_success have : State := x); clear_value x)
    | with_reducible apply steady_beginScan
    | with_reducible apply steady_rotate
    | with_reducible apply steady_setSenseTile
    | with_reducible apply steady_wrB
    | with_reducible apply Steady.ite
    | (with_reducible show 8 ≤ _; decide)

theorem steady_execScanEnable {μ δ : Bool} {s₀ : State} (tile : Nat) (on : Bool) (s : State) (h_s : Steady μ δ s₀ s) :
    SteadyO μ δ s₀ (execScanEnable tile on s) := by
  delta execScanEnable
  try lift_lets
  repeat' first
    | with_reducible assumption
    | with_reducible apply steady_stage
    | with_reducible apply SteadyO.ite
    | with_reducible apply SteadyO.next

theorem steady_countScan {μ δ : Bool} {s₀ : State} (s : State) (t : Nat) (h_s : Steady μ δ s₀ s) :
    Steady μ δ s₀ (s.countScan t) := by
  delta State.countScan
  try lift_lets
  repeat' first
    | with_reducible assumption
    | (intro x; have hx : Steady μ δ s₀ x := ?_; (on_goal 1 => clear_value x); on_goal 2 => (subst x; try lift_lets))
    | (intro x; (fail_if_success have : State := x); clear_value x)
    | with_reducible apply steady_endJob
    | with_reducible apply steady_stopScan
    | with_reducible apply steady_setJob
    | with_reducible apply Steady.ite
    | with_reducible apply Steady.foldl
    | (intro x a hx; try lift_lets)

theorem steady_endScan {μ δ : Bool} {s₀ : State} (s : State) (t : Nat) (h_s : Steady μ δ s₀ s) :
    Steady μ δ s₀ (s.endScan t) := by
  delta State.endScan
  try lift_lets
  repeat' first
    | with_reducible assumption
    | (intro x; have hx : Steady μ δ s₀ x := ?_; (on_goal 1 => clear_value x); on_goal 2 => (subst x; try lift_lets))
    | (intro x; (fail_if_success have : State := x); clear_value x)
    | with_reducible apply steady_countScan
    | with_reducible apply steady_beginScan
    | with_reducible apply steady_setSenseTile
    | with_reducible apply steady_count
    | with_reducible apply steady_wr
    | with_reducible apply Steady.ite
    | (with_reducible show 8 ≤ _; decide)

theorem steady_pairSlot {μ δ : Bool} {s₀ : State} (s : State) (t k p : Nat) (h_s : Steady μ δ s₀ s) :
    Steady μ δ s₀ (s.pairSlot t k p) := by
  delta State.pairSlot
  try lift_lets
  repeat' first
    | with_reducible assumption
    | (intro x; have hx : Steady μ δ s₀ x := ?_; (on_goal 1 => clear_value x); on_goal 2 => (subst x; try lift_lets))
    | (intro x; (fail_if_success have : State := x); clear_value x)
    | with_reducible apply steady_setSensePair
    | with_reducible apply steady_setSenseList
    | with_reducible apply steady_wr
    | with_reducible apply Steady.ite
    | (with_reducible show 8 ≤ _; decide)
    | (split <;> try lift_lets)

theorem steady_beginSlot {μ δ : Bool} {s₀ : State} (s : State) (t k a : Nat) (h_s : Steady μ δ s₀ s) :
    Steady μ δ s₀ (s.beginSlot t k a) := by
  delta State.beginSlot
  try lift_lets
  repeat' first
    | with_reducible assumption
    | (intro x; have hx : Steady μ δ s₀ x := ?_; (on_goal 1 => clear_value x); on_goal 2 => (subst x; try lift_lets))
    | (intro x; (fail_if_success have : State := x); clear_value x)
    | with_reducible apply steady_pairSlot
    | with_reducible apply steady_startCal
    | with_reducible apply steady_setSenseList
    | with_reducible apply Steady.ite

theorem steady_takeLists {μ δ : Bool} {s₀ : State} (s : State) (t : Nat) (h_s : Steady μ δ s₀ s) :
    Steady μ δ s₀ (s.takeLists t) := by
  delta State.takeLists
  try lift_lets
  repeat' first
    | with_reducible assumption
    | (intro x; (fail_if_success have : State := x); clear_value x)
    | with_reducible apply steady_setAdc
    | with_reducible apply steady_setSenseTile
    | with_reducible apply Steady.ite
    | with_reducible apply Steady.foldl
    | (intro x a hx; try lift_lets)

theorem steady_execSenseSlotStart {μ δ : Bool} {s₀ : State} (tile list : Nat) (s : State) (h_s : Steady μ δ s₀ s) :
    SteadyO μ δ s₀ (execSenseSlotStart tile list s) := by
  delta execSenseSlotStart
  try lift_lets
  repeat' first
    | with_reducible assumption
    | (intro x; have hx : Steady μ δ s₀ x := ?_; (on_goal 1 => clear_value x); on_goal 2 => (subst x; try lift_lets))
    | (intro x; (fail_if_success have : State := x); clear_value x)
    | with_reducible apply steady_takeLists
    | with_reducible apply steady_beginSlot
    | with_reducible apply steady_endScan
    | with_reducible apply Steady.ite
    | with_reducible apply SteadyO.ite
    | with_reducible apply SteadyO.next
    | (split <;> try lift_lets)

theorem steady_currentCheck {μ δ : Bool} {s₀ : State} (s : State) (t p : Nat) (imon : Int) (h_s : Steady μ δ s₀ s) :
    Steady μ δ s₀ (s.currentCheck t p imon) := by
  delta State.currentCheck
  try lift_lets
  repeat' first
    | with_reducible assumption
    | (intro x; (fail_if_success have : State := x); clear_value x)
    | with_reducible apply steady_setSensePair
    | with_reducible apply steady_stage
    | with_reducible apply steady_note
    | with_reducible apply steady_wr
    | with_reducible apply Steady.ite
    | (with_reducible show 8 ≤ _; decide)
    | (split <;> try lift_lets)

theorem steady_applyShortClamp {μ δ : Bool} {s₀ : State} (s : State) (t p : Nat) (h_s : Steady μ δ s₀ s) :
    Steady μ δ s₀ (s.applyShortClamp t p) := by
  delta State.applyShortClamp
  try lift_lets
  repeat' first
    | with_reducible assumption
    | (intro x; (fail_if_success have : State := x); clear_value x)
    | with_reducible apply steady_setBias
    | with_reducible apply steady_setEn

theorem steady_rangeRule {μ δ : Bool} {s₀ : State} (s : State) (t p : Nat) (v : Int) (h_s : Steady μ δ s₀ s) :
    Steady μ δ s₀ (s.rangeRule t p v) := by
  delta State.rangeRule
  try lift_lets
  repeat' first
    | with_reducible assumption
    | (intro x; (fail_if_success have : State := x); clear_value x)
    | with_reducible apply steady_setSensePair
    | with_reducible apply Steady.ite

theorem steady_senseSticky {μ δ : Bool} {s₀ : State} (s : State) (t p : Nat) (clamp over_ : Bool)
    (h_s : Steady μ δ s₀ s) :
    Steady μ δ s₀ (s.senseSticky t p clamp over_) := by
  delta State.senseSticky
  try lift_lets
  repeat' first
    | with_reducible assumption
    | (intro x; have hx : Steady μ δ s₀ x := ?_; (on_goal 1 => clear_value x); on_goal 2 => (subst x; try lift_lets))
    | (intro x; (fail_if_success have : State := x); clear_value x)
    | with_reducible apply steady_note
    | with_reducible apply steady_wr
    | with_reducible apply Steady.ite
    | (with_reducible show 8 ≤ _; decide)

theorem steady_senseFlags {μ δ : Bool} {s₀ : State} (s : State) (t p : Nat) (c : SenseCheck) (h_s : Steady μ δ s₀ s) :
    Steady μ δ s₀ (s.senseFlags t p c) := by
  delta State.senseFlags
  try lift_lets
  repeat' first
    | with_reducible assumption
    | (intro x; have hx : Steady μ δ s₀ x := ?_; (on_goal 1 => clear_value x); on_goal 2 => (subst x; try lift_lets))
    | (intro x; (fail_if_success have : State := x); clear_value x)
    | with_reducible apply steady_senseSticky
    | with_reducible apply steady_setSensePair
    | with_reducible apply steady_note
    | with_reducible apply steady_wr
    | with_reducible apply Steady.ite
    | (with_reducible show 8 ≤ _; decide)

theorem steady_putRecord {μ δ : Bool} {s₀ : State} (s : State) (r : Reg) (ix : List Nat) (ws : List Nat)
    (h_s : Steady μ δ s₀ s) (hb_r : 8 ≤ r.base) :
    Steady μ δ s₀ (s.putRecord r ix ws) := by
  delta State.putRecord
  try lift_lets
  repeat' first
    | with_reducible assumption
    | with_reducible apply steady_setRegWord
    | with_reducible apply Steady.foldl
    | (intro x a hx; try lift_lets)

theorem steady_deliverSense {μ δ : Bool} {s₀ : State} (s : State) (t p : Nat) (ws : List Nat) (h_s : Steady μ δ s₀ s) :
    Steady μ δ s₀ (s.deliverSense t p ws) := by
  delta State.deliverSense
  try lift_lets
  repeat' first
    | with_reducible assumption
    | (intro x; have hx : Steady μ δ s₀ x := ?_; (on_goal 1 => clear_value x); on_goal 2 => (subst x; try lift_lets))
    | (intro x; (fail_if_success have : State := x); clear_value x)
    | with_reducible apply steady_putRecord
    | with_reducible apply steady_stageBytes
    | with_reducible apply Steady.foldl
    | (with_reducible show 8 ≤ _; decide)
    | (intro x a hx; try lift_lets)

theorem steady_openTest {μ δ : Bool} {s₀ : State} (s : State) (t p : Nat) (c : SenseCheck) (h_s : Steady μ δ s₀ s) :
    Steady μ δ s₀ (s.openTest t p c) := by
  delta State.openTest
  try lift_lets
  repeat' first
    | with_reducible assumption
    | (intro x; have hx : Steady μ δ s₀ x := ?_; (on_goal 1 => clear_value x); on_goal 2 => (subst x; try lift_lets))
    | (intro x; (fail_if_success have : State := x); clear_value x)
    | with_reducible apply steady_note
    | with_reducible apply steady_wr
    | with_reducible apply Steady.ite
    | (with_reducible show 8 ≤ _; decide)

theorem steady_endSlot {μ δ : Bool} {s₀ : State} (s : State) (t k a start : Nat) (o : SenseObs)
    (h_s : Steady μ δ s₀ s) :
    Steady μ δ s₀ (s.endSlot t k a start o) := by
  delta State.endSlot
  try lift_lets
  repeat' first
    | with_reducible assumption
    | with_reducible apply steady_openTest
    | with_reducible apply steady_deliverSense
    | with_reducible apply steady_putRecord
    | with_reducible apply steady_senseFlags
    | with_reducible apply steady_senseSticky
    | with_reducible apply steady_rangeRule
    | with_reducible apply steady_currentCheck
    | with_reducible apply steady_updCalU
    | with_reducible apply steady_signal
    | with_reducible apply steady_wrI
    | with_reducible apply steady_wr
    | with_reducible apply Steady.ite
    | (with_reducible show 8 ≤ _; decide)
    | (split <;> try lift_lets)
    | dsimp only

theorem steady_execSenseConversionDone {μ δ : Bool} {s₀ : State} (tile list : Nat) (obs : SenseObs) (s : State)
    (h_s : Steady μ δ s₀ s) :
    SteadyO μ δ s₀ (execSenseConversionDone tile list obs s) := by
  delta execSenseConversionDone
  try lift_lets
  repeat' first
    | with_reducible assumption
    | (intro x; have hx : Steady μ δ s₀ x := ?_; (on_goal 1 => clear_value x); on_goal 2 => (subst x; try lift_lets))
    | (intro x; (fail_if_success have : State := x); clear_value x)
    | with_reducible apply steady_endSlot
    | with_reducible apply steady_setSenseList
    | with_reducible apply SteadyO.ite
    | with_reducible apply SteadyO.next

theorem steady_raiseInj {μ δ : Bool} {s₀ : State} (s : State) (t k : Nat) (h_s : Steady μ δ s₀ s) :
    Steady μ δ s₀ (s.raiseInj t k) := by
  delta State.raiseInj
  try lift_lets
  repeat' first
    | with_reducible assumption
    | (intro x; (fail_if_success have : State := x); clear_value x)
    | with_reducible apply steady_setSenseList
    | with_reducible apply steady_count
    | with_reducible apply steady_wr
    | with_reducible apply Steady.ite
    | (with_reducible show 8 ≤ _; decide)

theorem steady_execSnsInjGo {μ δ : Bool} {s₀ : State} (tile list : Nat) (s : State) (h_s : Steady μ δ s₀ s) :
    SteadyO μ δ s₀ (execSnsInjGo tile list s) := by
  delta execSnsInjGo
  try lift_lets
  repeat' first
    | with_reducible assumption
    | with_reducible apply steady_stage
    | with_reducible apply SteadyO.ite
    | with_reducible apply SteadyO.next

theorem steady_execSnsInjTime {μ δ : Bool} {s₀ : State} (tile list : Nat) (s : State) (h_s : Steady μ δ s₀ s) :
    SteadyO μ δ s₀ (execSnsInjTime tile list s) := by
  delta execSnsInjTime
  try lift_lets
  repeat' first
    | with_reducible assumption
    | (intro x; (fail_if_success have : State := x); clear_value x)
    | with_reducible apply steady_raiseInj
    | with_reducible apply steady_setSenseList
    | with_reducible apply SteadyO.ite
    | with_reducible apply SteadyO.next

theorem steady_injEdge {μ δ : Bool} {s₀ : State} (s : State) (inp : Nat) (h_s : Steady μ δ s₀ s) :
    Steady μ δ s₀ (s.injEdge inp) := by
  delta State.injEdge
  try lift_lets
  repeat' first
    | with_reducible assumption
    | with_reducible apply steady_raiseInj
    | with_reducible apply Steady.ite
    | with_reducible apply Steady.foldl
    | (intro x a hx; try lift_lets)

theorem steady_execSenseRotate {s₀ : State} (tile : Nat) (s : State) (h_s : Steady true true s₀ s) :
    SteadyO true true s₀ (execSenseRotate tile s) := by
  delta execSenseRotate
  try lift_lets
  repeat' first
    | with_reducible assumption
    | (intro x; have hx : Steady true true s₀ x := ?_; (on_goal 1 => clear_value x); on_goal 2 => (subst x; try lift_lets))
    | (intro x; (fail_if_success have : State := x); clear_value x)
    | with_reducible apply steady_rotate
    | with_reducible apply steady_bring
    | with_reducible apply SteadyO.ite
    | with_reducible apply SteadyO.next
    | (split <;> try lift_lets)

/-! ## Streams -/

theorem steady_setStrm {μ δ : Bool} {s₀ : State} (s : State) (t k : Nat) (r : StreamRun) (h_s : Steady μ δ s₀ s) :
    Steady μ δ s₀ (s.setStrm t k r) := by
  delta State.setStrm
  try lift_lets
  repeat' first
    | (intro x; (fail_if_success have : State := x); clear_value x)
    | with_reducible exact Steady.mk_ (by assumption)

theorem steady_applySegState {μ δ : Bool} {s₀ : State} (s : State) (t g : Nat) (sealed : Bool) (h_s : Steady μ δ s₀ s) :
    Steady μ δ s₀ (s.applySegState t g sealed) := by
  delta State.applySegState
  try lift_lets
  repeat' first
    | with_reducible assumption
    | with_reducible apply steady_refuse
    | with_reducible apply steady_wr
    | with_reducible apply Steady.ite
    | (with_reducible show 8 ≤ _; decide)

theorem steady_stageSeal {μ δ : Bool} {s₀ : State} (s : State) (t g : Nat) (sealed : Bool) (h_s : Steady μ δ s₀ s) :
    Steady μ δ s₀ (s.stageSeal t g sealed) := by
  delta State.stageSeal
  try lift_lets
  repeat' first
    | with_reducible assumption
    | with_reducible apply steady_stage

theorem steady_execSegOpen {μ δ : Bool} {s₀ : State} (tile seg : Nat) (s : State) (h_s : Steady μ δ s₀ s) :
    SteadyO μ δ s₀ (execSegOpen tile seg s) := by
  delta execSegOpen
  try lift_lets
  repeat' first
    | with_reducible assumption
    | with_reducible apply steady_stageSeal
    | with_reducible apply SteadyO.ite
    | with_reducible apply SteadyO.next

theorem steady_execSegSeal {μ δ : Bool} {s₀ : State} (tile seg : Nat) (s : State) (h_s : Steady μ δ s₀ s) :
    SteadyO μ δ s₀ (execSegSeal tile seg s) := by
  delta execSegSeal
  try lift_lets
  repeat' first
    | with_reducible assumption
    | with_reducible apply steady_stageSeal
    | with_reducible apply SteadyO.ite
    | with_reducible apply SteadyO.next

theorem steady_envWrite {μ δ : Bool} {s₀ : State} (s : State) (t sample : Nat) (v : Word) (h_s : Steady μ δ s₀ s) :
    Steady μ δ s₀ (s.envWrite t sample v) := by
  delta State.envWrite
  try lift_lets
  repeat' first
    | with_reducible assumption
    | (intro x; (fail_if_success have : State := x); clear_value x)
    | with_reducible apply steady_wr
    | with_reducible apply Steady.ite
    | with_reducible exact Steady.mk_ (by assumption)
    | (with_reducible show 8 ≤ _; decide)

theorem steady_execEnvMemWrite {μ δ : Bool} {s₀ : State} (tile sample : Nat) (value : Word) (s : State)
    (h_s : Steady μ δ s₀ s) :
    SteadyO μ δ s₀ (execEnvMemWrite tile sample value s) := by
  delta execEnvMemWrite
  try lift_lets
  repeat' first
    | with_reducible assumption
    | with_reducible apply steady_envWrite
    | with_reducible apply SteadyO.ite
    | with_reducible apply SteadyO.next

theorem steady_envRead {μ δ : Bool} {s₀ : State} (s : State) (t base len : Nat) (h_s : Steady μ δ s₀ s) :
    Steady μ δ s₀ (s.envRead t base len) := by
  delta State.envRead
  try lift_lets
  repeat' first
    | with_reducible assumption
    | (intro x; (fail_if_success have : State := x); clear_value x)
    | with_reducible apply steady_wr
    | (with_reducible show 8 ≤ _; decide)
    | (split <;> try lift_lets)

theorem steady_rewind {μ δ : Bool} {s₀ : State} (s : State) (t k j shot : Nat) (h_s : Steady μ δ s₀ s) :
    Steady μ δ s₀ (s.rewind t k j shot) := by
  delta State.rewind
  try lift_lets
  repeat' first
    | with_reducible assumption
    | (intro x; have hx : Steady μ δ s₀ x := ?_; (on_goal 1 => clear_value x); on_goal 2 => (subst x; try lift_lets))
    | (intro x; (fail_if_success have : State := x); clear_value x)
    | with_reducible apply steady_setStrm
    | with_reducible apply steady_wr
    | (with_reducible show 8 ≤ _; decide)
    | (split <;> try lift_lets)

theorem steady_lateUnderrun {μ δ : Bool} {s₀ : State} (s : State) (j g : Nat) (h_s : Steady μ δ s₀ s) :
    Steady μ δ s₀ (s.lateUnderrun j g) := by
  delta State.lateUnderrun
  try lift_lets
  repeat' first
    | with_reducible assumption
    | with_reducible apply steady_updJob
    | with_reducible apply steady_updThr

theorem steady_underrunShot {μ δ : Bool} {s₀ : State} (s : State) (t k g shot : Nat) (h_s : Steady μ δ s₀ s) :
    Steady μ δ s₀ (s.underrunShot t k g shot) := by
  delta State.underrunShot
  try lift_lets
  repeat' first
    | with_reducible assumption
    | (intro x; have hx : Steady μ δ s₀ x := ?_; (on_goal 1 => clear_value x); on_goal 2 => (subst x; try lift_lets))
    | (intro x; (fail_if_success have : State := x); clear_value x)
    | with_reducible apply steady_lateUnderrun
    | with_reducible apply steady_rewind
    | with_reducible apply steady_strikeTail
    | with_reducible apply steady_endThread
    | with_reducible apply steady_failBars
    | with_reducible apply steady_markPeers
    | with_reducible apply steady_updJob
    | with_reducible apply steady_updThr
    | with_reducible apply Steady.ite
    | (split <;> try lift_lets)

theorem steady_countMissing {μ δ : Bool} {s₀ : State} (s : State) (t k upto : Nat) (h_s : Steady μ δ s₀ s) :
    Steady μ δ s₀ (s.countMissing t k upto) := by
  delta State.countMissing
  try lift_lets
  repeat' first
    | with_reducible assumption
    | (intro x; have hx : Steady μ δ s₀ x := ?_; (on_goal 1 => clear_value x); on_goal 2 => (subst x; try lift_lets))
    | (intro x; (fail_if_success have : State := x); clear_value x)
    | with_reducible apply steady_underrunShot
    | with_reducible apply steady_setStrm
    | with_reducible apply steady_count
    | with_reducible apply steady_wr
    | with_reducible apply Steady.ite
    | with_reducible apply Steady.foldl
    | (with_reducible show 8 ≤ _; decide)
    | (intro x a hx; try lift_lets)
    | (split <;> try lift_lets)

theorem steady_noteUnderrun {μ δ : Bool} {s₀ : State} (s : State) (t k : Nat) (h_s : Steady μ δ s₀ s) :
    Steady μ δ s₀ (s.noteUnderrun t k) := by
  delta State.noteUnderrun
  try lift_lets
  repeat' first
    | with_reducible assumption
    | (intro x; (fail_if_success have : State := x); clear_value x)
    | with_reducible apply steady_countMissing

theorem steady_execStreamUnderrun {μ δ : Bool} {s₀ : State} (tile strm : Nat) (s : State) (h_s : Steady μ δ s₀ s) :
    SteadyO μ δ s₀ (execStreamUnderrun tile strm s) := by
  delta execStreamUnderrun
  try lift_lets
  repeat' first
    | with_reducible assumption
    | with_reducible apply steady_noteUnderrun
    | with_reducible apply SteadyO.ite
    | with_reducible apply SteadyO.next

theorem steady_tapStream {μ δ : Bool} {s₀ : State} (s : State) (t k start part : Nat) (h_s : Steady μ δ s₀ s) :
    SteadyOpt μ δ s₀ (s.tapStream t k start part) := by
  delta State.tapStream
  try lift_lets
  repeat' first
    | with_reducible assumption
    | (intro x; (fail_if_success have : State := x); clear_value x)
    | with_reducible apply steady_setStrm
    | with_reducible apply steady_wr
    | with_reducible apply SteadyOpt.some
    | with_reducible exact SteadyOpt.none
    | with_reducible apply SteadyOpt.ite
    | (with_reducible show 8 ≤ _; decide)

theorem steady_execStrmJumpRequest {μ δ : Bool} {s₀ : State} (tile strm target : Nat) (s : State)
    (h_s : Steady μ δ s₀ s) :
    SteadyO μ δ s₀ (execStrmJumpRequest tile strm target s) := by
  delta execStrmJumpRequest
  try lift_lets
  repeat' first
    | with_reducible assumption
    | with_reducible apply steady_stage
    | with_reducible apply SteadyO.ite
    | with_reducible apply SteadyO.next

theorem steady_applyJump {μ δ : Bool} {s₀ : State} (s : State) (t k target : Nat) (h_s : Steady μ δ s₀ s) :
    Steady μ δ s₀ (s.applyJump t k target) := by
  delta State.applyJump
  try lift_lets
  repeat' first
    | with_reducible assumption
    | (intro x; have hx : Steady μ δ s₀ x := ?_; (on_goal 1 => clear_value x); on_goal 2 => (subst x; try lift_lets))
    | (intro x; (fail_if_success have : State := x); clear_value x)
    | with_reducible apply steady_setStrm
    | with_reducible apply steady_wr
    | (with_reducible show 8 ≤ _; decide)

theorem steady_execCommitPoint {μ δ : Bool} {s₀ : State} (tile strm : Nat) (s : State) (h_s : Steady μ δ s₀ s) :
    SteadyO μ δ s₀ (execCommitPoint tile strm s) := by
  delta execCommitPoint
  try lift_lets
  repeat' first
    | with_reducible assumption
    | (intro x; (fail_if_success have : State := x); clear_value x)
    | with_reducible apply steady_setStrm
    | with_reducible apply steady_wr
    | with_reducible apply Steady.ite
    | with_reducible apply SteadyO.ite
    | with_reducible apply SteadyO.next
    | (with_reducible show 8 ≤ _; decide)

theorem steady_execPassEnd {μ δ : Bool} {s₀ : State} (tile strm : Nat) (s : State) (h_s : Steady μ δ s₀ s) :
    SteadyO μ δ s₀ (execPassEnd tile strm s) := by
  delta execPassEnd
  try lift_lets
  repeat' first
    | with_reducible assumption
    | (intro x; have hx : Steady μ δ s₀ x := ?_; (on_goal 1 => clear_value x); on_goal 2 => (subst x; try lift_lets))
    | (intro x; (fail_if_success have : State := x); clear_value x)
    | with_reducible apply steady_countMissing
    | with_reducible apply steady_setStrm
    | with_reducible apply steady_wr
    | with_reducible apply Steady.ite
    | with_reducible apply SteadyO.ite
    | with_reducible apply SteadyO.next
    | (with_reducible show 8 ≤ _; decide)
    | (split <;> try lift_lets)

theorem steady_wpWrite {μ δ : Bool} {s₀ : State} (s : State) (t k : Nat) (v : Word) (h_s : Steady μ δ s₀ s) :
    Steady μ δ s₀ (s.wpWrite t k v) := by
  delta State.wpWrite
  try lift_lets
  repeat' first
    | with_reducible assumption
    | (intro x; (fail_if_success have : State := x); clear_value x)
    | with_reducible apply steady_wr
    | with_reducible apply Steady.ite
    | (with_reducible show 8 ≤ _; decide)

theorem steady_execStrmWpWrite {μ δ : Bool} {s₀ : State} (tile strm : Nat) (value : Word) (s : State)
    (h_s : Steady μ δ s₀ s) :
    SteadyO μ δ s₀ (execStrmWpWrite tile strm value s) := by
  delta execStrmWpWrite
  try lift_lets
  repeat' first
    | with_reducible assumption
    | with_reducible apply steady_wpWrite
    | with_reducible apply SteadyO.ite
    | with_reducible apply SteadyO.next

theorem steady_execStreamFetch {μ δ : Bool} {s₀ : State} (tile strm : Nat) (s : State) (h_s : Steady μ δ s₀ s) :
    SteadyO μ δ s₀ (execStreamFetch tile strm s) := by
  delta execStreamFetch
  try lift_lets
  repeat' first
    | with_reducible assumption
    | (intro x; have hx : Steady μ δ s₀ x := ?_; (on_goal 1 => clear_value x); on_goal 2 => (subst x; try lift_lets))
    | (intro x; (fail_if_success have : State := x); clear_value x)
    | with_reducible apply steady_setStrm
    | with_reducible apply steady_wr
    | with_reducible apply SteadyO.ite
    | with_reducible apply SteadyO.next
    | (with_reducible show 8 ≤ _; decide)

theorem steady_execStreamBlockArrive {μ δ : Bool} {s₀ : State} (tile strm : Nat) (s : State) (h_s : Steady μ δ s₀ s) :
    SteadyO μ δ s₀ (execStreamBlockArrive tile strm s) := by
  delta execStreamBlockArrive
  try lift_lets
  repeat' first
    | with_reducible assumption
    | (intro x; have hx : Steady μ δ s₀ x := ?_; (on_goal 1 => clear_value x); on_goal 2 => (subst x; try lift_lets))
    | (intro x; (fail_if_success have : State := x); clear_value x)
    | with_reducible apply steady_noteUnderrun
    | with_reducible apply steady_setStrm
    | with_reducible apply SteadyO.ite
    | with_reducible apply SteadyO.next

theorem steady_resumeStream {μ δ : Bool} {s₀ : State} (s : State) (t k j shot at_ : Nat) (h_s : Steady μ δ s₀ s) :
    Steady μ δ s₀ (s.resumeStream t k j shot at_) := by
  delta State.resumeStream
  try lift_lets
  repeat' first
    | with_reducible assumption
    | (intro x; (fail_if_success have : State := x); clear_value x)
    | with_reducible apply steady_setStrm
    | (split <;> try lift_lets)

theorem steady_keepStreams {μ δ : Bool} {s₀ : State} (s : State) (j at_ : Nat) (h_s : Steady μ δ s₀ s) :
    Steady μ δ s₀ (s.keepStreams j at_) := by
  delta State.keepStreams
  try lift_lets
  repeat' first
    | with_reducible assumption
    | (intro x; (fail_if_success have : State := x); clear_value x)
    | with_reducible apply steady_setStrm
    | with_reducible apply Steady.ite
    | with_reducible apply Steady.foldl
    | (intro x a hx; try lift_lets)

theorem steady_freeStreams {μ δ : Bool} {s₀ : State} (s : State) (j shot : Nat) (h_s : Steady μ δ s₀ s) :
    Steady μ δ s₀ (s.freeStreams j shot) := by
  delta State.freeStreams
  try lift_lets
  repeat' first
    | with_reducible assumption
    | (intro x; (fail_if_success have : State := x); clear_value x)
    | with_reducible apply steady_setStrm
    | with_reducible apply Steady.foldl
    | (intro x a hx; try lift_lets)

theorem steady_strmOpen {μ δ : Bool} {s₀ : State} (s : State) (b : Job) (h_s : Steady μ δ s₀ s) :
    Steady μ δ s₀ (s.strmOpen b).1 := by
  delta State.strmOpen
  try lift_lets
  repeat' first
    | with_reducible assumption
    | (intro x; have hx : Steady μ δ s₀ x := ?_; (on_goal 1 => clear_value x); on_goal 2 => (subst x; try lift_lets))
    | (intro x; (fail_if_success have : State := x); clear_value x)
    | with_reducible apply steady_setStrm
    | with_reducible apply steady_wrB
    | with_reducible apply steady_wr
    | with_reducible apply steady_setRegWord
    | (with_reducible show 8 ≤ _; decide)
    | (split <;> try lift_lets)

theorem steady_strmClose {μ δ : Bool} {s₀ : State} (s : State) (t k : Nat) (h_s : Steady μ δ s₀ s) :
    Steady μ δ s₀ (s.strmClose t k) := by
  delta State.strmClose
  try lift_lets
  repeat' first
    | with_reducible assumption
    | (intro x; have hx : Steady μ δ s₀ x := ?_; (on_goal 1 => clear_value x); on_goal 2 => (subst x; try lift_lets))
    | (intro x; (fail_if_success have : State := x); clear_value x)
    | with_reducible apply steady_noteUnderrun
    | with_reducible apply steady_setStrm
    | with_reducible apply steady_wr
    | with_reducible apply Steady.ite
    | (with_reducible show 8 ≤ _; decide)

theorem steady_setGen {μ δ : Bool} {s₀ : State} (s : State) (t g : Nat) (r : GenRun) (h_s : Steady μ δ s₀ s) :
    Steady μ δ s₀ (s.setGen t g r) := by
  delta State.setGen
  try lift_lets
  repeat' first
    | (intro x; (fail_if_success have : State := x); clear_value x)
    | with_reducible exact Steady.mk_ (by assumption)

theorem steady_genAdvance {μ δ : Bool} {s₀ : State} (s : State) (t g : Nat) (h_s : Steady μ δ s₀ s) :
    Steady μ δ s₀ (s.genAdvance t g).2 := by
  delta State.genAdvance
  try lift_lets
  repeat' first
    | with_reducible assumption
    | (intro x; have hx : Steady μ δ s₀ x := ?_; (on_goal 1 => clear_value x); on_goal 2 => (subst x; try lift_lets))
    | (intro x; (fail_if_success have : State := x); clear_value x)
    | with_reducible apply steady_setGen
    | with_reducible apply steady_count
    | with_reducible apply steady_wr
    | (with_reducible show 8 ≤ _; decide)

theorem steady_genReset {μ δ : Bool} {s₀ : State} (s : State) (t g : Nat) (h_s : Steady μ δ s₀ s) :
    Steady μ δ s₀ (s.genReset t g) := by
  delta State.genReset
  try lift_lets
  repeat' first
    | with_reducible assumption
    | (intro x; (fail_if_success have : State := x); clear_value x)
    | with_reducible apply steady_setGen
    | with_reducible apply steady_wr
    | (with_reducible show 8 ≤ _; decide)

theorem steady_applyGenEnable {μ δ : Bool} {s₀ : State} (s : State) (t g : Nat) (h_s : Steady μ δ s₀ s) :
    Steady μ δ s₀ (s.applyGenEnable t g) := by
  delta State.applyGenEnable
  try lift_lets
  repeat' first
    | with_reducible assumption
    | with_reducible apply steady_genReset
    | with_reducible apply steady_refuse
    | with_reducible apply steady_wr
    | with_reducible apply Steady.ite
    | (with_reducible show 8 ≤ _; decide)

theorem steady_execGenEnable {μ δ : Bool} {s₀ : State} (tile gen : Nat) (s : State) (h_s : Steady μ δ s₀ s) :
    SteadyO μ δ s₀ (execGenEnable tile gen s) := by
  delta execGenEnable
  try lift_lets
  repeat' first
    | with_reducible assumption
    | with_reducible apply steady_stage
    | with_reducible apply SteadyO.ite
    | with_reducible apply SteadyO.next

theorem steady_execGenRestart {μ δ : Bool} {s₀ : State} (tile gen : Nat) (s : State) (h_s : Steady μ δ s₀ s) :
    SteadyO μ δ s₀ (execGenRestart tile gen s) := by
  delta execGenRestart
  try lift_lets
  repeat' first
    | with_reducible assumption
    | with_reducible apply steady_stage
    | with_reducible apply SteadyO.ite
    | with_reducible apply SteadyO.next

/-! ## Render -/

theorem steady_clipOne {μ δ : Bool} {s₀ : State} (s : State) (o : OutKind × Nat × Nat) (h_s : Steady μ δ s₀ s) :
    Steady μ δ s₀ (s.clipOne o) := by
  delta State.clipOne
  try lift_lets
  repeat' first
    | with_reducible assumption
    | (with_reducible show 8 ≤ _; generalize o.1 = k; cases k <;> decide)
    | with_reducible apply steady_note
    | with_reducible apply steady_count
    | with_reducible apply steady_wr
    | with_reducible apply Steady.ite

theorem steady_clipTick {μ δ : Bool} {s₀ : State} (s : State) (h_s : Steady μ δ s₀ s) :
    Steady μ δ s₀ (s.clipTick) := by
  delta State.clipTick
  try lift_lets
  repeat' first
    | with_reducible assumption
    | with_reducible apply steady_clipOne
    | with_reducible apply Steady.foldl

end Sys2Proof.Machine
end

