-- ==== Sys2Proof/Laws/SteadyLinks.lean ====
section
/-! SUPPORT. What every operation keeps (`Steady`): ports, decisions and the external links. -/

namespace Sys2Proof.Machine

/-! ## Links -/

theorem steady_putD {μ δ : Bool} {s₀ : State} (s : State) (p : Nat) (m : DecMsg) (h_s : Steady μ δ s₀ s) :
    Steady μ δ s₀ (s.putD p m) := by
  delta State.putD
  try lift_lets
  repeat' first
    | with_reducible assumption
    | (intro x; (fail_if_success have : State := x); clear_value x)
    | with_reducible apply steady_transmit
    | with_reducible apply steady_setPort

theorem steady_putP {μ δ : Bool} {s₀ : State} (s : State) (p : Nat) (m : TxMsg) (h_s : Steady μ δ s₀ s) :
    Steady μ δ s₀ (s.putP p m) := by
  delta State.putP
  try lift_lets
  repeat' first
    | with_reducible assumption
    | (intro x; (fail_if_success have : State := x); clear_value x)
    | with_reducible apply steady_transmit
    | with_reducible apply steady_setPort

theorem steady_replayFull {μ δ : Bool} {s₀ : State} (s : State) (p : Nat) (h_s : Steady μ δ s₀ s) :
    Steady μ δ s₀ (s.replayFull p) := by
  delta State.replayFull
  try lift_lets
  repeat' first
    | with_reducible assumption
    | with_reducible apply steady_note
    | with_reducible apply steady_count
    | (with_reducible show 8 ≤ _; decide)

theorem steady_sendD {μ δ : Bool} {s₀ : State} (s : State) (p : Nat) (m : DecMsg) (h_s : Steady μ δ s₀ s) :
    Steady μ δ s₀ (s.sendD p m) := by
  delta State.sendD
  try lift_lets
  repeat' first
    | with_reducible assumption
    | (intro x; have hx : Steady μ δ s₀ x := ?_; (on_goal 1 => clear_value x); on_goal 2 => (subst x; try lift_lets))
    | (intro x; (fail_if_success have : State := x); clear_value x)
    | with_reducible apply steady_replayFull
    | with_reducible apply steady_putD
    | with_reducible apply steady_setPort
    | with_reducible apply Steady.ite

theorem steady_sendP {μ δ : Bool} {s₀ : State} (s : State) (p : Nat) (m : TxMsg) (h_s : Steady μ δ s₀ s) :
    Steady μ δ s₀ (s.sendP p m) := by
  delta State.sendP
  try lift_lets
  repeat' first
    | with_reducible assumption
    | (intro x; have hx : Steady μ δ s₀ x := ?_; (on_goal 1 => clear_value x); on_goal 2 => (subst x; try lift_lets))
    | (intro x; (fail_if_success have : State := x); clear_value x)
    | with_reducible apply steady_replayFull
    | with_reducible apply steady_putP
    | with_reducible apply steady_setPort
    | with_reducible apply Steady.ite

theorem steady_noteSent {μ δ : Bool} {s₀ : State} (s : State) (p n : Nat) (h_s : Steady μ δ s₀ s) :
    Steady μ δ s₀ (s.noteSent p n) := by
  delta State.noteSent
  try lift_lets
  repeat' first
    | (intro x; (fail_if_success have : State := x); clear_value x)
    | with_reducible exact Steady.mk_ (by assumption)

theorem steady_holdBack {μ δ : Bool} {s₀ : State} (s : State) (p n : Nat) (h_s : Steady μ δ s₀ s) :
    Steady μ δ s₀ (s.holdBack p n) := by
  delta State.holdBack
  try lift_lets
  repeat' first
    | with_reducible assumption
    | (intro x; (fail_if_success have : State := x); clear_value x)
    | with_reducible apply steady_setPort
    | with_reducible apply steady_count
    | (with_reducible show 8 ≤ _; decide)

theorem steady_flushD {μ δ : Bool} {s₀ : State} (s : State) (p : Nat) (l : List DecMsg) (h_s : Steady μ δ s₀ s) :
    Steady μ δ s₀ (s.flushD p l) := by
  induction l generalizing s with
  | nil => exact steady_setPort _ _ _ h_s
  | cons m l ih =>
    rw [State.flushD]
    split
    · split
      · exact ih _ (steady_putD _ _ _ (steady_setPort _ _ _ (steady_noteSent _ _ _ h_s)))
      · exact steady_holdBack _ _ _ (steady_setPort _ _ _ h_s)
    · exact steady_setPort _ _ _ h_s

theorem steady_flushP {μ δ : Bool} {s₀ : State} (s : State) (p : Nat) (l : List TxMsg) (h_s : Steady μ δ s₀ s) :
    Steady μ δ s₀ (s.flushP p l) := by
  induction l generalizing s with
  | nil => exact steady_setPort _ _ _ h_s
  | cons m l ih =>
    rw [State.flushP]
    split
    · exact ih _ (steady_putP _ _ _ h_s)
    · exact steady_setPort _ _ _ h_s

theorem steady_flushPort {μ δ : Bool} {s₀ : State} (s : State) (p : Nat) (h_s : Steady μ δ s₀ s) :
    Steady μ δ s₀ (s.flushPort p) := by
  delta State.flushPort
  try lift_lets
  repeat' first
    | with_reducible assumption
    | (intro x; have hx : Steady μ δ s₀ x := ?_; (on_goal 1 => clear_value x); on_goal 2 => (subst x; try lift_lets))
    | with_reducible apply steady_flushD
    | with_reducible apply steady_flushP
    | with_reducible apply Steady.ite

theorem steady_sendPort {μ δ : Bool} {s₀ : State} (s : State) (p : Nat) (h_s : Steady μ δ s₀ s) :
    Steady μ δ s₀ (s.sendPort p) := by
  delta State.sendPort
  try lift_lets
  repeat' first
    | with_reducible assumption
    | (intro x; have hx : Steady μ δ s₀ x := ?_; (on_goal 1 => clear_value x); on_goal 2 => (subst x; try lift_lets))
    | (intro x; (fail_if_success have : State := x); clear_value x)
    | with_reducible apply steady_setLane
    | with_reducible apply steady_setPort
    | with_reducible apply steady_emit
    | with_reducible apply Steady.ite
    | with_reducible apply Steady.foldl
    | with_reducible exact Steady.mk_ (by assumption)
    | (intro x a hx; try lift_lets)
    | (split <;> try lift_lets)

theorem steady_sendPorts {μ δ : Bool} {s₀ : State} (s : State) (h_s : Steady μ δ s₀ s) :
    Steady μ δ s₀ (s.sendPorts) := by
  delta State.sendPorts
  try lift_lets
  repeat' first
    | with_reducible assumption
    | with_reducible apply steady_sendPort
    | with_reducible apply Steady.foldl

theorem steady_syncDomains {μ δ : Bool} {s₀ : State} (s : State) (h_s : Steady μ δ s₀ s) :
    Steady μ δ s₀ (s.syncDomains) := by
  delta State.syncDomains
  try lift_lets
  repeat' first
    | with_reducible assumption
    | with_reducible apply steady_wrB
    | with_reducible apply Steady.foldl
    | (with_reducible show 8 ≤ _; decide)
    | (intro x a hx; try lift_lets)

/-! ## Decisions -/

theorem steady_setSlot {μ δ : Bool} {s₀ : State} (s : State) (r i : Nat) (v : Slot) (h_s : Steady μ δ s₀ s) :
    Steady μ δ s₀ (s.setSlot r i v) := by
  delta State.setSlot
  try lift_lets
  repeat' first
    | (intro x; (fail_if_success have : State := x); clear_value x)
    | with_reducible exact Steady.mk_ (by assumption)

theorem steady_watchBrd {μ δ : Bool} {s₀ : State} (s : State) (tile : Nat) (h_s : Steady μ δ s₀ s) :
    Steady μ δ s₀ (s.watchBrd tile) := by
  delta State.watchBrd
  try lift_lets
  repeat' first
    | with_reducible exact Steady.mk_ (by assumption)

theorem steady_applyAt {μ δ : Bool} {s₀ : State} (s : State) (r : Nat) (u : Update) (h_s : Steady μ δ s₀ s) :
    Steady μ δ s₀ (s.applyAt r u) := by
  delta State.applyAt
  try lift_lets
  repeat' first
    | with_reducible assumption
    | (intro x; have hx : Steady μ δ s₀ x := ?_; (on_goal 1 => clear_value x); on_goal 2 => (subst x; try lift_lets))
    | (intro x; (fail_if_success have : State := x); clear_value x)
    | with_reducible apply steady_watchBrd
    | with_reducible apply steady_setSlot
    | with_reducible apply Steady.ite
    | with_reducible exact Steady.mk_ (by assumption)
    | (split <;> try lift_lets)

theorem steady_send {μ δ : Bool} {s₀ : State} (s : State) (dest src : Nat) (u : Update) (h_s : Steady μ δ s₀ s) :
    Steady μ δ s₀ (s.send dest src u) := by
  delta State.send
  try lift_lets
  repeat' first
    | (intro x; (fail_if_success have : State := x); clear_value x)
    | with_reducible exact Steady.mk_ (by assumption)

theorem steady_setDecQueue {μ δ : Bool} {s₀ : State} (s : State) (p : Nat) (q : List DecMsg) (h_s : Steady μ δ s₀ s) :
    Steady μ δ s₀ (s.setDecQueue p q) := by
  delta State.setDecQueue
  try lift_lets
  repeat' first
    | (intro x; (fail_if_success have : State := x); clear_value x)
    | with_reducible exact Steady.mk_ (by assumption)

theorem steady_exportOn {μ δ : Bool} {s₀ : State} (s : State) (p : Nat) (m : DecMsg) (h_s : Steady μ δ s₀ s) :
    Steady μ δ s₀ (s.exportOn p m) := by
  delta State.exportOn
  try lift_lets
  repeat' first
    | with_reducible assumption
    | (intro x; have hx : Steady μ δ s₀ x := ?_; (on_goal 1 => clear_value x); on_goal 2 => (subst x; try lift_lets))
    | with_reducible apply steady_setDecQueue
    | with_reducible apply steady_holdBack
    | with_reducible apply steady_noteSent
    | with_reducible apply steady_sendD
    | with_reducible apply steady_count
    | with_reducible apply Steady.ite
    | (with_reducible show 8 ≤ _; decide)

theorem steady_exportUpd {μ δ : Bool} {s₀ : State} (s : State) (u : Update) (h_s : Steady μ δ s₀ s) :
    Steady μ δ s₀ (s.exportUpd u) := by
  delta State.exportUpd
  try lift_lets
  repeat' first
    | with_reducible assumption
    | with_reducible apply steady_exportOn
    | with_reducible apply Steady.ite
    | with_reducible apply Steady.foldl
    | (intro x a hx; try lift_lets)

theorem steady_sendQueue {μ δ : Bool} {s₀ : State} (s : State) (p : Nat) (h_s : Steady μ δ s₀ s) :
    Steady μ δ s₀ (s.sendQueue p) := by
  delta State.sendQueue
  try lift_lets
  repeat' first
    | with_reducible assumption
    | (intro x; (fail_if_success have : State := x); clear_value x)
    | with_reducible apply steady_setDecQueue
    | with_reducible apply steady_noteSent
    | with_reducible apply steady_sendD
    | with_reducible apply Steady.foldl
    | (intro x a hx; try lift_lets)

theorem steady_execDecQueueSend {μ δ : Bool} {s₀ : State} (port : Nat) (s : State) (h_s : Steady μ δ s₀ s) :
    SteadyO μ δ s₀ (execDecQueueSend port s) := by
  delta execDecQueueSend
  try lift_lets
  repeat' first
    | with_reducible assumption
    | with_reducible apply steady_sendQueue
    | with_reducible apply steady_flushPort
    | with_reducible apply SteadyO.ite
    | with_reducible apply SteadyO.next

theorem steady_setGroup {μ δ : Bool} {s₀ : State} (s : State) (g : Nat) (v : Group) (h_s : Steady μ δ s₀ s) :
    Steady μ δ s₀ (s.setGroup g v) := by
  delta State.setGroup
  try lift_lets
  repeat' first
    | (intro x; (fail_if_success have : State := x); clear_value x)
    | with_reducible exact Steady.mk_ (by assumption)

theorem steady_setDecoder {μ δ : Bool} {s₀ : State} (s : State) (d : Nat) (v : Decoder) (h_s : Steady μ δ s₀ s) :
    Steady μ δ s₀ (s.setDecoder d v) := by
  delta State.setDecoder
  try lift_lets
  repeat' first
    | (intro x; (fail_if_success have : State := x); clear_value x)
    | with_reducible exact Steady.mk_ (by assumption)

theorem steady_showGroup {μ δ : Bool} {s₀ : State} (s : State) (g : Nat) (h_s : Steady μ δ s₀ s) :
    Steady μ δ s₀ (s.showGroup g) := by
  delta State.showGroup
  try lift_lets
  repeat' first
    | with_reducible assumption
    | (intro x; (fail_if_success have : State := x); clear_value x)
    | with_reducible apply steady_wrB
    | with_reducible apply steady_wr
    | (with_reducible show 8 ≤ _; decide)

theorem steady_putGroup {μ δ : Bool} {s₀ : State} (s : State) (g : Nat) (v : Group) (h_s : Steady μ δ s₀ s) :
    Steady μ δ s₀ (s.putGroup g v) := by
  delta State.putGroup
  try lift_lets
  repeat' first
    | with_reducible assumption
    | with_reducible apply steady_showGroup
    | with_reducible apply steady_setGroup

theorem steady_forward {μ δ : Bool} {s₀ : State} (s : State) (src : Nat) (u : Update) (h_s : Steady μ δ s₀ s) :
    Steady μ δ s₀ (s.forward src u) := by
  delta State.forward
  try lift_lets
  repeat' first
    | with_reducible assumption
    | with_reducible apply steady_send
    | with_reducible apply Steady.foldl
    | (intro x a hx; try lift_lets)

theorem steady_countRejected {μ δ : Bool} {s₀ : State} (s : State) (u : Update) (h_s : Steady μ δ s₀ s) :
    Steady μ δ s₀ (s.countRejected u) := by
  delta State.countRejected
  try lift_lets
  repeat' first
    | with_reducible assumption
    | with_reducible apply steady_note
    | with_reducible apply steady_count
    | with_reducible apply steady_wr
    | with_reducible apply Steady.ite
    | (with_reducible show 8 ≤ _; decide)

theorem steady_hubApply {μ δ : Bool} {s₀ : State} (s : State) (u : Update) (h_s : Steady μ δ s₀ s) :
    Steady μ δ s₀ (s.hubApply u) := by
  delta State.hubApply
  try lift_lets
  repeat' first
    | with_reducible assumption
    | (intro x; have hx : Steady μ δ s₀ x := ?_; (on_goal 1 => clear_value x); on_goal 2 => (subst x; try lift_lets))
    | (intro x; (fail_if_success have : State := x); clear_value x)
    | with_reducible apply steady_countRejected
    | with_reducible apply steady_putGroup
    | with_reducible apply steady_exportUpd
    | with_reducible apply steady_applyAt
    | with_reducible apply Steady.ite
    | with_reducible apply Steady.foldl
    | (intro x a hx; try lift_lets)

theorem steady_hubUpdate {μ δ : Bool} {s₀ : State} (s : State) (src : Nat) (u : Update) (h_s : Steady μ δ s₀ s) :
    Steady μ δ s₀ (s.hubUpdate src u) := by
  delta State.hubUpdate
  try lift_lets
  repeat' first
    | with_reducible assumption
    | (intro x; have hx : Steady μ δ s₀ x := ?_; (on_goal 1 => clear_value x); on_goal 2 => (subst x; try lift_lets))
    | (intro x; (fail_if_success have : State := x); clear_value x)
    | with_reducible apply steady_hubApply
    | with_reducible apply steady_forward
    | with_reducible apply Steady.ite
    | with_reducible apply Steady.foldl
    | (intro x a hx; try lift_lets)

theorem steady_publish {μ δ : Bool} {s₀ : State} (s : State) (tile : Nat) (u : Update) (h_s : Steady μ δ s₀ s) :
    Steady μ δ s₀ (s.publish tile u) := by
  delta State.publish
  try lift_lets
  repeat' first
    | with_reducible assumption
    | with_reducible apply steady_send
    | with_reducible apply steady_applyAt

theorem steady_execSlotAged {μ δ : Bool} {s₀ : State} (replica slot : Nat) (s : State) (h_s : Steady μ δ s₀ s) :
    SteadyO μ δ s₀ (execSlotAged replica slot s) := by
  delta execSlotAged
  try lift_lets
  repeat' first
    | with_reducible assumption
    | (intro x; (fail_if_success have : State := x); clear_value x)
    | with_reducible apply steady_setSlot
    | with_reducible apply SteadyO.ite
    | with_reducible apply SteadyO.next

theorem steady_execRingRebuildDone {μ δ : Bool} {s₀ : State} (s : State) (h_s : Steady μ δ s₀ s) :
    SteadyO μ δ s₀ (execRingRebuildDone s) := by
  delta execRingRebuildDone
  try lift_lets
  repeat' first
    | (intro x; (fail_if_success have : State := x); clear_value x)
    | with_reducible exact Steady.mk_ (by assumption)
    | with_reducible apply SteadyO.next

theorem steady_execSpineLinkRetry {μ δ : Bool} {s₀ : State} (tile lane : Nat) (s : State) (h_s : Steady μ δ s₀ s) :
    SteadyO μ δ s₀ (execSpineLinkRetry tile lane s) := by
  delta execSpineLinkRetry
  try lift_lets
  repeat' first
    | with_reducible assumption
    | with_reducible apply steady_note
    | with_reducible apply SteadyO.ite
    | with_reducible apply SteadyO.next

theorem steady_decSwWrite {μ δ : Bool} {s₀ : State} (s : State) (v : Word) (h_s : Steady μ δ s₀ s) :
    Steady μ δ s₀ (s.decSwWrite v) := by
  delta State.decSwWrite
  try lift_lets
  repeat' first
    | with_reducible assumption
    | (intro x; (fail_if_success have : State := x); clear_value x)
    | with_reducible apply steady_stage
    | with_reducible apply steady_refuse
    | with_reducible apply steady_wr
    | with_reducible apply Steady.ite
    | (with_reducible show 8 ≤ _; decide)
    | (split <;> try lift_lets)

theorem steady_execDecSwWrite {μ δ : Bool} {s₀ : State} (value : Word) (s : State) (h_s : Steady μ δ s₀ s) :
    SteadyO μ δ s₀ (execDecSwWrite value s) := by
  delta execDecSwWrite
  try lift_lets
  repeat' first
    | with_reducible assumption
    | with_reducible apply steady_decSwWrite
    | with_reducible apply SteadyO.next

theorem steady_applyDecSw {μ δ : Bool} {s₀ : State} (s : State) (v : Word) (h_s : Steady μ δ s₀ s) :
    Steady μ δ s₀ (s.applyDecSw v) := by
  delta State.applyDecSw
  try lift_lets
  repeat' first
    | with_reducible assumption
    | (intro x; have hx : Steady μ δ s₀ x := ?_; (on_goal 1 => clear_value x); on_goal 2 => (subst x; try lift_lets))
    | (intro x; (fail_if_success have : State := x); clear_value x)
    | with_reducible apply steady_hubUpdate
    | with_reducible apply steady_setRegWord
    | (with_reducible show 8 ≤ _; decide)

theorem steady_decShotStart {μ δ : Bool} {s₀ : State} (s : State) (j t : Nat) (h_s : Steady μ δ s₀ s) :
    Steady μ δ s₀ (s.decShotStart j t) := by
  delta State.decShotStart
  try lift_lets
  repeat' first
    | with_reducible assumption
    | (intro x; have hx : Steady μ δ s₀ x := ?_; (on_goal 1 => clear_value x); on_goal 2 => (subst x; try lift_lets))
    | (intro x; (fail_if_success have : State := x); clear_value x)
    | with_reducible apply steady_hubApply
    | with_reducible apply steady_putGroup
    | with_reducible apply steady_applyAt
    | with_reducible apply Steady.foldl
    | (intro x a hx; try lift_lets)

theorem steady_execGroupFire {μ δ : Bool} {s₀ : State} (group : Nat) (s : State) (h_s : Steady μ δ s₀ s) :
    SteadyO μ δ s₀ (execGroupFire group s) := by
  delta execGroupFire
  try lift_lets
  repeat' first
    | with_reducible assumption
    | (intro x; have hx : Steady μ δ s₀ x := ?_; (on_goal 1 => clear_value x); on_goal 2 => (subst x; try lift_lets))
    | (intro x; (fail_if_success have : State := x); clear_value x)
    | with_reducible apply steady_putGroup
    | with_reducible apply steady_wrB
    | with_reducible apply steady_wr
    | with_reducible apply SteadyO.ite
    | with_reducible apply SteadyO.next
    | (with_reducible show 8 ≤ _; decide)
    | (split <;> try lift_lets)

theorem steady_consume {μ δ : Bool} {s₀ : State} (s : State) (d : Nat) (gs : List Nat) (h_s : Steady μ δ s₀ s) :
    Steady μ δ s₀ (s.consume d gs) := by
  delta State.consume
  try lift_lets
  repeat' first
    | with_reducible assumption
    | (intro x; (fail_if_success have : State := x); clear_value x)
    | with_reducible apply steady_putGroup
    | with_reducible apply Steady.foldl
    | (intro x a hx; try lift_lets)

theorem steady_tableError {μ δ : Bool} {s₀ : State} (s : State) (d e : Nat) (h_s : Steady μ δ s₀ s) :
    Steady μ δ s₀ (s.tableError d e) := by
  delta State.tableError
  try lift_lets
  repeat' first
    | with_reducible assumption
    | (intro x; have hx : Steady μ δ s₀ x := ?_; (on_goal 1 => clear_value x); on_goal 2 => (subst x; try lift_lets))
    | (intro x; (fail_if_success have : State := x); clear_value x)
    | with_reducible apply steady_strike
    | with_reducible apply steady_record
    | with_reducible apply steady_wrB
    | with_reducible apply steady_wr
    | with_reducible apply Steady.foldl
    | with_reducible exact Steady.mk_ (by assumption)
    | (with_reducible show 8 ≤ _; decide)
    | (intro x a hx; try lift_lets)

theorem steady_execDecoderFire {μ δ : Bool} {s₀ : State} (dec : Nat) (parityErr : Bool) (s : State)
    (h_s : Steady μ δ s₀ s) :
    SteadyO μ δ s₀ (execDecoderFire dec parityErr s) := by
  delta execDecoderFire
  try lift_lets
  repeat' first
    | with_reducible assumption
    | (intro x; have hx : Steady μ δ s₀ x := ?_; (on_goal 1 => clear_value x); on_goal 2 => (subst x; try lift_lets))
    | (intro x; (fail_if_success have : State := x); clear_value x)
    | with_reducible apply steady_tableError
    | with_reducible apply steady_consume
    | with_reducible apply steady_setDecoder
    | with_reducible apply steady_count
    | with_reducible apply steady_wr
    | with_reducible apply SteadyO.ite
    | with_reducible apply SteadyO.next
    | (with_reducible show 8 ≤ _; decide)
    | (split <;> try lift_lets)

theorem steady_publishDecoders {μ δ : Bool} {s₀ : State} (s : State) (h_s : Steady μ δ s₀ s) :
    Steady μ δ s₀ (s.publishDecoders) := by
  delta State.publishDecoders
  try lift_lets
  repeat' first
    | with_reducible assumption
    | (intro x; have hx : Steady μ δ s₀ x := ?_; (on_goal 1 => clear_value x); on_goal 2 => (subst x; try lift_lets))
    | (intro x; (fail_if_success have : State := x); clear_value x)
    | with_reducible apply steady_hubUpdate
    | with_reducible apply steady_setDecoder
    | with_reducible apply Steady.ite
    | with_reducible apply Steady.foldl
    | (intro x a hx; try lift_lets)

theorem steady_execTableReloadDone {μ δ : Bool} {s₀ : State} (entry : Nat) (s : State) (h_s : Steady μ δ s₀ s) :
    SteadyO μ δ s₀ (execTableReloadDone entry s) := by
  delta execTableReloadDone
  try lift_lets
  repeat' first
    | with_reducible assumption
    | (intro x; (fail_if_success have : State := x); clear_value x)
    | with_reducible apply SteadyO.ite
    | with_reducible exact Steady.mk_ (by assumption)
    | with_reducible apply SteadyO.next

theorem steady_tableWrite {μ δ : Bool} {s₀ : State} (s : State) (e : Nat) (v : Word) (h_s : Steady μ δ s₀ s) :
    Steady μ δ s₀ (s.tableWrite e v) := by
  delta State.tableWrite
  try lift_lets
  repeat' first
    | with_reducible assumption
    | (intro x; (fail_if_success have : State := x); clear_value x)
    | with_reducible apply steady_wr
    | with_reducible apply Steady.ite
    | with_reducible exact Steady.mk_ (by assumption)
    | (with_reducible show 8 ≤ _; decide)

theorem steady_execDecodeTableWrite {μ δ : Bool} {s₀ : State} (entry : Nat) (value : Word) (s : State)
    (h_s : Steady μ δ s₀ s) :
    SteadyO μ δ s₀ (execDecodeTableWrite entry value s) := by
  delta execDecodeTableWrite
  try lift_lets
  repeat' first
    | with_reducible assumption
    | with_reducible apply steady_tableWrite
    | with_reducible apply SteadyO.ite
    | with_reducible apply SteadyO.next

theorem steady_synBaseWrite {μ δ : Bool} {s₀ : State} (s : State) (d : Nat) (v : Word) (h_s : Steady μ δ s₀ s) :
    Steady μ δ s₀ (s.synBaseWrite d v) := by
  delta State.synBaseWrite
  try lift_lets
  repeat' first
    | with_reducible assumption
    | with_reducible apply steady_stage

theorem steady_execSynBaseWrite {μ δ : Bool} {s₀ : State} (dec : Nat) (value : Word) (s : State)
    (h_s : Steady μ δ s₀ s) :
    SteadyO μ δ s₀ (execSynBaseWrite dec value s) := by
  delta execSynBaseWrite
  try lift_lets
  repeat' first
    | with_reducible assumption
    | with_reducible apply steady_synBaseWrite
    | with_reducible apply SteadyO.ite
    | with_reducible apply SteadyO.next

theorem steady_applySynBase {μ δ : Bool} {s₀ : State} (s : State) (d : Nat) (v : Word) (h_s : Steady μ δ s₀ s) :
    Steady μ δ s₀ (s.applySynBase d v) := by
  delta State.applySynBase
  try lift_lets
  repeat' first
    | with_reducible assumption
    | (intro x; (fail_if_success have : State := x); clear_value x)
    | with_reducible apply steady_refuse
    | with_reducible apply steady_wr
    | with_reducible apply Steady.ite
    | (with_reducible show 8 ≤ _; decide)

theorem steady_extLost {μ δ : Bool} {s₀ : State} (s : State) (d : Nat) (h_s : Steady μ δ s₀ s) :
    Steady μ δ s₀ (s.extLost d) := by
  delta State.extLost
  try lift_lets
  repeat' first
    | with_reducible assumption
    | with_reducible apply steady_note
    | with_reducible apply steady_count
    | (with_reducible show 8 ≤ _; decide)

theorem steady_setRounds {μ δ : Bool} {s₀ : State} (s : State) (d : Nat) (rs : List Round) (h_s : Steady μ δ s₀ s) :
    Steady μ δ s₀ (s.setRounds d rs) := by
  delta State.setRounds
  try lift_lets
  repeat' first
    | with_reducible assumption
    | (intro x; (fail_if_success have : State := x); clear_value x)
    | with_reducible apply steady_setDecoder
    | with_reducible apply steady_wr
    | (with_reducible show 8 ≤ _; decide)

theorem steady_execExtDecoderFire {μ δ : Bool} {s₀ : State} (dec : Nat) (s : State) (h_s : Steady μ δ s₀ s) :
    SteadyO μ δ s₀ (execExtDecoderFire dec s) := by
  delta execExtDecoderFire
  try lift_lets
  repeat' first
    | with_reducible assumption
    | (intro x; have hx : Steady μ δ s₀ x := ?_; (on_goal 1 => clear_value x); on_goal 2 => (subst x; try lift_lets))
    | (intro x; (fail_if_success have : State := x); clear_value x)
    | with_reducible apply steady_setRounds
    | with_reducible apply steady_extLost
    | with_reducible apply steady_consume
    | with_reducible apply steady_sendP
    | with_reducible apply steady_note
    | with_reducible apply steady_count
    | with_reducible apply steady_wr
    | with_reducible apply Steady.ite
    | with_reducible apply SteadyO.ite
    | with_reducible apply SteadyO.next
    | (with_reducible show 8 ≤ _; decide)
    | (split <;> try lift_lets)

theorem steady_extAnswer {μ δ : Bool} {s₀ : State} (s : State) (d : Nat) (round : BitVec 16) (classes : Word)
    (h_s : Steady μ δ s₀ s) :
    Steady μ δ s₀ (s.extAnswer d round classes) := by
  delta State.extAnswer
  try lift_lets
  repeat' first
    | with_reducible assumption
    | (intro x; have hx : Steady μ δ s₀ x := ?_; (on_goal 1 => clear_value x); on_goal 2 => (subst x; try lift_lets))
    | (intro x; (fail_if_success have : State := x); clear_value x)
    | with_reducible apply steady_setRounds
    | with_reducible apply steady_hubUpdate
    | with_reducible apply steady_note
    | with_reducible apply steady_count
    | with_reducible apply Steady.ite
    | with_reducible apply Steady.foldl
    | (with_reducible show 8 ≤ _; decide)
    | (intro x a hx; try lift_lets)
    | (split <;> try lift_lets)

theorem steady_importDec {μ δ : Bool} {s₀ : State} (s : State) (p : Nat) (m : DecMsg) (h_s : Steady μ δ s₀ s) :
    Steady μ δ s₀ (s.importDec p m) := by
  delta State.importDec
  try lift_lets
  repeat' first
    | with_reducible assumption
    | (intro x; (fail_if_success have : State := x); clear_value x)
    | with_reducible apply steady_hubUpdate
    | with_reducible apply steady_note
    | with_reducible apply steady_count
    | with_reducible apply steady_wr
    | with_reducible apply Steady.ite
    | (with_reducible show 8 ≤ _; decide)
    | (split <;> try lift_lets)

/-! ## Borvon -/

theorem steady_putLane {μ δ : Bool} {s₀ : State} (s : State) (p l st : Nat) (h_s : Steady μ δ s₀ s) :
    Steady μ δ s₀ (s.putLane p l st) := by
  delta State.putLane
  try lift_lets
  repeat' first
    | with_reducible assumption
    | (intro x; (fail_if_success have : State := x); clear_value x)
    | with_reducible apply steady_setLane
    | with_reducible apply steady_wr
    | (with_reducible show 8 ≤ _; decide)

theorem steady_sendTs {μ δ : Bool} {s₀ : State} (s : State) (p l : Nat) (second : Bool) (h_s : Steady μ δ s₀ s) :
    Steady μ δ s₀ (s.sendTs p l second) := by
  delta State.sendTs
  try lift_lets
  repeat' first
    | with_reducible assumption
    | (intro x; (fail_if_success have : State := x); clear_value x)
    | with_reducible apply steady_emit

theorem steady_startLane {μ δ : Bool} {s₀ : State} (s : State) (p l : Nat) (h_s : Steady μ δ s₀ s) :
    Steady μ δ s₀ (s.startLane p l) := by
  delta State.startLane
  try lift_lets
  repeat' first
    | with_reducible assumption
    | with_reducible apply steady_sendTs
    | with_reducible apply steady_putLane

theorem steady_putWidth {μ δ : Bool} {s₀ : State} (s : State) (p mask : Nat) (h_s : Steady μ δ s₀ s) :
    Steady μ δ s₀ (s.putWidth p mask) := by
  delta State.putWidth
  try lift_lets
  repeat' first
    | with_reducible assumption
    | (intro x; have hx : Steady μ δ s₀ x := ?_; (on_goal 1 => clear_value x); on_goal 2 => (subst x; try lift_lets))
    | (intro x; (fail_if_success have : State := x); clear_value x)
    | with_reducible apply steady_wr
    | with_reducible apply Steady.ite
    | (with_reducible show 8 ≤ _; decide)

theorem steady_wakeLanes {μ δ : Bool} {s₀ : State} (s : State) (p : Nat) (ls : List Nat) (h_s : Steady μ δ s₀ s) :
    Steady μ δ s₀ (s.wakeLanes p ls) := by
  delta State.wakeLanes
  try lift_lets
  repeat' first
    | with_reducible assumption
    | (intro x; (fail_if_success have : State := x); clear_value x)
    | with_reducible apply steady_putLane
    | with_reducible apply steady_setLane
    | with_reducible apply Steady.foldl
    | (intro x a hx; try lift_lets)

theorem steady_detectLane {μ δ : Bool} {s₀ : State} (s : State) (p l : Nat) (h_s : Steady μ δ s₀ s) :
    Steady μ δ s₀ (s.detectLane p l) := by
  delta State.detectLane
  try lift_lets
  repeat' first
    | with_reducible assumption
    | with_reducible apply steady_startLane
    | with_reducible apply steady_wr
    | (with_reducible show 8 ≤ _; decide)

theorem steady_portTrains {μ δ : Bool} {s₀ : State} (s : State) (p : Nat) (h_s : Steady μ δ s₀ s) :
    Steady μ δ s₀ (s.portTrains p) := by
  delta State.portTrains
  try lift_lets
  repeat' first
    | with_reducible assumption
    | (intro x; have hx : Steady μ δ s₀ x := ?_; (on_goal 1 => clear_value x); on_goal 2 => (subst x; try lift_lets))
    | with_reducible apply steady_putWidth
    | with_reducible apply steady_setPortState
    | with_reducible apply steady_setPort
    | with_reducible apply steady_wr
    | (with_reducible show 8 ≤ _; decide)

theorem steady_retrain {μ δ : Bool} {s₀ : State} (s : State) (p : Nat) (h_s : Steady μ δ s₀ s) :
    Steady μ δ s₀ (s.retrain p) := by
  delta State.retrain
  try lift_lets
  repeat' first
    | with_reducible assumption
    | with_reducible apply steady_portTrains
    | with_reducible apply steady_detectLane
    | with_reducible apply Steady.ite
    | with_reducible apply Steady.foldl
    | (intro x a hx; try lift_lets)

theorem steady_portCtrl {μ δ : Bool} {s₀ : State} (s : State) (p : Nat) (oldEn oldTest : Bool) (oldLanes : Nat)
    (h_s : Steady μ δ s₀ s) :
    Steady μ δ s₀ (s.portCtrl p oldEn oldTest oldLanes) := by
  delta State.portCtrl
  try lift_lets
  repeat' first
    | with_reducible assumption
    | (intro x; have hx : Steady μ δ s₀ x := ?_; (on_goal 1 => clear_value x); on_goal 2 => (subst x; try lift_lets))
    | (intro x; (fail_if_success have : State := x); clear_value x)
    | with_reducible apply steady_retrain
    | with_reducible apply steady_portTrains
    | with_reducible apply steady_wakeLanes
    | with_reducible apply steady_putLane
    | with_reducible apply steady_setPortState
    | with_reducible apply Steady.ite
    | with_reducible apply Steady.foldl
    | (intro x a hx; try lift_lets)

theorem steady_checkDown {μ δ : Bool} {s₀ : State} (s : State) (p : Nat) (h_s : Steady μ δ s₀ s) :
    Steady μ δ s₀ (s.checkDown p) := by
  delta State.checkDown
  try lift_lets
  repeat' first
    | with_reducible assumption
    | with_reducible apply steady_portDown
    | with_reducible apply Steady.ite

theorem steady_absentLane {μ δ : Bool} {s₀ : State} (s : State) (p l cause : Nat) (h_s : Steady μ δ s₀ s) :
    Steady μ δ s₀ (s.absentLane p l cause) := by
  delta State.absentLane
  try lift_lets
  repeat' first
    | with_reducible assumption
    | with_reducible apply steady_putLane
    | with_reducible apply steady_note
    | with_reducible apply steady_wr
    | (with_reducible show 8 ≤ _; decide)

theorem steady_enterDeskew {μ δ : Bool} {s₀ : State} (s : State) (p : Nat) (h_s : Steady μ δ s₀ s) :
    Steady μ δ s₀ (s.enterDeskew p) := by
  delta State.enterDeskew
  try lift_lets
  repeat' first
    | with_reducible assumption
    | (intro x; (fail_if_success have : State := x); clear_value x)
    | with_reducible apply steady_putLane
    | with_reducible apply steady_setPort
    | with_reducible apply Steady.ite
    | with_reducible apply Steady.foldl
    | (intro x a hx; try lift_lets)

theorem steady_tryDeskew {μ δ : Bool} {s₀ : State} (s : State) (p : Nat) (h_s : Steady μ δ s₀ s) :
    Steady μ δ s₀ (s.tryDeskew p) := by
  delta State.tryDeskew
  try lift_lets
  repeat' first
    | with_reducible assumption
    | with_reducible apply steady_enterDeskew
    | with_reducible apply Steady.ite

theorem steady_failAttempt {μ δ : Bool} {s₀ : State} (s : State) (p l cause : Nat) (h_s : Steady μ δ s₀ s) :
    Steady μ δ s₀ (s.failAttempt p l cause) := by
  delta State.failAttempt
  try lift_lets
  repeat' first
    | with_reducible assumption
    | (intro x; have hx : Steady μ δ s₀ x := ?_; (on_goal 1 => clear_value x); on_goal 2 => (subst x; try lift_lets))
    | (intro x; (fail_if_success have : State := x); clear_value x)
    | with_reducible apply steady_absentLane
    | with_reducible apply steady_setLane
    | with_reducible apply steady_wr
    | with_reducible apply Steady.ite
    | (with_reducible show 8 ≤ _; decide)

theorem steady_enterActive {μ δ : Bool} {s₀ : State} (s : State) (p : Nat) (o : TrainObs) (h_s : Steady μ δ s₀ s) :
    Steady μ δ s₀ (s.enterActive p o) := by
  delta State.enterActive
  try lift_lets
  repeat' first
    | with_reducible assumption
    | (intro x; have hx : Steady μ δ s₀ x := ?_; (on_goal 1 => clear_value x); on_goal 2 => (subst x; try lift_lets))
    | (intro x; (fail_if_success have : State := x); clear_value x)
    | with_reducible apply steady_putWidth
    | with_reducible apply steady_putLane
    | with_reducible apply steady_setPortState
    | with_reducible apply steady_setPort
    | with_reducible apply steady_wr
    | with_reducible apply Steady.ite
    | with_reducible apply Steady.foldl
    | (with_reducible show 8 ≤ _; decide)
    | (intro x a hx; try lift_lets)

theorem steady_enterParam {μ δ : Bool} {s₀ : State} (s : State) (p : Nat) (h_s : Steady μ δ s₀ s) :
    Steady μ δ s₀ (s.enterParam p) := by
  delta State.enterParam
  try lift_lets
  repeat' first
    | with_reducible assumption
    | (intro x; have hx : Steady μ δ s₀ x := ?_; (on_goal 1 => clear_value x); on_goal 2 => (subst x; try lift_lets))
    | (intro x; (fail_if_success have : State := x); clear_value x)
    | with_reducible apply steady_sendTs
    | with_reducible apply steady_putLane
    | with_reducible apply Steady.foldl
    | (intro x a hx; try lift_lets)

theorem steady_trainStep {μ δ : Bool} {s₀ : State} (s : State) (p l : Nat) (o : TrainObs) (h_s : Steady μ δ s₀ s) :
    Steady μ δ s₀ (s.trainStep p l o) := by
  delta State.trainStep
  try lift_lets
  repeat' first
    | with_reducible assumption
    | (intro x; have hx : Steady μ δ s₀ x := ?_; (on_goal 1 => clear_value x); on_goal 2 => (subst x; try lift_lets))
    | (intro x; (fail_if_success have : State := x); clear_value x)
    | with_reducible apply steady_enterParam
    | with_reducible apply steady_enterActive
    | with_reducible apply steady_failAttempt
    | with_reducible apply steady_tryDeskew
    | with_reducible apply steady_sendTs
    | with_reducible apply steady_putLane
    | with_reducible apply steady_setPortState
    | with_reducible apply steady_setLane
    | with_reducible apply steady_setPort
    | with_reducible apply steady_wrI
    | with_reducible apply steady_wrB
    | with_reducible apply steady_wr
    | with_reducible apply Steady.ite
    | with_reducible apply Steady.foldl
    | (with_reducible show 8 ≤ _; decide)
    | (intro x a hx; try lift_lets)
    | (split <;> try lift_lets)

theorem steady_execLaneTrainStep {μ δ : Bool} {s₀ : State} (port lane : Nat) (obs : TrainObs) (s : State)
    (h_s : Steady μ δ s₀ s) :
    SteadyO μ δ s₀ (execLaneTrainStep port lane obs s) := by
  delta execLaneTrainStep
  try lift_lets
  repeat' first
    | with_reducible assumption
    | with_reducible apply steady_trainStep
    | with_reducible apply steady_count
    | with_reducible apply Steady.ite
    | with_reducible apply SteadyO.ite
    | with_reducible apply SteadyO.next
    | (with_reducible show 8 ≤ _; decide)

theorem steady_execTrainStepTimeout {μ δ : Bool} {s₀ : State} (port lane : Nat) (s : State) (h_s : Steady μ δ s₀ s) :
    SteadyO μ δ s₀ (execTrainStepTimeout port lane s) := by
  delta execTrainStepTimeout
  try lift_lets
  repeat' first
    | with_reducible assumption
    | (intro x; have hx : Steady μ δ s₀ x := ?_; (on_goal 1 => clear_value x); on_goal 2 => (subst x; try lift_lets))
    | (intro x; (fail_if_success have : State := x); clear_value x)
    | with_reducible apply steady_failAttempt
    | with_reducible apply steady_tryDeskew
    | with_reducible apply steady_checkDown
    | with_reducible apply steady_putLane
    | with_reducible apply Steady.ite
    | with_reducible apply SteadyO.ite
    | with_reducible apply Steady.foldl
    | with_reducible apply SteadyO.next
    | (intro x a hx; try lift_lets)

theorem steady_execTrainRetry {μ δ : Bool} {s₀ : State} (port lane : Nat) (s : State) (h_s : Steady μ δ s₀ s) :
    SteadyO μ δ s₀ (execTrainRetry port lane s) := by
  delta execTrainRetry
  try lift_lets
  repeat' first
    | with_reducible assumption
    | (intro x; (fail_if_success have : State := x); clear_value x)
    | with_reducible apply steady_startLane
    | with_reducible apply SteadyO.ite
    | with_reducible apply SteadyO.next

theorem steady_execDeepPoll {μ δ : Bool} {s₀ : State} (port lane : Nat) (s : State) (h_s : Steady μ δ s₀ s) :
    SteadyO μ δ s₀ (execDeepPoll port lane s) := by
  delta execDeepPoll
  try lift_lets
  repeat' first
    | with_reducible assumption
    | (intro x; (fail_if_success have : State := x); clear_value x)
    | with_reducible apply steady_sendTs
    | with_reducible apply steady_setLane
    | with_reducible apply steady_wr
    | with_reducible apply SteadyO.ite
    | with_reducible apply SteadyO.next
    | (with_reducible show 8 ≤ _; decide)

theorem steady_execTrainingSignalLoss {μ δ : Bool} {s₀ : State} (port lane : Nat) (s : State) (h_s : Steady μ δ s₀ s) :
    SteadyO μ δ s₀ (execTrainingSignalLoss port lane s) := by
  delta execTrainingSignalLoss
  try lift_lets
  repeat' first
    | with_reducible assumption
    | with_reducible apply steady_tryDeskew
    | with_reducible apply steady_absentLane
    | with_reducible apply steady_checkDown
    | with_reducible apply SteadyO.ite
    | with_reducible apply SteadyO.next

theorem steady_execDeskewWaitExpire {μ δ : Bool} {s₀ : State} (port : Nat) (s : State) (h_s : Steady μ δ s₀ s) :
    SteadyO μ δ s₀ (execDeskewWaitExpire port s) := by
  delta execDeskewWaitExpire
  try lift_lets
  repeat' first
    | with_reducible assumption
    | with_reducible apply steady_enterDeskew
    | with_reducible apply SteadyO.ite
    | with_reducible apply SteadyO.next
    | (split <;> try lift_lets)

theorem steady_execBvnRetrain {μ δ : Bool} {s₀ : State} (port : Nat) (s : State) (h_s : Steady μ δ s₀ s) :
    SteadyO μ δ s₀ (execBvnRetrain port s) := by
  delta execBvnRetrain
  try lift_lets
  repeat' first
    | with_reducible assumption
    | with_reducible apply steady_retrain
    | with_reducible apply SteadyO.ite
    | with_reducible apply SteadyO.next

theorem steady_removal {μ δ : Bool} {s₀ : State} (s : State) (p : Nat) (h_s : Steady μ δ s₀ s) :
    Steady μ δ s₀ (s.removal p) := by
  delta State.removal
  try lift_lets
  repeat' first
    | with_reducible assumption
    | (intro x; have hx : Steady μ δ s₀ x := ?_; (on_goal 1 => clear_value x); on_goal 2 => (subst x; try lift_lets))
    | with_reducible apply steady_absentLane
    | with_reducible apply steady_portDown
    | with_reducible apply steady_wr
    | with_reducible apply Steady.foldl
    | (with_reducible show 8 ≤ _; decide)
    | (intro x a hx; try lift_lets)

theorem steady_failLanes {s₀ : State} (s : State) (p mask : Nat) (h_s : Steady true true s₀ s) :
    Steady true true s₀ (s.failLanes p mask) := by
  delta State.failLanes
  try lift_lets
  repeat' first
    | with_reducible assumption
    | with_reducible apply steady_fault
    | with_reducible apply Steady.foldl
    | (intro x a hx; try lift_lets)

theorem steady_execLaneFail {s₀ : State} (port : Nat) (loss : LaneLoss) (s : State)
    (h_s : Steady true true s₀ s) :
    SteadyO true true s₀ (execLaneFail port loss s) := by
  delta execLaneFail
  try lift_lets
  repeat' first
    | with_reducible assumption
    | (intro x; (fail_if_success have : State := x); clear_value x)
    | with_reducible apply steady_failLanes
    | with_reducible apply steady_removal
    | with_reducible apply Steady.ite
    | with_reducible apply SteadyO.ite
    | with_reducible apply SteadyO.next

theorem steady_lineError {s₀ : State} (s : State) (p l : Nat) (disp : Bool) (h_s : Steady true true s₀ s) :
    Steady true true s₀ (s.lineError p l disp) := by
  delta State.lineError
  try lift_lets
  repeat' first
    | with_reducible assumption
    | (intro x; have hx : Steady true true s₀ x := ?_; (on_goal 1 => clear_value x); on_goal 2 => (subst x; try lift_lets))
    | (intro x; (fail_if_success have : State := x); clear_value x)
    | with_reducible apply steady_failLanes
    | with_reducible apply steady_setLane
    | with_reducible apply steady_count
    | with_reducible apply Steady.ite
    | (with_reducible show 8 ≤ _; decide)

theorem steady_badSet {s₀ : State} (s : State) (p : Nat) (h_s : Steady true true s₀ s) :
    Steady true true s₀ (s.badSet p) := by
  delta State.badSet
  try lift_lets
  repeat' first
    | with_reducible assumption
    | with_reducible apply steady_lineError
    | with_reducible apply Steady.foldl
    | (intro x a hx; try lift_lets)

theorem steady_applyMask {μ δ : Bool} {s₀ : State} (s : State) (p mask : Nat) (h_s : Steady μ δ s₀ s) :
    Steady μ δ s₀ (s.applyMask p mask) := by
  delta State.applyMask
  try lift_lets
  repeat' first
    | with_reducible assumption
    | (intro x; have hx : Steady μ δ s₀ x := ?_; (on_goal 1 => clear_value x); on_goal 2 => (subst x; try lift_lets))
    | with_reducible apply steady_putWidth
    | with_reducible apply steady_putLane
    | with_reducible apply Steady.foldl
    | (intro x a hx; try lift_lets)

theorem steady_resend {μ δ : Bool} {s₀ : State} (s : State) (p : Nat) (h_s : Steady μ δ s₀ s) :
    Steady μ δ s₀ (s.resend p) := by
  delta State.resend
  try lift_lets
  repeat' first
    | with_reducible assumption
    | (intro x; have hx : Steady μ δ s₀ x := ?_; (on_goal 1 => clear_value x); on_goal 2 => (subst x; try lift_lets))
    | (intro x; (fail_if_success have : State := x); clear_value x)
    | with_reducible apply steady_transmit
    | with_reducible apply Steady.foldl
    | (intro x a hx; try lift_lets)

theorem steady_replay {μ δ : Bool} {s₀ : State} (s : State) (p : Nat) (d q : Word) (h_s : Steady μ δ s₀ s) :
    Steady μ δ s₀ (s.replay p d q) := by
  delta State.replay
  try lift_lets
  repeat' first
    | with_reducible assumption
    | (intro x; have hx : Steady μ δ s₀ x := ?_; (on_goal 1 => clear_value x); on_goal 2 => (subst x; try lift_lets))
    | with_reducible apply steady_resend
    | with_reducible apply steady_flushPort
    | with_reducible apply steady_transmit
    | with_reducible apply steady_setPort

theorem steady_execRstReceive {s₀ : State} (port : Nat) (mask : BitVec 4) (dcount : Word) (pcount : Checked Word 8) (s : State) (h_s : Steady true true s₀ s) :
    SteadyO true true s₀ (execRstReceive port mask dcount pcount s) := by
  delta execRstReceive
  try lift_lets
  repeat' first
    | with_reducible assumption
    | with_reducible apply steady_replay
    | with_reducible apply steady_applyMask
    | with_reducible apply steady_badSet
    | with_reducible apply steady_transmit
    | with_reducible apply steady_setPortState
    | with_reducible apply steady_setPort
    | with_reducible apply steady_count
    | with_reducible apply Steady.ite
    | with_reducible apply SteadyO.ite
    | with_reducible apply SteadyO.next
    | (with_reducible show 8 ≤ _; decide)

theorem steady_execRplReceive {s₀ : State} (port : Nat) (dcount : Word) (pcount : Checked Word 8) (s : State)
    (h_s : Steady true true s₀ s) :
    SteadyO true true s₀ (execRplReceive port dcount pcount s) := by
  delta execRplReceive
  try lift_lets
  repeat' first
    | with_reducible assumption
    | (intro x; (fail_if_success have : State := x); clear_value x)
    | with_reducible apply steady_badSet
    | with_reducible apply steady_setPort
    | with_reducible apply SteadyO.ite
    | with_reducible apply SteadyO.next

theorem steady_msgFails {μ δ : Bool} {s₀ : State} (s : State) (p : Nat) (h_s : Steady μ δ s₀ s) :
    Steady μ δ s₀ (s.msgFails p) := by
  delta State.msgFails
  try lift_lets
  repeat' first
    | with_reducible assumption
    | (intro x; (fail_if_success have : State := x); clear_value x)
    | with_reducible apply steady_transmit
    | with_reducible apply steady_setPort
    | with_reducible apply Steady.ite

theorem steady_execAckReceive {μ δ : Bool} {s₀ : State} (port : Nat) (dcount : Word) (pcount : Checked Word 8) (s : State)
    (h_s : Steady μ δ s₀ s) :
    SteadyO μ δ s₀ (execAckReceive port dcount pcount s) := by
  delta execAckReceive
  try lift_lets
  repeat' first
    | with_reducible assumption
    | with_reducible apply steady_msgFails
    | with_reducible apply steady_flushPort
    | with_reducible apply steady_setPort
    | with_reducible apply SteadyO.ite
    | with_reducible apply SteadyO.next

theorem steady_execNakReceive {μ δ : Bool} {s₀ : State} (port : Nat) (dcount : Word) (pcount : Checked Word 8) (s : State)
    (h_s : Steady μ δ s₀ s) :
    SteadyO μ δ s₀ (execNakReceive port dcount pcount s) := by
  delta execNakReceive
  try lift_lets
  repeat' first
    | with_reducible assumption
    | (intro x; have hx : Steady μ δ s₀ x := ?_; (on_goal 1 => clear_value x); on_goal 2 => (subst x; try lift_lets))
    | with_reducible apply steady_msgFails
    | with_reducible apply steady_replay
    | with_reducible apply steady_note
    | with_reducible apply steady_count
    | with_reducible apply SteadyO.ite
    | with_reducible apply SteadyO.next
    | (with_reducible show 8 ≤ _; decide)

theorem steady_execNakRepeat {μ δ : Bool} {s₀ : State} (port : Nat) (s : State) (h_s : Steady μ δ s₀ s) :
    SteadyO μ δ s₀ (execNakRepeat port s) := by
  delta execNakRepeat
  try lift_lets
  repeat' first
    | with_reducible assumption
    | (intro x; (fail_if_success have : State := x); clear_value x)
    | with_reducible apply steady_transmit
    | with_reducible apply steady_setPort
    | with_reducible apply SteadyO.ite
    | with_reducible apply SteadyO.next
    | (split <;> try lift_lets)

theorem steady_execAckSend {μ δ : Bool} {s₀ : State} (port : Nat) (s : State) (h_s : Steady μ δ s₀ s) :
    SteadyO μ δ s₀ (execAckSend port s) := by
  delta execAckSend
  try lift_lets
  repeat' first
    | with_reducible assumption
    | (intro x; (fail_if_success have : State := x); clear_value x)
    | with_reducible apply steady_transmit
    | with_reducible apply steady_setPort
    | with_reducible apply SteadyO.ite
    | with_reducible apply SteadyO.next

theorem steady_execSkipSend {μ δ : Bool} {s₀ : State} (port : Nat) (s : State) (h_s : Steady μ δ s₀ s) :
    SteadyO μ δ s₀ (execSkipSend port s) := by
  delta execSkipSend
  try lift_lets
  repeat' first
    | with_reducible assumption
    | (intro x; (fail_if_success have : State := x); clear_value x)
    | with_reducible apply steady_transmit
    | with_reducible apply steady_setPort
    | with_reducible apply SteadyO.ite
    | with_reducible apply SteadyO.next

theorem steady_refill {μ δ : Bool} {s₀ : State} (s : State) (p fill : Nat) (h_s : Steady μ δ s₀ s) :
    Steady μ δ s₀ (s.refill p fill) := by
  delta State.refill
  try lift_lets
  repeat' first
    | with_reducible assumption
    | (intro x; (fail_if_success have : State := x); clear_value x)
    | with_reducible apply steady_setPort
    | with_reducible apply steady_count
    | with_reducible apply Steady.ite
    | with_reducible apply Steady.foldl
    | (with_reducible show 8 ≤ _; decide)
    | (intro x a hx; try lift_lets)

theorem steady_execSkipReceive {s₀ : State} (port : Nat) (drift : Int) (s : State) (h_s : Steady true true s₀ s) :
    SteadyO true true s₀ (execSkipReceive port drift s) := by
  delta execSkipReceive
  try lift_lets
  repeat' first
    | with_reducible assumption
    | (intro x; (fail_if_success have : State := x); clear_value x)
    | with_reducible apply steady_refill
    | with_reducible apply steady_lineError
    | with_reducible apply steady_setPort
    | with_reducible apply Steady.ite
    | with_reducible apply SteadyO.ite
    | with_reducible apply Steady.foldl
    | with_reducible apply SteadyO.next
    | (intro x a hx; try lift_lets)

theorem steady_countP {μ δ : Bool} {s₀ : State} (s : State) (p : Nat) (h_s : Steady μ δ s₀ s) :
    Steady μ δ s₀ (s.countP p) := by
  delta State.countP
  try lift_lets
  repeat' first
    | with_reducible assumption
    | (intro x; (fail_if_success have : State := x); clear_value x)
    | with_reducible apply steady_setPort

theorem steady_badMsg {μ δ : Bool} {s₀ : State} (s : State) (p : Nat) (h_s : Steady μ δ s₀ s) :
    Steady μ δ s₀ (s.badMsg p) := by
  delta State.badMsg
  try lift_lets
  repeat' first
    | with_reducible assumption
    | with_reducible apply steady_note
    | with_reducible apply steady_count
    | (with_reducible show 8 ≤ _; decide)

theorem steady_lineErrorIn {s₀ : State} (s : State) (p l : Nat) (disp inside : Bool) (h_s : Steady true true s₀ s) :
    Steady true true s₀ (s.lineErrorIn p l disp inside) := by
  delta State.lineErrorIn
  try lift_lets
  repeat' first
    | with_reducible assumption
    | (intro x; have hx : Steady true true s₀ x := ?_; (on_goal 1 => clear_value x); on_goal 2 => (subst x; try lift_lets))
    | with_reducible apply steady_msgFails
    | with_reducible apply steady_lineError
    | with_reducible apply Steady.ite

theorem steady_checkPrbs {μ δ : Bool} {s₀ : State} (s : State) (p l good bad : Nat) (h_s : Steady μ δ s₀ s) :
    Steady μ δ s₀ (s.checkPrbs p l good bad) := by
  delta State.checkPrbs
  try lift_lets
  repeat' first
    | with_reducible assumption
    | with_reducible apply steady_count
    | with_reducible apply steady_wr
    | with_reducible apply Steady.ite
    | (with_reducible show 8 ≤ _; decide)

theorem steady_execMsgError {s₀ : State} (found : MsgFault) (s : State) (h_s : Steady true true s₀ s) :
    SteadyO true true s₀ (execMsgError found s) := by
  delta execMsgError
  try lift_lets
  repeat' first
    | with_reducible assumption
    | with_reducible apply steady_checkPrbs
    | with_reducible apply steady_lineErrorIn
    | with_reducible apply steady_badMsg
    | with_reducible apply steady_countP
    | with_reducible apply steady_msgFails
    | with_reducible apply Steady.ite
    | with_reducible apply SteadyO.ite
    | with_reducible apply SteadyO.next
    | (split <;> try lift_lets)

theorem steady_execDecReceive {μ δ : Bool} {s₀ : State} (port : Nat) (msg : Checked DecMsg 8) (s : State)
    (h_s : Steady μ δ s₀ s) :
    SteadyO μ δ s₀ (execDecReceive port msg s) := by
  delta execDecReceive
  try lift_lets
  repeat' first
    | with_reducible assumption
    | (intro x; have hx : Steady μ δ s₀ x := ?_; (on_goal 1 => clear_value x); on_goal 2 => (subst x; try lift_lets))
    | (intro x; (fail_if_success have : State := x); clear_value x)
    | with_reducible apply steady_msgFails
    | with_reducible apply steady_importDec
    | with_reducible apply steady_setPort
    | with_reducible apply SteadyO.ite
    | with_reducible apply SteadyO.next

theorem steady_execPktAnswerReceive {μ δ : Bool} {s₀ : State} (port dec : Nat) (round : BitVec 16) (classes : Checked Word 32) (s : State) (h_s : Steady μ δ s₀ s) :
    SteadyO μ δ s₀ (execPktAnswerReceive port dec round classes s) := by
  delta execPktAnswerReceive
  try lift_lets
  repeat' first
    | with_reducible assumption
    | (intro x; have hx : Steady μ δ s₀ x := ?_; (on_goal 1 => clear_value x); on_goal 2 => (subst x; try lift_lets))
    | with_reducible apply steady_badMsg
    | with_reducible apply steady_countP
    | with_reducible apply steady_msgFails
    | with_reducible apply steady_extAnswer
    | with_reducible apply SteadyO.ite
    | with_reducible apply SteadyO.next

theorem steady_execPktManagementReceive {μ δ : Bool} {s₀ : State} (port : Nat) (bytes : Checked (List Byte) 32) (s : State) (h_s : Steady μ δ s₀ s) :
    SteadyO μ δ s₀ (execPktManagementReceive port bytes s) := by
  delta execPktManagementReceive
  try lift_lets
  repeat' first
    | with_reducible assumption
    | (intro x; have hx : Steady μ δ s₀ x := ?_; (on_goal 1 => clear_value x); on_goal 2 => (subst x; try lift_lets))
    | with_reducible apply steady_badMsg
    | with_reducible apply steady_countP
    | with_reducible apply steady_msgFails
    | with_reducible apply steady_emit
    | with_reducible apply SteadyO.ite
    | with_reducible apply SteadyO.next

theorem steady_widen {μ δ : Bool} {s₀ : State} (s : State) (p : Nat) (h_s : Steady μ δ s₀ s) :
    Steady μ δ s₀ (s.widen p) := by
  delta State.widen
  try lift_lets
  repeat' first
    | with_reducible assumption
    | (intro x; (fail_if_success have : State := x); clear_value x)
    | with_reducible apply steady_startRestripe
    | with_reducible apply Steady.ite

theorem steady_execBvnWiden {μ δ : Bool} {s₀ : State} (port : Nat) (s : State) (h_s : Steady μ δ s₀ s) :
    SteadyO μ δ s₀ (execBvnWiden port s) := by
  delta execBvnWiden
  try lift_lets
  repeat' first
    | with_reducible assumption
    | with_reducible apply steady_widen
    | with_reducible apply SteadyO.ite
    | with_reducible apply SteadyO.next

theorem steady_laneInject {μ δ : Bool} {s₀ : State} (s : State) (p l : Nat) (h_s : Steady μ δ s₀ s) :
    Steady μ δ s₀ (s.laneInject p l) := by
  delta State.laneInject
  try lift_lets
  repeat' first
    | with_reducible assumption
    | (intro x; (fail_if_success have : State := x); clear_value x)
    | with_reducible apply steady_setLane
    | with_reducible apply steady_emit
    | with_reducible apply Steady.ite

theorem steady_execBvnInj {μ δ : Bool} {s₀ : State} (port lane : Nat) (s : State) (h_s : Steady μ δ s₀ s) :
    SteadyO μ δ s₀ (execBvnInj port lane s) := by
  delta execBvnInj
  try lift_lets
  repeat' first
    | with_reducible assumption
    | with_reducible apply steady_laneInject
    | with_reducible apply SteadyO.ite
    | with_reducible apply SteadyO.next

end Sys2Proof.Machine
end

