-- ==== Sys2Proof/Laws/SteadyTime.lean ====
section
/-! SUPPORT. What every operation keeps (`Steady`): calibration and the time service. -/

namespace Sys2Proof.Machine

/-! ## Calibration -/

theorem steady_execCalDue {μ δ : Bool} {s₀ : State} (unit : UnitDesc) (s : State) (h_s : Steady μ δ s₀ s) :
    SteadyO μ δ s₀ (execCalDue unit s) := by
  delta execCalDue
  try lift_lets
  repeat' first
    | with_reducible assumption
    | with_reducible apply steady_makeDue
    | with_reducible apply SteadyO.ite
    | with_reducible apply SteadyO.next

theorem steady_execCalStale {s₀ : State} (unit : UnitDesc) (s : State) (h_s : Steady true true s₀ s) :
    SteadyO true true s₀ (execCalStale unit s) := by
  delta execCalStale
  try lift_lets
  repeat' first
    | with_reducible assumption
    | (intro x; have hx : Steady true true s₀ x := ?_; (on_goal 1 => clear_value x); on_goal 2 => (subst x; try lift_lets))
    | (intro x; (fail_if_success have : State := x); clear_value x)
    | with_reducible apply steady_syncStale
    | with_reducible apply steady_setCalValid
    | with_reducible apply steady_fault
    | with_reducible apply steady_setCalU
    | with_reducible apply SteadyO.ite
    | with_reducible apply SteadyO.next
    | (split <;> try lift_lets)

theorem steady_execGapCalStep {μ δ : Bool} {s₀ : State} (unit : UnitDesc) (disturbed : Bool) (s : State) (h_s : Steady μ δ s₀ s) :
    SteadyO μ δ s₀ (execGapCalStep unit disturbed s) := by
  delta execGapCalStep
  try lift_lets
  repeat' first
    | with_reducible assumption
    | (intro x; have hx : Steady μ δ s₀ x := ?_; (on_goal 1 => clear_value x); on_goal 2 => (subst x; try lift_lets))
    | (intro x; (fail_if_success have : State := x); clear_value x)
    | with_reducible apply steady_startCal
    | with_reducible apply steady_settleStep
    | with_reducible apply steady_updCalU
    | with_reducible apply steady_setCalU
    | with_reducible apply SteadyO.ite
    | with_reducible apply SteadyO.next
    | (split <;> try lift_lets)

theorem steady_rehold {μ δ : Bool} {s₀ : State} (s : State) (u : UnitDesc) (h_s : Steady μ δ s₀ s) :
    Steady μ δ s₀ (s.rehold u) := by
  delta State.rehold
  try lift_lets
  repeat' first
    | with_reducible assumption
    | with_reducible apply steady_updCalU
    | with_reducible apply Steady.ite

theorem steady_beginLead {μ δ : Bool} {s₀ : State} (s : State) (u : UnitDesc) (h_s : Steady μ δ s₀ s) :
    Steady μ δ s₀ (s.beginLead u) := by
  delta State.beginLead
  try lift_lets
  repeat' first
    | with_reducible assumption
    | (intro x; have hx : Steady μ δ s₀ x := ?_; (on_goal 1 => clear_value x); on_goal 2 => (subst x; try lift_lets))
    | (intro x; (fail_if_success have : State := x); clear_value x)
    | with_reducible apply steady_applySpan
    | with_reducible apply steady_updCalU

theorem steady_leadTick {μ δ : Bool} {s₀ : State} (s : State) (u : UnitDesc) (h_s : Steady μ δ s₀ s) :
    Steady μ δ s₀ (s.leadTick u) := by
  delta State.leadTick
  try lift_lets
  repeat' first
    | with_reducible assumption
    | (intro x; have hx : Steady μ δ s₀ x := ?_; (on_goal 1 => clear_value x); on_goal 2 => (subst x; try lift_lets))
    | (intro x; have hf : ∀ t a, Steady μ δ s₀ t → Steady μ δ s₀ (x t a) := ?_; (on_goal 1 => clear_value x); on_goal 2 => (subst x; intro t a h; beta_reduce; try lift_lets))
    | (intro x; (fail_if_success have : State := x); clear_value x)
    | with_reducible apply steady_placeCode
    | with_reducible apply steady_updCalU
    | with_reducible apply hf
    | with_reducible apply Steady.ite
    | (split <;> try lift_lets)

theorem steady_leadBack {μ δ : Bool} {s₀ : State} (s : State) (u : UnitDesc) (h_s : Steady μ δ s₀ s) :
    Steady μ δ s₀ (s.leadBack u) := by
  delta State.leadBack
  try lift_lets
  repeat' first
    | with_reducible assumption
    | (intro x; have hx : Steady μ δ s₀ x := ?_; (on_goal 1 => clear_value x); on_goal 2 => (subst x; try lift_lets))
    | (intro x; (fail_if_success have : State := x); clear_value x)
    | with_reducible apply steady_applySpan
    | with_reducible apply steady_placeCode
    | with_reducible apply steady_updCalU
    | with_reducible apply Steady.ite
    | (split <;> try lift_lets)

theorem steady_leadStep {s₀ : State} (s : State) (u : UnitDesc) (o : CalObs) (h_s : Steady true true s₀ s) :
    Steady true true s₀ (s.leadStep u o) := by
  delta State.leadStep
  try lift_lets
  repeat' first
    | with_reducible assumption
    | (intro x; have hx : Steady true true s₀ x := ?_; (on_goal 1 => clear_value x); on_goal 2 => (subst x; try lift_lets))
    | (intro x; (fail_if_success have : State := x); clear_value x)
    | with_reducible apply steady_leadBack
    | with_reducible apply steady_fault
    | with_reducible apply steady_noteStep
    | with_reducible apply steady_wr
    | with_reducible apply Steady.ite
    | (with_reducible show 8 ≤ _; decide)

theorem steady_fitStep {s₀ : State} (s : State) (u : UnitDesc) (o : CalObs) (h_s : Steady true true s₀ s) :
    Steady true true s₀ (s.fitStep u o) := by
  delta State.fitStep
  try lift_lets
  repeat' first
    | with_reducible assumption
    | with_reducible apply steady_fault
    | with_reducible apply steady_noteStep
    | with_reducible apply steady_updCalU
    | with_reducible apply Steady.ite

theorem steady_bringOne {s₀ : State} (s : State) (u : UnitDesc) (c : CalObs) (h_s : Steady true true s₀ s) :
    Steady true true s₀ (s.bringOne u c) := by
  delta State.bringOne
  try lift_lets
  repeat' first
    | with_reducible assumption
    | (intro x; have hx : Steady true true s₀ x := ?_; (on_goal 1 => clear_value x); on_goal 2 => (subst x; try lift_lets))
    | (intro x; (fail_if_success have : State := x); clear_value x)
    | with_reducible apply steady_rehold
    | with_reducible apply steady_completeCal
    | with_reducible apply steady_spareIdle
    | with_reducible apply Steady.ite
    | (split <;> try lift_lets)

theorem steady_loadRef {μ δ : Bool} {s₀ : State} (s : State) (h_s : Steady μ δ s₀ s) :
    Steady μ δ s₀ (s.loadRef) := by
  delta State.loadRef
  try lift_lets
  repeat' first
    | with_reducible assumption
    | with_reducible apply steady_wr
    | (with_reducible show 8 ≤ _; decide)
    | (split <;> try lift_lets)

theorem steady_bootOver {μ δ : Bool} {s₀ : State} (s : State) (h_s : Steady μ δ s₀ s) :
    Steady μ δ s₀ (s.bootOver) := by
  delta State.bootOver
  try lift_lets
  repeat' first
    | with_reducible assumption
    | (intro x; have hx : Steady μ δ s₀ x := ?_; (on_goal 1 => clear_value x); on_goal 2 => (subst x; try lift_lets))
    | (intro x; (fail_if_success have : State := x); clear_value x)
    | with_reducible apply steady_wr
    | with_reducible apply Steady.ite
    | with_reducible exact Steady.mk_ (by assumption)
    | (with_reducible show 8 ≤ _; decide)

theorem steady_bringCorrections {s₀ : State} (s : State) (h_s : Steady true true s₀ s) :
    Steady true true s₀ (s.bringCorrections) := by
  delta State.bringCorrections
  try lift_lets
  repeat' first
    | with_reducible assumption
    | (intro x; have hx : Steady true true s₀ x := ?_; (on_goal 1 => clear_value x); on_goal 2 => (subst x; try lift_lets))
    | (intro x; (fail_if_success have : State := x); clear_value x)
    | with_reducible apply steady_bootOver
    | with_reducible apply steady_loadRef
    | with_reducible apply steady_bringOne
    | with_reducible apply Steady.foldl
    | with_reducible exact Steady.mk_ (by assumption)
    | (intro x a hx; try lift_lets)
    | (split <;> try lift_lets)

theorem steady_execCalComplete {s₀ : State} (unit : UnitDesc) (obs : CalObs) (s : State) (h_s : Steady true true s₀ s) :
    SteadyO true true s₀ (execCalComplete unit obs s) := by
  delta execCalComplete
  try lift_lets
  repeat' first
    | with_reducible assumption
    | (intro x; have hx : Steady true true s₀ x := ?_; (on_goal 1 => clear_value x); on_goal 2 => (subst x; try lift_lets))
    | with_reducible apply steady_fitStep
    | with_reducible apply steady_leadStep
    | with_reducible apply steady_rehold
    | with_reducible apply steady_startCal
    | with_reducible apply steady_bring
    | with_reducible apply steady_completeCal
    | with_reducible apply steady_updCalU
    | with_reducible apply Steady.ite
    | with_reducible apply SteadyO.ite
    | with_reducible apply SteadyO.next
    | (split <;> try lift_lets)

theorem steady_leadTicks {μ δ : Bool} {s₀ : State} (s : State) (h_s : Steady μ δ s₀ s) :
    Steady μ δ s₀ (s.leadTicks) := by
  delta State.leadTicks
  try lift_lets
  repeat' first
    | with_reducible assumption
    | with_reducible apply steady_leadTick
    | with_reducible apply steady_beginLead
    | with_reducible apply Steady.ite
    | with_reducible apply Steady.foldl
    | (intro x a hx; try lift_lets)

theorem steady_releaseHeld {μ δ : Bool} {s₀ : State} (s : State) (t : Nat) (h_s : Steady μ δ s₀ s) :
    Steady μ δ s₀ (s.releaseHeld t) := by
  delta State.releaseHeld
  try lift_lets
  repeat' first
    | (intro x; (fail_if_success have : State := x); clear_value x)
    | with_reducible exact Steady.mk_ (by assumption)

theorem steady_execCalHoldTimeout {μ δ : Bool} {s₀ : State} (unit : UnitDesc) (s : State) (h_s : Steady μ δ s₀ s) :
    SteadyO μ δ s₀ (execCalHoldTimeout unit s) := by
  delta execCalHoldTimeout
  try lift_lets
  repeat' first
    | with_reducible assumption
    | with_reducible apply steady_failCal
    | with_reducible apply steady_updCalU
    | with_reducible apply SteadyO.ite
    | with_reducible apply SteadyO.next
    | (split <;> try lift_lets)

theorem steady_beginCal {μ δ : Bool} {s₀ : State} (s : State) (a : CalAsk) (mbx job : Option Nat)
    (h_s : Steady μ δ s₀ s) :
    Steady μ δ s₀ (s.beginCal a mbx job) := by
  delta State.beginCal
  try lift_lets
  repeat' first
    | with_reducible assumption
    | (intro x; have hx : Steady μ δ s₀ x := ?_; (on_goal 1 => clear_value x); on_goal 2 => (subst x; try lift_lets))
    | (intro x; (fail_if_success have : State := x); clear_value x)
    | with_reducible apply steady_makeDue
    | with_reducible apply steady_startCal
    | with_reducible apply steady_updCalU
    | with_reducible apply steady_setCalU
    | with_reducible apply steady_wr
    | with_reducible apply Steady.ite
    | with_reducible apply Steady.foldl
    | with_reducible exact Steady.mk_ (by assumption)
    | (with_reducible show 8 ≤ _; decide)
    | (intro x a hx; try lift_lets)

theorem steady_execCalRecordWrite {μ δ : Bool} {s₀ : State} (unit : UnitDesc) (s : State) (h_s : Steady μ δ s₀ s) :
    SteadyO μ δ s₀ (execCalRecordWrite unit s) := by
  delta execCalRecordWrite
  try lift_lets
  repeat' first
    | with_reducible assumption
    | (intro x; have hx : Steady μ δ s₀ x := ?_; (on_goal 1 => clear_value x); on_goal 2 => (subst x; try lift_lets))
    | (intro x; (fail_if_success have : State := x); clear_value x)
    | with_reducible apply steady_setCalU
    | with_reducible apply steady_wrB
    | with_reducible apply SteadyO.ite
    | with_reducible apply SteadyO.next
    | (with_reducible show 8 ≤ _; decide)
    | (split <;> try lift_lets)

theorem steady_loadUnit {s₀ : State} (s : State) (u : UnitDesc) (valid : Bool) (h_s : Steady true true s₀ s) :
    Steady true true s₀ (s.loadUnit u valid) := by
  delta State.loadUnit
  try lift_lets
  repeat' first
    | with_reducible assumption
    | with_reducible apply steady_makeDue
    | with_reducible apply steady_putCorr
    | with_reducible apply steady_setCalValid
    | with_reducible apply steady_fault
    | with_reducible apply steady_updCalU
    | with_reducible apply steady_draw
    | with_reducible apply steady_wr
    | with_reducible apply Steady.ite
    | (with_reducible show 8 ≤ _; decide)
    | (split <;> try lift_lets)

theorem steady_loadAll {s₀ : State} (s : State) (h_s : Steady true true s₀ s) :
    Steady true true s₀ (s.loadAll) := by
  delta State.loadAll
  try lift_lets
  repeat' first
    | with_reducible assumption
    | with_reducible apply steady_loadUnit
    | with_reducible apply Steady.ite
    | with_reducible apply Steady.foldl
    | (intro x a hx; try lift_lets)

theorem steady_beginBootCal {μ δ : Bool} {s₀ : State} (s : State) (h_s : Steady μ δ s₀ s) :
    Steady μ δ s₀ (s.beginBootCal) := by
  delta State.beginBootCal
  try lift_lets
  repeat' first
    | with_reducible assumption
    | (intro x; have hx : Steady μ δ s₀ x := ?_; (on_goal 1 => clear_value x); on_goal 2 => (subst x; try lift_lets))
    | (intro x; (fail_if_success have : State := x); clear_value x)
    | with_reducible apply steady_beginCal
    | with_reducible apply Steady.ite
    | with_reducible exact Steady.mk_ (by assumption)

theorem steady_bootUnit {s₀ : State} (s : State) (failed : List UnitDesc) (u : UnitDesc) (h_s : Steady true true s₀ s) :
    Steady true true s₀ (s.bootUnit failed u) := by
  delta State.bootUnit
  try lift_lets
  repeat' first
    | with_reducible assumption
    | (intro x; (fail_if_success have : State := x); clear_value x)
    | with_reducible apply steady_bring
    | with_reducible apply steady_setCalValid
    | with_reducible apply steady_fault
    | with_reducible apply Steady.ite
    | with_reducible exact Steady.mk_ (by assumption)

theorem steady_execBootCalDone {s₀ : State} (failed : List UnitDesc) (s : State) (h_s : Steady true true s₀ s) :
    SteadyO true true s₀ (execBootCalDone failed s) := by
  delta execBootCalDone
  try lift_lets
  repeat' first
    | with_reducible assumption
    | (intro x; have hx : Steady true true s₀ x := ?_; (on_goal 1 => clear_value x); on_goal 2 => (subst x; try lift_lets))
    | (intro x; (fail_if_success have : State := x); clear_value x)
    | with_reducible apply steady_bootUnit
    | with_reducible apply SteadyO.ite
    | with_reducible apply Steady.foldl
    | with_reducible exact Steady.mk_ (by assumption)
    | with_reducible apply SteadyO.next
    | (intro x a hx; try lift_lets)

/-! ## TimeService -/

theorem steady_setTsState {μ δ : Bool} {s₀ : State} (s : State) (v : Nat) (h_s : Steady μ δ s₀ s) :
    Steady μ δ s₀ (s.setTsState v) := by
  delta State.setTsState
  try lift_lets
  repeat' first
    | with_reducible assumption
    | with_reducible apply steady_wr
    | (with_reducible show 8 ≤ _; decide)

theorem steady_setTs {μ δ : Bool} {s₀ : State} (s : State) (t : TimeSvc) (h_s : Steady μ δ s₀ s) :
    Steady μ δ s₀ (s.setTs t) := by
  delta State.setTs
  try lift_lets
  repeat' first
    | with_reducible exact Steady.mk_ (by assumption)

theorem steady_syncSize {μ δ : Bool} {s₀ : State} (s : State) (h_s : Steady μ δ s₀ s) :
    Steady μ δ s₀ (s.syncSize) := by
  delta State.syncSize
  try lift_lets
  repeat' first
    | with_reducible assumption
    | (intro x; have hx : Steady μ δ s₀ x := ?_; (on_goal 1 => clear_value x); on_goal 2 => (subst x; try lift_lets))
    | (intro x; (fail_if_success have : State := x); clear_value x)
    | with_reducible apply steady_note
    | with_reducible apply steady_wrB
    | with_reducible apply steady_wr
    | with_reducible apply Steady.ite
    | (with_reducible show 8 ≤ _; decide)

theorem steady_syncInDomain {μ δ : Bool} {s₀ : State} (s : State) (h_s : Steady μ δ s₀ s) :
    Steady μ δ s₀ (s.syncInDomain) := by
  delta State.syncInDomain
  try lift_lets
  repeat' first
    | with_reducible assumption
    | (intro x; have hx : Steady μ δ s₀ x := ?_; (on_goal 1 => clear_value x); on_goal 2 => (subst x; try lift_lets))
    | (intro x; (fail_if_success have : State := x); clear_value x)
    | with_reducible apply steady_syncSize
    | with_reducible apply steady_syncDomains
    | with_reducible apply steady_note
    | with_reducible apply steady_wrB
    | with_reducible apply Steady.ite
    | (with_reducible show 8 ≤ _; decide)

theorem steady_tsRestart {μ δ : Bool} {s₀ : State} (s : State) (epoch : Nat) (h_s : Steady μ δ s₀ s) :
    Steady μ δ s₀ (s.tsRestart epoch) := by
  delta State.tsRestart
  try lift_lets
  repeat' first
    | with_reducible assumption
    | (intro x; have hx : Steady μ δ s₀ x := ?_; (on_goal 1 => clear_value x); on_goal 2 => (subst x; try lift_lets))
    | (intro x; (fail_if_success have : State := x); clear_value x)
    | with_reducible apply steady_syncInDomain
    | with_reducible apply steady_setTs
    | with_reducible apply steady_setTsState
    | with_reducible apply steady_wr
    | (with_reducible show 8 ≤ _; decide)

theorem steady_binNow {μ δ : Bool} {s₀ : State} (s : State) (h_s : Steady μ δ s₀ s) :
    Steady μ δ s₀ (s.binNow).2 := by
  delta State.binNow
  try lift_lets
  repeat' first
    | with_reducible assumption
    | with_reducible apply steady_draw

theorem steady_execAnnounceSend {μ δ : Bool} {s₀ : State} (port : Nat) (s : State) (h_s : Steady μ δ s₀ s) :
    SteadyO μ δ s₀ (execAnnounceSend port s) := by
  delta execAnnounceSend
  try lift_lets
  repeat' first
    | with_reducible assumption
    | with_reducible apply steady_binNow
    | with_reducible apply steady_setTs
    | with_reducible apply steady_transmit
    | with_reducible apply steady_draw
    | with_reducible apply SteadyO.ite
    | with_reducible apply SteadyO.next

theorem steady_hearHops {μ δ : Bool} {s₀ : State} (s : State) (a : Announce) (h_s : Steady μ δ s₀ s) :
    Steady μ δ s₀ (s.hearHops a) := by
  delta State.hearHops
  try lift_lets
  repeat' first
    | with_reducible assumption
    | (intro x; have hx : Steady μ δ s₀ x := ?_; (on_goal 1 => clear_value x); on_goal 2 => (subst x; try lift_lets))
    | (intro x; (fail_if_success have : State := x); clear_value x)
    | with_reducible apply steady_note
    | with_reducible apply steady_wr
    | with_reducible apply Steady.ite
    | (with_reducible show 8 ≤ _; decide)

theorem steady_execAnnounceReceive {μ δ : Bool} {s₀ : State} (port : Nat) (msg : AnnounceMsg) (s : State) (h_s : Steady μ δ s₀ s) :
    SteadyO μ δ s₀ (execAnnounceReceive port msg s) := by
  delta execAnnounceReceive
  try lift_lets
  repeat' first
    | with_reducible assumption
    | (intro x; have hx : Steady μ δ s₀ x := ?_; (on_goal 1 => clear_value x); on_goal 2 => (subst x; try lift_lets))
    | (intro x; (fail_if_success have : State := x); clear_value x)
    | with_reducible apply steady_hearHops
    | with_reducible apply steady_syncInDomain
    | with_reducible apply steady_setTs
    | with_reducible apply steady_badMsg
    | with_reducible apply Steady.ite
    | with_reducible apply SteadyO.ite
    | with_reducible apply SteadyO.next

theorem steady_execAnnounceTimeout {μ δ : Bool} {s₀ : State} (port : Nat) (s : State) (h_s : Steady μ δ s₀ s) :
    SteadyO μ δ s₀ (execAnnounceTimeout port s) := by
  delta execAnnounceTimeout
  try lift_lets
  repeat' first
    | with_reducible assumption
    | with_reducible apply steady_syncSize
    | with_reducible apply steady_syncDomains
    | with_reducible apply SteadyO.ite
    | with_reducible apply SteadyO.next

theorem steady_exchLost {μ δ : Bool} {s₀ : State} (s : State) (h_s : Steady μ δ s₀ s) :
    Steady μ δ s₀ (s.exchLost) := by
  delta State.exchLost
  try lift_lets
  repeat' first
    | with_reducible assumption
    | (intro x; have hx : Steady μ δ s₀ x := ?_; (on_goal 1 => clear_value x); on_goal 2 => (subst x; try lift_lets))
    | (intro x; (fail_if_success have : State := x); clear_value x)
    | with_reducible apply steady_syncInDomain
    | with_reducible apply steady_setTs
    | with_reducible apply steady_tsHoldover
    | with_reducible apply steady_count
    | with_reducible apply Steady.ite
    | (with_reducible show 8 ≤ _; decide)

theorem steady_execDelayReqSend {μ δ : Bool} {s₀ : State} (s : State) (h_s : Steady μ δ s₀ s) :
    SteadyO μ δ s₀ (execDelayReqSend s) := by
  delta execDelayReqSend
  try lift_lets
  repeat' first
    | with_reducible assumption
    | (intro x; have hx : Steady μ δ s₀ x := ?_; (on_goal 1 => clear_value x); on_goal 2 => (subst x; try lift_lets))
    | (intro x; (fail_if_success have : State := x); clear_value x)
    | with_reducible apply steady_exchLost
    | with_reducible apply steady_binNow
    | with_reducible apply steady_setTs
    | with_reducible apply steady_transmit
    | with_reducible apply Steady.ite
    | with_reducible apply SteadyO.ite
    | with_reducible apply SteadyO.next

theorem steady_execDelayReq {μ δ : Bool} {s₀ : State} (port seq lane : Nat) (sent : Checked (Nat × Word) 16) (t2 : Nat) (s : State) (h_s : Steady μ δ s₀ s) :
    SteadyO μ δ s₀ (execDelayReq port seq lane sent t2 s) := by
  delta execDelayReq
  try lift_lets
  repeat' first
    | with_reducible assumption
    | with_reducible apply steady_binNow
    | with_reducible apply steady_badMsg
    | with_reducible apply steady_transmit
    | with_reducible apply SteadyO.ite
    | with_reducible apply SteadyO.next

theorem steady_showExch {μ δ : Bool} {s₀ : State} (s : State) (h_s : Steady μ δ s₀ s) :
    Steady μ δ s₀ (s.showExch) := by
  delta State.showExch
  try lift_lets
  repeat' first
    | with_reducible assumption
    | (intro x; have hx : Steady μ δ s₀ x := ?_; (on_goal 1 => clear_value x); on_goal 2 => (subst x; try lift_lets))
    | (intro x; (fail_if_success have : State := x); clear_value x)
    | with_reducible apply steady_wrI
    | with_reducible apply Steady.ite
    | (with_reducible show 8 ≤ _; decide)

theorem steady_steer {μ δ : Bool} {s₀ : State} (s : State) (h_s : Steady μ δ s₀ s) :
    Steady μ δ s₀ (s.steer) := by
  unfold State.steer
  split
  · exact steady_wrI _ _ _ _ (steady_setTs _ _ h_s) (by decide)
  · exact h_s

theorem steady_lockStep {μ δ : Bool} {s₀ : State} (s : State) (theta : Int) (h_s : Steady μ δ s₀ s) :
    Steady μ δ s₀ (s.lockStep theta) := by
  delta State.lockStep
  try lift_lets
  repeat' first
    | with_reducible assumption
    | (intro x; have hx : Steady μ δ s₀ x := ?_; (on_goal 1 => clear_value x); on_goal 2 => (subst x; try lift_lets))
    | (intro x; (fail_if_success have : State := x); clear_value x)
    | with_reducible apply steady_setTs
    | with_reducible apply steady_setTsState
    | with_reducible apply steady_note
    | with_reducible apply steady_wr
    | with_reducible apply Steady.ite
    | (with_reducible show 8 ≤ _; decide)

theorem steady_execDelayResp {μ δ : Bool} {s₀ : State} (seq lane t2 : Nat) (t3 : Checked Nat 16) (t4 : Nat) (s : State) (h_s : Steady μ δ s₀ s) :
    SteadyO μ δ s₀ (execDelayResp seq lane t2 t3 t4 s) := by
  delta execDelayResp
  try lift_lets
  repeat' first
    | with_reducible assumption
    | (intro x; have hx : Steady μ δ s₀ x := ?_; (on_goal 1 => clear_value x); on_goal 2 => (subst x; try lift_lets))
    | (intro x; (fail_if_success have : State := x); clear_value x)
    | with_reducible apply steady_lockStep
    | with_reducible apply steady_steer
    | with_reducible apply steady_showExch
    | with_reducible apply steady_exchLost
    | with_reducible apply steady_syncInDomain
    | with_reducible apply steady_setTs
    | with_reducible apply steady_badMsg
    | with_reducible apply steady_note
    | with_reducible apply steady_count
    | with_reducible apply steady_wr
    | with_reducible apply SteadyO.ite
    | with_reducible apply SteadyO.next
    | (with_reducible show 8 ≤ _; decide)
    | (split <;> try lift_lets)
    | dsimp only

theorem steady_afterStep {μ δ : Bool} {s₀ : State} (s : State) (h_s : Steady μ δ s₀ s) :
    Steady μ δ s₀ (s.afterStep) := by
  delta State.afterStep
  try lift_lets
  repeat' first
    | with_reducible assumption
    | (intro x; have hx : Steady μ δ s₀ x := ?_; (on_goal 1 => clear_value x); on_goal 2 => (subst x; try lift_lets))
    | (intro x; (fail_if_success have : State := x); clear_value x)
    | with_reducible apply steady_syncInDomain
    | with_reducible apply steady_setSenseList
    | with_reducible apply steady_wr
    | with_reducible apply Steady.ite
    | with_reducible apply Steady.foldl
    | (with_reducible show 8 ≤ _; decide)
    | (intro x a hx; try lift_lets)

theorem steady_execTimeStep {μ δ : Bool} {s₀ : State} (s : State) (h_s : Steady μ δ s₀ s) :
    SteadyO μ δ s₀ (execTimeStep s) := by
  delta execTimeStep
  try lift_lets
  repeat' first
    | with_reducible assumption
    | (intro x; have hx : Steady μ δ s₀ x := ?_; (on_goal 1 => clear_value x); on_goal 2 => (subst x; try lift_lets))
    | (intro x; (fail_if_success have : State := x); clear_value x)
    | with_reducible apply steady_afterStep
    | with_reducible apply steady_showExch
    | with_reducible apply steady_setTs
    | with_reducible apply steady_setTsState
    | with_reducible apply SteadyO.ite
    | with_reducible exact Steady.mk_ (by assumption)
    | with_reducible apply SteadyO.next

theorem steady_execTsHoldExpire {μ δ : Bool} {s₀ : State} (s : State) (h_s : Steady μ δ s₀ s) :
    SteadyO μ δ s₀ (execTsHoldExpire s) := by
  delta execTsHoldExpire
  try lift_lets
  repeat' first
    | with_reducible assumption
    | with_reducible apply steady_syncInDomain
    | with_reducible apply SteadyO.ite
    | with_reducible apply SteadyO.next

theorem steady_sendSyn {μ δ : Bool} {s₀ : State} (s : State) (id : Nat) (event : Word) (h_s : Steady μ δ s₀ s) :
    Steady μ δ s₀ (s.sendSyn id event) := by
  delta State.sendSyn
  try lift_lets
  repeat' first
    | with_reducible assumption
    | with_reducible apply steady_binNow
    | with_reducible apply steady_transmit
    | with_reducible apply Steady.foldl
    | (intro x a hx; try lift_lets)

theorem steady_execSyncOutPulse {μ δ : Bool} {s₀ : State} (s : State) (h_s : Steady μ δ s₀ s) :
    SteadyO μ δ s₀ (execSyncOutPulse s) := by
  delta execSyncOutPulse
  try lift_lets
  repeat' first
    | with_reducible assumption
    | (intro x; (fail_if_success have : State := x); clear_value x)
    | with_reducible apply steady_sendSyn
    | with_reducible apply steady_setTs
    | with_reducible apply steady_draw
    | with_reducible apply steady_emit
    | with_reducible apply SteadyO.ite
    | with_reducible apply SteadyO.next

theorem steady_syncPair {μ δ : Bool} {s₀ : State} (s : State) (bins : Nat) (event : Word) (h_s : Steady μ δ s₀ s) :
    Steady μ δ s₀ (s.syncPair bins event) := by
  delta State.syncPair
  try lift_lets
  repeat' first
    | with_reducible assumption
    | (intro x; have hx : Steady μ δ s₀ x := ?_; (on_goal 1 => clear_value x); on_goal 2 => (subst x; try lift_lets))
    | (intro x; (fail_if_success have : State := x); clear_value x)
    | with_reducible apply steady_setTs
    | with_reducible apply steady_wrI
    | (with_reducible show 8 ≤ _; decide)

theorem steady_syncStamp {μ δ : Bool} {s₀ : State} (s : State) (bins : Nat) (h_s : Steady μ δ s₀ s) :
    Steady μ δ s₀ (s.syncStamp bins) := by
  delta State.syncStamp
  try lift_lets
  repeat' first
    | with_reducible assumption
    | (intro x; (fail_if_success have : State := x); clear_value x)
    | with_reducible apply steady_syncPair
    | with_reducible apply steady_setTs
    | with_reducible apply Steady.ite
    | (split <;> try lift_lets)

theorem steady_execSynReceive {μ δ : Bool} {s₀ : State} (port id : Nat) (event : Word) (sent : Checked (Nat × Nat) 16) (s : State) (h_s : Steady μ δ s₀ s) :
    SteadyO μ δ s₀ (execSynReceive port id event sent s) := by
  delta execSynReceive
  try lift_lets
  repeat' first
    | with_reducible assumption
    | (intro x; have hx : Steady μ δ s₀ x := ?_; (on_goal 1 => clear_value x); on_goal 2 => (subst x; try lift_lets))
    | (intro x; (fail_if_success have : State := x); clear_value x)
    | with_reducible apply steady_syncPair
    | with_reducible apply steady_sendSyn
    | with_reducible apply steady_setTs
    | with_reducible apply steady_badMsg
    | with_reducible apply Steady.ite
    | with_reducible apply SteadyO.ite
    | with_reducible apply SteadyO.next
    | (split <;> try lift_lets)

theorem steady_execSyncMissing {μ δ : Bool} {s₀ : State} (s : State) (h_s : Steady μ δ s₀ s) :
    SteadyO μ δ s₀ (execSyncMissing s) := by
  delta execSyncMissing
  try lift_lets
  repeat' first
    | with_reducible assumption
    | (intro x; (fail_if_success have : State := x); clear_value x)
    | with_reducible apply steady_setTs
    | with_reducible apply steady_note
    | with_reducible apply SteadyO.ite
    | with_reducible apply SteadyO.next
    | (split <;> try lift_lets)

theorem steady_execSyncCalDone {μ δ : Bool} {s₀ : State} (s : State) (h_s : Steady μ δ s₀ s) :
    SteadyO μ δ s₀ (execSyncCalDone s) := by
  delta execSyncCalDone
  try lift_lets
  repeat' first
    | with_reducible assumption
    | (intro x; have hx : Steady μ δ s₀ x := ?_; (on_goal 1 => clear_value x); on_goal 2 => (subst x; try lift_lets))
    | (intro x; (fail_if_success have : State := x); clear_value x)
    | with_reducible apply steady_setTs
    | with_reducible apply steady_ok
    | with_reducible apply steady_wrI
    | with_reducible apply SteadyO.ite
    | with_reducible apply SteadyO.next
    | (with_reducible show 8 ≤ _; decide)
    | (split <;> try lift_lets)

theorem steady_spineMark {μ δ : Bool} {s₀ : State} (s : State) (m width : Nat) (h_s : Steady μ δ s₀ s) :
    Steady μ δ s₀ (s.spineMark m width) := by
  delta State.spineMark
  try lift_lets
  repeat' first
    | with_reducible assumption
    | (intro x; (fail_if_success have : State := x); clear_value x)
    | with_reducible apply Steady.ite
    | with_reducible exact Steady.mk_ (by assumption)

theorem steady_eventArm {μ δ : Bool} {s₀ : State} (s : State) (t : Nat) (h_s : Steady μ δ s₀ s) :
    Steady μ δ s₀ (s.eventArm t) := by
  delta State.eventArm
  try lift_lets
  repeat' first
    | with_reducible assumption
    | with_reducible apply steady_applyCapArm
    | with_reducible apply Steady.ite

theorem steady_eventAction {μ δ : Bool} {s₀ : State} (s : State) (e : Nat) (h_s : Steady μ δ s₀ s) :
    Steady μ δ s₀ (s.eventAction e) := by
  delta State.eventAction
  try lift_lets
  repeat' first
    | with_reducible assumption
    | (intro x; (fail_if_success have : State := x); clear_value x)
    | with_reducible apply steady_eventArm
    | with_reducible apply steady_spineMark
    | with_reducible apply steady_releaseHeld
    | with_reducible apply steady_applyScanEn
    | with_reducible apply Steady.foldl
    | (intro x a hx; try lift_lets)
    | (split <;> try lift_lets)

theorem steady_eventArmed {μ δ : Bool} {s₀ : State} (s : State) (e : Nat) (h_s : Steady μ δ s₀ s) :
    Steady μ δ s₀ (s.eventArmed e) := by
  delta State.eventArmed
  try lift_lets
  repeat' first
    | with_reducible assumption
    | with_reducible apply steady_wr
    | with_reducible apply Steady.ite
    | (with_reducible show 8 ≤ _; decide)

theorem steady_execTimedEventFire {μ δ : Bool} {s₀ : State} (ev : Nat) (s : State) (h_s : Steady μ δ s₀ s) :
    SteadyO μ δ s₀ (execTimedEventFire ev s) := by
  delta execTimedEventFire
  try lift_lets
  repeat' first
    | with_reducible assumption
    | (intro x; have hx : Steady μ δ s₀ x := ?_; (on_goal 1 => clear_value x); on_goal 2 => (subst x; try lift_lets))
    | (intro x; (fail_if_success have : State := x); clear_value x)
    | with_reducible apply steady_eventAction
    | with_reducible apply steady_wr
    | with_reducible apply SteadyO.ite
    | with_reducible apply SteadyO.next
    | (with_reducible show 8 ≤ _; decide)

end Sys2Proof.Machine
end

