-- ==== Sys2Proof/Laws/SteadyThreads.lean ====
section
/-! SUPPORT. What every operation keeps (`Steady`): readout, threads, instructions and the micro-engine. -/

namespace Sys2Proof.Machine

/-! ## Readout -/

theorem steady_latchBefore {μ δ : Bool} {s₀ : State} (s : State) (n : Nat) (h_s : Steady μ δ s₀ s) :
    Steady μ δ s₀ (s.latchBefore n) := by
  delta State.latchBefore
  try lift_lets
  repeat' first
    | with_reducible assumption
    | with_reducible apply steady_updWindows

theorem steady_latchWindows {μ δ : Bool} {s₀ : State} (s : State) (h_s : Steady μ δ s₀ s) :
    Steady μ δ s₀ (s.latchWindows) := by
  delta State.latchWindows
  try lift_lets
  repeat' first
    | with_reducible assumption
    | with_reducible apply steady_latchBefore

theorem steady_windowResults {μ δ : Bool} {s₀ : State} (s : State) (w : Window) (v : WinLatch) (iq : Int × Int)
    (raw : Int × Int) (cls : Nat) (margin : Bool) (h_s : Steady μ δ s₀ s) :
    Steady μ δ s₀ (s.windowResults w v iq raw cls margin) := by
  delta State.windowResults
  try lift_lets
  repeat' first
    | with_reducible assumption
    | (intro x; (fail_if_success have : State := x); clear_value x)
    | with_reducible apply steady_stageRecord
    | with_reducible apply steady_updJob
    | with_reducible apply Steady.ite
    | with_reducible exact Steady.mk_ (by assumption)
    | (split <;> try lift_lets)

theorem steady_finishWindows {μ δ : Bool} {s₀ : State} (s : State) (h_s : Steady μ δ s₀ s) :
    Steady μ δ s₀ (s.finishWindows) := by
  delta State.finishWindows
  try lift_lets
  repeat' first
    | with_reducible assumption
    | (intro x; have hx : Steady μ δ s₀ x := ?_; (on_goal 1 => clear_value x); on_goal 2 => (subst x; try lift_lets))
    | (intro x; (fail_if_success have : State := x); clear_value x)
    | with_reducible apply steady_windowResults
    | with_reducible apply steady_setRegWord
    | with_reducible apply Steady.ite
    | with_reducible apply Steady.foldl
    | with_reducible exact Steady.mk_ (by assumption)
    | (with_reducible show 8 ≤ _; decide)
    | (intro x a hx; try lift_lets)
    | (split <;> try lift_lets)

theorem steady_putWindow {μ δ : Bool} {s₀ : State} (s : State) (w : Window) (h_s : Steady μ δ s₀ s) :
    Steady μ δ s₀ (s.putWindow w) := by
  delta State.putWindow
  try lift_lets
  repeat' first
    | with_reducible assumption
    | with_reducible apply steady_updWindows

theorem steady_noteSat {μ δ : Bool} {s₀ : State} (s : State) (w : Window) (sat : Bool) (h_s : Steady μ δ s₀ s) :
    Steady μ δ s₀ (s.noteSat w sat) := by
  delta State.noteSat
  try lift_lets
  repeat' first
    | with_reducible assumption
    | with_reducible apply steady_note
    | with_reducible apply steady_wr
    | with_reducible apply Steady.ite
    | (with_reducible show 8 ≤ _; decide)

theorem steady_classifyWindow {μ δ : Bool} {s₀ : State} (s : State) (w : Window) (iq : Int × Int) (sat : Bool)
    (eLast : Nat) (h_s : Steady μ δ s₀ s) :
    Steady μ δ s₀ (s.classifyWindow w iq sat eLast) := by
  delta State.classifyWindow
  try lift_lets
  repeat' first
    | with_reducible assumption
    | (intro x; have hx : Steady μ δ s₀ x := ?_; (on_goal 1 => clear_value x); on_goal 2 => (subst x; try lift_lets))
    | (intro x; (fail_if_success have : State := x); clear_value x)
    | with_reducible apply steady_noteSat
    | with_reducible apply steady_putWindow
    | with_reducible apply steady_publish
    | with_reducible apply steady_gapNow
    | with_reducible apply Steady.ite

theorem steady_correctGroup {μ δ : Bool} {s₀ : State} (s : State) (w : Window) (h_s : Steady μ δ s₀ s) :
    Steady μ δ s₀ (s.correctGroup w) := by
  delta State.correctGroup
  try lift_lets
  repeat' first
    | with_reducible assumption
    | (intro x; (fail_if_success have : State := x); clear_value x)
    | with_reducible apply steady_classifyWindow
    | with_reducible apply Steady.ite
    | with_reducible apply Steady.foldl
    | (intro x a hx; try lift_lets)

theorem steady_execWindowEnd {μ δ : Bool} {s₀ : State} (tile line tone : Nat) (codes : List Int) (s : State)
    (h_s : Steady μ δ s₀ s) :
    SteadyO μ δ s₀ (execWindowEnd tile line tone codes s) := by
  delta execWindowEnd
  try lift_lets
  repeat' first
    | with_reducible assumption
    | (intro x; (fail_if_success have : State := x); clear_value x)
    | with_reducible apply steady_correctGroup
    | with_reducible apply steady_classifyWindow
    | with_reducible apply steady_noteSat
    | with_reducible apply steady_putWindow
    | with_reducible apply SteadyO.ite
    | with_reducible apply SteadyO.next
    | (split <;> try lift_lets)

theorem steady_setGain {μ δ : Bool} {s₀ : State} (s : State) (t l g : Nat) (h_s : Steady μ δ s₀ s) :
    Steady μ δ s₀ (s.setGain t l g) := by
  delta State.setGain
  try lift_lets
  repeat' first
    | with_reducible assumption
    | (intro x; have hx : Steady μ δ s₀ x := ?_; (on_goal 1 => clear_value x); on_goal 2 => (subst x; try lift_lets))
    | (intro x; (fail_if_success have : State := x); clear_value x)
    | with_reducible apply steady_setLine
    | with_reducible apply steady_wr
    | with_reducible apply Steady.ite
    | (with_reducible show 8 ≤ _; decide)

theorem steady_execAgcStep {μ δ : Bool} {s₀ : State} (tile line : Nat) (s : State) (h_s : Steady μ δ s₀ s) :
    SteadyO μ δ s₀ (execAgcStep tile line s) := by
  delta execAgcStep
  try lift_lets
  repeat' first
    | with_reducible assumption
    | with_reducible apply steady_stage
    | with_reducible apply SteadyO.ite
    | with_reducible apply SteadyO.next

theorem steady_applyAgcStep {μ δ : Bool} {s₀ : State} (s : State) (t l : Nat) (h_s : Steady μ δ s₀ s) :
    Steady μ δ s₀ (s.applyAgcStep t l) := by
  delta State.applyAgcStep
  try lift_lets
  repeat' first
    | with_reducible assumption
    | (intro x; have hx : Steady μ δ s₀ x := ?_; (on_goal 1 => clear_value x); on_goal 2 => (subst x; try lift_lets))
    | (intro x; (fail_if_success have : State := x); clear_value x)
    | with_reducible apply steady_setGain
    | with_reducible apply steady_note
    | with_reducible apply steady_count
    | with_reducible apply steady_wr
    | with_reducible apply Steady.ite
    | (with_reducible show 8 ≤ _; decide)

theorem steady_overrangeTick {μ δ : Bool} {s₀ : State} (s : State) (t l : Nat) (h_s : Steady μ δ s₀ s) :
    Steady μ δ s₀ (s.overrangeTick t l) := by
  delta State.overrangeTick
  try lift_lets
  repeat' first
    | with_reducible assumption
    | with_reducible apply steady_count
    | with_reducible apply steady_wr
    | (with_reducible show 8 ≤ _; decide)

theorem steady_execSliceRotate {μ δ : Bool} {s₀ : State} (tile line : Nat) (s : State) (h_s : Steady μ δ s₀ s) :
    SteadyO μ δ s₀ (execSliceRotate tile line s) := by
  delta execSliceRotate
  try lift_lets
  repeat' first
    | with_reducible assumption
    | (intro x; have hx : Steady μ δ s₀ x := ?_; (on_goal 1 => clear_value x); on_goal 2 => (subst x; try lift_lets))
    | (intro x; (fail_if_success have : State := x); clear_value x)
    | with_reducible apply steady_setLine
    | with_reducible apply steady_wr
    | with_reducible apply SteadyO.ite
    | with_reducible apply SteadyO.next
    | (with_reducible show 8 ≤ _; decide)

theorem steady_execSliceSpareInPlace {μ δ : Bool} {s₀ : State} (tile line : Nat) (s : State) (h_s : Steady μ δ s₀ s) :
    SteadyO μ δ s₀ (execSliceSpareInPlace tile line s) := by
  delta execSliceSpareInPlace
  try lift_lets
  repeat' first
    | with_reducible assumption
    | (intro x; have hx : Steady μ δ s₀ x := ?_; (on_goal 1 => clear_value x); on_goal 2 => (subst x; try lift_lets))
    | (intro x; (fail_if_success have : State := x); clear_value x)
    | with_reducible apply steady_gapNow
    | with_reducible apply steady_setLine
    | with_reducible apply steady_wr
    | with_reducible apply Steady.ite
    | with_reducible apply SteadyO.next
    | (with_reducible show 8 ≤ _; decide)
    | (split <;> try lift_lets)

theorem steady_execXtSwap {μ δ : Bool} {s₀ : State} (tile line : Nat) (s : State) (h_s : Steady μ δ s₀ s) :
    SteadyO μ δ s₀ (execXtSwap tile line s) := by
  delta execXtSwap
  try lift_lets
  repeat' first
    | with_reducible assumption
    | with_reducible apply steady_stage
    | with_reducible apply steady_wr
    | with_reducible apply SteadyO.ite
    | with_reducible apply SteadyO.next
    | (with_reducible show 8 ≤ _; decide)

theorem steady_applyXtSwap {μ δ : Bool} {s₀ : State} (s : State) (t l : Nat) (h_s : Steady μ δ s₀ s) :
    Steady μ δ s₀ (s.applyXtSwap t l) := by
  delta State.applyXtSwap
  try lift_lets
  repeat' first
    | with_reducible assumption
    | (intro x; have hx : Steady μ δ s₀ x := ?_; (on_goal 1 => clear_value x); on_goal 2 => (subst x; try lift_lets))
    | with_reducible apply steady_wr
    | with_reducible apply steady_setRegWord
    | with_reducible apply Steady.foldl
    | (with_reducible show 8 ≤ _; decide)
    | (intro x a hx; try lift_lets)

theorem steady_weightWrite {μ δ : Bool} {s₀ : State} (s : State) (t l d : Nat) (v : Word) (h_s : Steady μ δ s₀ s) :
    Steady μ δ s₀ (s.weightWrite t l d v) := by
  delta State.weightWrite
  try lift_lets
  repeat' first
    | with_reducible assumption
    | (intro x; have hx : Steady μ δ s₀ x := ?_; (on_goal 1 => clear_value x); on_goal 2 => (subst x; try lift_lets))
    | (intro x; (fail_if_success have : State := x); clear_value x)
    | with_reducible apply steady_updWindows
    | with_reducible apply steady_wr
    | with_reducible apply Steady.ite
    | with_reducible exact Steady.mk_ (by assumption)
    | (with_reducible show 8 ≤ _; decide)

theorem steady_execWeightWrite {μ δ : Bool} {s₀ : State} (tile line d : Nat) (value : Word) (s : State)
    (h_s : Steady μ δ s₀ s) :
    SteadyO μ δ s₀ (execWeightWrite tile line d value s) := by
  delta execWeightWrite
  try lift_lets
  repeat' first
    | with_reducible assumption
    | with_reducible apply steady_weightWrite
    | with_reducible apply SteadyO.ite
    | with_reducible apply SteadyO.next

/-! ## CapTap -/

theorem steady_tapCodes {μ δ : Bool} {s₀ : State} (s : State) (t first : Nat) (codes : List Int)
    (h_s : Steady μ δ s₀ s) :
    Steady μ δ s₀ (s.tapCodes t first codes) := by
  delta State.tapCodes
  try lift_lets
  repeat' first
    | with_reducible assumption
    | (intro x; (fail_if_success have : State := x); clear_value x)
    | with_reducible apply steady_capFeed
    | with_reducible apply Steady.ite

theorem steady_tapLoop {μ δ : Bool} {s₀ : State} (s : State) (t : Nat) (h_s : Steady μ δ s₀ s) :
    Steady μ δ s₀ (s.tapLoop t) := by
  delta State.tapLoop
  try lift_lets
  repeat' first
    | with_reducible assumption
    | (intro x; have hx : Steady μ δ s₀ x := ?_; (on_goal 1 => clear_value x); on_goal 2 => (subst x; try lift_lets))
    | (intro x; (fail_if_success have : State := x); clear_value x)
    | with_reducible apply steady_capFeed
    | with_reducible apply steady_rearmEnd
    | with_reducible apply Steady.ite

theorem steady_tapLoops {μ δ : Bool} {s₀ : State} (s : State) (h_s : Steady μ δ s₀ s) :
    Steady μ δ s₀ (s.tapLoops) := by
  delta State.tapLoops
  try lift_lets
  repeat' first
    | with_reducible assumption
    | with_reducible apply steady_tapLoop
    | with_reducible apply Steady.foldl

theorem steady_execCapTrigger {μ δ : Bool} {s₀ : State} (t first : Nat) (codes : List Int) (s : State)
    (h_s : Steady μ δ s₀ s) :
    SteadyO μ δ s₀ (execCapTrigger t first codes s) := by
  delta execCapTrigger
  try lift_lets
  repeat' first
    | with_reducible assumption
    | with_reducible apply steady_tapCodes
    | with_reducible apply SteadyO.next

theorem steady_execCapRecordDone {δ : Bool} {s₀ : State} (t : Nat) (late : Samples) (gaps : List (Nat × Nat)) (s : State) (h_s : Steady true δ s₀ s) :
    SteadyO true δ s₀ (execCapRecordDone t late gaps s) := by
  delta execCapRecordDone
  try lift_lets
  repeat' first
    | with_reducible assumption
    | (intro x; have hx : Steady true δ s₀ x := ?_; (on_goal 1 => clear_value x); on_goal 2 => (subst x; try lift_lets))
    | (intro x; (fail_if_success have : State := x); clear_value x)
    | with_reducible apply steady_tapCodes
    | with_reducible apply steady_capFinish
    | with_reducible apply steady_setCap
    | with_reducible apply steady_note
    | with_reducible apply Steady.ite
    | with_reducible apply SteadyO.ite
    | with_reducible apply Steady.foldl
    | with_reducible apply SteadyO.next
    | (intro x a hx; try lift_lets)

/-! ## Threads -/

theorem steady_checkPc {μ δ : Bool} {s₀ : State} (s : State) (g : Nat) (h_s : Steady μ δ s₀ s) :
    Steady μ δ s₀ (s.checkPc g) := by
  delta State.checkPc
  try lift_lets
  repeat' first
    | with_reducible assumption
    | (intro x; (fail_if_success have : State := x); clear_value x)
    | with_reducible apply steady_endThread
    | with_reducible apply Steady.ite

theorem steady_slip {μ δ : Bool} {s₀ : State} (s : State) (g : Nat) (h_s : Steady μ δ s₀ s) :
    Steady μ δ s₀ (s.slip g) := by
  delta State.slip
  try lift_lets
  repeat' first
    | with_reducible assumption
    | (intro x; have hx : Steady μ δ s₀ x := ?_; (on_goal 1 => clear_value x); on_goal 2 => (subst x; try lift_lets))
    | with_reducible apply steady_endThread
    | with_reducible apply steady_updThr
    | with_reducible apply steady_note

theorem steady_showMchk {μ δ : Bool} {s₀ : State} (s : State) (g addr cause : Nat) (bank reload hard : Bool)
    (h_s : Steady μ δ s₀ s) :
    Steady μ δ s₀ (s.showMchk g addr cause bank reload hard) := by
  delta State.showMchk
  try lift_lets
  repeat' first
    | with_reducible assumption
    | (intro x; have hx : Steady μ δ s₀ x := ?_; (on_goal 1 => clear_value x); on_goal 2 => (subst x; try lift_lets))
    | (intro x; (fail_if_success have : State := x); clear_value x)
    | with_reducible apply steady_count
    | with_reducible apply steady_wrB
    | with_reducible apply steady_wr
    | (with_reducible show 8 ≤ _; decide)

theorem steady_codeCheck {μ δ : Bool} {s₀ : State} (s : State) (g addr cause : Nat) (h_s : Steady μ δ s₀ s) :
    Steady μ δ s₀ (s.codeCheck g addr cause) := by
  delta State.codeCheck
  try lift_lets
  repeat' first
    | with_reducible assumption
    | (intro x; have hx : Steady μ δ s₀ x := ?_; (on_goal 1 => clear_value x); on_goal 2 => (subst x; try lift_lets))
    | with_reducible apply steady_showMchk
    | with_reducible apply steady_endThread
    | with_reducible apply steady_note

theorem steady_unstage {μ δ : Bool} {s₀ : State} (s : State) (gc : Nat) (h_s : Steady μ δ s₀ s) :
    Steady μ δ s₀ (s.unstage gc) := by
  delta State.unstage
  try lift_lets
  repeat' first
    | with_reducible assumption
    | (intro x; have hx : Steady μ δ s₀ x := ?_; (on_goal 1 => clear_value x); on_goal 2 => (subst x; try lift_lets))
    | (intro x; (fail_if_success have : State := x); clear_value x)
    | with_reducible apply steady_emit
    | with_reducible apply steady_wr
    | with_reducible apply Steady.ite
    | with_reducible exact Steady.mk_ (by assumption)
    | (with_reducible show 8 ≤ _; decide)
    | (split <;> try lift_lets)

theorem steady_hardFail {s₀ : State} (s : State) (g : Nat) (store : StoreKind) (b : Bool)
    (h_s : Steady true true s₀ s) :
    Steady true true s₀ (s.hardFail g store b) := by
  delta State.hardFail
  try lift_lets
  repeat' first
    | with_reducible assumption
    | (intro x; have hx : Steady true true s₀ x := ?_; (on_goal 1 => clear_value x); on_goal 2 => (subst x; try lift_lets))
    | (intro x; (fail_if_success have : State := x); clear_value x)
    | with_reducible apply steady_unstage
    | with_reducible apply steady_fault
    | with_reducible apply Steady.ite
    | with_reducible exact Steady.mk_ (by assumption)

theorem steady_storeCheck {s₀ : State} (s : State) (g : Nat) (store : StoreKind) (a : Nat)
    (h_s : Steady true true s₀ s) :
    Steady true true s₀ (s.storeCheck g store a) := by
  delta State.storeCheck
  try lift_lets
  repeat' first
    | with_reducible assumption
    | (intro x; have hx : Steady true true s₀ x := ?_; (on_goal 1 => clear_value x); on_goal 2 => (subst x; try lift_lets))
    | (intro x; (fail_if_success have : State := x); clear_value x)
    | with_reducible apply steady_hardFail
    | with_reducible apply steady_showMchk
    | with_reducible apply steady_endThread
    | with_reducible apply steady_updJob
    | with_reducible apply Steady.ite
    | with_reducible exact Steady.mk_ (by assumption)
    | (split <;> try lift_lets)

theorem steady_nanoCorrected {μ δ : Bool} {s₀ : State} (s : State) (g : Nat) (h_s : Steady μ δ s₀ s) :
    Steady μ δ s₀ (s.nanoCorrected g) := by
  delta State.nanoCorrected
  try lift_lets
  repeat' first
    | with_reducible assumption
    | with_reducible apply steady_note
    | with_reducible apply steady_count
    | (with_reducible show 8 ≤ _; decide)

theorem steady_endBy {s₀ : State} (s : State) (g : Nat) (e : Ending) (h_s : Steady true true s₀ s) :
    Steady true true s₀ (s.endBy g e) := by
  delta State.endBy
  try lift_lets
  repeat' first
    | with_reducible assumption
    | with_reducible apply steady_storeCheck
    | with_reducible apply steady_codeCheck
    | with_reducible apply steady_endThread
    | (split <;> try lift_lets)

theorem steady_issueWord {s₀ : State} (s : State) (g : Nat) (ok : GateWord → Bool) (cost : State → GateWord → Nat)
    (fetch : State → GateWord → State) (body : State → GateWord → Except Ending State) (h_s : Steady true true s₀ s)
    (h_fetch : ∀ x a, Steady true true s₀ x → Steady true true s₀ (fetch x a))
    (h_body : ∀ x a y, Steady true true s₀ x → body x a = .ok y → Steady true true s₀ y) :
    Steady true true s₀ (s.issueWord g ok cost fetch body) := by
  unfold State.issueWord
  dsimp only
  split
  · split
    · exact steady_endThread _ _ _ _ h_s
    split
    · exact steady_slip _ _ h_s
    have h1 := h_fetch _ (s.gateAt (thrGc g) (s.thr g).pc)
      (steady_setThr s g ((s.thr g).charge (cost s (s.gateAt (thrGc g) (s.thr g).pc))) h_s)
    split
    · exact steady_checkPc _ _ (h_body _ _ _ h1 (by assumption))
    · exact steady_endBy _ _ _ h1
  · exact h_s

theorem steady_issueOp {s₀ : State} (s : State) (g : Nat) (ev : FetchEv) (op : Nat) (cost : GateWord → Nat)
    (body : State → GateWord → Except Nat State) (h_s : Steady true true s₀ s)
    (h_body : ∀ x a, Steady true true s₀ x → SteadyE true true s₀ (body x a)) :
    Steady true true s₀ (s.issueOp g ev op cost body) := by
  refine steady_issueWord _ _ _ _ _ _ h_s (fun x a hx => hx) (fun x a y hx e => ?_)
  have h1 := h_body _ a (steady_updThr x g Thread.advance hx)
  revert e h1
  generalize body _ a = o
  intro e h1
  split at e
  · cases e
  · cases o with
    | ok z => cases e; exact h1
    | error n => cases e

theorem steady_flagShot {μ δ : Bool} {s₀ : State} (s : State) (g shot i : Nat) (h_s : Steady μ δ s₀ s) :
    Steady μ δ s₀ (s.flagShot g shot i) := by
  delta State.flagShot
  try lift_lets
  repeat' first
    | with_reducible assumption
    | with_reducible apply steady_updThr

theorem steady_commitOut {μ δ : Bool} {s₀ : State} (s : State) (k : OutKind) (t c : Nat) (h_s : Steady μ δ s₀ s) :
    Steady μ δ s₀ (s.commitOut k t c) := by
  delta State.commitOut
  try lift_lets
  repeat' first
    | with_reducible assumption
    | with_reducible apply steady_commitOn
    | (split <;> try lift_lets)

theorem steady_placePulse {μ δ : Bool} {s₀ : State} (s : State) (p : Pulse) (h_s : Steady μ δ s₀ s) :
    Steady μ δ s₀ (s.placePulse p) := by
  delta State.placePulse
  try lift_lets
  repeat' first
    | with_reducible assumption
    | (intro x; have hx : Steady μ δ s₀ x := ?_; (on_goal 1 => clear_value x); on_goal 2 => (subst x; try lift_lets))
    | (intro x; (fail_if_success have : State := x); clear_value x)
    | with_reducible apply steady_commitOut
    | with_reducible apply steady_flagShot
    | with_reducible apply steady_startOn
    | with_reducible apply Steady.ite
    | with_reducible apply Steady.foldl
    | with_reducible exact Steady.mk_ (by assumption)
    | (intro x a hx; try lift_lets)

theorem steady_relatchPulses {μ δ : Bool} {s₀ : State} (s : State) (from_ : Nat) (h_s : Steady μ δ s₀ s) :
    Steady μ δ s₀ (s.relatchPulses from_) := by
  delta State.relatchPulses
  try lift_lets
  repeat' first
    | (intro x; (fail_if_success have : State := x); clear_value x)
    | with_reducible exact Steady.mk_ (by assumption)

theorem steady_beginPulses {μ δ : Bool} {s₀ : State} (s : State) (h_s : Steady μ δ s₀ s) :
    Steady μ δ s₀ (s.beginPulses) := by
  delta State.beginPulses
  try lift_lets
  repeat' first
    | with_reducible assumption
    | (intro x; have hx : Steady μ δ s₀ x := ?_; (on_goal 1 => clear_value x); on_goal 2 => (subst x; try lift_lets))
    | (intro x; (fail_if_success have : State := x); clear_value x)
    | with_reducible apply steady_startOn
    | with_reducible apply Steady.foldl
    | with_reducible exact Steady.mk_ (by assumption)
    | (intro x a hx; try lift_lets)

theorem steady_emitPulse {μ δ : Bool} {s₀ : State} (s : State) (g : Nat) (n : Nano) (h_s : Steady μ δ s₀ s) :
    SteadyE μ δ s₀ (s.emitPulse g n) := by
  delta State.emitPulse
  try lift_lets
  repeat' first
    | with_reducible assumption
    | (intro x; have hf : ∀ t, Steady μ δ s₀ t → Steady μ δ s₀ (x t) := ?_; (on_goal 1 => clear_value x); on_goal 2 => (subst x; intro t h; beta_reduce; try lift_lets))
    | (intro x; (fail_if_success have : State := x); clear_value x)
    | with_reducible apply steady_placePulse
    | with_reducible apply steady_tapStream
    | with_reducible apply steady_envRead
    | with_reducible apply steady_placeCode
    | with_reducible apply steady_startOn
    | with_reducible apply hf
    | with_reducible apply Steady.foldl
    | with_reducible apply SteadyE.ok
    | with_reducible exact SteadyE.error
    | with_reducible apply SteadyE.ite
    | with_reducible refine SteadyOpt.elim ?_ (by assumption)
    | (split <;> try lift_lets)

theorem steady_sweepFreq {μ δ : Bool} {s₀ : State} (s : State) (g chm lane slot : Nat) (v : Word)
    (h_s : Steady μ δ s₀ s) :
    Steady μ δ s₀ (s.sweepFreq g chm lane slot v) := by
  delta State.sweepFreq
  try lift_lets
  repeat' first
    | with_reducible assumption
    | (intro x; (fail_if_success have : State := x); clear_value x)
    | with_reducible apply steady_wr
    | with_reducible apply Steady.foldl
    | (with_reducible show 8 ≤ _; decide)
    | (intro x a hx; try lift_lets)

theorem steady_markEdges {μ δ : Bool} {s₀ : State} (s : State) (g chm val mask soff : Nat) (h_s : Steady μ δ s₀ s) :
    Steady μ δ s₀ (s.markEdges g chm val mask soff) := by
  delta State.markEdges
  try lift_lets
  repeat' first
    | with_reducible assumption
    | (intro x; have hx : Steady μ δ s₀ x := ?_; (on_goal 1 => clear_value x); on_goal 2 => (subst x; try lift_lets))
    | (intro x; (fail_if_success have : State := x); clear_value x)
    | with_reducible apply steady_setThr
    | with_reducible apply Steady.foldl
    | with_reducible exact Steady.mk_ (by assumption)
    | (intro x a hx; try lift_lets)

theorem steady_advanceGen {μ δ : Bool} {s₀ : State} (s : State) (g gen : Nat) (h_s : Steady μ δ s₀ s) :
    SteadyEW μ δ s₀ (s.advanceGen g gen) := by
  delta State.advanceGen
  try lift_lets
  repeat' first
    | with_reducible assumption
    | with_reducible apply steady_genAdvance
    | with_reducible apply SteadyEW.ok
    | with_reducible exact SteadyEW.error
    | with_reducible apply SteadyEW.ite

theorem steady_pubSlot {μ δ : Bool} {s₀ : State} (s : State) (g p cls : Nat) (h_s : Steady μ δ s₀ s) :
    SteadyE μ δ s₀ (s.pubSlot g p cls) := by
  delta State.pubSlot
  try lift_lets
  repeat' first
    | with_reducible assumption
    | (intro x; (fail_if_success have : State := x); clear_value x)
    | with_reducible apply steady_publish
    | with_reducible apply SteadyE.ok
    | with_reducible exact SteadyE.error
    | with_reducible apply SteadyE.ite

theorem steady_openWindow {μ δ : Bool} {s₀ : State} (s : State) (g line tone set w0 widx : Nat) (nodec nores : Bool)
    (h_s : Steady μ δ s₀ s) :
    Steady μ δ s₀ (s.openWindow g line tone set w0 widx nodec nores) := by
  delta State.openWindow
  try lift_lets
  repeat' first
    | with_reducible assumption
    | (intro x; have hx : Steady μ δ s₀ x := ?_; (on_goal 1 => clear_value x); on_goal 2 => (subst x; try lift_lets))
    | (intro x; (fail_if_success have : State := x); clear_value x)
    | with_reducible apply steady_publish
    | with_reducible apply steady_commitOn
    | with_reducible apply steady_updThr
    | with_reducible apply Steady.ite
    | with_reducible exact Steady.mk_ (by assumption)

theorem steady_openWindows {μ δ : Bool} {s₀ : State} (s : State) (g line tmask set soff : Nat) (nodec nores : Bool)
    (h_s : Steady μ δ s₀ s) :
    Steady μ δ s₀ (s.openWindows g line tmask set soff nodec nores) := by
  delta State.openWindows
  try lift_lets
  repeat' first
    | with_reducible assumption
    | (intro x; have hx : Steady μ δ s₀ x := ?_; (on_goal 1 => clear_value x); on_goal 2 => (subst x; try lift_lets))
    | (intro x; (fail_if_success have : State := x); clear_value x)
    | with_reducible apply steady_openWindow
    | with_reducible apply steady_setLine
    | with_reducible apply Steady.ite
    | with_reducible apply Steady.foldl
    | with_reducible exact Steady.mk_ (by assumption)
    | (intro x a hx; try lift_lets)

theorem steady_resumeThread {μ δ : Bool} {s₀ : State} (s : State) (g tick : Nat) (h_s : Steady μ δ s₀ s) :
    Steady μ δ s₀ (s.resumeThread g tick) := by
  delta State.resumeThread
  try lift_lets
  repeat' first
    | with_reducible assumption
    | with_reducible apply steady_checkPc
    | with_reducible apply steady_updThr

theorem steady_waitFor {μ δ : Bool} {s₀ : State} (s : State) (g n : Nat) (custom : Bool) (h_s : Steady μ δ s₀ s) :
    SteadyE μ δ s₀ (s.waitFor g n custom) := by
  delta State.waitFor
  try lift_lets
  repeat' first
    | with_reducible assumption
    | with_reducible apply steady_updThr
    | with_reducible apply SteadyE.ok
    | with_reducible exact SteadyE.error
    | with_reducible apply SteadyE.ite

theorem steady_waitUntil {μ δ : Bool} {s₀ : State} (s : State) (g target : Nat) (custom : Bool)
    (h_s : Steady μ δ s₀ s) :
    Steady μ δ s₀ (s.waitUntil g target custom) := by
  delta State.waitUntil
  try lift_lets
  repeat' first
    | with_reducible assumption
    | (intro x; (fail_if_success have : State := x); clear_value x)
    | with_reducible apply steady_setThr
    | with_reducible apply Steady.ite

theorem steady_barWaiting {μ δ : Bool} {s₀ : State} (s : State) (b : Nat) (tiles : List Nat) (v : Bool)
    (h_s : Steady μ δ s₀ s) :
    Steady μ δ s₀ (s.barWaiting b tiles v) := by
  delta State.barWaiting
  try lift_lets
  repeat' first
    | with_reducible assumption
    | with_reducible apply steady_wrB
    | with_reducible apply Steady.foldl
    | (with_reducible show 8 ≤ _; decide)
    | (intro x a hx; try lift_lets)

theorem steady_arrive {μ δ : Bool} {s₀ : State} (s : State) (g b : Nat) (at_ : Bool) (val : Nat) (custom : Bool)
    (h_s : Steady μ δ s₀ s) :
    SteadyE μ δ s₀ (s.arrive g b at_ val custom) := by
  delta State.arrive
  try lift_lets
  repeat' first
    | with_reducible assumption
    | (intro x; (fail_if_success have : State := x); clear_value x)
    | with_reducible apply steady_barWaiting
    | with_reducible apply steady_setThr
    | with_reducible apply SteadyE.ok
    | with_reducible exact SteadyE.error
    | with_reducible apply SteadyE.ite

theorem steady_awaitBrd {μ δ : Bool} {s₀ : State} (s : State) (g slot num take tgt dl lact : Nat) (custom : Bool)
    (h_s : Steady μ δ s₀ s) :
    Steady μ δ s₀ (s.awaitBrd g slot num take tgt dl lact custom) := by
  delta State.awaitBrd
  try lift_lets
  repeat' first
    | with_reducible assumption
    | (intro x; (fail_if_success have : State := x); clear_value x)
    | with_reducible apply steady_updThr

theorem steady_awaitTrig {μ δ : Bool} {s₀ : State} (s : State) (g src tmo tact tgt : Nat) (custom : Bool)
    (h_s : Steady μ δ s₀ s) :
    Steady μ δ s₀ (s.awaitTrig g src tmo tact tgt custom) := by
  delta State.awaitTrig
  try lift_lets
  repeat' first
    | with_reducible assumption
    | (intro x; (fail_if_success have : State := x); clear_value x)
    | with_reducible apply steady_setThr

theorem steady_execWaitRelease {μ δ : Bool} {s₀ : State} (thr : Nat) (s : State) (h_s : Steady μ δ s₀ s) :
    SteadyO μ δ s₀ (execWaitRelease thr s) := by
  delta execWaitRelease
  try lift_lets
  repeat' first
    | with_reducible assumption
    | with_reducible apply steady_resumeThread
    | with_reducible apply SteadyO.ite
    | with_reducible apply SteadyO.next
    | (split <;> try lift_lets)

theorem steady_execBarrierRelease {μ δ : Bool} {s₀ : State} (bar : Nat) (s : State) (h_s : Steady μ δ s₀ s) :
    SteadyO μ δ s₀ (execBarrierRelease bar s) := by
  delta execBarrierRelease
  try lift_lets
  repeat' first
    | with_reducible assumption
    | (intro x; (fail_if_success have : State := x); clear_value x)
    | with_reducible apply steady_barWaiting
    | with_reducible apply steady_resumeThread
    | with_reducible apply SteadyO.ite
    | with_reducible apply Steady.foldl
    | with_reducible apply SteadyO.next
    | (intro x a hx; try lift_lets)
    | (split <;> try lift_lets)

theorem steady_execSyncTimeout {μ δ : Bool} {s₀ : State} (thr : Nat) (s : State) (h_s : Steady μ δ s₀ s) :
    SteadyO μ δ s₀ (execSyncTimeout thr s) := by
  delta execSyncTimeout
  try lift_lets
  repeat' first
    | with_reducible assumption
    | with_reducible apply steady_endThread
    | with_reducible apply SteadyO.ite
    | with_reducible apply SteadyO.next
    | (split <;> try lift_lets)
    | dsimp only

theorem steady_execSyncMiss {μ δ : Bool} {s₀ : State} (bar : Nat) (s : State) (h_s : Steady μ δ s₀ s) :
    SteadyO μ δ s₀ (execSyncMiss bar s) := by
  delta execSyncMiss
  try lift_lets
  repeat' first
    | with_reducible assumption
    | with_reducible apply steady_endThread
    | with_reducible apply SteadyO.ite
    | with_reducible apply Steady.foldl
    | with_reducible apply SteadyO.next
    | (intro x a hx; try lift_lets)
    | (split <;> try lift_lets)

theorem steady_execBrdResolve {μ δ : Bool} {s₀ : State} (thr : Nat) (s : State) (h_s : Steady μ δ s₀ s) :
    SteadyO μ δ s₀ (execBrdResolve thr s) := by
  delta execBrdResolve
  try lift_lets
  repeat' first
    | with_reducible assumption
    | (intro x; have hx : Steady μ δ s₀ x := ?_; (on_goal 1 => clear_value x); on_goal 2 => (subst x; try lift_lets))
    | with_reducible apply steady_resumeThread
    | with_reducible apply steady_updThr
    | with_reducible apply Steady.ite
    | with_reducible apply SteadyO.ite
    | with_reducible apply SteadyO.next
    | (split <;> try lift_lets)

theorem steady_execBrdLate {μ δ : Bool} {s₀ : State} (thr : Nat) (s : State) (h_s : Steady μ δ s₀ s) :
    SteadyO μ δ s₀ (execBrdLate thr s) := by
  delta execBrdLate
  try lift_lets
  repeat' first
    | with_reducible assumption
    | (intro x; have hx : Steady μ δ s₀ x := ?_; (on_goal 1 => clear_value x); on_goal 2 => (subst x; try lift_lets))
    | with_reducible apply steady_resumeThread
    | with_reducible apply steady_endThread
    | with_reducible apply steady_updThr
    | with_reducible apply Steady.ite
    | with_reducible apply SteadyO.ite
    | with_reducible apply SteadyO.next
    | (split <;> try lift_lets)
    | dsimp only

theorem steady_trigEdge {μ δ : Bool} {s₀ : State} (s : State) (src tick : Nat) (h_s : Steady μ δ s₀ s) :
    Steady μ δ s₀ (s.trigEdge src tick) := by
  delta State.trigEdge
  try lift_lets
  repeat' first
    | with_reducible exact Steady.mk_ (by assumption)

theorem steady_execTrigRelease {μ δ : Bool} {s₀ : State} (thr : Nat) (s : State) (h_s : Steady μ δ s₀ s) :
    SteadyO μ δ s₀ (execTrigRelease thr s) := by
  delta execTrigRelease
  try lift_lets
  repeat' first
    | with_reducible assumption
    | with_reducible apply steady_resumeThread
    | with_reducible apply SteadyO.ite
    | with_reducible apply SteadyO.next
    | (split <;> try lift_lets)

theorem steady_execTrigTimeout {μ δ : Bool} {s₀ : State} (thr : Nat) (s : State) (h_s : Steady μ δ s₀ s) :
    SteadyO μ δ s₀ (execTrigTimeout thr s) := by
  delta execTrigTimeout
  try lift_lets
  repeat' first
    | with_reducible assumption
    | with_reducible apply steady_resumeThread
    | with_reducible apply steady_endThread
    | with_reducible apply steady_updThr
    | with_reducible apply Steady.ite
    | with_reducible apply SteadyO.ite
    | with_reducible apply SteadyO.next
    | (split <;> try lift_lets)
    | dsimp only

theorem steady_execWaitsRelease {μ δ : Bool} {s₀ : State} (thr : Nat) (s : State) (h_s : Steady μ δ s₀ s) :
    SteadyO μ δ s₀ (execWaitsRelease thr s) := by
  delta execWaitsRelease
  try lift_lets
  repeat' first
    | with_reducible assumption
    | with_reducible apply steady_resumeThread
    | with_reducible apply SteadyO.ite
    | with_reducible apply SteadyO.next
    | (split <;> try lift_lets)

theorem steady_execWaitsTimeout {μ δ : Bool} {s₀ : State} (thr : Nat) (s : State) (h_s : Steady μ δ s₀ s) :
    SteadyO μ δ s₀ (execWaitsTimeout thr s) := by
  delta execWaitsTimeout
  try lift_lets
  repeat' first
    | with_reducible assumption
    | (intro x; (fail_if_success have : State := x); clear_value x)
    | with_reducible apply steady_underrunShot
    | with_reducible apply steady_endThread
    | with_reducible apply SteadyO.ite
    | with_reducible apply SteadyO.next
    | (split <;> try lift_lets)

theorem steady_execPeerStop {μ δ : Bool} {s₀ : State} (thr : Nat) (s : State) (h_s : Steady μ δ s₀ s) :
    SteadyO μ δ s₀ (execPeerStop thr s) := by
  delta execPeerStop
  try lift_lets
  repeat' first
    | with_reducible assumption
    | with_reducible apply steady_endThread
    | with_reducible apply SteadyO.next
    | (split <;> try lift_lets)

theorem steady_execMchkReloadDone {μ δ : Bool} {s₀ : State} (tile cluster : Nat) (store : StoreKind) (bank : Bool)
    (addr : Nat) (s : State) (h_s : Steady μ δ s₀ s) :
    SteadyO μ δ s₀ (execMchkReloadDone tile cluster store bank addr s) := by
  delta execMchkReloadDone
  try lift_lets
  repeat' first
    | with_reducible assumption
    | (intro x; have hx : Steady μ δ s₀ x := ?_; (on_goal 1 => clear_value x); on_goal 2 => (subst x; try lift_lets))
    | (intro x; (fail_if_success have : State := x); clear_value x)
    | with_reducible apply steady_note
    | with_reducible apply steady_wr
    | with_reducible apply Steady.ite
    | with_reducible apply SteadyO.ite
    | with_reducible exact Steady.mk_ (by assumption)
    | with_reducible apply SteadyO.next
    | (with_reducible show 8 ≤ _; decide)

theorem steady_fillBank {μ δ : Bool} {s₀ : State} (s : State) (gc : Nat) (store : StoreKind) (from_ : Bool)
    (h_s : Steady μ δ s₀ s) :
    Steady μ δ s₀ (s.fillBank gc store from_) := by
  delta State.fillBank
  try lift_lets
  repeat' first
    | (intro x; (fail_if_success have : State := x); clear_value x)
    | with_reducible exact Steady.mk_ (by assumption)
    | (split <;> try lift_lets)

theorem steady_setBank {μ δ : Bool} {s₀ : State} (s : State) (g : Nat) (store : StoreKind) (b : Bool)
    (h_s : Steady μ δ s₀ s) :
    Steady μ δ s₀ (s.setBank g store b) := by
  delta State.setBank
  try lift_lets
  repeat' first
    | with_reducible assumption
    | (with_reducible show 8 ≤ _; cases store <;> decide)
    | with_reducible apply steady_wr

theorem steady_markFilled {μ δ : Bool} {s₀ : State} (s : State) (r : BankRepl) (h_s : Steady μ δ s₀ s) :
    Steady μ δ s₀ (s.markFilled r) := by
  delta State.markFilled
  try lift_lets
  repeat' first
    | (intro x; (fail_if_success have : State := x); clear_value x)
    | with_reducible exact Steady.mk_ (by assumption)

theorem steady_moveReplaced {μ δ : Bool} {s₀ : State} (s : State) (r : BankRepl) (at_ : Nat → Bool)
    (h_s : Steady μ δ s₀ s) :
    Steady μ δ s₀ (s.moveReplaced r at_) := by
  delta State.moveReplaced
  try lift_lets
  repeat' first
    | with_reducible assumption
    | (intro x; have hx : Steady μ δ s₀ x := ?_; (on_goal 1 => clear_value x); on_goal 2 => (subst x; try lift_lets))
    | (with_reducible show 8 ≤ _; cases r.store <;> cases r.bank <;> decide)
    | (intro x; (fail_if_success have : State := x); clear_value x)
    | with_reducible apply steady_setBank
    | with_reducible apply steady_advise
    | with_reducible apply steady_note
    | with_reducible apply steady_wr
    | with_reducible apply Steady.ite
    | with_reducible apply Steady.foldl
    | with_reducible exact Steady.mk_ (by assumption)
    | (intro x a hx; try lift_lets)

theorem steady_execBankReplaceDone {μ δ : Bool} {s₀ : State} (tile cluster : Nat) (store : StoreKind) (s : State)
    (h_s : Steady μ δ s₀ s) :
    SteadyO μ δ s₀ (execBankReplaceDone tile cluster store s) := by
  delta execBankReplaceDone
  try lift_lets
  repeat' first
    | with_reducible assumption
    | (intro x; (fail_if_success have : State := x); clear_value x)
    | with_reducible apply steady_moveReplaced
    | with_reducible apply steady_markFilled
    | with_reducible apply steady_fillBank
    | with_reducible apply SteadyO.next
    | (split <;> try lift_lets)

/-! ## Gates -/

theorem steadyE_map {μ δ : Bool} {s₀ : State} {α : Type} {f : α → State} {o : Except Nat α}
    (h : ∀ a, o = .ok a → Steady μ δ s₀ (f a)) :
    SteadyE μ δ s₀ (o.map f) := by
  cases o with
  | ok a => exact h a rfl
  | error n => exact trivial

theorem steady_execPlay {s₀ : State} (thr : Nat) (ev : FetchEv) (s : State) (h_s : Steady true true s₀ s) :
    SteadyO true true s₀ (execPlay thr ev s) := by
  refine steady_issueWord s thr _ _ _ _ h_s (fun x a hx => ?_) (fun x a y hx e => ?_)
  · exact Steady.ite (steady_nanoCorrected _ _ hx) hx
  dsimp only at e
  split at e
  · cases e
  · have h1 := steady_emitPulse _ thr (playNano (x.thr thr) a
      (decodeNano (x.nanoAt (thrGc thr) (x.nBank thr) (opr a 46 12)))) (steady_updThr x thr Thread.advance hx)
    revert e h1
    generalize (x.updThr thr Thread.advance).emitPulse thr _ = r
    intro e h1
    cases r with
    | ok z => cases e; exact h1
    | error n => cases e

theorem steady_execFrame {s₀ : State} (f : Fetch) (s : State) (h_s : Steady true true s₀ s) :
    SteadyO true true s₀ (execFrame f s) := by
  delta execFrame
  try lift_lets
  repeat' first
    | with_reducible assumption
    | with_reducible apply SteadyE.ok
    | with_reducible apply steady_issueOp
    | with_reducible apply steady_setThr
    | with_reducible apply SteadyO.next
    | (intro x a hx; try lift_lets)

theorem steady_execSetf {s₀ : State} (f : Fetch) (s : State) (h_s : Steady true true s₀ s) :
    SteadyO true true s₀ (execSetf f s) := by
  delta execSetf
  try lift_lets
  repeat' first
    | with_reducible assumption
    | with_reducible apply SteadyE.ok
    | with_reducible apply steady_issueOp
    | with_reducible apply steady_updThr
    | with_reducible apply SteadyO.next
    | (intro x a hx; try lift_lets)

theorem steady_execWait {s₀ : State} (f : Fetch) (s : State) (h_s : Steady true true s₀ s) :
    SteadyO true true s₀ (execWait f s) := by
  delta execWait
  try lift_lets
  repeat' first
    | with_reducible assumption
    | with_reducible apply SteadyE.ok
    | (with_reducible show SteadyE _ _ _ _; split <;> try lift_lets)
    | with_reducible apply steady_waitUntil
    | with_reducible apply steady_waitFor
    | with_reducible apply steady_issueOp
    | with_reducible apply SteadyO.next
    | (intro x a hx; try lift_lets)

theorem steady_execSync {s₀ : State} (f : Fetch) (s : State) (h_s : Steady true true s₀ s) :
    SteadyO true true s₀ (execSync f s) := by
  delta execSync
  try lift_lets
  repeat' first
    | with_reducible assumption
    | with_reducible apply steady_arrive
    | with_reducible apply steady_issueOp
    | with_reducible apply SteadyO.next
    | (intro x a hx; try lift_lets)

theorem steady_execMeas {s₀ : State} (f : Fetch) (s : State) (h_s : Steady true true s₀ s) :
    SteadyO true true s₀ (execMeas f s) := by
  delta execMeas
  try lift_lets
  repeat' first
    | with_reducible assumption
    | with_reducible apply SteadyE.ok
    | with_reducible apply steady_openWindows
    | with_reducible apply steady_issueOp
    | with_reducible apply SteadyO.next
    | (intro x a hx; try lift_lets)

theorem steady_execBrd {s₀ : State} (f : Fetch) (s : State) (h_s : Steady true true s₀ s) :
    SteadyO true true s₀ (execBrd f s) := by
  delta execBrd
  try lift_lets
  repeat' first
    | with_reducible assumption
    | with_reducible apply SteadyE.ok
    | with_reducible apply steady_awaitBrd
    | with_reducible apply steady_issueOp
    | with_reducible apply SteadyO.next
    | (intro x a hx; try lift_lets)

theorem steady_execJump {s₀ : State} (f : Fetch) (s : State) (h_s : Steady true true s₀ s) :
    SteadyO true true s₀ (execJump f s) := by
  delta execJump
  try lift_lets
  repeat' first
    | with_reducible assumption
    | with_reducible apply SteadyE.ok
    | with_reducible apply steady_issueOp
    | with_reducible apply steady_setThr
    | with_reducible apply Steady.ite
    | with_reducible apply SteadyO.next
    | (intro x a hx; try lift_lets)

theorem steady_execCall {s₀ : State} (f : Fetch) (s : State) (h_s : Steady true true s₀ s) :
    SteadyO true true s₀ (execCall f s) := by
  delta execCall
  try lift_lets
  repeat' first
    | with_reducible assumption
    | (apply steadyE_map; intro y hy; try dsimp only)
    | with_reducible apply steady_issueOp
    | with_reducible apply steady_setThr
    | with_reducible apply SteadyO.next
    | (intro x a hx; try lift_lets)

theorem steady_execRet {s₀ : State} (f : Fetch) (s : State) (h_s : Steady true true s₀ s) :
    SteadyO true true s₀ (execRet f s) := by
  delta execRet
  try lift_lets
  repeat' first
    | with_reducible assumption
    | with_reducible apply SteadyE.ok
    | with_reducible apply steady_issueOp
    | with_reducible apply steady_endThread
    | with_reducible apply steady_setThr
    | with_reducible apply SteadyO.next
    | (intro x a hx; try lift_lets)
    | (split <;> try lift_lets)

theorem steady_execLoop {s₀ : State} (f : Fetch) (s : State) (h_s : Steady true true s₀ s) :
    SteadyO true true s₀ (execLoop f s) := by
  delta execLoop
  try lift_lets
  repeat' first
    | with_reducible assumption
    | with_reducible apply SteadyE.ok
    | with_reducible exact SteadyE.error
    | with_reducible apply SteadyE.ite
    | (with_reducible show SteadyE _ _ _ _; split <;> try lift_lets)
    | with_reducible apply steady_issueOp
    | with_reducible apply steady_setThr
    | with_reducible apply SteadyO.next
    | (intro x a hx; try lift_lets)

theorem steady_execSweep {s₀ : State} (f : Fetch) (s : State) (h_s : Steady true true s₀ s) :
    SteadyO true true s₀ (execSweep f s) := by
  have hg : ∀ x a, Steady true true s₀ x → ∀ p, x.advanceGen f.thr (opr a 53 5) = .ok p → Steady true true s₀ p.2 :=
    fun x a hx p e => (steady_advanceGen x f.thr _ hx).elim e
  refine steady_issueOp s f.thr _ _ _ _ h_s (fun x a hx => ?_)
  dsimp only
  repeat' split
  all_goals first
    | exact trivial
    | (refine steadyE_map fun p e => ?_
       have hp := hg x a hx p e
       first
         | exact steady_sweepFreq _ _ _ _ _ _ (steady_updThr _ _ _ hp)
         | exact steady_updThr _ _ _ hp)
    | exact steady_sweepFreq _ _ _ _ _ _ hx

theorem steady_execMark {s₀ : State} (f : Fetch) (s : State) (h_s : Steady true true s₀ s) :
    SteadyO true true s₀ (execMark f s) := by
  delta execMark
  try lift_lets
  repeat' first
    | with_reducible assumption
    | with_reducible apply SteadyE.ok
    | with_reducible apply steady_markEdges
    | with_reducible apply steady_issueOp
    | with_reducible apply SteadyO.next
    | (intro x a hx; try lift_lets)

theorem steady_execTrig {s₀ : State} (f : Fetch) (s : State) (h_s : Steady true true s₀ s) :
    SteadyO true true s₀ (execTrig f s) := by
  delta execTrig
  try lift_lets
  repeat' first
    | with_reducible assumption
    | with_reducible apply SteadyE.ok
    | with_reducible apply steady_awaitTrig
    | with_reducible apply steady_issueOp
    | with_reducible apply SteadyO.next
    | (intro x a hx; try lift_lets)

theorem steady_execPub {s₀ : State} (f : Fetch) (s : State) (h_s : Steady true true s₀ s) :
    SteadyO true true s₀ (execPub f s) := by
  delta execPub
  try lift_lets
  repeat' first
    | with_reducible assumption
    | (with_reducible show SteadyE _ _ _ _; split <;> try lift_lets)
    | with_reducible apply steady_pubSlot
    | with_reducible apply steady_issueOp
    | with_reducible apply SteadyO.next
    | (intro x a hx; try lift_lets)

/-! ## Microcode -/

/-- The same of a micro-engine at work. -/
def SteadyEM (μ δ : Bool) (s₀ : State) : Except Nat Micro → Prop
  | .ok m => Steady μ δ s₀ m.s
  | .error _ => True

theorem steadyEM_map {μ δ : Bool} {s₀ : State} (m : Micro) (r : Except Nat State) (h : SteadyE μ δ s₀ r) :
    SteadyEM μ δ s₀ (r.map (fun s => { m with s := s })) := by
  cases r with
  | ok s => exact h
  | error n => exact trivial

theorem steady_micro_write {μ δ : Bool} {s₀ : State} (m : Micro) (g sel : Nat) (v : Word) (h : Steady μ δ s₀ m.s) :
    Steady μ δ s₀ (m.write g sel v).s := by
  unfold Micro.write
  dsimp only
  repeat' split
  all_goals first
    | exact h
    | exact steady_updThr _ _ _ h

theorem steady_micro_effect {μ δ : Bool} {s₀ : State} (m : Micro) (g o : Nat) (w : Word) (h : Steady μ δ s₀ m.s) :
    SteadyEM μ δ s₀ (m.effect g o w) := by
  unfold Micro.effect
  dsimp only
  repeat' split
  all_goals first
    | exact trivial
    | exact h
    | exact steady_micro_write _ _ _ _ h
    | exact steady_setThr _ _ _ h
    | exact steady_updThr _ _ _ h
    | exact steady_openWindows _ _ _ _ _ _ _ _ h
    | exact steady_sweepFreq _ _ _ _ _ _ h
    | exact steady_markEdges _ _ _ _ _ _ h
    | exact steadyEM_map _ _ (steady_emitPulse _ _ _ h)
    | exact steadyEM_map _ _ (steady_pubSlot _ _ _ _ h)
    | skip
  · cases Thread.push (m.s.thr g) ((m.s.thr g).pc + 1) with
    | ok t => exact steady_setThr _ _ _ h
    | error n => exact trivial
  · cases Nano.pset _ (mfld w 24 3) (m.read g (mfld w 19 5)) with
    | ok t => exact h
    | error n => exact trivial
  · have h1 := steady_advanceGen m.s g (m.read g (mfld w 22 5)).toNat h
    revert h1
    generalize m.s.advanceGen g (m.read g (mfld w 22 5)).toNat = r
    intro h1
    cases r with
    | ok p => exact steady_micro_write _ _ _ _ h1
    | error n => exact trivial

theorem steady_micro_wait {μ δ : Bool} {s₀ : State} (m : Micro) (g : Nat) (w : Word)
    (h : Steady μ δ s₀ m.s) : SteadyE μ δ s₀ (m.wait g w) := by
  unfold Micro.wait
  dsimp only
  repeat' split
  all_goals first
    | exact trivial
    | exact steady_waitFor _ _ _ _ h
    | exact steady_waitUntil _ _ _ _ h
    | exact steady_arrive _ _ _ _ _ _ h
    | exact steady_awaitBrd _ _ _ _ _ _ _ _ _ h
    | exact steady_awaitTrig _ _ _ _ _ _ _ h
    | exact steady_updThr _ _ _ h

theorem steady_micro_commit {μ δ : Bool} {s₀ : State} (m : Micro) (g : Nat) (h : Steady μ δ s₀ m.s) : Steady μ δ s₀
    (m.commit g) := by
  unfold Micro.commit
  have h1 : Steady μ δ s₀ (if m.pcSet = true then m.s else m.s.updThr g Thread.advance) := Steady.ite h (steady_updThr _ _ _ h)
  exact Steady.ite (steady_endThread _ _ _ _ h1) h1

theorem micro_load_s (m m' : Micro) (g : Nat) (w : Word) (ev : FetchEv) (e : m.load g w ev = .ok m') : m'.s = m.s := by
  unfold Micro.load at e
  dsimp only at e
  repeat' split at e
  all_goals first
    | cases e; rfl
    | cases e

/-- What one microword leaves. -/
theorem steady_micro_step {μ δ : Bool} {s₀ : State} (m : Micro) (g o : Nat) (adv : Bool) (cost : Nat) (ev : FetchEv)
    (h : Steady μ δ s₀ m.s) :
    (∀ m', m.step g o adv cost ev = .ok (.inl m') → Steady μ δ s₀ m'.s) ∧
    (∀ t, m.step g o adv cost ev = .ok (.inr t) → Steady μ δ s₀ t) := by
  have hw := steady_micro_wait { m with s := m.commit g } g (m.s.microAt (thrGc g) (m.s.uBank g) m.at_)
    (steady_micro_commit m g h)
  have he := steady_micro_effect m g o (m.s.microAt (thrGc g) (m.s.uBank g) m.at_) h
  have hl := fun m' => micro_load_s m m' g (m.s.microAt (thrGc g) (m.s.uBank g) m.at_) ev
  unfold Micro.step
  dsimp only
  generalize m.s.microAt (thrGc g) (m.s.uBank g) m.at_ = w at *
  have key : ∀ m', (match mfld w 28 4 with
      | 0x3 => Except.ok m
      | 0x5 => m.load g w ev
      | _ => (m.effect g o w).mapError Ending.status) = .ok m' → Steady μ δ s₀ m'.s := by
    intro m' e
    split at e
    · cases e; exact h
    · rw [hl m' e]; exact h
    · revert e he
      generalize m.effect g o w = r
      intro he e
      cases r with
      | ok x => cases e; exact he
      | error n => cases e
  constructor
  · intro m' e
    split at e
    · cases e
    split at e
    · cases e
    split at e
    · cases e
    split at e
    · split at e
      · cases e
      split at e
      · cases e
      split at e
      · cases e
      · revert e
        generalize Micro.wait _ g w = r
        intro e
        cases r <;> cases e
    · split at e
      · cases e
      · rename_i x hx
        split at e
        · cases e
        · split at e
          · split at e <;> cases e
          · cases e
            exact (key x hx : Steady μ δ s₀ x.s)
  · intro t e
    split at e
    · cases e
    split at e
    · cases e
    split at e
    · cases e
    split at e
    · split at e
      · cases e
      split at e
      · cases e
      split at e
      · cases e
        exact steady_micro_commit m g h
      · revert e hw
        generalize Micro.wait _ g w = r
        intro hw e
        cases r with
        | ok x => cases e; exact hw
        | error n => cases e
    · split at e
      · cases e
      · rename_i x hx
        split at e
        · cases e
        · split at e
          · split at e
            · cases e
              exact steady_micro_commit _ g (key _ hx)
            · cases e
          · cases e

theorem steady_micro_run {μ δ : Bool} {s₀ : State} (g o : Nat) (adv : Bool) (cost : Nat) (ev : FetchEv) (n : Nat)
    (m : Micro)
    (h : Steady μ δ s₀ m.s) (t : State) (e : (Micro.run g o adv cost ev n m).2 = .ok t) : Steady μ δ s₀ t := by
  induction n generalizing m with
  | zero => cases e
  | succ n ih =>
    rw [Micro.run] at e
    have hs := steady_micro_step m g o adv cost ev h
    revert e
    split
    · intro e; cases e
    · rename_i x hx
      intro e
      cases e
      exact hs.2 _ hx
    · rename_i x hx
      exact ih _ (hs.1 _ hx)

theorem steady_customRun {μ δ : Bool} {s₀ : State} (s : State) (g : Nat) (ev : FetchEv) (w : GateWord)
    (h : Steady μ δ s₀ s) (t : State)
    (e : (s.customRun g ev w).2 = .ok t) : Steady μ δ s₀ t := by
  unfold State.customRun at e
  dsimp only at e
  split at e
  · cases e
  split at e
  · cases e
  · exact steady_micro_run _ _ _ _ _ _ _ h _ e

theorem steady_execCustom {s₀ : State} (thr : Nat) (ev : FetchEv) (s : State) (h_s : Steady true true s₀ s) :
    SteadyO true true s₀ (execCustom thr ev s) := by
  refine steady_issueWord s thr _ _ _ _ h_s (fun x a hx => ?_) (fun x a y hx e => ?_)
  · exact Steady.ite (steady_nanoCorrected _ _ hx) hx
  · exact steady_customRun _ _ _ _ hx _ e

theorem steady_nanoView {μ δ : Bool} {s₀ : State} (s : State) (tile off : Nat) (value : Word) (h_s : Steady μ δ s₀ s) :
    Steady μ δ s₀ (s.nanoView tile off value) := by
  delta State.nanoView
  try lift_lets
  repeat' first
    | with_reducible assumption
    | (intro x; (fail_if_success have : State := x); clear_value x)
    | with_reducible apply steady_wr
    | with_reducible apply Steady.ite
    | with_reducible exact Steady.mk_ (by assumption)
    | (with_reducible show 8 ≤ _; decide)

theorem steady_execNanoViewWrite {μ δ : Bool} {s₀ : State} (tile off : Nat) (value : Word) (s : State)
    (h_s : Steady μ δ s₀ s) :
    SteadyO μ δ s₀ (execNanoViewWrite tile off value s) := by
  delta execNanoViewWrite
  try lift_lets
  repeat' first
    | with_reducible assumption
    | with_reducible apply steady_nanoView
    | with_reducible apply SteadyO.ite
    | with_reducible apply SteadyO.next

end Sys2Proof.Machine
end

