-- ==== Sys2Proof/Laws/SteadyHost.lean ====
section
/-! SUPPORT. What every operation keeps (`Steady`): device memory, the host interface and the queues. -/

namespace Sys2Proof.Machine

/-! ## DevMemory -/

theorem steady_reRetire {μ δ : Bool} {s₀ : State} (s : State) (d : Nat) (h_s : Steady μ δ s₀ s) :
    Steady μ δ s₀ (s.reRetire d) := by
  delta State.reRetire
  try lift_lets
  repeat' first
    | with_reducible assumption
    | with_reducible apply steady_wr
    | (with_reducible show 8 ≤ _; decide)

theorem steady_execMemReady {μ δ : Bool} {s₀ : State} (obs : MemObs) (s : State) (h_s : Steady μ δ s₀ s) :
    SteadyO μ δ s₀ (execMemReady obs s) := by
  delta execMemReady
  try lift_lets
  repeat' first
    | with_reducible assumption
    | (intro x; have hx : Steady μ δ s₀ x := ?_; (on_goal 1 => clear_value x); on_goal 2 => (subst x; try lift_lets))
    | (intro x; (fail_if_success have : State := x); clear_value x)
    | with_reducible apply steady_reRetire
    | with_reducible apply steady_retire
    | with_reducible apply steady_advise
    | with_reducible apply steady_wrB
    | with_reducible apply steady_wr
    | with_reducible apply SteadyO.ite
    | with_reducible apply Steady.foldl
    | with_reducible exact Steady.mk_ (by assumption)
    | with_reducible apply SteadyO.next
    | (with_reducible show 8 ≤ _; decide)
    | (intro x a hx; try lift_lets)

theorem steady_execPatrolPassEnd {μ δ : Bool} {s₀ : State} (s : State) (h_s : Steady μ δ s₀ s) :
    SteadyO μ δ s₀ (execPatrolPassEnd s) := by
  delta execPatrolPassEnd
  try lift_lets
  repeat' first
    | with_reducible assumption
    | (intro x; have hx : Steady μ δ s₀ x := ?_; (on_goal 1 => clear_value x); on_goal 2 => (subst x; try lift_lets))
    | with_reducible apply steady_countSymbols
    | with_reducible apply steady_note
    | with_reducible apply steady_count
    | with_reducible apply steady_wr
    | with_reducible apply SteadyO.ite
    | with_reducible apply Steady.foldl
    | with_reducible apply SteadyO.next
    | (with_reducible show 8 ≤ _; decide)
    | (intro x a hx; try lift_lets)

theorem steady_execDevRetireThreshold {μ δ : Bool} {s₀ : State} (dev : Nat) (s : State) (h_s : Steady μ δ s₀ s) :
    SteadyO μ δ s₀ (execDevRetireThreshold dev s) := by
  delta execDevRetireThreshold
  try lift_lets
  repeat' first
    | with_reducible assumption
    | (intro x; have hx : Steady μ δ s₀ x := ?_; (on_goal 1 => clear_value x); on_goal 2 => (subst x; try lift_lets))
    | (intro x; (fail_if_success have : State := x); clear_value x)
    | with_reducible apply steady_atThreshold
    | with_reducible apply steady_note
    | with_reducible apply steady_count
    | with_reducible apply steady_wr
    | with_reducible apply SteadyO.ite
    | with_reducible apply SteadyO.next
    | (with_reducible show 8 ≤ _; decide)

theorem steady_ringLoss {μ δ : Bool} {s₀ : State} (s : State) (t k addr : Nat) (h_s : Steady μ δ s₀ s) :
    Steady μ δ s₀ (s.ringLoss t k addr) := by
  delta State.ringLoss
  try lift_lets
  repeat' first
    | with_reducible assumption
    | (intro x; (fail_if_success have : State := x); clear_value x)
    | with_reducible apply steady_setStrm

theorem steady_execMemUncorrectable {s₀ : State} (addr dev : Nat) (owner : MemOwner) (s : State)
    (h_s : Steady true true s₀ s) :
    SteadyO true true s₀ (execMemUncorrectable addr dev owner s) := by
  delta execMemUncorrectable
  try lift_lets
  repeat' first
    | with_reducible assumption
    | (intro x; have hx : Steady true true s₀ x := ?_; (on_goal 1 => clear_value x); on_goal 2 => (subst x; try lift_lets))
    | (intro x; (fail_if_success have : State := x); clear_value x)
    | with_reducible apply steady_ringLoss
    | with_reducible apply steady_fault
    | with_reducible apply steady_updJob
    | with_reducible apply steady_note
    | with_reducible apply steady_count
    | with_reducible apply steady_wr
    | with_reducible apply Steady.ite
    | with_reducible apply SteadyO.ite
    | with_reducible exact Steady.mk_ (by assumption)
    | with_reducible apply SteadyO.next
    | (with_reducible show 8 ≤ _; decide)
    | (split <;> try lift_lets)

theorem steady_execMemInitDone {μ δ : Bool} {s₀ : State} (s : State) (h_s : Steady μ δ s₀ s) :
    SteadyO μ δ s₀ (execMemInitDone s) := by
  delta execMemInitDone
  try lift_lets
  repeat' first
    | with_reducible assumption
    | (intro x; have hx : Steady μ δ s₀ x := ?_; (on_goal 1 => clear_value x); on_goal 2 => (subst x; try lift_lets))
    | (intro x; (fail_if_success have : State := x); clear_value x)
    | with_reducible apply steady_wr
    | with_reducible apply SteadyO.ite
    | with_reducible exact Steady.mk_ (by assumption)
    | with_reducible apply SteadyO.next
    | (with_reducible show 8 ≤ _; decide)

/-! ## HostIf -/

theorem steady_setHif {μ δ : Bool} {s₀ : State} (s : State) (h : Hif) (h_s : Steady μ δ s₀ s) :
    Steady μ δ s₀ (s.setHif h) := by
  delta State.setHif
  try lift_lets
  repeat' first
    | with_reducible exact Steady.mk_ (by assumption)

theorem steady_flushMsix {μ δ : Bool} {s₀ : State} (s : State) (h_s : Steady μ δ s₀ s) :
    Steady μ δ s₀ (s.flushMsix) := by
  delta State.flushMsix
  try lift_lets
  repeat' first
    | with_reducible assumption
    | (intro x; have hx : Steady μ δ s₀ x := ?_; (on_goal 1 => clear_value x); on_goal 2 => (subst x; try lift_lets))
    | (intro x; (fail_if_success have : State := x); clear_value x)
    | with_reducible apply steady_setHif
    | with_reducible apply steady_sendMsix
    | with_reducible apply Steady.foldl

theorem steady_outageEnd {μ δ : Bool} {s₀ : State} (s : State) (h_s : Steady μ δ s₀ s) :
    Steady μ δ s₀ (s.outageEnd) := by
  delta State.outageEnd
  try lift_lets
  repeat' first
    | with_reducible assumption
    | (intro x; (fail_if_success have : State := x); clear_value x)
    | with_reducible apply steady_setHif
    | with_reducible apply steady_wr
    | (with_reducible show 8 ≤ _; decide)
    | (split <;> try lift_lets)

theorem steady_outageBegin {μ δ : Bool} {s₀ : State} (s : State) (h_s : Steady μ δ s₀ s) :
    Steady μ δ s₀ (s.outageBegin) := by
  delta State.outageBegin
  try lift_lets
  repeat' first
    | with_reducible assumption
    | (intro x; have hx : Steady μ δ s₀ x := ?_; (on_goal 1 => clear_value x); on_goal 2 => (subst x; try lift_lets))
    | (intro x; (fail_if_success have : State := x); clear_value x)
    | with_reducible apply steady_setHif
    | with_reducible apply steady_count
    | with_reducible apply steady_wr
    | (with_reducible show 8 ≤ _; decide)

theorem steady_execLinkUp {μ δ : Bool} {s₀ : State} (cxl : Bool) (width speed : Nat) (s : State)
    (h_s : Steady μ δ s₀ s) :
    SteadyO μ δ s₀ (execLinkUp cxl width speed s) := by
  delta execLinkUp
  try lift_lets
  repeat' first
    | with_reducible assumption
    | (intro x; have hx : Steady μ δ s₀ x := ?_; (on_goal 1 => clear_value x); on_goal 2 => (subst x; try lift_lets))
    | (intro x; (fail_if_success have : State := x); clear_value x)
    | with_reducible apply steady_outageEnd
    | with_reducible apply steady_setHif
    | with_reducible apply steady_note
    | with_reducible apply steady_wrB
    | with_reducible apply steady_wr
    | with_reducible apply Steady.ite
    | with_reducible apply SteadyO.ite
    | with_reducible apply SteadyO.next
    | (with_reducible show 8 ≤ _; decide)

theorem steady_portReset {μ δ : Bool} {s₀ : State} (s : State) (h_s : Steady μ δ s₀ s) :
    Steady μ δ s₀ (s.portReset) := by
  delta State.portReset
  try lift_lets
  repeat' first
    | with_reducible assumption
    | (intro x; have hx : Steady μ δ s₀ x := ?_; (on_goal 1 => clear_value x); on_goal 2 => (subst x; try lift_lets))
    | (intro x; (fail_if_success have : State := x); clear_value x)
    | with_reducible apply steady_setHif
    | with_reducible apply steady_wr
    | (with_reducible show 8 ≤ _; decide)

theorem steady_linkOutage {μ δ : Bool} {s₀ : State} (s : State) (h_s : Steady μ δ s₀ s) :
    Steady μ δ s₀ (s.linkOutage) := by
  delta State.linkOutage
  try lift_lets
  repeat' first
    | with_reducible assumption
    | with_reducible apply steady_portReset
    | with_reducible apply steady_outageBegin
    | with_reducible apply steady_outageEnd
    | with_reducible apply steady_note
    | with_reducible apply Steady.ite

theorem steady_execLinkOutage {μ δ : Bool} {s₀ : State} (s : State) (h_s : Steady μ δ s₀ s) :
    SteadyO μ δ s₀ (execLinkOutage s) := by
  delta execLinkOutage
  try lift_lets
  repeat' first
    | with_reducible assumption
    | with_reducible apply steady_linkOutage
    | with_reducible apply SteadyO.next

theorem steady_execPcieRefclkLoss {μ δ : Bool} {s₀ : State} (s : State) (h_s : Steady μ δ s₀ s) :
    SteadyO μ δ s₀ (execPcieRefclkLoss s) := by
  delta execPcieRefclkLoss
  try lift_lets
  repeat' first
    | with_reducible assumption
    | (intro x; (fail_if_success have : State := x); clear_value x)
    | with_reducible apply steady_linkOutage
    | with_reducible apply steady_setHif
    | with_reducible apply SteadyO.next

theorem steady_execD3hotWrite {μ δ : Bool} {s₀ : State} (s : State) (h_s : Steady μ δ s₀ s) :
    SteadyO μ δ s₀ (execD3hotWrite s) := by
  delta execD3hotWrite
  try lift_lets
  repeat' first
    | with_reducible assumption
    | with_reducible apply steady_outageBegin
    | with_reducible apply steady_wr
    | with_reducible apply SteadyO.ite
    | with_reducible apply SteadyO.next
    | (with_reducible show 8 ≤ _; decide)

theorem steady_execD0Write {μ δ : Bool} {s₀ : State} (s : State) (h_s : Steady μ δ s₀ s) :
    SteadyO μ δ s₀ (execD0Write s) := by
  delta execD0Write
  try lift_lets
  repeat' first
    | with_reducible assumption
    | with_reducible apply steady_outageEnd
    | with_reducible apply steady_flushMsix
    | with_reducible apply steady_wr
    | with_reducible apply SteadyO.ite
    | with_reducible apply SteadyO.next
    | (with_reducible show 8 ≤ _; decide)

theorem steady_execConfigRequest {μ δ : Bool} {s₀ : State} (req : CfgReq) (s : State) (h_s : Steady μ δ s₀ s) :
    SteadyO μ δ s₀ (execConfigRequest req s) := by
  delta execConfigRequest
  try lift_lets
  repeat' first
    | with_reducible assumption
    | (intro x; (fail_if_success have : State := x); clear_value x)
    | with_reducible apply steady_flushMsix
    | with_reducible apply steady_setHif
    | with_reducible apply steady_emit
    | with_reducible apply steady_wrB
    | with_reducible apply SteadyO.ite
    | with_reducible apply SteadyO.next
    | (with_reducible show 8 ≤ _; decide)
    | (split <;> try lift_lets)

theorem steady_msixWrite {μ δ : Bool} {s₀ : State} (s : State) (off : Nat) (v : Word) (h_s : Steady μ δ s₀ s) :
    Steady μ δ s₀ (s.msixWrite off v) := by
  delta State.msixWrite
  try lift_lets
  repeat' first
    | with_reducible assumption
    | (intro x; (fail_if_success have : State := x); clear_value x)
    | with_reducible apply steady_flushMsix
    | with_reducible apply steady_setHif
    | with_reducible apply Steady.ite

theorem steady_setHdm {μ δ : Bool} {s₀ : State} (s : State) (d : Nat) (h : Hdm) (h_s : Steady μ δ s₀ s) :
    Steady μ δ s₀ (s.setHdm d h) := by
  delta State.setHdm
  try lift_lets
  repeat' first
    | with_reducible assumption
    | (intro x; (fail_if_success have : State := x); clear_value x)
    | with_reducible apply steady_setHif

theorem steady_execHdmCommit {μ δ : Bool} {s₀ : State} (dec base size ways : Nat) (lock : Bool) (s : State)
    (h_s : Steady μ δ s₀ s) :
    SteadyO μ δ s₀ (execHdmCommit dec base size ways lock s) := by
  delta execHdmCommit
  try lift_lets
  repeat' first
    | with_reducible assumption
    | with_reducible apply steady_setHdm
    | with_reducible apply SteadyO.ite
    | with_reducible apply SteadyO.next

theorem steady_execCxlmemRequest {δ : Bool} {s₀ : State} (write : Bool) (hostAddr : Nat) (data : List Byte)
    (s : State) (h_s : Steady true δ s₀ s) :
    SteadyO true δ s₀ (execCxlmemRequest write hostAddr data s) := by
  delta execCxlmemRequest
  try lift_lets
  repeat' first
    | with_reducible assumption
    | (intro x; have hx : Steady true δ s₀ x := ?_; (on_goal 1 => clear_value x); on_goal 2 => (subst x; try lift_lets))
    | (intro x; (fail_if_success have : State := x); clear_value x)
    | with_reducible apply steady_setHif
    | with_reducible apply steady_note
    | with_reducible apply steady_emit
    | with_reducible apply steady_memWrite
    | with_reducible apply Steady.ite
    | with_reducible apply SteadyO.ite
    | with_reducible apply SteadyO.next
    | (split <;> try lift_lets)

theorem steady_execViralReceive {s₀ : State} (s : State) (h_s : Steady true true s₀ s) :
    SteadyO true true s₀ (execViralReceive s) := by
  delta execViralReceive
  try lift_lets
  repeat' first
    | with_reducible assumption
    | with_reducible apply steady_fault
    | with_reducible apply SteadyO.ite
    | with_reducible apply SteadyO.next

theorem steady_execCacheSnoop {μ δ : Bool} {s₀ : State} (hostAddr : Nat) (s : State) (h_s : Steady μ δ s₀ s) :
    SteadyO μ δ s₀ (execCacheSnoop hostAddr s) := by
  delta execCacheSnoop
  try lift_lets
  repeat' first
    | with_reducible assumption
    | with_reducible apply steady_emit
    | with_reducible apply SteadyO.ite
    | with_reducible apply SteadyO.next

theorem steady_execResultDelivery {μ δ : Bool} {s₀ : State} (s : State) (h_s : Steady μ δ s₀ s) :
    SteadyO μ δ s₀ (execResultDelivery s) := by
  delta execResultDelivery
  try lift_lets
  repeat' first
    | with_reducible assumption
    | (intro x; have hx : Steady μ δ s₀ x := ?_; (on_goal 1 => clear_value x); on_goal 2 => (subst x; try lift_lets))
    | (intro x; (fail_if_success have : State := x); clear_value x)
    | with_reducible apply steady_setPart
    | with_reducible apply steady_updJob
    | with_reducible apply steady_emit
    | with_reducible apply SteadyO.ite
    | with_reducible apply Steady.foldl
    | with_reducible apply SteadyO.next
    | (intro x a hx; try lift_lets)

/-! ## Queues -/

theorem steady_sqTailWrite {μ δ : Bool} {s₀ : State} (s : State) (q v : Nat) (h_s : Steady μ δ s₀ s) :
    Steady μ δ s₀ (s.sqTailWrite q v) := by
  delta State.sqTailWrite
  try lift_lets
  repeat' first
    | with_reducible assumption
    | (intro x; (fail_if_success have : State := x); clear_value x)
    | with_reducible apply steady_setQp
    | with_reducible apply steady_wr
    | with_reducible apply Steady.ite
    | (with_reducible show 8 ≤ _; decide)

theorem steady_execSqTailDoorbell {μ δ : Bool} {s₀ : State} (qp tail : Nat) (s : State) (h_s : Steady μ δ s₀ s) :
    SteadyO μ δ s₀ (execSqTailDoorbell qp tail s) := by
  delta execSqTailDoorbell
  try lift_lets
  repeat' first
    | with_reducible assumption
    | with_reducible apply steady_sqTailWrite
    | with_reducible apply SteadyO.ite
    | with_reducible apply SteadyO.next

theorem steady_cqHeadWrite {μ δ : Bool} {s₀ : State} (s : State) (q v : Nat) (h_s : Steady μ δ s₀ s) :
    Steady μ δ s₀ (s.cqHeadWrite q v) := by
  delta State.cqHeadWrite
  try lift_lets
  repeat' first
    | with_reducible assumption
    | (intro x; have hx : Steady μ δ s₀ x := ?_; (on_goal 1 => clear_value x); on_goal 2 => (subst x; try lift_lets))
    | (intro x; (fail_if_success have : State := x); clear_value x)
    | with_reducible apply steady_setQp
    | with_reducible apply steady_wr
    | with_reducible apply Steady.ite
    | (with_reducible show 8 ≤ _; decide)

theorem steady_execCqHeadDoorbell {μ δ : Bool} {s₀ : State} (qp head : Nat) (s : State) (h_s : Steady μ δ s₀ s) :
    SteadyO μ δ s₀ (execCqHeadDoorbell qp head s) := by
  delta execCqHeadDoorbell
  try lift_lets
  repeat' first
    | with_reducible assumption
    | with_reducible apply steady_cqHeadWrite
    | with_reducible apply SteadyO.ite
    | with_reducible apply SteadyO.next

theorem steady_setPlan {μ δ : Bool} {s₀ : State} (s : State) (n : Nat) (p : Plan) (h_s : Steady μ δ s₀ s) :
    Steady μ δ s₀ (s.setPlan n p) := by
  delta State.setPlan
  try lift_lets
  repeat' first
    | (intro x; (fail_if_success have : State := x); clear_value x)
    | with_reducible exact Steady.mk_ (by assumption)

theorem steady_takePubs {μ δ : Bool} {s₀ : State} (s : State) (j : Nat) (all : Bool) (h_s : Steady μ δ s₀ s) :
    Steady μ δ s₀ (s.takePubs j all) := by
  delta State.takePubs
  try lift_lets
  repeat' first
    | with_reducible assumption
    | (intro x; (fail_if_success have : State := x); clear_value x)
    | with_reducible apply steady_setSlotUser
    | with_reducible apply Steady.ite
    | with_reducible apply Steady.foldl
    | (intro x a hx; try lift_lets)

theorem steady_acceptJob {μ δ : Bool} {s₀ : State} (s : State) (b : Job) (h_s : Steady μ δ s₀ s) :
    Steady μ δ s₀ (s.acceptJob b) := by
  delta State.acceptJob
  try lift_lets
  repeat' first
    | with_reducible assumption
    | (intro x; have hx : Steady μ δ s₀ x := ?_; (on_goal 1 => clear_value x); on_goal 2 => (subst x; try lift_lets))
    | (intro x; (fail_if_success have : State := x); clear_value x)
    | with_reducible apply steady_takePubs
    | with_reducible apply steady_setJob
    | with_reducible exact Steady.mk_ (by assumption)

theorem steady_submit {μ δ : Bool} {s₀ : State} (s : State) (q : Nat) (e : List Byte) (h_s : Steady μ δ s₀ s) :
    Steady μ δ s₀ (s.submit q e) := by
  unfold State.submit
  lift_lets
  intro head s1 q1 s2
  have h1 : Steady μ δ s₀ s2 := Steady.mk_ (steady_wr _ _ _ _ h_s (by decide))
  intro b s3
  have h2 : Steady μ δ s₀ s3 := Steady.ite (steady_setPlan _ _ _ h1) h1
  intros
  split
  · exact steady_acceptJob _ _ h2
  · exact steady_setQp _ _ _ h2

theorem steady_submitKind {μ δ : Bool} {s₀ : State} (s : State) (q : Nat) (e : List Byte) (ok : Nat → Bool)
    (h_s : Steady μ δ s₀ s) :
    Steady μ δ s₀ (s.submitKind q e ok) := by
  delta State.submitKind
  try lift_lets
  repeat' first
    | with_reducible assumption
    | with_reducible apply steady_submit
    | with_reducible apply Steady.ite

theorem steady_execSubmitRun {μ δ : Bool} {s₀ : State} (qp : Nat) (entry : List Byte) (s : State)
    (h_s : Steady μ δ s₀ s) :
    SteadyO μ δ s₀ (execSubmitRun qp entry s) := by
  delta execSubmitRun
  try lift_lets
  repeat' first
    | with_reducible assumption
    | with_reducible apply steady_submitKind
    | with_reducible apply SteadyO.next

theorem steady_execSubmitCapture {μ δ : Bool} {s₀ : State} (qp : Nat) (entry : List Byte) (s : State)
    (h_s : Steady μ δ s₀ s) :
    SteadyO μ δ s₀ (execSubmitCapture qp entry s) := by
  delta execSubmitCapture
  try lift_lets
  repeat' first
    | with_reducible assumption
    | with_reducible apply steady_submitKind
    | with_reducible apply SteadyO.next

theorem steady_execSubmitCalibrate {μ δ : Bool} {s₀ : State} (qp : Nat) (entry : List Byte) (s : State)
    (h_s : Steady μ δ s₀ s) :
    SteadyO μ δ s₀ (execSubmitCalibrate qp entry s) := by
  delta execSubmitCalibrate
  try lift_lets
  repeat' first
    | with_reducible assumption
    | with_reducible apply steady_submitKind
    | with_reducible apply SteadyO.next

theorem steady_execSubmitStreamOpen {μ δ : Bool} {s₀ : State} (qp : Nat) (entry : List Byte) (s : State)
    (h_s : Steady μ δ s₀ s) :
    SteadyO μ δ s₀ (execSubmitStreamOpen qp entry s) := by
  delta execSubmitStreamOpen
  try lift_lets
  repeat' first
    | with_reducible assumption
    | with_reducible apply steady_submitKind
    | with_reducible apply SteadyO.next

theorem steady_execSubmitStreamClose {μ δ : Bool} {s₀ : State} (qp : Nat) (entry : List Byte) (s : State)
    (h_s : Steady μ δ s₀ s) :
    SteadyO μ δ s₀ (execSubmitStreamClose qp entry s) := by
  delta execSubmitStreamClose
  try lift_lets
  repeat' first
    | with_reducible assumption
    | with_reducible apply steady_submitKind
    | with_reducible apply SteadyO.next

theorem steady_execSubmitScan {μ δ : Bool} {s₀ : State} (qp : Nat) (entry : List Byte) (s : State)
    (h_s : Steady μ δ s₀ s) :
    SteadyO μ δ s₀ (execSubmitScan qp entry s) := by
  delta execSubmitScan
  try lift_lets
  repeat' first
    | with_reducible assumption
    | with_reducible apply steady_submitKind
    | with_reducible apply SteadyO.next

theorem steady_joinBars {μ δ : Bool} {s₀ : State} (s : State) (j : Nat) (h_s : Steady μ δ s₀ s) :
    Steady μ δ s₀ (s.joinBars j) := by
  delta State.joinBars
  try lift_lets
  repeat' first
    | with_reducible assumption
    | (intro x; (fail_if_success have : State := x); clear_value x)
    | with_reducible apply steady_setBar
    | with_reducible apply Steady.foldl
    | (intro x a hx; try lift_lets)

theorem steady_startCapture {μ δ : Bool} {s₀ : State} (s : State) (j at_ : Nat) (h_s : Steady μ δ s₀ s) :
    Steady μ δ s₀ (s.startCapture j at_) := by
  delta State.startCapture
  try lift_lets
  repeat' first
    | with_reducible assumption
    | (intro x; have hx : Steady μ δ s₀ x := ?_; (on_goal 1 => clear_value x); on_goal 2 => (subst x; try lift_lets))
    | (intro x; (fail_if_success have : State := x); clear_value x)
    | with_reducible apply steady_capStart
    | with_reducible apply steady_setCap
    | with_reducible apply steady_endJob
    | with_reducible apply steady_wr
    | with_reducible apply Steady.ite
    | (with_reducible show 8 ≤ _; decide)

theorem steady_beginJob {μ δ : Bool} {s₀ : State} (s : State) (j at_ : Nat) (h_s : Steady μ δ s₀ s) :
    Steady μ δ s₀ (s.beginJob j at_) := by
  delta State.beginJob
  try lift_lets
  repeat' first
    | with_reducible assumption
    | (intro x; (fail_if_success have : State := x); clear_value x)
    | with_reducible apply steady_startCapture
    | with_reducible apply steady_joinBars
    | with_reducible apply steady_takePubs
    | with_reducible apply steady_beginCal
    | with_reducible apply steady_strmClose
    | with_reducible apply steady_strmOpen
    | with_reducible apply steady_applyScanEn
    | with_reducible apply steady_endJob
    | with_reducible apply steady_updJob
    | with_reducible apply Steady.ite
    | with_reducible apply Steady.foldl
    | (intro x a hx; try lift_lets)
    | (split <;> try lift_lets)

theorem steady_execJobStart {μ δ : Bool} {s₀ : State} (job : Nat) (s : State) (h_s : Steady μ δ s₀ s) :
    SteadyO μ δ s₀ (execJobStart job s) := by
  delta execJobStart
  try lift_lets
  repeat' first
    | with_reducible assumption
    | (intro x; (fail_if_success have : State := x); clear_value x)
    | with_reducible apply steady_beginJob
    | with_reducible apply steady_jobFlag
    | with_reducible apply steady_setJob
    | with_reducible apply Steady.ite
    | with_reducible apply SteadyO.ite
    | with_reducible apply SteadyO.next
    | (split <;> try lift_lets)
    | dsimp only

theorem steady_edgeFor {μ δ : Bool} {s₀ : State} (s : State) (j src tick : Nat) (h_s : Steady μ δ s₀ s) :
    Steady μ δ s₀ (s.edgeFor j src tick) := by
  delta State.edgeFor
  try lift_lets
  repeat' first
    | with_reducible assumption
    | (intro x; (fail_if_success have : State := x); clear_value x)
    | with_reducible apply steady_jobFlag
    | with_reducible apply steady_setJob
    | with_reducible apply Steady.ite

theorem steady_jobEdge {μ δ : Bool} {s₀ : State} (s : State) (src tick : Nat) (h_s : Steady μ δ s₀ s) :
    Steady μ δ s₀ (s.jobEdge src tick) := by
  delta State.jobEdge
  try lift_lets
  repeat' first
    | with_reducible assumption
    | with_reducible apply steady_edgeFor
    | with_reducible apply Steady.foldl
    | (intro x a hx; try lift_lets)

theorem steady_cutThreads {μ δ : Bool} {s₀ : State} (s : State) (j t : Nat) (h_s : Steady μ δ s₀ s) :
    Steady μ δ s₀ (s.cutThreads j t) := by
  delta State.cutThreads
  try lift_lets
  repeat' first
    | with_reducible assumption
    | with_reducible apply steady_endThread
    | with_reducible apply Steady.foldl
    | (intro x a hx; try lift_lets)
    | (split <;> try lift_lets)

theorem steady_mergeAverages {μ δ : Bool} {s₀ : State} (s : State) (j start : Nat) (ok : Bool) (h_s : Steady μ δ s₀ s) :
    Steady μ δ s₀ (s.mergeAverages j start ok) := by
  delta State.mergeAverages
  try lift_lets
  repeat' first
    | (intro x; (fail_if_success have : State := x); clear_value x)
    | with_reducible exact Steady.mk_ (by assumption)

theorem steady_tallyShot {μ δ : Bool} {s₀ : State} (s : State) (j start : Nat) (status : BitVec 8) (counts : Bool)
    (h_s : Steady μ δ s₀ s) :
    Steady μ δ s₀ (s.tallyShot j start status counts) := by
  delta State.tallyShot
  try lift_lets
  repeat' first
    | with_reducible assumption
    | (intro x; have hx : Steady μ δ s₀ x := ?_; (on_goal 1 => clear_value x); on_goal 2 => (subst x; try lift_lets))
    | with_reducible apply steady_mergeAverages
    | with_reducible apply steady_freeStreams
    | with_reducible apply steady_updJob
    | with_reducible apply Steady.ite

theorem steady_parkShot {μ δ : Bool} {s₀ : State} (s : State) (j : Nat) (counts : Bool) (h_s : Steady μ δ s₀ s) :
    Steady μ δ s₀ (s.parkShot j counts) := by
  delta State.parkShot
  try lift_lets
  repeat' first
    | with_reducible assumption
    | (intro x; (fail_if_success have : State := x); clear_value x)
    | with_reducible apply steady_tallyShot
    | with_reducible apply steady_setJob
    | with_reducible apply Steady.ite

theorem steady_switchBanks {μ δ : Bool} {s₀ : State} (s : State) (at_ : Nat → Bool) (h_s : Steady μ δ s₀ s) :
    Steady μ δ s₀ (s.switchBanks at_) := by
  unfold State.switchBanks
  dsimp only
  have hm : ∀ (l : State → List Nat) (k : StoreKind) (b : Bool) x, Steady μ δ s₀ x →
      Steady μ δ s₀ ((l x).foldl (fun s g => s.setBank g k b) x) :=
    fun l k b x hx => Steady.foldl (fun x a hx => steady_setBank _ _ _ _ hx) hx
  refine Steady.foldl (fun x a hx => steady_moveReplaced _ _ _ hx) ?_
  have h1 : Steady μ δ s₀ (s.stores.nanoSwap.foldl (fun s (w : Nat × Bool × Nat × Option Nat) => if w.2.2.1 ≤ s.now then
      ((clusterThreads w.1).filter (fun g => at_ g || !(s.thr g).active)).foldl (fun s g => s.setBank g .nano w.2.1) s else s) s) :=
    Steady.foldl (fun x a hx => Steady.ite (hm (fun s => (clusterThreads a.1).filter (fun g => at_ g || !(s.thr g).active)) _ _ x hx) hx) h_s
  split
  · refine Steady.ite (Steady.foldl (fun x a hx => ?_) h1) h1
    exact hm (fun s => (clusterThreads a.1).filter (fun g => at_ g || !(s.thr g).active)) _ _ x hx
  · exact h1

theorem steady_applyRwh {μ δ : Bool} {s₀ : State} (s : State) (a : StagedAct) (h_s : Steady μ δ s₀ s) :
    Steady μ δ s₀ (s.applyRwh a) := by
  unfold State.applyRwh
  split
  · split
    · exact steady_setMasked _ _ _ _ _ _ h_s (Reg.kept_and (findReg_kept (by assumption)) _ _ _ rfl)
    · exact h_s
  · exact steady_applySynBase _ _ _ h_s
  · exact h_s

theorem steady_flushRwh {μ δ : Bool} {s₀ : State} (s : State) (p : StagedAct → Bool) (h_s : Steady μ δ s₀ s) :
    Steady μ δ s₀ (s.flushRwh p) := by
  delta State.flushRwh
  try lift_lets
  repeat' first
    | with_reducible assumption
    | (intro x; (fail_if_success have : State := x); clear_value x)
    | with_reducible apply steady_applyRwh
    | with_reducible apply Steady.foldl
    | with_reducible exact Steady.mk_ (by assumption)
    | (intro x a hx; try lift_lets)

theorem steady_initThread {μ δ : Bool} {s₀ : State} (s : State) (j t entry : Nat) (p : PlanThr)
    (h_s : Steady μ δ s₀ s) :
    Steady μ δ s₀ (s.initThread j t entry p) := by
  delta State.initThread
  try lift_lets
  repeat' first
    | with_reducible assumption
    | (intro x; (fail_if_success have : State := x); clear_value x)
    | with_reducible apply steady_checkPc
    | with_reducible apply steady_setThr
    | with_reducible apply Steady.ite
    | with_reducible apply Steady.foldl
    | with_reducible exact Steady.mk_ (by assumption)
    | (intro x a hx; try lift_lets)

theorem steady_beginShot {μ δ : Bool} {s₀ : State} (s : State) (j t : Nat) (h_s : Steady μ δ s₀ s) :
    Steady μ δ s₀ (s.beginShot j t) := by
  delta State.beginShot
  try lift_lets
  repeat' first
    | with_reducible assumption
    | (intro x; have hx : Steady μ δ s₀ x := ?_; (on_goal 1 => clear_value x); on_goal 2 => (subst x; try lift_lets))
    | (intro x; (fail_if_success have : State := x); clear_value x)
    | with_reducible apply steady_initThread
    | with_reducible apply steady_flushRwh
    | with_reducible apply steady_switchBanks
    | with_reducible apply steady_decShotStart
    | with_reducible apply steady_keepStreams
    | with_reducible apply steady_setBar
    | with_reducible apply steady_updJob
    | with_reducible apply Steady.ite
    | with_reducible apply Steady.foldl
    | with_reducible exact Steady.mk_ (by assumption)
    | (intro x a hx; try lift_lets)

theorem steady_execShotStart {μ δ : Bool} {s₀ : State} (job : Nat) (s : State) (h_s : Steady μ δ s₀ s) :
    SteadyO μ δ s₀ (execShotStart job s) := by
  delta execShotStart
  try lift_lets
  repeat' first
    | with_reducible assumption
    | (intro x; have hx : Steady μ δ s₀ x := ?_; (on_goal 1 => clear_value x); on_goal 2 => (subst x; try lift_lets))
    | (intro x; (fail_if_success have : State := x); clear_value x)
    | with_reducible apply steady_beginShot
    | with_reducible apply steady_parkShot
    | with_reducible apply steady_cutThreads
    | with_reducible apply steady_updJob
    | with_reducible apply steady_setJob
    | with_reducible apply SteadyO.ite
    | with_reducible apply SteadyO.next
    | (split <;> try lift_lets)

theorem steady_noteRecovery {μ δ : Bool} {s₀ : State} (s : State) (h_s : Steady μ δ s₀ s) :
    Steady μ δ s₀ (s.noteRecovery) := by
  delta State.noteRecovery
  try lift_lets
  repeat' first
    | (intro x; (fail_if_success have : State := x); clear_value x)
    | with_reducible exact Steady.mk_ (by assumption)

theorem steady_rerunShot {μ δ : Bool} {s₀ : State} (s : State) (j old no at_ : Nat) (h_s : Steady μ δ s₀ s) :
    Steady μ δ s₀ (s.rerunShot j old no at_) := by
  delta State.rerunShot
  try lift_lets
  repeat' first
    | with_reducible assumption
    | (intro x; have hx : Steady μ δ s₀ x := ?_; (on_goal 1 => clear_value x); on_goal 2 => (subst x; try lift_lets))
    | (intro x; (fail_if_success have : State := x); clear_value x)
    | with_reducible apply steady_beginShot
    | with_reducible apply steady_resumeStream
    | with_reducible apply steady_updJob
    | with_reducible apply Steady.ite
    | with_reducible apply Steady.foldl
    | (intro x a hx; try lift_lets)

theorem steady_redoShot {μ δ : Bool} {s₀ : State} (s : State) (j : Nat) (r : Redo) (rest : List Redo)
    (h_s : Steady μ δ s₀ s) :
    Steady μ δ s₀ (s.redoShot j r rest) := by
  delta State.redoShot
  try lift_lets
  repeat' first
    | with_reducible assumption
    | with_reducible apply steady_rerunShot
    | with_reducible apply steady_parkShot
    | with_reducible apply steady_rewind
    | with_reducible apply steady_updJob
    | with_reducible apply Steady.ite
    | (split <;> try lift_lets)

theorem steady_execShotRerun {μ δ : Bool} {s₀ : State} (job : Nat) (s : State) (h_s : Steady μ δ s₀ s) :
    SteadyO μ δ s₀ (execShotRerun job s) := by
  delta execShotRerun
  try lift_lets
  repeat' first
    | with_reducible assumption
    | (intro x; (fail_if_success have : State := x); clear_value x)
    | with_reducible apply steady_redoShot
    | with_reducible apply steady_rerunShot
    | with_reducible apply steady_parkShot
    | with_reducible apply SteadyO.ite
    | with_reducible apply SteadyO.next
    | (split <;> try lift_lets)

theorem steady_execShotComplete {μ δ : Bool} {s₀ : State} (job : Nat) (s : State) (h_s : Steady μ δ s₀ s) :
    SteadyO μ δ s₀ (execShotComplete job s) := by
  delta execShotComplete
  try lift_lets
  repeat' first
    | with_reducible assumption
    | (intro x; have hx : Steady μ δ s₀ x := ?_; (on_goal 1 => clear_value x); on_goal 2 => (subst x; try lift_lets))
    | (intro x; (fail_if_success have : State := x); clear_value x)
    | with_reducible apply steady_tallyShot
    | with_reducible apply steady_endJob
    | with_reducible apply steady_settleJob
    | with_reducible apply steady_updJob
    | with_reducible apply steady_setJob
    | with_reducible apply SteadyO.ite
    | with_reducible apply SteadyO.next
    | (split <;> try lift_lets)

theorem steady_dropRequest {μ δ : Bool} {s₀ : State} (s : State) (j : Nat) (h_s : Steady μ δ s₀ s) :
    Steady μ δ s₀ (s.dropRequest j) := by
  delta State.dropRequest
  try lift_lets
  repeat' first
    | with_reducible assumption
    | (intro x; have hx : Steady μ δ s₀ x := ?_; (on_goal 1 => clear_value x); on_goal 2 => (subst x; try lift_lets))
    | (intro x; (fail_if_success have : State := x); clear_value x)
    | with_reducible apply steady_updCalU
    | with_reducible apply Steady.ite
    | with_reducible apply Steady.foldl
    | with_reducible exact Steady.mk_ (by assumption)
    | (intro x a hx; try lift_lets)

theorem steady_cutJob {δ : Bool} {s₀ : State} (s : State) (j status : Nat) (h_s : Steady true δ s₀ s) :
    Steady true δ s₀ (s.cutJob j status) := by
  delta State.cutJob
  try lift_lets
  repeat' first
    | with_reducible assumption
    | (intro x; have hx : Steady true δ s₀ x := ?_; (on_goal 1 => clear_value x); on_goal 2 => (subst x; try lift_lets))
    | (intro x; (fail_if_success have : State := x); clear_value x)
    | with_reducible apply steady_dropRequest
    | with_reducible apply steady_capAbort
    | with_reducible apply steady_endJob
    | with_reducible apply steady_wr
    | with_reducible apply Steady.ite
    | (with_reducible show 8 ≤ _; decide)

theorem steady_execJobDeadline {δ : Bool} {s₀ : State} (job : Nat) (s : State) (h_s : Steady true δ s₀ s) :
    SteadyO true δ s₀ (execJobDeadline job s) := by
  delta execJobDeadline
  try lift_lets
  repeat' first
    | with_reducible assumption
    | (intro x; have hx : Steady true δ s₀ x := ?_; (on_goal 1 => clear_value x); on_goal 2 => (subst x; try lift_lets))
    | (intro x; (fail_if_success have : State := x); clear_value x)
    | with_reducible apply steady_cutJob
    | with_reducible apply steady_cutThreads
    | with_reducible apply Steady.ite
    | with_reducible apply SteadyO.ite
    | with_reducible apply SteadyO.next

theorem steady_applyAbort {δ : Bool} {s₀ : State} (s : State) (j : Nat) (h_s : Steady true δ s₀ s) :
    Steady true δ s₀ (s.applyAbort j) := by
  delta State.applyAbort
  try lift_lets
  repeat' first
    | with_reducible assumption
    | with_reducible apply steady_cutJob
    | with_reducible apply Steady.ite

theorem steady_endStreamJobs {μ δ : Bool} {s₀ : State} (s : State) (h_s : Steady μ δ s₀ s) :
    Steady μ δ s₀ (s.endStreamJobs) := by
  delta State.endStreamJobs
  try lift_lets
  repeat' first
    | with_reducible assumption
    | with_reducible apply steady_endJob
    | with_reducible apply Steady.foldl
    | (intro x a hx; try lift_lets)

theorem steady_freeJob {μ δ : Bool} {s₀ : State} (s : State) (j : Nat) (h_s : Steady μ δ s₀ s) :
    Steady μ δ s₀ (s.freeJob j) := by
  delta State.freeJob
  try lift_lets
  repeat' first
    | with_reducible assumption
    | (intro x; have hx : Steady μ δ s₀ x := ?_; (on_goal 1 => clear_value x); on_goal 2 => (subst x; try lift_lets))
    | (intro x; (fail_if_success have : State := x); clear_value x)
    | with_reducible apply steady_takePubs
    | with_reducible apply steady_setSlotUser
    | with_reducible apply steady_setCap
    | with_reducible apply steady_setJob
    | with_reducible apply steady_wr
    | with_reducible apply Steady.ite
    | with_reducible apply Steady.foldl
    | (with_reducible show 8 ≤ _; decide)
    | (intro x a hx; try lift_lets)
    | (split <;> try lift_lets)

theorem steady_postCompletion {μ δ : Bool} {s₀ : State} (s : State) (q : Nat) (d : Done) (rest : List Done)
    (h_s : Steady μ δ s₀ s) :
    Steady μ δ s₀ (s.postCompletion q d rest) := by
  delta State.postCompletion
  try lift_lets
  repeat' first
    | with_reducible assumption
    | (intro x; have hx : Steady μ δ s₀ x := ?_; (on_goal 1 => clear_value x); on_goal 2 => (subst x; try lift_lets))
    | (intro x; (fail_if_success have : State := x); clear_value x)
    | with_reducible apply steady_freeJob
    | with_reducible apply steady_setQp
    | with_reducible apply steady_signal
    | with_reducible apply steady_emit
    | with_reducible apply steady_wr
    | with_reducible apply Steady.ite
    | (with_reducible show 8 ≤ _; decide)
    | (split <;> try lift_lets)

theorem steady_execCompletionPost {μ δ : Bool} {s₀ : State} (qp : Nat) (s : State) (h_s : Steady μ δ s₀ s) :
    SteadyO μ δ s₀ (execCompletionPost qp s) := by
  delta execCompletionPost
  try lift_lets
  repeat' first
    | with_reducible assumption
    | with_reducible apply steady_postCompletion
    | with_reducible apply steady_wr
    | with_reducible apply SteadyO.ite
    | with_reducible apply SteadyO.next
    | (with_reducible show 8 ≤ _; decide)
    | (split <;> try lift_lets)

end Sys2Proof.Machine
end

