-- ==== Sys2Proof/Laws/SteadyUnits.lean ====
section
/-! SUPPORT. What every operation keeps (`Steady`): the TDC, thermal management, faults and start-up. -/

namespace Sys2Proof.Machine

/-! ## TdcUnit -/

theorem steady_setTdcIn {μ δ : Bool} {s₀ : State} (s : State) (i : Nat) (v : TdcIn) (h_s : Steady μ δ s₀ s) :
    Steady μ δ s₀ (s.setTdcIn i v) := by
  delta State.setTdcIn
  try lift_lets
  repeat' first
    | (intro x; (fail_if_success have : State := x); clear_value x)
    | with_reducible exact Steady.mk_ (by assumption)

theorem steady_logStamp {μ δ : Bool} {s₀ : State} (s : State) (i bin : Nat) (rise lost : Bool) (seq : Word)
    (h_s : Steady μ δ s₀ s) :
    Steady μ δ s₀ (s.logStamp i bin rise lost seq) := by
  delta State.logStamp
  try lift_lets
  repeat' first
    | with_reducible assumption
    | (intro x; (fail_if_success have : State := x); clear_value x)
    | with_reducible apply steady_note
    | with_reducible apply steady_count
    | with_reducible apply steady_wr
    | with_reducible apply Steady.ite
    | with_reducible exact Steady.mk_ (by assumption)
    | (with_reducible show 8 ≤ _; decide)

theorem steady_execTdcFifoPop {μ δ : Bool} {s₀ : State} (s : State) (h_s : Steady μ δ s₀ s) :
    SteadyO μ δ s₀ (execTdcFifoPop s) := by
  delta execTdcFifoPop
  try lift_lets
  repeat' first
    | with_reducible assumption
    | (intro x; (fail_if_success have : State := x); clear_value x)
    | with_reducible apply steady_emit
    | with_reducible exact Steady.mk_ (by assumption)
    | with_reducible apply SteadyO.next
    | (split <;> try lift_lets)

theorem steady_setIvStart {μ δ : Bool} {s₀ : State} (s : State) (k : Nat) (v : Option (Nat × Nat))
    (h_s : Steady μ δ s₀ s) :
    Steady μ δ s₀ (s.setIvStart k v) := by
  delta State.setIvStart
  try lift_lets
  repeat' first
    | (intro x; (fail_if_success have : State := x); clear_value x)
    | with_reducible apply steady_wrB
    | with_reducible exact Steady.mk_ (by assumption)
    | (with_reducible show 8 ≤ _; decide)

theorem steady_ivExpire {μ δ : Bool} {s₀ : State} (s : State) (k tick : Nat) (h_s : Steady μ δ s₀ s) :
    Steady μ δ s₀ (s.ivExpire k tick) := by
  delta State.ivExpire
  try lift_lets
  repeat' first
    | with_reducible assumption
    | with_reducible apply steady_setIvStart
    | with_reducible apply steady_count
    | with_reducible apply Steady.ite
    | (with_reducible show 8 ≤ _; decide)
    | (split <;> try lift_lets)

theorem steady_ivStop {μ δ : Bool} {s₀ : State} (s : State) (k inp bin : Nat) (h_s : Steady μ δ s₀ s) :
    Steady μ δ s₀ (s.ivStop k inp bin) := by
  delta State.ivStop
  try lift_lets
  repeat' first
    | with_reducible assumption
    | (intro x; have hx : Steady μ δ s₀ x := ?_; (on_goal 1 => clear_value x); on_goal 2 => (subst x; try lift_lets))
    | with_reducible apply steady_setIvStart
    | with_reducible apply steady_note
    | with_reducible apply steady_signal
    | with_reducible apply steady_count
    | with_reducible apply steady_wr
    | with_reducible apply Steady.ite
    | (with_reducible show 8 ≤ _; decide)
    | (split <;> try lift_lets)
    | dsimp only

theorem steady_ivBegin {μ δ : Bool} {s₀ : State} (s : State) (k bin tick : Nat) (h_s : Steady μ δ s₀ s) :
    Steady μ δ s₀ (s.ivBegin k bin tick) := by
  delta State.ivBegin
  try lift_lets
  repeat' first
    | with_reducible assumption
    | with_reducible apply steady_setIvStart
    | with_reducible apply steady_count
    | with_reducible apply Steady.ite
    | (with_reducible show 8 ≤ _; decide)

theorem steady_intervals {μ δ : Bool} {s₀ : State} (s : State) (inp bin tick : Nat) (rise : Bool)
    (h_s : Steady μ δ s₀ s) :
    Steady μ δ s₀ (s.intervals inp bin tick rise) := by
  delta State.intervals
  try lift_lets
  repeat' first
    | with_reducible assumption
    | (intro x; have hx : Steady μ δ s₀ x := ?_; (on_goal 1 => clear_value x); on_goal 2 => (subst x; try lift_lets))
    | (intro x; (fail_if_success have : State := x); clear_value x)
    | with_reducible apply steady_ivBegin
    | with_reducible apply steady_ivStop
    | with_reducible apply steady_ivExpire
    | with_reducible apply Steady.ite
    | with_reducible apply Steady.foldl
    | (intro x a hx; try lift_lets)

theorem steady_execIntervalStartExpire {μ δ : Bool} {s₀ : State} (iv : Nat) (s : State) (h_s : Steady μ δ s₀ s) :
    SteadyO μ δ s₀ (execIntervalStartExpire iv s) := by
  delta execIntervalStartExpire
  try lift_lets
  repeat' first
    | with_reducible assumption
    | with_reducible apply steady_ivExpire
    | with_reducible apply SteadyO.next

theorem steady_freqEdge {μ δ : Bool} {s₀ : State} (s : State) (inp bin : Nat) (rise : Bool) (h_s : Steady μ δ s₀ s) :
    Steady μ δ s₀ (s.freqEdge inp bin rise) := by
  delta State.freqEdge
  try lift_lets
  repeat' first
    | with_reducible assumption
    | (intro x; (fail_if_success have : State := x); clear_value x)
    | with_reducible apply Steady.ite
    | with_reducible exact Steady.mk_ (by assumption)
    | (split <;> try lift_lets)

theorem steady_applyFreqGo {μ δ : Bool} {s₀ : State} (s : State) (h_s : Steady μ δ s₀ s) :
    Steady μ δ s₀ (s.applyFreqGo) := by
  delta State.applyFreqGo
  try lift_lets
  repeat' first
    | with_reducible assumption
    | (intro x; (fail_if_success have : State := x); clear_value x)
    | with_reducible apply steady_wr
    | with_reducible apply Steady.ite
    | with_reducible exact Steady.mk_ (by assumption)
    | (with_reducible show 8 ≤ _; decide)

theorem steady_execTdcFreqGo {μ δ : Bool} {s₀ : State} (s : State) (h_s : Steady μ δ s₀ s) :
    SteadyO μ δ s₀ (execTdcFreqGo s) := by
  delta execTdcFreqGo
  try lift_lets
  repeat' first
    | with_reducible assumption
    | with_reducible apply steady_stage
    | with_reducible apply SteadyO.ite
    | with_reducible apply SteadyO.next

theorem steady_execTdcFreqGateEnd {μ δ : Bool} {s₀ : State} (s : State) (h_s : Steady μ δ s₀ s) :
    SteadyO μ δ s₀ (execTdcFreqGateEnd s) := by
  delta execTdcFreqGateEnd
  try lift_lets
  repeat' first
    | with_reducible assumption
    | (intro x; have hx : Steady μ δ s₀ x := ?_; (on_goal 1 => clear_value x); on_goal 2 => (subst x; try lift_lets))
    | (intro x; (fail_if_success have : State := x); clear_value x)
    | with_reducible apply steady_signal
    | with_reducible apply steady_wr
    | with_reducible apply Steady.ite
    | with_reducible apply SteadyO.ite
    | with_reducible exact Steady.mk_ (by assumption)
    | with_reducible apply SteadyO.next
    | (with_reducible show 8 ≤ _; decide)
    | (split <;> try lift_lets)

theorem steady_stampEdge {μ δ : Bool} {s₀ : State} (s : State) (i bin grid : Nat) (rise : Bool)
    (h_s : Steady μ δ s₀ s) :
    Steady μ δ s₀ (s.stampEdge i bin grid rise) := by
  delta State.stampEdge
  try lift_lets
  repeat' first
    | with_reducible assumption
    | (intro x; have hx : Steady μ δ s₀ x := ?_; (on_goal 1 => clear_value x); on_goal 2 => (subst x; try lift_lets))
    | (intro x; (fail_if_success have : State := x); clear_value x)
    | with_reducible apply steady_intervals
    | with_reducible apply steady_logStamp
    | with_reducible apply steady_setTdcIn
    | with_reducible apply steady_jobEdge
    | with_reducible apply steady_trigEdge
    | with_reducible apply steady_syncStamp
    | with_reducible apply steady_injEdge
    | with_reducible apply steady_wrB
    | with_reducible apply steady_wr
    | with_reducible apply Steady.ite
    | (with_reducible show 8 ≤ _; decide)

theorem steady_loseEdge {μ δ : Bool} {s₀ : State} (s : State) (i : Nat) (dead : Bool) (h_s : Steady μ δ s₀ s) :
    Steady μ δ s₀ (s.loseEdge i dead) := by
  delta State.loseEdge
  try lift_lets
  repeat' first
    | with_reducible assumption
    | (intro x; have hx : Steady μ δ s₀ x := ?_; (on_goal 1 => clear_value x); on_goal 2 => (subst x; try lift_lets))
    | (intro x; (fail_if_success have : State := x); clear_value x)
    | with_reducible apply steady_setTdcIn
    | with_reducible apply steady_note
    | with_reducible apply steady_count
    | with_reducible apply steady_wr
    | with_reducible apply Steady.ite
    | (with_reducible show 8 ≤ _; decide)

theorem steady_execTdcEdge {μ δ : Bool} {s₀ : State} (inp bin : Nat) (rise : Bool) (held : Nat) (s : State)
    (h_s : Steady μ δ s₀ s) :
    SteadyO μ δ s₀ (execTdcEdge inp bin rise held s) := by
  delta execTdcEdge
  try lift_lets
  repeat' first
    | with_reducible assumption
    | (intro x; have hx : Steady μ δ s₀ x := ?_; (on_goal 1 => clear_value x); on_goal 2 => (subst x; try lift_lets))
    | (intro x; (fail_if_success have : State := x); clear_value x)
    | with_reducible apply steady_loseEdge
    | with_reducible apply steady_stampEdge
    | with_reducible apply steady_freqEdge
    | with_reducible apply steady_note
    | with_reducible apply steady_count
    | with_reducible apply steady_wrB
    | with_reducible apply SteadyO.ite
    | with_reducible apply SteadyO.next
    | (with_reducible show 8 ≤ _; decide)

theorem steady_execTdcLineSwap {s₀ : State} (inp : Nat) (dllLost : Bool) (s : State) (h_s : Steady true true s₀ s) :
    SteadyO true true s₀ (execTdcLineSwap inp dllLost s) := by
  delta execTdcLineSwap
  try lift_lets
  repeat' first
    | with_reducible assumption
    | (intro x; have hx : Steady true true s₀ x := ?_; (on_goal 1 => clear_value x); on_goal 2 => (subst x; try lift_lets))
    | (intro x; (fail_if_success have : State := x); clear_value x)
    | with_reducible apply steady_setTdcIn
    | with_reducible apply steady_fault
    | with_reducible apply steady_note
    | with_reducible apply Steady.ite
    | with_reducible apply SteadyO.ite
    | with_reducible apply SteadyO.next

theorem steady_swapLines {μ δ : Bool} {s₀ : State} (s : State) (h_s : Steady μ δ s₀ s) :
    Steady μ δ s₀ (s.swapLines) := by
  delta State.swapLines
  try lift_lets
  repeat' first
    | with_reducible assumption
    | (intro x; (fail_if_success have : State := x); clear_value x)
    | with_reducible apply steady_setTdcIn
    | with_reducible apply steady_wr
    | with_reducible apply Steady.ite
    | with_reducible apply Steady.foldl
    | (with_reducible show 8 ≤ _; decide)
    | (intro x a hx; try lift_lets)

/-! ## Thermal -/

theorem steady_setSensor {μ δ : Bool} {s₀ : State} (s : State) (n : Nat) (v : Sensor) (h_s : Steady μ δ s₀ s) :
    Steady μ δ s₀ (s.setSensor n v) := by
  delta State.setSensor
  try lift_lets
  repeat' first
    | (intro x; (fail_if_success have : State := x); clear_value x)
    | with_reducible exact Steady.mk_ (by assumption)

theorem steady_putSens {μ δ : Bool} {s₀ : State} (s : State) (n : Nat) (f g : Fld) (v : Nat) (h_s : Steady μ δ s₀ s)
    (hb_f : 8 ≤ f.reg.base) (hb_g : 8 ≤ g.reg.base) :
    Steady μ δ s₀ (s.putSens n f g v) := by
  delta State.putSens
  try lift_lets
  repeat' first
    | with_reducible assumption
    | with_reducible apply steady_wr
    | with_reducible apply Steady.ite

theorem steady_dwell {μ δ : Bool} {s₀ : State} (s : State) (h_s : Steady μ δ s₀ s) :
    Steady μ δ s₀ (s.dwell) := by
  delta State.dwell
  try lift_lets
  repeat' first
    | with_reducible assumption
    | (intro x; (fail_if_success have : State := x); clear_value x)
    | with_reducible apply steady_wr
    | with_reducible apply Steady.ite
    | with_reducible exact Steady.mk_ (by assumption)
    | (with_reducible show 8 ≤ _; decide)
    | (split <;> try lift_lets)

theorem steady_execThermSample {μ δ : Bool} {s₀ : State} (sensor : Nat) (temp : Option Int) (s : State)
    (h_s : Steady μ δ s₀ s) :
    SteadyO μ δ s₀ (execThermSample sensor temp s) := by
  delta execThermSample
  try lift_lets
  repeat' first
    | with_reducible assumption
    | with_reducible apply steady_dwell
    | with_reducible apply steady_putSens
    | with_reducible apply steady_setSensor
    | with_reducible apply Steady.ite
    | with_reducible apply SteadyO.ite
    | with_reducible apply SteadyO.next
    | (with_reducible show 8 ≤ _; decide)
    | (split <;> try lift_lets)

theorem steady_thermFault {s₀ : State} (s : State) (bit sensor : Nat) (h_s : Steady true true s₀ s) :
    Steady true true s₀ (s.thermFault bit sensor) := by
  delta State.thermFault
  try lift_lets
  repeat' first
    | with_reducible assumption
    | (intro x; have hx : Steady true true s₀ x := ?_; (on_goal 1 => clear_value x); on_goal 2 => (subst x; try lift_lets))
    | exact steady_wr_mode _ _ _ (by assumption) rfl rfl (.inr (by decide))
    | (intro x; (fail_if_success have : State := x); clear_value x)
    | with_reducible apply steady_fault
    | with_reducible apply Steady.ite

theorem steady_execThermStateEntry {s₀ : State} (sensor : Nat) (st : ThermState) (s : State)
    (h_s : Steady true true s₀ s) :
    SteadyO true true s₀ (execThermStateEntry sensor st s) := by
  delta execThermStateEntry
  try lift_lets
  repeat' first
    | with_reducible assumption
    | (intro x; have hx : Steady true true s₀ x := ?_; (on_goal 1 => clear_value x); on_goal 2 => (subst x; try lift_lets))
    | (with_reducible show 8 ≤ _; cases st <;> decide)
    | (intro x; (fail_if_success have : State := x); clear_value x)
    | with_reducible apply steady_thermFault
    | with_reducible apply steady_putSens
    | with_reducible apply SteadyO.ite
    | with_reducible apply SteadyO.next

theorem steady_execThermStateLeave {μ δ : Bool} {s₀ : State} (sensor : Nat) (st : ThermState) (s : State)
    (h_s : Steady μ δ s₀ s) :
    SteadyO μ δ s₀ (execThermStateLeave sensor st s) := by
  delta execThermStateLeave
  try lift_lets
  repeat' first
    | with_reducible assumption
    | (with_reducible show 8 ≤ _; cases st <;> decide)
    | with_reducible apply steady_putSens
    | with_reducible apply SteadyO.ite
    | with_reducible apply SteadyO.next

theorem steady_execThermRateEntry {s₀ : State} (sensor : Nat) (s : State) (h_s : Steady true true s₀ s) :
    SteadyO true true s₀ (execThermRateEntry sensor s) := by
  delta execThermRateEntry
  try lift_lets
  repeat' first
    | with_reducible assumption
    | with_reducible apply steady_thermFault
    | with_reducible apply steady_putSens
    | with_reducible apply SteadyO.ite
    | with_reducible apply SteadyO.next
    | (with_reducible show 8 ≤ _; decide)

theorem steady_execThermRateLeave {μ δ : Bool} {s₀ : State} (sensor : Nat) (s : State) (h_s : Steady μ δ s₀ s) :
    SteadyO μ δ s₀ (execThermRateLeave sensor s) := by
  delta execThermRateLeave
  try lift_lets
  repeat' first
    | with_reducible assumption
    | with_reducible apply steady_putSens
    | with_reducible apply SteadyO.ite
    | with_reducible apply SteadyO.next
    | (with_reducible show 8 ≤ _; decide)

theorem steady_execThermSensorFail {s₀ : State} (sensor : Nat) (s : State) (h_s : Steady true true s₀ s) :
    SteadyO true true s₀ (execThermSensorFail sensor s) := by
  delta execThermSensorFail
  try lift_lets
  repeat' first
    | with_reducible assumption
    | (intro x; have hx : Steady true true s₀ x := ?_; (on_goal 1 => clear_value x); on_goal 2 => (subst x; try lift_lets))
    | (intro x; (fail_if_success have : State := x); clear_value x)
    | with_reducible apply steady_dwell
    | with_reducible apply steady_putSens
    | with_reducible apply steady_fault
    | with_reducible apply steady_note
    | with_reducible apply SteadyO.ite
    | with_reducible apply SteadyO.next
    | (with_reducible show 8 ≤ _; decide)

theorem steady_haltScan {μ δ : Bool} {s₀ : State} (s : State) (t : Nat) (h_s : Steady μ δ s₀ s) :
    Steady μ δ s₀ (s.haltScan t) := by
  delta State.haltScan
  try lift_lets
  repeat' first
    | with_reducible assumption
    | (intro x; have hx : Steady μ δ s₀ x := ?_; (on_goal 1 => clear_value x); on_goal 2 => (subst x; try lift_lets))
    | (intro x; (fail_if_success have : State := x); clear_value x)
    | with_reducible apply steady_takeLists
    | with_reducible apply steady_loseConversion
    | with_reducible apply steady_setSenseTile
    | with_reducible apply steady_wr
    | with_reducible apply Steady.foldl
    | (with_reducible show 8 ≤ _; decide)
    | (intro x a hx; try lift_lets)

theorem steady_shutBegin {μ δ : Bool} {s₀ : State} (s : State) (h_s : Steady μ δ s₀ s) :
    Steady μ δ s₀ (s.shutBegin) := by
  delta State.shutBegin
  try lift_lets
  repeat' first
    | with_reducible assumption
    | (intro x; have hx : Steady μ δ s₀ x := ?_; (on_goal 1 => clear_value x); on_goal 2 => (subst x; try lift_lets))
    | (intro x; (fail_if_success have : State := x); clear_value x)
    | with_reducible apply steady_count
    | with_reducible apply steady_wr
    | with_reducible exact Steady.mk_ (by assumption)
    | (with_reducible show 8 ≤ _; decide)

theorem steady_shutEnd {δ : Bool} {s₀ : State} (s : State) (h_s : Steady true δ s₀ s) :
    Steady true δ s₀ (s.shutEnd) := by
  delta State.shutEnd
  try lift_lets
  repeat' first
    | with_reducible assumption
    | (intro x; have hx : Steady true δ s₀ x := ?_; (on_goal 1 => clear_value x); on_goal 2 => (subst x; try lift_lets))
    | with_reducible apply steady_haltScan
    | with_reducible apply steady_dwell
    | with_reducible apply steady_abandonCal
    | with_reducible apply steady_capSafe
    | with_reducible apply steady_wr
    | with_reducible apply Steady.foldl
    | (with_reducible show 8 ≤ _; decide)
    | (intro x a hx; try lift_lets)

theorem steady_shutDown {δ : Bool} {s₀ : State} (s : State) (rec_ : State → State) (h_s : Steady true δ s₀ s)
    (h_rec_ : ∀ x, Steady true δ s₀ x → Steady true δ s₀ (rec_ x)) :
    Steady true δ s₀ (s.shutDown rec_) := by
  delta State.shutDown
  try lift_lets
  repeat' first
    | with_reducible assumption
    | with_reducible apply steady_shutEnd
    | with_reducible apply steady_shutBegin
    | with_reducible apply h_rec_
    | with_reducible apply Steady.ite

theorem steady_execThermShutdown {s₀ : State} (s : State) (h_s : Steady true true s₀ s) :
    SteadyO true true s₀ (execThermShutdown s) := by
  delta execThermShutdown
  try lift_lets
  repeat' first
    | with_reducible assumption
    | with_reducible apply steady_shutDown
    | with_reducible apply steady_fault
    | with_reducible apply SteadyO.next
    | (intro x hx; try lift_lets)
    | (split <;> try lift_lets)

theorem steady_execThermRestart {μ : Bool} {s₀ : State} (s : State) (h_s : Steady μ true s₀ s) :
    SteadyO μ true s₀ (execThermRestart s) := by
  delta execThermRestart
  try lift_lets
  repeat' first
    | with_reducible assumption
    | (intro x; have hx : Steady μ true s₀ x := ?_; (on_goal 1 => clear_value x); on_goal 2 => (subst x; try lift_lets))
    | (with_reducible show _ ≤ 5; decide)
    | (intro x; (fail_if_success have : State := x); clear_value x)
    | with_reducible apply steady_beginBootCal
    | with_reducible apply steady_setMode
    | with_reducible apply steady_wr
    | with_reducible apply Steady.ite
    | with_reducible apply SteadyO.ite
    | with_reducible exact Steady.mk_ (by assumption)
    | with_reducible apply SteadyO.next
    | (with_reducible show 8 ≤ _; decide)
    | (split <;> try lift_lets)

theorem steady_thmCfgWrite {μ δ : Bool} {s₀ : State} (s : State) (v : Word) (h_s : Steady μ δ s₀ s) :
    Steady μ δ s₀ (s.thmCfgWrite v) := by
  delta State.thmCfgWrite
  try lift_lets
  repeat' first
    | with_reducible assumption
    | with_reducible apply steady_stage
    | with_reducible apply steady_refuse
    | with_reducible apply Steady.ite

theorem steady_execThmCfgWrite {μ δ : Bool} {s₀ : State} (value : Word) (s : State) (h_s : Steady μ δ s₀ s) :
    SteadyO μ δ s₀ (execThmCfgWrite value s) := by
  delta execThmCfgWrite
  try lift_lets
  repeat' first
    | with_reducible assumption
    | with_reducible apply steady_thmCfgWrite
    | with_reducible apply SteadyO.next

theorem steady_applyThmCfg {μ δ : Bool} {s₀ : State} (s : State) (v : Word) (h_s : Steady μ δ s₀ s) :
    Steady μ δ s₀ (s.applyThmCfg v) := by
  delta State.applyThmCfg
  try lift_lets
  repeat' first
    | with_reducible assumption
    | (intro x; have hx : Steady μ δ s₀ x := ?_; (on_goal 1 => clear_value x); on_goal 2 => (subst x; try lift_lets))
    | (intro x; (fail_if_success have : State := x); clear_value x)
    | with_reducible apply steady_setRegWord
    | with_reducible apply Steady.ite
    | with_reducible exact Steady.mk_ (by assumption)
    | (with_reducible show 8 ≤ _; decide)

theorem steady_maxClear {μ δ : Bool} {s₀ : State} (s : State) (h_s : Steady μ δ s₀ s) :
    Steady μ δ s₀ (s.maxClear) := by
  delta State.maxClear
  try lift_lets
  repeat' first
    | with_reducible assumption
    | with_reducible apply steady_putSens
    | with_reducible apply Steady.foldl
    | (with_reducible show 8 ≤ _; decide)
    | (intro x a hx; try lift_lets)

theorem steady_execMaxClear {μ δ : Bool} {s₀ : State} (s : State) (h_s : Steady μ δ s₀ s) :
    SteadyO μ δ s₀ (execMaxClear s) := by
  delta execMaxClear
  try lift_lets
  repeat' first
    | with_reducible assumption
    | with_reducible apply steady_maxClear
    | with_reducible apply SteadyO.next

/-! ## Faults -/

theorem steady_repairLane {μ δ : Bool} {s₀ : State} (s : State) (t lane : Nat) (h_s : Steady μ δ s₀ s) :
    Steady μ δ s₀ (s.repairLane t lane) := by
  delta State.repairLane
  try lift_lets
  repeat' first
    | with_reducible assumption
    | (intro x; have hx : Steady μ δ s₀ x := ?_; (on_goal 1 => clear_value x); on_goal 2 => (subst x; try lift_lets))
    | (intro x; (fail_if_success have : State := x); clear_value x)
    | with_reducible apply steady_strikeAll
    | with_reducible apply steady_wr
    | with_reducible exact Steady.mk_ (by assumption)
    | (with_reducible show 8 ≤ _; decide)

theorem steady_execSpineLaneRepairDone {μ δ : Bool} {s₀ : State} (tile : Nat) (s : State) (h_s : Steady μ δ s₀ s) :
    SteadyO μ δ s₀ (execSpineLaneRepairDone tile s) := by
  delta execSpineLaneRepairDone
  try lift_lets
  repeat' first
    | (intro x; (fail_if_success have : State := x); clear_value x)
    | with_reducible exact Steady.mk_ (by assumption)
    | with_reducible apply SteadyO.next

theorem steady_tileOutputsSafe {μ δ : Bool} {s₀ : State} (s : State) (t : Nat) (h_s : Steady μ δ s₀ s) :
    Steady μ δ s₀ (s.tileOutputsSafe t) := by
  delta State.tileOutputsSafe
  try lift_lets
  repeat' first
    | (intro x; (fail_if_success have : State := x); clear_value x)
    | with_reducible exact Steady.mk_ (by assumption)

theorem steady_execTileLinkSilence {μ δ : Bool} {s₀ : State} (tile : Nat) (s : State) (h_s : Steady μ δ s₀ s) :
    SteadyO μ δ s₀ (execTileLinkSilence tile s) := by
  delta execTileLinkSilence
  try lift_lets
  repeat' first
    | with_reducible assumption
    | (intro x; (fail_if_success have : State := x); clear_value x)
    | with_reducible apply steady_tileOutputsSafe
    | with_reducible apply SteadyO.ite
    | with_reducible apply SteadyO.next

theorem steady_detect {μ δ : Bool} {s₀ : State} (s : State) (b : FltBlk) (f : FaultEv) (h_s : Steady μ δ s₀ s) :
    Steady μ δ s₀ (s.detect b f) := by
  delta State.detect
  try lift_lets
  repeat' first
    | with_reducible assumption
    | (intro x; have hx : Steady μ δ s₀ x := ?_; (on_goal 1 => clear_value x); on_goal 2 => (subst x; try lift_lets))
    | (intro x; (fail_if_success have : State := x); clear_value x)
    | with_reducible apply steady_repairLane
    | with_reducible apply steady_overrangeTick
    | with_reducible apply steady_countSymbols
    | with_reducible apply steady_draw
    | with_reducible apply steady_wr
    | with_reducible apply Steady.ite
    | with_reducible exact Steady.mk_ (by assumption)
    | (with_reducible show 8 ≤ _; decide)
    | (split <;> try lift_lets)

theorem steady_beforeFence {δ : Bool} {s₀ : State} (s : State) (b : FltBlk) (f : FaultEv) (h_s : Steady true δ s₀ s) :
    Steady true δ s₀ (s.beforeFence b f) := by
  delta State.beforeFence
  try lift_lets
  repeat' first
    | with_reducible assumption
    | with_reducible apply steady_capAbort
    | with_reducible apply Steady.ite
    | (split <;> try lift_lets)

theorem steady_fltInject {μ δ : Bool} {s₀ : State} (s : State) (b : FltBlk) (v : Word) (h_s : Steady μ δ s₀ s) :
    Steady μ δ s₀ (s.fltInject b v) := by
  delta State.fltInject
  try lift_lets
  repeat' first
    | with_reducible assumption
    | with_reducible apply steady_FltBlk_wr
    | with_reducible apply Steady.ite
    | with_reducible exact Steady.mk_ (by assumption)
    | (with_reducible show 8 ≤ _; decide)

theorem steady_execFltInject {μ δ : Bool} {s₀ : State} (blk : FltBlk) (value : Word) (s : State)
    (h_s : Steady μ δ s₀ s) :
    SteadyO μ δ s₀ (execFltInject blk value s) := by
  delta execFltInject
  try lift_lets
  repeat' first
    | with_reducible assumption
    | with_reducible apply steady_fltInject
    | with_reducible apply SteadyO.next

theorem steady_faultEvents {s₀ : State} (s : State) (b : FltBlk) (fs : List (FaultEv × Bool))
    (h_s : Steady true true s₀ s) :
    Steady true true s₀ (s.faultEvents b fs) := by
  delta State.faultEvents
  try lift_lets
  repeat' first
    | with_reducible assumption
    | (intro x; have hx : Steady true true s₀ x := ?_; (on_goal 1 => clear_value x); on_goal 2 => (subst x; try lift_lets))
    | (intro x; (fail_if_success have : State := x); clear_value x)
    | with_reducible apply steady_beforeFence
    | with_reducible apply steady_detect
    | with_reducible apply steady_shutDown
    | with_reducible apply steady_faultCycle
    | with_reducible apply Steady.ite
    | with_reducible apply Steady.foldl
    | (intro x a hx; try lift_lets)
    | (intro x hx; try lift_lets)

theorem steady_execFaultRecord {s₀ : State} (blk : FltBlk) (faults : List FaultEv) (s : State)
    (h_s : Steady true true s₀ s) :
    SteadyO true true s₀ (execFaultRecord blk faults s) := by
  delta execFaultRecord
  try lift_lets
  repeat' first
    | with_reducible assumption
    | (intro x; have hx : Steady true true s₀ x := ?_; (on_goal 1 => clear_value x); on_goal 2 => (subst x; try lift_lets))
    | (intro x; (fail_if_success have : State := x); clear_value x)
    | with_reducible apply steady_faultEvents
    | with_reducible apply SteadyO.ite
    | with_reducible exact Steady.mk_ (by assumption)
    | with_reducible apply SteadyO.next

theorem steady_applyInjections {s₀ : State} (s : State) (b : FltBlk) (vs : List Word) (h_s : Steady true true s₀ s) :
    Steady true true s₀ (s.applyInjections b vs) := by
  delta State.applyInjections
  try lift_lets
  repeat' first
    | with_reducible assumption
    | with_reducible apply steady_faultEvents
    | with_reducible apply Steady.ite

theorem steady_errPolicy {μ δ : Bool} {s₀ : State} (s : State) (h_s : Steady μ δ s₀ s) :
    Steady μ δ s₀ (s.errPolicy) := by
  delta State.errPolicy
  try lift_lets
  repeat' first
    | with_reducible assumption
    | (intro x; (fail_if_success have : State := x); clear_value x)
    | with_reducible apply Steady.ite
    | with_reducible exact Steady.mk_ (by assumption)

theorem steady_execErrHoldExpire {μ δ : Bool} {s₀ : State} (s : State) (h_s : Steady μ δ s₀ s) :
    SteadyO μ δ s₀ (execErrHoldExpire s) := by
  delta execErrHoldExpire
  try lift_lets
  repeat' first
    | with_reducible assumption
    | (intro x; (fail_if_success have : State := x); clear_value x)
    | with_reducible apply steady_errPolicy
    | with_reducible apply SteadyO.ite
    | with_reducible exact Steady.mk_ (by assumption)
    | with_reducible apply SteadyO.next
    | (split <;> try lift_lets)

theorem steady_handover {μ δ : Bool} {s₀ : State} (s : State) (h_s : Steady μ δ s₀ s) :
    Steady μ δ s₀ (s.handover) := by
  delta State.handover
  try lift_lets
  repeat' first
    | with_reducible assumption
    | (intro x; have hx : Steady μ δ s₀ x := ?_; (on_goal 1 => clear_value x); on_goal 2 => (subst x; try lift_lets))
    | (intro x; (fail_if_success have : State := x); clear_value x)
    | with_reducible apply steady_logEvent
    | with_reducible apply steady_count
    | with_reducible apply steady_wr
    | (with_reducible show 8 ≤ _; decide)

theorem steady_mailboxesOff {μ δ : Bool} {s₀ : State} (s : State) (h_s : Steady μ δ s₀ s) :
    Steady μ δ s₀ (s.mailboxesOff) := by
  delta State.mailboxesOff
  try lift_lets
  repeat' first
    | with_reducible assumption
    | with_reducible apply steady_wr
    | with_reducible apply Steady.foldl
    | (with_reducible show 8 ≤ _; decide)
    | (intro x a hx; try lift_lets)

theorem steady_firmwareLost {μ δ : Bool} {s₀ : State} (s : State) (h_s : Steady μ δ s₀ s) :
    Steady μ δ s₀ (s.firmwareLost) := by
  delta State.firmwareLost
  try lift_lets
  repeat' first
    | with_reducible assumption
    | (intro x; have hx : Steady μ δ s₀ x := ?_; (on_goal 1 => clear_value x); on_goal 2 => (subst x; try lift_lets))
    | (intro x; (fail_if_success have : State := x); clear_value x)
    | with_reducible apply steady_mailboxesOff
    | with_reducible apply steady_wr
    | with_reducible exact Steady.mk_ (by assumption)
    | (with_reducible show 8 ≤ _; decide)

theorem steady_execHeartbeatMiss {s₀ : State} (s : State) (h_s : Steady true true s₀ s) :
    SteadyO true true s₀ (execHeartbeatMiss s) := by
  delta execHeartbeatMiss
  try lift_lets
  repeat' first
    | with_reducible assumption
    | (intro x; have hx : Steady true true s₀ x := ?_; (on_goal 1 => clear_value x); on_goal 2 => (subst x; try lift_lets))
    | (intro x; (fail_if_success have : State := x); clear_value x)
    | with_reducible apply steady_firmwareLost
    | with_reducible apply steady_handover
    | with_reducible apply steady_fault
    | with_reducible apply steady_wr
    | with_reducible apply SteadyO.ite
    | with_reducible exact Steady.mk_ (by assumption)
    | with_reducible apply SteadyO.next
    | (with_reducible show 8 ≤ _; decide)

theorem steady_execStandbyRestartDone {s₀ : State} (ok : Bool) (s : State) (h_s : Steady true true s₀ s) :
    SteadyO true true s₀ (execStandbyRestartDone ok s) := by
  delta execStandbyRestartDone
  try lift_lets
  repeat' first
    | with_reducible assumption
    | (intro x; have hx : Steady true true s₀ x := ?_; (on_goal 1 => clear_value x); on_goal 2 => (subst x; try lift_lets))
    | (intro x; (fail_if_success have : State := x); clear_value x)
    | with_reducible apply steady_fault
    | with_reducible apply steady_advise
    | with_reducible apply steady_wr
    | with_reducible apply SteadyO.ite
    | with_reducible exact Steady.mk_ (by assumption)
    | with_reducible apply SteadyO.next
    | (with_reducible show 8 ≤ _; decide)
    | (split <;> try lift_lets)

theorem steady_adopt {s₀ : State} (s : State) (u : UnitDesc) (h_s : Steady true true s₀ s) :
    Steady true true s₀ (s.adopt u) := by
  delta State.adopt
  try lift_lets
  repeat' first
    | with_reducible assumption
    | (intro x; (fail_if_success have : State := x); clear_value x)
    | with_reducible apply steady_fault
    | with_reducible apply steady_logEvent

theorem steady_execFwAudit {s₀ : State} (stale : List UnitDesc) (s : State) (h_s : Steady true true s₀ s) :
    SteadyO true true s₀ (execFwAudit stale s) := by
  delta execFwAudit
  try lift_lets
  repeat' first
    | with_reducible assumption
    | with_reducible apply steady_adopt
    | with_reducible apply SteadyO.ite
    | with_reducible apply Steady.foldl
    | with_reducible apply SteadyO.next

theorem steady_execLogWrite {μ δ : Bool} {s₀ : State} (s : State) (h_s : Steady μ δ s₀ s) :
    SteadyO μ δ s₀ (execLogWrite s) := by
  delta execLogWrite
  try lift_lets
  repeat' first
    | with_reducible assumption
    | (intro x; (fail_if_success have : State := x); clear_value x)
    | with_reducible exact Steady.mk_ (by assumption)
    | with_reducible apply SteadyO.next
    | (split <;> try lift_lets)

theorem steady_execPeakClr {μ δ : Bool} {s₀ : State} (thr : Nat) (s : State) (h_s : Steady μ δ s₀ s) :
    SteadyO μ δ s₀ (execPeakClr thr s) := by
  delta execPeakClr
  try lift_lets
  repeat' first
    | with_reducible assumption
    | with_reducible apply steady_updThr
    | with_reducible apply SteadyO.ite
    | with_reducible apply SteadyO.next

/-! ## Startup -/

theorem steady_hardReset {s₀ : State} (s : State) (regs : SMap Word) (therm : Therm) (boot : Boot)
    (h_s : Steady true true s₀ s) (h_regs : ∃ p, regs = s.regs.filter p) :
    Steady true true s₀ (s.hardReset regs therm boot) := by
  obtain ⟨p, rfl⟩ := h_regs
  unfold State.hardReset
  refine ⟨h_s.1, h_s.2.1, fun hs => ?_, fun e => absurd e (by decide), fun e => absurd e (by decide)⟩
  have h1 := (inv_iff _).1 ((Steady.filter (p := p) h_s (fun e => absurd e (by decide))).2.2.1 hs)
  have hm : Memory.wf ([] : SMap Byte) := by decide
  exact (inv_iff _).2 ⟨h1.1, hm, h1.2.2⟩

theorem steady_resetPart {s₀ : State} (s : State) (h_s : Steady true true s₀ s) :
    Steady true true s₀ (s.resetPart) := by
  delta State.resetPart
  try lift_lets
  repeat' first
    | with_reducible assumption
    | (intro x; have hx : Steady true true s₀ x := ?_; (on_goal 1 => clear_value x); on_goal 2 => (subst x; try lift_lets))
    | exact ⟨_, rfl⟩
    | (intro x; (fail_if_success have : State := x); clear_value x)
    | with_reducible apply steady_hardReset
    | with_reducible apply steady_putSens
    | with_reducible apply Steady.foldl
    | (with_reducible show 8 ≤ _; decide)
    | (intro x a hx; try lift_lets)

theorem steady_execPerstAssert {s₀ : State} (s : State) (h_s : Steady true true s₀ s) :
    SteadyO true true s₀ (execPerstAssert s) := by
  delta execPerstAssert
  try lift_lets
  repeat' first
    | with_reducible assumption
    | (intro x; have hx : Steady true true s₀ x := ?_; (on_goal 1 => clear_value x); on_goal 2 => (subst x; try lift_lets))
    | (intro x; (fail_if_success have : State := x); clear_value x)
    | with_reducible apply steady_resetPart
    | with_reducible exact Steady.mk_ (by assumption)
    | with_reducible apply SteadyO.next

theorem steady_setRail {μ δ : Bool} {s₀ : State} (s : State) (r : Nat) (good : Bool) (h_s : Steady μ δ s₀ s) :
    Steady μ δ s₀ (s.setRail r good) := by
  delta State.setRail
  try lift_lets
  repeat' first
    | with_reducible assumption
    | (intro x; have hx : Steady μ δ s₀ x := ?_; (on_goal 1 => clear_value x); on_goal 2 => (subst x; try lift_lets))
    | (intro x; (fail_if_success have : State := x); clear_value x)
    | with_reducible apply steady_wr
    | with_reducible exact Steady.mk_ (by assumption)
    | (with_reducible show 8 ≤ _; decide)

theorem steady_seqError {s₀ : State} (s : State) (h_s : Steady true true s₀ s) :
    Steady true true s₀ (s.seqError) := by
  delta State.seqError
  try lift_lets
  repeat' first
    | with_reducible assumption
    | (intro x; have hx : Steady true true s₀ x := ?_; (on_goal 1 => clear_value x); on_goal 2 => (subst x; try lift_lets))
    | (intro x; (fail_if_success have : State := x); clear_value x)
    | with_reducible apply steady_resetPart
    | with_reducible apply steady_wr
    | with_reducible exact Steady.mk_ (by assumption)
    | (with_reducible show 8 ≤ _; decide)

theorem steady_railUp {s₀ : State} (s : State) (r : Nat) (h_s : Steady true true s₀ s) :
    Steady true true s₀ (s.railUp r) := by
  delta State.railUp
  try lift_lets
  repeat' first
    | with_reducible assumption
    | (intro x; have hx : Steady true true s₀ x := ?_; (on_goal 1 => clear_value x); on_goal 2 => (subst x; try lift_lets))
    | (intro x; (fail_if_success have : State := x); clear_value x)
    | with_reducible apply steady_seqError
    | with_reducible apply steady_setRail
    | with_reducible apply Steady.ite

theorem steady_execRailReturn {s₀ : State} (rail : Nat) (s : State) (h_s : Steady true true s₀ s) :
    SteadyO true true s₀ (execRailReturn rail s) := by
  delta execRailReturn
  try lift_lets
  repeat' first
    | with_reducible assumption
    | with_reducible apply steady_railUp
    | with_reducible apply SteadyO.next

theorem steady_execRailSeqError {s₀ : State} (rail : Nat) (s : State) (h_s : Steady true true s₀ s) :
    SteadyO true true s₀ (execRailSeqError rail s) := by
  delta execRailSeqError
  try lift_lets
  repeat' first
    | with_reducible assumption
    | with_reducible apply steady_railUp
    | with_reducible apply SteadyO.ite
    | with_reducible apply SteadyO.next

theorem steady_execRailDrop {s₀ : State} (rail : Nat) (s : State) (h_s : Steady true true s₀ s) :
    SteadyO true true s₀ (execRailDrop rail s) := by
  delta execRailDrop
  try lift_lets
  repeat' first
    | with_reducible assumption
    | (intro x; have hx : Steady true true s₀ x := ?_; (on_goal 1 => clear_value x); on_goal 2 => (subst x; try lift_lets))
    | with_reducible apply steady_setRail
    | with_reducible apply steady_resetPart
    | with_reducible apply steady_wr
    | with_reducible apply SteadyO.ite
    | with_reducible apply SteadyO.next
    | (with_reducible show 8 ≤ _; decide)

theorem steady_execVauxLoss {s₀ : State} (s : State) (h_s : Steady true true s₀ s) :
    SteadyO true true s₀ (execVauxLoss s) := by
  delta execVauxLoss
  try lift_lets
  repeat' first
    | with_reducible assumption
    | (intro x; have hx : Steady true true s₀ x := ?_; (on_goal 1 => clear_value x); on_goal 2 => (subst x; try lift_lets))
    | exact ⟨fun _ => false, by simp⟩
    | (intro x; (fail_if_success have : State := x); clear_value x)
    | with_reducible apply steady_hardReset
    | with_reducible exact Steady.mk_ (by assumption)
    | with_reducible apply SteadyO.next

theorem steady_startBoot {μ δ : Bool} {s₀ : State} (s : State) (h_s : Steady μ δ s₀ s) :
    Steady μ δ s₀ (s.startBoot) := by
  delta State.startBoot
  try lift_lets
  repeat' first
    | with_reducible assumption
    | (intro x; (fail_if_success have : State := x); clear_value x)
    | with_reducible apply Steady.ite
    | with_reducible exact Steady.mk_ (by assumption)

theorem steady_execPerstDeassert {μ δ : Bool} {s₀ : State} (s : State) (h_s : Steady μ δ s₀ s) :
    SteadyO μ δ s₀ (execPerstDeassert s) := by
  delta execPerstDeassert
  try lift_lets
  repeat' first
    | with_reducible assumption
    | (intro x; have hx : Steady μ δ s₀ x := ?_; (on_goal 1 => clear_value x); on_goal 2 => (subst x; try lift_lets))
    | (intro x; (fail_if_success have : State := x); clear_value x)
    | with_reducible apply steady_startBoot
    | with_reducible apply SteadyO.ite
    | with_reducible exact Steady.mk_ (by assumption)
    | with_reducible apply SteadyO.next

theorem steady_execBootStart {μ δ : Bool} {s₀ : State} (s : State) (h_s : Steady μ δ s₀ s) :
    SteadyO μ δ s₀ (execBootStart s) := by
  delta execBootStart
  try lift_lets
  repeat' first
    | with_reducible assumption
    | with_reducible apply steady_startBoot
    | with_reducible apply SteadyO.next

theorem steady_acceptSlot {μ δ : Bool} {s₀ : State} (s : State) (b : Bool) (o : SlotObs) (h_s : Steady μ δ s₀ s) :
    Steady μ δ s₀ (s.acceptSlot b o) := by
  delta State.acceptSlot
  try lift_lets
  repeat' first
    | with_reducible assumption
    | (intro x; have hx : Steady μ δ s₀ x := ?_; (on_goal 1 => clear_value x); on_goal 2 => (subst x; try lift_lets))
    | (intro x; (fail_if_success have : State := x); clear_value x)
    | with_reducible apply steady_wrB
    | with_reducible apply steady_wr
    | with_reducible apply steady_setRegWord
    | with_reducible exact Steady.mk_ (by assumption)
    | (with_reducible show 8 ≤ _; decide)

theorem steady_configReady {μ δ : Bool} {s₀ : State} (s : State) (h_s : Steady μ δ s₀ s) :
    Steady μ δ s₀ (s.configReady) := by
  delta State.configReady
  try lift_lets
  repeat' first
    | with_reducible assumption
    | (intro x; (fail_if_success have : State := x); clear_value x)
    | with_reducible apply steady_setHif

theorem steady_execBootImageCheck {μ δ : Bool} {s₀ : State} (slotA slotB : SlotObs) (flash8D : Bool) (s : State)
    (h_s : Steady μ δ s₀ s) :
    SteadyO μ δ s₀ (execBootImageCheck slotA slotB flash8D s) := by
  delta execBootImageCheck
  try lift_lets
  repeat' first
    | with_reducible assumption
    | (intro x; have hx : Steady μ δ s₀ x := ?_; (on_goal 1 => clear_value x); on_goal 2 => (subst x; try lift_lets))
    | (intro x; have hf : ∀ t a b, Steady μ δ s₀ t → Steady μ δ s₀ (x t a b) := ?_; (on_goal 1 => clear_value x); on_goal 2 => (subst x; intro t a b h; beta_reduce; try lift_lets))
    | (intro x; (fail_if_success have : State := x); clear_value x)
    | with_reducible apply steady_configReady
    | with_reducible apply steady_acceptSlot
    | with_reducible apply steady_wrB
    | with_reducible apply steady_wr
    | with_reducible apply hf
    | with_reducible apply Steady.ite
    | with_reducible apply SteadyO.ite
    | with_reducible exact Steady.mk_ (by assumption)
    | with_reducible apply SteadyO.next
    | (with_reducible show 8 ≤ _; decide)

theorem steady_loadVendor {μ δ : Bool} {s₀ : State} (s : State) (gc : Nat) (h_s : Steady μ δ s₀ s) :
    Steady μ δ s₀ (s.loadVendor gc) := by
  delta State.loadVendor
  try lift_lets
  repeat' first
    | (intro x; (fail_if_success have : State := x); clear_value x)
    | with_reducible exact Steady.mk_ (by assumption)

theorem steady_loadMicrocode {μ δ : Bool} {s₀ : State} (s : State) (h_s : Steady μ δ s₀ s) :
    Steady μ δ s₀ (s.loadMicrocode) := by
  delta State.loadMicrocode
  try lift_lets
  repeat' first
    | with_reducible assumption
    | (intro x; have hx : Steady μ δ s₀ x := ?_; (on_goal 1 => clear_value x); on_goal 2 => (subst x; try lift_lets))
    | (intro x; (fail_if_success have : State := x); clear_value x)
    | with_reducible apply steady_loadVendor
    | with_reducible apply steady_wr
    | with_reducible apply Steady.foldl
    | with_reducible exact Steady.mk_ (by assumption)
    | (with_reducible show 8 ≤ _; decide)

theorem steady_execFwReady {s₀ : State} (s : State) (h_s : Steady true true s₀ s) :
    SteadyO true true s₀ (execFwReady s) := by
  delta execFwReady
  try lift_lets
  repeat' first
    | with_reducible assumption
    | (intro x; have hx : Steady true true s₀ x := ?_; (on_goal 1 => clear_value x); on_goal 2 => (subst x; try lift_lets))
    | (with_reducible show _ ≤ 5; decide)
    | (intro x; (fail_if_success have : State := x); clear_value x)
    | with_reducible apply steady_loadMicrocode
    | with_reducible apply steady_configReady
    | with_reducible apply steady_errPolicy
    | with_reducible apply steady_beginBootCal
    | with_reducible apply steady_loadAll
    | with_reducible apply steady_loadRef
    | with_reducible apply steady_setMode
    | with_reducible apply steady_advise
    | with_reducible apply steady_logEvent
    | with_reducible apply steady_wr
    | with_reducible apply Steady.ite
    | with_reducible apply SteadyO.ite
    | with_reducible apply Steady.foldl
    | with_reducible apply SteadyO.next
    | (with_reducible show 8 ≤ _; decide)
    | (intro x a hx; try lift_lets)

end Sys2Proof.Machine
end

