-- ==== Sys2Proof/Laws/SteadyMailbox.lean ====
section
/-! SUPPORT. What every operation keeps (`Steady`): register writes, mailbox commands and tick boundaries. -/

namespace Sys2Proof.Machine

/-! ## Mailbox -/

theorem steady_regionWrite {μ δ : Bool} {s₀ : State} (s : State) (n off : Nat) (bytes : List Byte)
    (h_s : Steady μ δ s₀ s) :
    Steady μ δ s₀ (s.regionWrite n off bytes) := by
  delta State.regionWrite
  try lift_lets
  repeat' first
    | with_reducible assumption
    | (intro x; (fail_if_success have : State := x); clear_value x)
    | with_reducible apply steady_setMbx
    | with_reducible apply steady_wr
    | with_reducible apply Steady.ite
    | (with_reducible show 8 ≤ _; decide)

theorem steady_ring {μ δ : Bool} {s₀ : State} (s : State) (n : Nat) (h_s : Steady μ δ s₀ s) :
    Steady μ δ s₀ (s.ring n) := by
  delta State.ring
  try lift_lets
  repeat' first
    | with_reducible assumption
    | (intro x; have hx : Steady μ δ s₀ x := ?_; (on_goal 1 => clear_value x); on_goal 2 => (subst x; try lift_lets))
    | (intro x; (fail_if_success have : State := x); clear_value x)
    | with_reducible apply steady_deny
    | with_reducible apply steady_setMbx
    | with_reducible apply steady_signal
    | with_reducible apply steady_count
    | with_reducible apply steady_wr
    | with_reducible apply Steady.ite
    | with_reducible exact Steady.mk_ (by assumption)
    | (with_reducible show 8 ≤ _; decide)
    | (split <;> try lift_lets)

theorem steady_execMailboxDoorbell {μ δ : Bool} {s₀ : State} (n : Nat) (req : MbxReq) (s : State)
    (h_s : Steady μ δ s₀ s) :
    SteadyO μ δ s₀ (execMailboxDoorbell n req s) := by
  delta execMailboxDoorbell
  try lift_lets
  repeat' first
    | with_reducible assumption
    | with_reducible apply steady_ring
    | with_reducible apply steady_regionWrite
    | with_reducible apply SteadyO.ite
    | with_reducible apply SteadyO.next

theorem steady_command {μ δ : Bool} {s₀ : State} (s : State) (n op : Nat) (txn : Bool) (layout : List Byte → Bool)
    (body : State → MbxReq → State) (h_s : Steady μ δ s₀ s) (h_body : ∀ x a, Steady μ δ s₀ x → Steady μ δ s₀
    (body x a)) :
    Steady μ δ s₀ (s.command n op txn layout body) := by
  delta State.command
  try lift_lets
  repeat' first
    | with_reducible assumption
    | (intro x; (fail_if_success have : State := x); clear_value x)
    | with_reducible apply steady_deny
    | with_reducible apply h_body
    | with_reducible apply Steady.ite

/-! ## RegWrite -/

theorem steady_refRestart {μ δ : Bool} {s₀ : State} (s : State) (h_s : Steady μ δ s₀ s) :
    Steady μ δ s₀ (s.refRestart) := by
  delta State.refRestart
  try lift_lets
  repeat' first
    | with_reducible assumption
    | (intro x; have hx : Steady μ δ s₀ x := ?_; (on_goal 1 => clear_value x); on_goal 2 => (subst x; try lift_lets))
    | (intro x; (fail_if_success have : State := x); clear_value x)
    | with_reducible apply steady_wr
    | with_reducible exact Steady.mk_ (by assumption)
    | (with_reducible show 8 ≤ _; decide)

theorem steady_refWritten {μ δ : Bool} {s₀ : State} (s : State) (old new : Word) (h_s : Steady μ δ s₀ s) :
    Steady μ δ s₀ (s.refWritten old new) := by
  delta State.refWritten
  try lift_lets
  repeat' first
    | with_reducible assumption
    | with_reducible apply steady_refRestart
    | with_reducible apply Steady.ite

theorem steady_setRefCtrl {μ δ : Bool} {s₀ : State} (s : State) (v : Word) (h_s : Steady μ δ s₀ s) :
    Steady μ δ s₀ (s.setRefCtrl v) := by
  delta State.setRefCtrl
  try lift_lets
  repeat' first
    | with_reducible assumption
    | (intro x; (fail_if_success have : State := x); clear_value x)
    | with_reducible apply steady_refWritten
    | with_reducible apply steady_setRegWord
    | (with_reducible show 8 ≤ _; decide)

theorem steady_refCtrlWrite {μ δ : Bool} {s₀ : State} (s : State) (v : Word) (h_s : Steady μ δ s₀ s) :
    Steady μ δ s₀ (s.refCtrlWrite v) := by
  delta State.refCtrlWrite
  try lift_lets
  repeat' first
    | with_reducible assumption
    | with_reducible apply steady_setRefCtrl
    | with_reducible apply steady_refuse
    | with_reducible apply Steady.ite

theorem steady_execTimRefCtrlWrite {μ δ : Bool} {s₀ : State} (value : Word) (s : State) (h_s : Steady μ δ s₀ s) :
    SteadyO μ δ s₀ (execTimRefCtrlWrite value s) := by
  delta execTimRefCtrlWrite
  try lift_lets
  repeat' first
    | with_reducible assumption
    | with_reducible apply steady_refCtrlWrite
    | with_reducible apply SteadyO.next

theorem steady_putCoupled {μ δ : Bool} {s₀ : State} (s : State) (addr : Nat) (v : Word) (h_s : Steady μ δ s₀ s) :
    Steady μ δ s₀ (s.putCoupled addr v) := by
  unfold State.putCoupled
  split
  · exact steady_setMasked _ _ _ _ _ _ h_s
      ((Reg.kept_maskBy (findReg_kept (by assumption)) _ (fun a => decide (a = .rwc)) rfl).imp (fun x => x) fun e => by rw [e]; rfl)
  · exact h_s

theorem steady_applyCouple {μ δ : Bool} {s₀ : State} (s : State) (addr : Nat) (lo hi : Word) (h_s : Steady μ δ s₀ s) :
    Steady μ δ s₀ (s.applyCouple addr lo hi) := by
  delta State.applyCouple
  try lift_lets
  repeat' first
    | with_reducible assumption
    | with_reducible apply steady_putCoupled
    | with_reducible apply steady_refuse
    | with_reducible apply Steady.ite
    | (split <;> try lift_lets)

theorem steady_execCoupleTimeout {μ δ : Bool} {s₀ : State} (addr : Nat) (s : State) (h_s : Steady μ δ s₀ s) :
    SteadyO μ δ s₀ (execCoupleTimeout addr s) := by
  delta execCoupleTimeout
  try lift_lets
  repeat' first
    | with_reducible assumption
    | with_reducible apply steady_expireCouple
    | with_reducible apply SteadyO.next

theorem steady_setEnable {μ δ : Bool} {s₀ : State} (s : State) (k : OutKind) (t c : Nat) (on : Bool)
    (h_s : Steady μ δ s₀ s) :
    Steady μ δ s₀ (s.setEnable k t c on) := by
  delta State.setEnable
  try lift_lets
  repeat' first
    | with_reducible assumption
    | with_reducible apply steady_enableOff
    | with_reducible apply steady_enableOn
    | with_reducible apply Steady.ite

theorem steady_hasValue {μ δ : Bool} {s₀ : State} (s : State) (k : OutKind) (t c : Nat) (h_s : Steady μ δ s₀ s) :
    Steady μ δ s₀ (s.hasValue k t c) := by
  delta State.hasValue
  try lift_lets
  repeat' first
    | with_reducible assumption
    | (intro x; (fail_if_success have : State := x); clear_value x)
    | with_reducible apply steady_setEn
    | with_reducible apply Steady.ite

theorem steady_defaultPoly {μ δ : Bool} {s₀ : State} (s : State) (t g : Nat) (old : Word) (h_s : Steady μ δ s₀ s) :
    Steady μ δ s₀ (s.defaultPoly t g old) := by
  delta State.defaultPoly
  try lift_lets
  repeat' first
    | with_reducible assumption
    | with_reducible apply steady_wr
    | with_reducible apply Steady.ite
    | (with_reducible show 8 ≤ _; decide)

theorem steady_fltWritten {μ δ : Bool} {s₀ : State} (s : State) (r : Reg) (ix : List Nat) (v : Word)
    (h_s : Steady μ δ s₀ s) :
    Steady μ δ s₀ (s.fltWritten r ix v) := by
  delta State.fltWritten
  try lift_lets
  repeat' first
    | with_reducible assumption
    | (with_reducible show 8 ≤ _ ∨ _; first | exact .inl (by decide) | exact Reg.kept_and (by assumption) _ _ _ rfl)
    | with_reducible apply steady_errPolicy
    | with_reducible apply steady_setMasked
    | with_reducible apply Steady.ite

theorem steady_settled {δ : Bool} {s₀ : State} (s : State) (r : Reg) (ix : List Nat) (w : Nat) (old v m : Word)
    (h_s : Steady true δ s₀ s) :
    Steady true δ s₀ (s.settled r ix w old v m) := by
  delta State.settled
  try lift_lets
  repeat' first
    | with_reducible assumption
    | (intro x; have hx : Steady true δ s₀ x := ?_; (on_goal 1 => clear_value x); on_goal 2 => (subst x; try lift_lets))
    | (intro x; (fail_if_success have : State := x); clear_value x)
    | with_reducible apply steady_fltWritten
    | with_reducible apply steady_defaultPoly
    | with_reducible apply steady_hasValue
    | with_reducible apply steady_setEnable
    | with_reducible apply steady_refWritten
    | with_reducible apply steady_fltInject
    | with_reducible apply steady_maxClear
    | with_reducible apply steady_applyThmCfg
    | with_reducible apply steady_applyFreqGo
    | with_reducible apply steady_applyXtSwap
    | with_reducible apply steady_setGain
    | with_reducible apply steady_eventArmed
    | with_reducible apply steady_laneInject
    | with_reducible apply steady_widen
    | with_reducible apply steady_portCtrl
    | with_reducible apply steady_retrain
    | with_reducible apply steady_applySynBase
    | with_reducible apply steady_applyDecSw
    | with_reducible apply steady_applyGenEnable
    | with_reducible apply steady_genReset
    | with_reducible apply steady_wpWrite
    | with_reducible apply steady_applyJump
    | with_reducible apply steady_applySegState
    | with_reducible apply steady_raiseInj
    | with_reducible apply steady_applyScanEn
    | with_reducible apply steady_setSensePair
    | with_reducible apply steady_applySpan
    | with_reducible apply steady_placeCode
    | with_reducible apply steady_setSenseList
    | with_reducible apply steady_commitOn
    | with_reducible apply steady_applyCapForce
    | with_reducible apply steady_applyCapStop
    | with_reducible apply steady_applyCapArm
    | with_reducible apply steady_updThr
    | with_reducible apply steady_refuse
    | with_reducible apply steady_wrB
    | with_reducible apply steady_wr
    | with_reducible apply steady_setRegWord
    | with_reducible apply Steady.ite
    | with_reducible exact Steady.mk_ (by assumption)
    | (with_reducible show 8 ≤ _; decide)
    | (split <;> try lift_lets)

theorem steady_applySetting {δ : Bool} {s₀ : State} (s : State) (r : Reg) (ix : List Nat) (w : Nat) (v m : Word)
    (h_s : Steady true δ s₀ s) (h_r : r.Kept) :
    Steady true δ s₀ (s.applySetting r ix w v m) := by
  have h1 : Steady true δ s₀ (if (s.segLocked r ix && decide (m &&& (BitVec.ofNat 32 (r.maskBy w (fun a => decide (a ≠ .ro) &&
        decide (a ≠ .rw1c) && decide (a ≠ .wo))) &&& ~~~opMask r w) ≠ 0)) = true then
      s.wr F.TIL_ENV_STATUS_WR_REFUSED [ix.headD 0] 1
      else s.setMasked r ix w v (m &&& (BitVec.ofNat 32 (r.maskBy w (fun a => decide (a ≠ .ro) && decide (a ≠ .rw1c) &&
        decide (a ≠ .wo))) &&& ~~~opMask r w))) := by
    refine Steady.ite (steady_wr _ _ _ _ h_s (by decide)) (steady_setMasked _ _ _ _ _ _ h_s ?_)
    exact (r.kept_maskBy h_r w (fun a => decide (a ≠ .ro) && decide (a ≠ .rw1c) && decide (a ≠ .wo)) rfl).imp (fun x => x)
      fun e => by rw [e]; simp
  exact steady_settled _ _ _ _ _ _ _ (steady_setMasked _ r ix w 0 _ h1 (r.kept_and h_r w _ _ rfl))

theorem steady_applyAtAddr {δ : Bool} {s₀ : State} (s : State) (addr : Nat) (v m : Word) (h_s : Steady true δ s₀ s) :
    Steady true δ s₀ (s.applyAtAddr addr v m) := by
  delta State.applyAtAddr
  try lift_lets
  repeat' first
    | with_reducible assumption
    | exact findReg_kept (by assumption)
    | with_reducible apply steady_applySetting
    | (split <;> try lift_lets)

theorem steady_capBits {μ δ : Bool} {s₀ : State} (s : State) (t : Nat) (v : Word) (h_s : Steady μ δ s₀ s) :
    Steady μ δ s₀ (s.capBits t v) := by
  delta State.capBits
  try lift_lets
  repeat' first
    | with_reducible assumption
    | (intro x; have hx : Steady μ δ s₀ x := ?_; (on_goal 1 => clear_value x); on_goal 2 => (subst x; try lift_lets))
    | (intro x; (fail_if_success have : State := x); clear_value x)
    | with_reducible apply steady_capControl
    | with_reducible apply steady_wr
    | with_reducible apply Steady.ite
    | (with_reducible show 8 ≤ _; decide)

theorem steady_wrote {δ : Bool} {s₀ : State} (s : State) (r : Reg) (ix : List Nat) (w : Nat) (old v : Word)
    (h_s : Steady true δ s₀ s) :
    Steady true δ s₀ (s.wrote r ix w old v) := by
  delta State.wrote
  try lift_lets
  repeat' first
    | with_reducible assumption
    | (intro x; have hx : Steady true δ s₀ x := ?_; (on_goal 1 => clear_value x); on_goal 2 => (subst x; try lift_lets))
    | (intro x; (fail_if_success have : State := x); clear_value x)
    | with_reducible apply steady_capBits
    | with_reducible apply steady_settled
    | with_reducible apply steady_fltWritten
    | with_reducible apply steady_defaultPoly
    | with_reducible apply steady_setEnable
    | with_reducible apply steady_laneInject
    | with_reducible apply steady_writeSpan
    | with_reducible apply steady_stage
    | with_reducible apply steady_wr
    | with_reducible apply Steady.ite
    | (with_reducible show 8 ≤ _; decide)

theorem steady_segWrite {μ δ : Bool} {s₀ : State} (s : State) (ix : List Nat) (w : Nat) (v : Word)
    (h_s : Steady μ δ s₀ s) :
    Steady μ δ s₀ (s.segWrite ix w v) := by
  unfold State.segWrite
  dsimp only
  split
  · exact steady_refuse _ _ _ h_s
  split
  · have h1 : Steady μ δ s₀ (if w = 0 then s.stage (.word (R.TIL_SEG.addr ix 0) v 4) false else s) :=
      Steady.ite (steady_stage _ _ _ h_s) h_s
    exact Steady.ite (steady_wr _ _ _ _ h1 (by decide)) h1
  · exact steady_enterWrite _ _ _ _ _ h_s (.inl (by decide))

theorem steady_directWord {δ : Bool} {s₀ : State} (s : State) (r : Reg) (ix : List Nat) (w : Nat) (v : Word)
    (h_s : Steady true δ s₀ s) (h_r : r.Kept) :
    Steady true δ s₀ (s.directWord r ix w v) := by
  delta State.directWord
  try lift_lets
  repeat' first
    | with_reducible assumption
    | (with_reducible show 8 ≤ _ ∨ _; first | exact .inl (by decide) | exact Reg.kept_and (by assumption) _ _ _ rfl)
    | (intro x; (fail_if_success have : State := x); clear_value x)
    | with_reducible apply steady_segWrite
    | with_reducible apply steady_wrote
    | with_reducible apply steady_refCtrlWrite
    | with_reducible apply steady_ring
    | with_reducible apply steady_fltInject
    | with_reducible apply steady_maxClear
    | with_reducible apply steady_thmCfgWrite
    | with_reducible apply steady_cqHeadWrite
    | with_reducible apply steady_sqTailWrite
    | with_reducible apply steady_synBaseWrite
    | with_reducible apply steady_decSwWrite
    | with_reducible apply steady_wpWrite
    | with_reducible apply steady_writeSpan
    | with_reducible apply steady_enterWrite
    | with_reducible apply steady_updThr
    | with_reducible apply steady_refuse
    | with_reducible apply steady_setMasked
    | with_reducible apply Steady.ite

theorem steady_regAt {δ : Bool} {s₀ : State} (s : State) (addr : Nat) (v : Word) (h_s : Steady true δ s₀ s) :
    Steady true δ s₀ (s.regAt addr v) := by
  delta State.regAt
  try lift_lets
  repeat' first
    | with_reducible assumption
    | exact findReg_kept (by assumption)
    | with_reducible apply steady_directWord
    | (split <;> try lift_lets)

theorem steady_tileWord {δ : Bool} {s₀ : State} (s : State) (addr : Nat) (v : Word) (h_s : Steady true δ s₀ s) :
    Steady true δ s₀ (s.tileWord addr v) := by
  delta State.tileWord
  try lift_lets
  repeat' first
    | with_reducible assumption
    | (intro x; (fail_if_success have : State := x); clear_value x)
    | with_reducible apply steady_regAt
    | with_reducible apply steady_nanoView
    | with_reducible apply steady_weightWrite
    | with_reducible apply steady_envWrite
    | with_reducible apply Steady.ite

theorem steady_busWord {δ : Bool} {s₀ : State} (s : State) (addr : Nat) (v : Word) (h_s : Steady true δ s₀ s) :
    Steady true δ s₀ (s.busWord addr v) := by
  delta State.busWord
  try lift_lets
  repeat' first
    | with_reducible assumption
    | (intro x; (fail_if_success have : State := x); clear_value x)
    | with_reducible apply steady_tileWord
    | with_reducible apply steady_regAt
    | with_reducible apply steady_regionWrite
    | with_reducible apply steady_msixWrite
    | with_reducible apply steady_setHif
    | with_reducible apply steady_tableWrite
    | with_reducible apply Steady.ite
    | with_reducible exact Steady.mk_ (by assumption)

theorem steady_execRegWrite {δ : Bool} {s₀ : State} (addr len : Nat) (value : BitVec 64) (s : State)
    (h_s : Steady true δ s₀ s) :
    SteadyO true δ s₀ (execRegWrite addr len value s) := by
  delta execRegWrite
  try lift_lets
  repeat' first
    | with_reducible assumption
    | (intro x; (fail_if_success have : State := x); clear_value x)
    | with_reducible apply steady_busWord
    | with_reducible apply steady_note
    | with_reducible apply steady_emit
    | with_reducible apply steady_wr
    | with_reducible apply Steady.ite
    | with_reducible apply SteadyO.ite
    | with_reducible apply Steady.foldl
    | with_reducible apply SteadyO.next
    | (with_reducible show 8 ≤ _; decide)
    | (intro x a hx; try lift_lets)

theorem steady_releaseWrites {δ : Bool} {s₀ : State} (s : State) (t : Nat) (h_s : Steady true δ s₀ s) :
    Steady true δ s₀ (s.releaseWrites t) := by
  delta State.releaseWrites
  try lift_lets
  repeat' first
    | with_reducible assumption
    | (intro x; (fail_if_success have : State := x); clear_value x)
    | with_reducible apply steady_tileWord
    | with_reducible apply Steady.foldl
    | with_reducible exact Steady.mk_ (by assumption)
    | (intro x a hx; try lift_lets)

theorem steady_execDecisionUpdate {δ : Bool} {s₀ : State} (replica : Nat) (s : State) (h_s : Steady true δ s₀ s) :
    SteadyO true δ s₀ (execDecisionUpdate replica s) := by
  delta execDecisionUpdate
  try lift_lets
  repeat' first
    | with_reducible assumption
    | (intro x; have hx : Steady true δ s₀ x := ?_; (on_goal 1 => clear_value x); on_goal 2 => (subst x; try lift_lets))
    | (intro x; (fail_if_success have : State := x); clear_value x)
    | with_reducible apply steady_releaseWrites
    | with_reducible apply steady_hubUpdate
    | with_reducible apply steady_applyAt
    | with_reducible apply Steady.ite
    | with_reducible apply SteadyO.ite
    | with_reducible exact Steady.mk_ (by assumption)
    | with_reducible apply SteadyO.next
    | (split <;> try lift_lets)

/-! ## Programs -/

theorem steady_writeProgram {μ δ : Bool} {s₀ : State} (s : State) (a : ProgAsk) (h_s : Steady μ δ s₀ s) :
    Steady μ δ s₀ (s.writeProgram a) := by
  delta State.writeProgram
  try lift_lets
  repeat' first
    | with_reducible assumption
    | (intro x; have hx : Steady μ δ s₀ x := ?_; (on_goal 1 => clear_value x); on_goal 2 => (subst x; try lift_lets))
    | (intro x; (fail_if_success have : State := x); clear_value x)
    | with_reducible apply steady_wr
    | with_reducible exact Steady.mk_ (by assumption)
    | (with_reducible show 8 ≤ _; decide)

theorem steady_loadProgram {μ δ : Bool} {s₀ : State} (s : State) (n : Nat) (a : ProgAsk) (h_s : Steady μ δ s₀ s) :
    Steady μ δ s₀ (s.loadProgram n a) := by
  delta State.loadProgram
  try lift_lets
  repeat' first
    | with_reducible assumption
    | with_reducible apply steady_writeProgram
    | with_reducible apply steady_deny
    | with_reducible apply steady_ok
    | (split <;> try lift_lets)

theorem steady_execProgramLoad {μ δ : Bool} {s₀ : State} (n : Nat) (s : State) (h_s : Steady μ δ s₀ s) :
    SteadyO μ δ s₀ (execProgramLoad n s) := by
  delta execProgramLoad
  try lift_lets
  repeat' first
    | with_reducible assumption
    | (intro x; (fail_if_success have : State := x); clear_value x)
    | with_reducible apply steady_loadProgram
    | with_reducible apply steady_command
    | with_reducible apply steady_progress
    | with_reducible apply steady_deny
    | with_reducible apply Steady.ite
    | with_reducible apply SteadyO.next
    | (intro x a hx; try lift_lets)
    | (split <;> try lift_lets)

theorem steady_execNanoLoad {μ δ : Bool} {s₀ : State} (n : Nat) (s : State) (h_s : Steady μ δ s₀ s) :
    SteadyO μ δ s₀ (execNanoLoad n s) := by
  delta execNanoLoad
  try lift_lets
  repeat' first
    | with_reducible assumption
    | (intro x; (fail_if_success have : State := x); clear_value x)
    | with_reducible apply steady_command
    | with_reducible apply steady_deny
    | with_reducible apply steady_ok
    | with_reducible apply Steady.ite
    | with_reducible exact Steady.mk_ (by assumption)
    | with_reducible apply SteadyO.next
    | (intro x a hx; try lift_lets)
    | (split <;> try lift_lets)

theorem steady_beginSwap {μ δ : Bool} {s₀ : State} (s : State) (gc : Nat) (b : Bool) (commit : Nat)
    (mbx : Option Nat) (h_s : Steady μ δ s₀ s) :
    Steady μ δ s₀ (s.beginSwap gc b commit mbx) := by
  delta State.beginSwap
  try lift_lets
  repeat' first
    | (intro x; (fail_if_success have : State := x); clear_value x)
    | with_reducible exact Steady.mk_ (by assumption)

theorem steady_execNanoSwap {μ δ : Bool} {s₀ : State} (n : Nat) (s : State) (h_s : Steady μ δ s₀ s) :
    SteadyO μ δ s₀ (execNanoSwap n s) := by
  delta execNanoSwap
  try lift_lets
  repeat' first
    | with_reducible assumption
    | (intro x; (fail_if_success have : State := x); clear_value x)
    | with_reducible apply steady_beginSwap
    | with_reducible apply steady_command
    | with_reducible apply steady_progress
    | with_reducible apply steady_deny
    | with_reducible apply SteadyO.next
    | (intro x a hx; try lift_lets)
    | (split <;> try lift_lets)

theorem steady_settleTxns {μ δ : Bool} {s₀ : State} (s : State) (h_s : Steady μ δ s₀ s) :
    Steady μ δ s₀ (s.settleTxns) := by
  delta State.settleTxns
  try lift_lets
  repeat' first
    | (intro x; (fail_if_success have : State := x); clear_value x)
    | with_reducible exact Steady.mk_ (by assumption)

theorem steady_execNanoSwapDone {μ δ : Bool} {s₀ : State} (tile cluster : Nat) (s : State) (h_s : Steady μ δ s₀ s) :
    SteadyO μ δ s₀ (execNanoSwapDone tile cluster s) := by
  delta execNanoSwapDone
  try lift_lets
  repeat' first
    | with_reducible assumption
    | (intro x; have hx : Steady μ δ s₀ x := ?_; (on_goal 1 => clear_value x); on_goal 2 => (subst x; try lift_lets))
    | (intro x; (fail_if_success have : State := x); clear_value x)
    | with_reducible apply steady_settleTxns
    | with_reducible apply steady_ok
    | with_reducible apply Steady.ite
    | with_reducible apply SteadyO.ite
    | with_reducible exact Steady.mk_ (by assumption)
    | with_reducible apply SteadyO.next
    | (split <;> try lift_lets)

/-! ## Images -/

theorem steady_showStage {μ δ : Bool} {s₀ : State} (s : State) (h_s : Steady μ δ s₀ s) :
    Steady μ δ s₀ (s.showStage) := by
  delta State.showStage
  try lift_lets
  repeat' first
    | with_reducible assumption
    | with_reducible apply steady_wrB
    | with_reducible apply steady_wr
    | (with_reducible show 8 ≤ _; decide)

theorem steady_stageBank {μ δ : Bool} {s₀ : State} (s : State) (vendor prepared : Bool) (m : Image) (gc : Nat)
    (h_s : Steady μ δ s₀ s) :
    Steady μ δ s₀ (s.stageBank vendor prepared m gc) := by
  delta State.stageBank
  try lift_lets
  repeat' first
    | with_reducible assumption
    | (intro x; have hx : Steady μ δ s₀ x := ?_; (on_goal 1 => clear_value x); on_goal 2 => (subst x; try lift_lets))
    | (intro x; (fail_if_success have : State := x); clear_value x)
    | with_reducible apply steady_fillBank
    | with_reducible apply Steady.ite
    | with_reducible exact Steady.mk_ (by assumption)
    | (split <;> try lift_lets)

theorem steady_stageImage {μ δ : Bool} {s₀ : State} (s : State) (vendor : Bool) (tiles : Nat) (m : Image)
    (h_s : Steady μ δ s₀ s) :
    Steady μ δ s₀ (s.stageImage vendor tiles m) := by
  delta State.stageImage
  try lift_lets
  repeat' first
    | with_reducible assumption
    | (intro x; have hx : Steady μ δ s₀ x := ?_; (on_goal 1 => clear_value x); on_goal 2 => (subst x; try lift_lets))
    | (intro x; (fail_if_success have : State := x); clear_value x)
    | with_reducible apply steady_stageBank
    | with_reducible apply steady_showStage
    | with_reducible apply Steady.foldl
    | with_reducible exact Steady.mk_ (by assumption)
    | (intro x a hx; try lift_lets)

theorem steady_beginStage {μ δ : Bool} {s₀ : State} (s : State) (n : Nat) (vendor : Bool) (p : List Byte)
    (h_s : Steady μ δ s₀ s) :
    Steady μ δ s₀ (s.beginStage n vendor p) := by
  delta State.beginStage
  try lift_lets
  repeat' first
    | with_reducible assumption
    | with_reducible apply steady_progress
    | with_reducible apply steady_deny
    | with_reducible apply steady_wr
    | with_reducible apply Steady.ite
    | (with_reducible show 8 ≤ _; decide)
    | (split <;> try lift_lets)

theorem steady_endStage {μ δ : Bool} {s₀ : State} (s : State) (n : Nat) (vendor : Bool) (p : List Byte)
    (readBack : Bool) (h_s : Steady μ δ s₀ s) :
    Steady μ δ s₀ (s.endStage n vendor p readBack) := by
  delta State.endStage
  try lift_lets
  repeat' first
    | with_reducible assumption
    | (intro x; (fail_if_success have : State := x); clear_value x)
    | with_reducible apply steady_stageImage
    | with_reducible apply steady_showStage
    | with_reducible apply steady_deny
    | with_reducible apply steady_ok
    | with_reducible apply Steady.ite
    | (split <;> try lift_lets)

theorem steady_execPatchStage {μ δ : Bool} {s₀ : State} (n : Nat) (s : State) (h_s : Steady μ δ s₀ s) :
    SteadyO μ δ s₀ (execPatchStage n s) := by
  delta execPatchStage
  try lift_lets
  repeat' first
    | with_reducible assumption
    | with_reducible apply steady_beginStage
    | with_reducible apply steady_command
    | with_reducible apply SteadyO.next
    | (intro x a hx; try lift_lets)

theorem steady_execUserUcodeStage {μ δ : Bool} {s₀ : State} (n : Nat) (s : State) (h_s : Steady μ δ s₀ s) :
    SteadyO μ δ s₀ (execUserUcodeStage n s) := by
  delta execUserUcodeStage
  try lift_lets
  repeat' first
    | with_reducible assumption
    | with_reducible apply steady_beginStage
    | with_reducible apply steady_command
    | with_reducible apply SteadyO.next
    | (intro x a hx; try lift_lets)

theorem steady_beginApply {μ δ : Bool} {s₀ : State} (s : State) (commit : Nat) (mbx : Option Nat)
    (h_s : Steady μ δ s₀ s) :
    Steady μ δ s₀ (s.beginApply commit mbx) := by
  delta State.beginApply
  try lift_lets
  repeat' first
    | with_reducible assumption
    | (intro x; have hx : Steady μ δ s₀ x := ?_; (on_goal 1 => clear_value x); on_goal 2 => (subst x; try lift_lets))
    | (intro x; (fail_if_success have : State := x); clear_value x)
    | with_reducible apply steady_showStage
    | with_reducible exact Steady.mk_ (by assumption)

theorem steady_execPatchApply {μ δ : Bool} {s₀ : State} (n : Nat) (s : State) (h_s : Steady μ δ s₀ s) :
    SteadyO μ δ s₀ (execPatchApply n s) := by
  delta execPatchApply
  try lift_lets
  repeat' first
    | with_reducible assumption
    | with_reducible apply steady_beginApply
    | with_reducible apply steady_command
    | with_reducible apply steady_progress
    | with_reducible apply steady_deny
    | with_reducible apply Steady.ite
    | with_reducible apply SteadyO.next
    | (intro x a hx; try lift_lets)

theorem steady_endApply {μ δ : Bool} {s₀ : State} (s : State) (u : UStage) (h_s : Steady μ δ s₀ s) :
    Steady μ δ s₀ (s.endApply u) := by
  delta State.endApply
  try lift_lets
  repeat' first
    | with_reducible assumption
    | (intro x; have hx : Steady μ δ s₀ x := ?_; (on_goal 1 => clear_value x); on_goal 2 => (subst x; try lift_lets))
    | (intro x; (fail_if_success have : State := x); clear_value x)
    | with_reducible apply steady_showStage
    | with_reducible apply steady_wr
    | with_reducible apply Steady.ite
    | with_reducible apply Steady.foldl
    | with_reducible exact Steady.mk_ (by assumption)
    | (with_reducible show 8 ≤ _; decide)
    | (intro x a hx; try lift_lets)

theorem steady_execPatchApplyDone {μ δ : Bool} {s₀ : State} (s : State) (h_s : Steady μ δ s₀ s) :
    SteadyO μ δ s₀ (execPatchApplyDone s) := by
  delta execPatchApplyDone
  try lift_lets
  repeat' first
    | with_reducible assumption
    | (intro x; have hx : Steady μ δ s₀ x := ?_; (on_goal 1 => clear_value x); on_goal 2 => (subst x; try lift_lets))
    | with_reducible apply steady_endApply
    | with_reducible apply steady_settleTxns
    | with_reducible apply steady_fail
    | with_reducible apply steady_ok
    | with_reducible apply Steady.ite
    | with_reducible apply SteadyO.ite
    | with_reducible apply SteadyO.next
    | (split <;> try lift_lets)

theorem steady_execPatchDiscard {μ δ : Bool} {s₀ : State} (n : Nat) (s : State) (h_s : Steady μ δ s₀ s) :
    SteadyO μ δ s₀ (execPatchDiscard n s) := by
  delta execPatchDiscard
  try lift_lets
  repeat' first
    | with_reducible assumption
    | with_reducible apply steady_showStage
    | with_reducible apply steady_command
    | with_reducible apply steady_deny
    | with_reducible apply steady_ok
    | with_reducible apply Steady.ite
    | with_reducible exact Steady.mk_ (by assumption)
    | with_reducible apply SteadyO.next
    | (intro x a hx; try lift_lets)
    | (split <;> try lift_lets)

/-! ## Transactions -/

theorem steady_setOpen {μ δ : Bool} {s₀ : State} (s : State) (p : Nat) (t : Option Txn) (h_s : Steady μ δ s₀ s) :
    Steady μ δ s₀ (s.setOpen p t) := by
  delta State.setOpen
  try lift_lets
  repeat' first
    | (intro x; (fail_if_success have : State := x); clear_value x)
    | with_reducible exact Steady.mk_ (by assumption)

theorem steady_lapseTxn {μ δ : Bool} {s₀ : State} (s : State) (p : Nat) (h_s : Steady μ δ s₀ s) :
    Steady μ δ s₀ (s.lapseTxn p) := by
  delta State.lapseTxn
  try lift_lets
  repeat' first
    | with_reducible assumption
    | (intro x; have hx : Steady μ δ s₀ x := ?_; (on_goal 1 => clear_value x); on_goal 2 => (subst x; try lift_lets))
    | (intro x; (fail_if_success have : State := x); clear_value x)
    | with_reducible apply steady_setOpen
    | with_reducible apply steady_wr
    | with_reducible apply Steady.ite
    | with_reducible exact Steady.mk_ (by assumption)
    | (with_reducible show 8 ≤ _; decide)
    | (split <;> try lift_lets)

theorem steady_beginTxn {μ δ : Bool} {s₀ : State} (s : State) (n p : Nat) (h_s : Steady μ δ s₀ s) :
    Steady μ δ s₀ (s.beginTxn n p) := by
  delta State.beginTxn
  try lift_lets
  repeat' first
    | with_reducible assumption
    | (intro x; have hx : Steady μ δ s₀ x := ?_; (on_goal 1 => clear_value x); on_goal 2 => (subst x; try lift_lets))
    | (intro x; (fail_if_success have : State := x); clear_value x)
    | with_reducible apply steady_setOpen
    | with_reducible apply steady_respond
    | with_reducible apply steady_wr
    | with_reducible exact Steady.mk_ (by assumption)
    | (with_reducible show 8 ≤ _; decide)

theorem steady_execTxnBegin {μ δ : Bool} {s₀ : State} (n : Nat) (s : State) (h_s : Steady μ δ s₀ s) :
    SteadyO μ δ s₀ (execTxnBegin n s) := by
  delta execTxnBegin
  try lift_lets
  repeat' first
    | with_reducible assumption
    | (intro x; have hx : Steady μ δ s₀ x := ?_; (on_goal 1 => clear_value x); on_goal 2 => (subst x; try lift_lets))
    | (intro x; (fail_if_success have : State := x); clear_value x)
    | with_reducible apply steady_beginTxn
    | with_reducible apply steady_lapseTxn
    | with_reducible apply steady_command
    | with_reducible apply steady_deny
    | with_reducible apply Steady.ite
    | with_reducible apply SteadyO.next
    | (intro x a hx; try lift_lets)

theorem steady_setTxn {μ δ : Bool} {s₀ : State} (s : State) (n p : Nat) (t : Txn) (es : List TxnEntry)
    (h_s : Steady μ δ s₀ s) :
    Steady μ δ s₀ (s.setTxn n p t es) := by
  delta State.setTxn
  try lift_lets
  repeat' first
    | with_reducible assumption
    | (intro x; (fail_if_success have : State := x); clear_value x)
    | with_reducible apply steady_setOpen
    | with_reducible apply steady_respond
    | with_reducible apply Steady.ite
    | (split <;> try lift_lets)

theorem steady_execTxnSet {μ δ : Bool} {s₀ : State} (n : Nat) (s : State) (h_s : Steady μ δ s₀ s) :
    SteadyO μ δ s₀ (execTxnSet n s) := by
  delta execTxnSet
  try lift_lets
  repeat' first
    | with_reducible assumption
    | (intro x; have hx : Steady μ δ s₀ x := ?_; (on_goal 1 => clear_value x); on_goal 2 => (subst x; try lift_lets))
    | (intro x; (fail_if_success have : State := x); clear_value x)
    | with_reducible apply steady_setTxn
    | with_reducible apply steady_lapseTxn
    | with_reducible apply steady_command
    | with_reducible apply steady_respond
    | with_reducible apply Steady.ite
    | with_reducible apply SteadyO.next
    | (intro x a hx; try lift_lets)
    | (split <;> try lift_lets)

theorem steady_acceptTxn {μ δ : Bool} {s₀ : State} (s : State) (n p : Nat) (t : Txn) (commit : Nat)
    (h_s : Steady μ δ s₀ s) :
    Steady μ δ s₀ (s.acceptTxn n p t commit) := by
  delta State.acceptTxn
  try lift_lets
  repeat' first
    | with_reducible assumption
    | (intro x; have hx : Steady μ δ s₀ x := ?_; (on_goal 1 => clear_value x); on_goal 2 => (subst x; try lift_lets))
    | (intro x; (fail_if_success have : State := x); clear_value x)
    | with_reducible apply steady_setOpen
    | with_reducible apply steady_beginApply
    | with_reducible apply steady_beginSwap
    | with_reducible apply steady_respond
    | with_reducible apply Steady.foldl
    | with_reducible exact Steady.mk_ (by assumption)
    | (intro x a hx; try lift_lets)
    | (split <;> try lift_lets)

theorem steady_commitTxn {μ δ : Bool} {s₀ : State} (s : State) (n p : Nat) (t : Txn) (tick : Nat)
    (h_s : Steady μ δ s₀ s) :
    Steady μ δ s₀ (s.commitTxn n p t tick) := by
  have hno : ∀ x d : Nat, Steady μ δ s₀ (s.respond n stRefused x d t.id []) := fun x d => steady_respond _ _ _ _ _ _ _ h_s
  unfold State.commitTxn
  dsimp only
  repeat' split
  all_goals first
    | exact hno _ _
    | exact steady_acceptTxn _ _ _ _ _ h_s

theorem steady_execTxnCommit {μ δ : Bool} {s₀ : State} (n : Nat) (s : State) (h_s : Steady μ δ s₀ s) :
    SteadyO μ δ s₀ (execTxnCommit n s) := by
  delta execTxnCommit
  try lift_lets
  repeat' first
    | with_reducible assumption
    | (intro x; have hx : Steady μ δ s₀ x := ?_; (on_goal 1 => clear_value x); on_goal 2 => (subst x; try lift_lets))
    | with_reducible apply steady_commitTxn
    | with_reducible apply steady_lapseTxn
    | with_reducible apply steady_settleTxns
    | with_reducible apply steady_command
    | with_reducible apply steady_respond
    | with_reducible apply SteadyO.next
    | (intro x a hx; try lift_lets)
    | (split <;> try lift_lets)

theorem steady_execTxnRollback {μ δ : Bool} {s₀ : State} (n : Nat) (s : State) (h_s : Steady μ δ s₀ s) :
    SteadyO μ δ s₀ (execTxnRollback n s) := by
  delta execTxnRollback
  try lift_lets
  repeat' first
    | with_reducible assumption
    | (intro x; have hx : Steady μ δ s₀ x := ?_; (on_goal 1 => clear_value x); on_goal 2 => (subst x; try lift_lets))
    | (intro x; (fail_if_success have : State := x); clear_value x)
    | with_reducible apply steady_lapseTxn
    | with_reducible apply steady_setOpen
    | with_reducible apply steady_command
    | with_reducible apply steady_respond
    | with_reducible apply SteadyO.next
    | (intro x a hx; try lift_lets)
    | (split <;> try lift_lets)

theorem steady_execTxnStatus {μ δ : Bool} {s₀ : State} (n : Nat) (s : State) (h_s : Steady μ δ s₀ s) :
    SteadyO μ δ s₀ (execTxnStatus n s) := by
  delta execTxnStatus
  try lift_lets
  repeat' first
    | with_reducible assumption
    | (intro x; have hx : Steady μ δ s₀ x := ?_; (on_goal 1 => clear_value x); on_goal 2 => (subst x; try lift_lets))
    | (intro x; (fail_if_success have : State := x); clear_value x)
    | with_reducible apply steady_lapseTxn
    | with_reducible apply steady_command
    | with_reducible apply steady_deny
    | with_reducible apply steady_ok
    | with_reducible apply Steady.ite
    | with_reducible apply SteadyO.next
    | (intro x a hx; try lift_lets)

theorem steady_execTxnTimeout {μ δ : Bool} {s₀ : State} (part : Nat) (s : State) (h_s : Steady μ δ s₀ s) :
    SteadyO μ δ s₀ (execTxnTimeout part s) := by
  delta execTxnTimeout
  try lift_lets
  repeat' first
    | with_reducible assumption
    | with_reducible apply steady_lapseTxn
    | with_reducible apply SteadyO.next

theorem steady_applyEntry {δ : Bool} {s₀ : State} (s : State) (es : List TxnEntry) (e : TxnEntry)
    (h_s : Steady true δ s₀ s) :
    Steady true δ s₀ (s.applyEntry es e) := by
  unfold State.applyEntry
  split
  · exact h_s
  rename_i r ix w hr
  split
  · refine steady_applyCouple _ _ _ _ (Steady.ite
      (steady_refuse _ _ _ (Steady.mk_ (steady_expireCouple _ _ h_s))) (steady_expireCouple _ _ h_s))
  · exact Steady.ite (Steady.mk_ h_s) (steady_applySetting _ _ _ _ _ _ h_s (findReg_kept hr))

theorem steady_applyTxn {δ : Bool} {s₀ : State} (s : State) (p : Nat) (t : Txn) (h_s : Steady true δ s₀ s) :
    Steady true δ s₀ (s.applyTxn p t) := by
  delta State.applyTxn
  try lift_lets
  repeat' first
    | with_reducible assumption
    | (intro x; have hx : Steady true δ s₀ x := ?_; (on_goal 1 => clear_value x); on_goal 2 => (subst x; try lift_lets))
    | (intro x; (fail_if_success have : State := x); clear_value x)
    | with_reducible apply steady_applyEntry
    | with_reducible apply Steady.foldl
    | with_reducible exact Steady.mk_ (by assumption)
    | (intro x a hx; try lift_lets)

theorem steady_applyTxns {δ : Bool} {s₀ : State} (s : State) (h_s : Steady true δ s₀ s) :
    Steady true δ s₀ (s.applyTxns) := by
  delta State.applyTxns
  try lift_lets
  repeat' first
    | with_reducible assumption
    | with_reducible apply steady_applyTxn
    | with_reducible apply steady_settleTxns
    | with_reducible apply Steady.foldl
    | (intro x a hx; try lift_lets)

/-! ## Grid -/

theorem steady_applyAct {s₀ : State} (s : State) (a : StagedAct) (h_s : Steady true true s₀ s) :
    Steady true true s₀ (s.applyAct a) := by
  delta State.applyAct
  try lift_lets
  repeat' first
    | with_reducible assumption
    | with_reducible apply steady_applyAtAddr
    | with_reducible apply steady_applyCouple
    | with_reducible apply steady_applyInjections
    | with_reducible apply steady_applyThmCfg
    | with_reducible apply steady_applyFreqGo
    | with_reducible apply steady_applyAbort
    | with_reducible apply steady_applyXtSwap
    | with_reducible apply steady_applyAgcStep
    | with_reducible apply steady_applySynBase
    | with_reducible apply steady_applyDecSw
    | with_reducible apply steady_genReset
    | with_reducible apply steady_raiseInj
    | with_reducible apply steady_applyShortClamp
    | with_reducible apply steady_applySpan
    | with_reducible apply steady_applyCapForce
    | with_reducible apply steady_applyCapStop
    | with_reducible apply steady_applyCapArm
    | (split <;> try lift_lets)

theorem steady_applyStaged {s₀ : State} (s : State) (h_s : Steady true true s₀ s) :
    Steady true true s₀ (s.applyStaged) := by
  delta State.applyStaged
  try lift_lets
  repeat' first
    | with_reducible assumption
    | (intro x; have hx : Steady true true s₀ x := ?_; (on_goal 1 => clear_value x); on_goal 2 => (subst x; try lift_lets))
    | (intro x; (fail_if_success have : State := x); clear_value x)
    | with_reducible apply steady_applyAct
    | with_reducible apply steady_applyInjections
    | with_reducible apply Steady.foldl
    | with_reducible exact Steady.mk_ (by assumption)
    | (intro x a hx; try lift_lets)

theorem steady_strobe {μ δ : Bool} {s₀ : State} (s : State) (h_s : Steady μ δ s₀ s) :
    Steady μ δ s₀ (s.strobe) := by
  delta State.strobe
  try lift_lets
  repeat' first
    | with_reducible assumption
    | (intro x; have hx : Steady μ δ s₀ x := ?_; (on_goal 1 => clear_value x); on_goal 2 => (subst x; try lift_lets))
    | (intro x; (fail_if_success have : State := x); clear_value x)
    | with_reducible apply steady_wr
    | with_reducible apply Steady.ite
    | with_reducible apply Steady.foldl
    | with_reducible exact Steady.mk_ (by assumption)
    | (with_reducible show 8 ≤ _; decide)
    | (intro x a hx; try lift_lets)

theorem steady_calJobs {μ δ : Bool} {s₀ : State} (s : State) (h_s : Steady μ δ s₀ s) :
    Steady μ δ s₀ (s.calJobs) := by
  delta State.calJobs
  try lift_lets
  repeat' first
    | with_reducible assumption
    | with_reducible apply steady_updJob
    | with_reducible apply Steady.foldl
    | (intro x a hx; try lift_lets)
    | (split <;> try lift_lets)

theorem steady_showThread {μ δ : Bool} {s₀ : State} (s : State) (g : Nat) (t : Thread) (h_s : Steady μ δ s₀ s) :
    Steady μ δ s₀ (s.showThread g t) := by
  delta State.showThread
  try lift_lets
  repeat' first
    | with_reducible assumption
    | (intro x; have hx : Steady μ δ s₀ x := ?_; (on_goal 1 => clear_value x); on_goal 2 => (subst x; try lift_lets))
    | (intro x; (fail_if_success have : State := x); clear_value x)
    | with_reducible apply steady_setRegWord
    | with_reducible apply Steady.foldl
    | (with_reducible show 8 ≤ _; decide)
    | (intro x a hx; try lift_lets)

theorem steady_showThreads {μ δ : Bool} {s₀ : State} (s : State) (h_s : Steady μ δ s₀ s) :
    Steady μ δ s₀ (s.showThreads) := by
  delta State.showThreads
  try lift_lets
  repeat' first
    | with_reducible assumption
    | with_reducible apply steady_showThread
    | with_reducible apply Steady.foldl
    | (intro x a hx; try lift_lets)

theorem steady_dropPulses {μ δ : Bool} {s₀ : State} (s : State) (h_s : Steady μ δ s₀ s) :
    Steady μ δ s₀ (s.dropPulses) := by
  delta State.dropPulses
  try lift_lets
  repeat' first
    | with_reducible assumption
    | (intro x; have hx : Steady μ δ s₀ x := ?_; (on_goal 1 => clear_value x); on_goal 2 => (subst x; try lift_lets))
    | (intro x; (fail_if_success have : State := x); clear_value x)
    | with_reducible apply steady_noteUnderrun
    | with_reducible apply Steady.foldl
    | with_reducible exact Steady.mk_ (by assumption)
    | (intro x a hx; try lift_lets)

theorem steady_passTicks {μ δ : Bool} {s₀ : State} (s : State) (n : Nat) (h_s : Steady μ δ s₀ s) :
    Steady μ δ s₀ (s.passTicks n) := by
  delta State.passTicks
  try lift_lets
  repeat' first
    | (intro x; (fail_if_success have : State := x); clear_value x)
    | with_reducible exact Steady.mk_ (by assumption)

theorem steady_loopSteer {μ δ : Bool} {s₀ : State} (s : State) (h_s : Steady μ δ s₀ s) :
    Steady μ δ s₀ (s.loopSteer) := by
  delta State.loopSteer
  try lift_lets
  repeat' first
    | with_reducible assumption
    | with_reducible apply steady_draw
    | with_reducible apply steady_wrI
    | (with_reducible show 8 ≤ _; decide)

theorem steady_loopTick {μ δ : Bool} {s₀ : State} (s : State) (h_s : Steady μ δ s₀ s) :
    Steady μ δ s₀ (s.loopTick) := by
  delta State.loopTick
  try lift_lets
  repeat' first
    | with_reducible assumption
    | with_reducible exact Steady.mk_ (steady_draw _ (by assumption))
    | (intro x; (fail_if_success have : State := x); clear_value x)
    | with_reducible apply steady_loopSteer
    | with_reducible apply steady_wrI
    | with_reducible apply Steady.ite
    | (with_reducible show 8 ≤ _; decide)
    | (split <;> try lift_lets)

theorem steady_endTick {μ δ : Bool} {s₀ : State} (s : State) (h_s : Steady μ δ s₀ s) :
    Steady μ δ s₀ (s.endTick) := by
  delta State.endTick
  try lift_lets
  repeat' first
    | with_reducible assumption
    | (intro x; have hx : Steady μ δ s₀ x := ?_; (on_goal 1 => clear_value x); on_goal 2 => (subst x; try lift_lets))
    | with_reducible apply steady_endStreamJobs
    | with_reducible apply steady_noteRecovery
    | with_reducible apply steady_relatchPulses
    | with_reducible apply steady_tapLoops
    | with_reducible apply steady_latchWindows
    | with_reducible apply steady_sendPorts
    | with_reducible apply steady_clipTick

theorem steady_comeIntoForce {s₀ : State} (s : State) (h_s : Steady true true s₀ s) :
    Steady true true s₀ (s.comeIntoForce) := by
  delta State.comeIntoForce
  try lift_lets
  repeat' first
    | with_reducible assumption
    | with_reducible apply steady_applyStaged
    | with_reducible apply steady_applyTxns
    | with_reducible apply steady_swapLines
    | with_reducible apply steady_bringCorrections

theorem steady_beginTick {μ : Bool} {s₀ : State} (s : State) (h_s : Steady μ true s₀ s) :
    Steady μ true s₀ (s.beginTick) := by
  delta State.beginTick
  try lift_lets
  repeat' first
    | with_reducible assumption
    | (intro x; have hx : Steady μ true s₀ x := ?_; (on_goal 1 => clear_value x); on_goal 2 => (subst x; try lift_lets))
    | with_reducible apply steady_loopTick
    | with_reducible apply steady_dropPulses
    | with_reducible apply steady_showThreads
    | with_reducible apply steady_calJobs
    | with_reducible apply steady_strobe
    | with_reducible apply steady_switchBanks
    | with_reducible apply steady_beginPulses
    | with_reducible apply steady_relatchPulses
    | with_reducible apply steady_finishWindows
    | with_reducible apply steady_leadTicks
    | with_reducible apply steady_publishDecoders
    | with_reducible apply steady_spanTicks
    | with_reducible apply steady_evalMode
    | with_reducible apply steady_syncParts

theorem steady_boundary {s₀ : State} (s : State) (h_s : Steady true true s₀ s) :
    Steady true true s₀ (s.boundary) := by
  delta State.boundary
  try lift_lets
  repeat' first
    | with_reducible assumption
    | with_reducible apply steady_beginTick
    | with_reducible apply steady_comeIntoForce
    | with_reducible apply steady_endTick
    | with_reducible apply steady_passTicks

theorem steady_skipTicks {μ δ : Bool} {s₀ : State} (s : State) (n : Nat) (h_s : Steady μ δ s₀ s) :
    Steady μ δ s₀ (s.skipTicks n) := by
  delta State.skipTicks
  try lift_lets
  repeat' first
    | with_reducible assumption
    | (intro x; (fail_if_success have : State := x); clear_value x)
    | with_reducible apply steady_loopTick
    | with_reducible apply steady_passTicks
    | with_reducible apply steady_latchBefore
    | with_reducible apply Steady.ite

theorem steady_execTickBoundaryApply {s₀ : State} (n : Nat) (s : State) (h_s : Steady true true s₀ s) :
    SteadyO true true s₀ (execTickBoundaryApply n s) := by
  delta execTickBoundaryApply
  try lift_lets
  repeat' first
    | with_reducible assumption
    | with_reducible apply steady_skipTicks
    | with_reducible apply steady_boundary
    | with_reducible apply SteadyO.next

theorem steady_execTxnApply {s₀ : State} (part : Nat) (s : State) (h_s : Steady true true s₀ s) :
    SteadyO true true s₀ (execTxnApply part s) := by
  delta execTxnApply
  try lift_lets
  repeat' first
    | with_reducible assumption
    | with_reducible apply steady_boundary
    | with_reducible apply SteadyO.ite
    | with_reducible apply SteadyO.next
    | (split <;> try lift_lets)

theorem steady_execTimNowLoRead {μ δ : Bool} {s₀ : State} (s : State) (h_s : Steady μ δ s₀ s) :
    SteadyO μ δ s₀ (execTimNowLoRead s) := by
  delta execTimNowLoRead
  try lift_lets
  repeat' first
    | with_reducible assumption
    | (intro x; (fail_if_success have : State := x); clear_value x)
    | with_reducible apply steady_emit
    | with_reducible apply steady_wr
    | with_reducible apply SteadyO.next
    | (with_reducible show 8 ≤ _; decide)

theorem steady_setRefState {μ δ : Bool} {s₀ : State} (s : State) (st : Nat) (h_s : Steady μ δ s₀ s) :
    Steady μ δ s₀ (s.setRefState st) := by
  delta State.setRefState
  try lift_lets
  repeat' first
    | with_reducible assumption
    | (intro x; have hx : Steady μ δ s₀ x := ?_; (on_goal 1 => clear_value x); on_goal 2 => (subst x; try lift_lets))
    | (intro x; (fail_if_success have : State := x); clear_value x)
    | with_reducible apply steady_wr
    | with_reducible exact Steady.mk_ (by assumption)
    | (with_reducible show 8 ≤ _; decide)

theorem steady_execRefinEdgeSeen {μ δ : Bool} {s₀ : State} (s : State) (h_s : Steady μ δ s₀ s) :
    SteadyO μ δ s₀ (execRefinEdgeSeen s) := by
  delta execRefinEdgeSeen
  try lift_lets
  repeat' first
    | with_reducible assumption
    | (intro x; (fail_if_success have : State := x); clear_value x)
    | with_reducible apply steady_setRefState
    | with_reducible apply SteadyO.ite
    | with_reducible exact Steady.mk_ (by assumption)
    | with_reducible apply SteadyO.next

theorem steady_beginPull {μ δ : Bool} {s₀ : State} (s : State) (p : Int) (h_s : Steady μ δ s₀ s) :
    Steady μ δ s₀ (s.beginPull p) := by
  have h1 := steady_wrI ((s.draw).2.setRefState rPull) F.TIM_REF_STATUS_PHASE_ERR [] p
    (steady_setRefState _ rPull (steady_draw s h_s)) (by decide)
  exact steady_loopSteer _ (Steady.mk_ h1)

theorem steady_execQualifyEnd {μ δ : Bool} {s₀ : State} (freq : Nat) (phase : Int) (s : State) (h_s : Steady μ δ s₀ s) :
    SteadyO μ δ s₀ (execQualifyEnd freq phase s) := by
  delta execQualifyEnd
  try lift_lets
  repeat' first
    | with_reducible assumption
    | (intro x; have hx : Steady μ δ s₀ x := ?_; (on_goal 1 => clear_value x); on_goal 2 => (subst x; try lift_lets))
    | (intro x; (fail_if_success have : State := x); clear_value x)
    | with_reducible apply steady_beginPull
    | with_reducible apply steady_wr
    | with_reducible apply SteadyO.ite
    | with_reducible exact Steady.mk_ (by assumption)
    | with_reducible apply SteadyO.next
    | (with_reducible show 8 ≤ _; decide)

theorem steady_refOpen {μ δ : Bool} {s₀ : State} (s : State) (st : Nat) (h_s : Steady μ δ s₀ s) :
    Steady μ δ s₀ (s.refOpen st) := by
  delta State.refOpen
  try lift_lets
  repeat' first
    | with_reducible assumption
    | (intro x; have hx : Steady μ δ s₀ x := ?_; (on_goal 1 => clear_value x); on_goal 2 => (subst x; try lift_lets))
    | (intro x; (fail_if_success have : State := x); clear_value x)
    | with_reducible apply steady_setRefState
    | with_reducible apply steady_wr
    | with_reducible exact Steady.mk_ (by assumption)
    | (with_reducible show 8 ≤ _; decide)

theorem steady_execQualifyReturn {μ δ : Bool} {s₀ : State} (s : State) (h_s : Steady μ δ s₀ s) :
    SteadyO μ δ s₀ (execQualifyReturn s) := by
  delta execQualifyReturn
  try lift_lets
  repeat' first
    | with_reducible assumption
    | with_reducible apply steady_refOpen
    | with_reducible apply SteadyO.ite
    | with_reducible apply SteadyO.next
    | (split <;> try lift_lets)

theorem steady_execRefLock {μ δ : Bool} {s₀ : State} (s : State) (h_s : Steady μ δ s₀ s) :
    SteadyO μ δ s₀ (execRefLock s) := by
  delta execRefLock
  try lift_lets
  repeat' first
    | with_reducible assumption
    | with_reducible apply steady_setRefState
    | with_reducible apply SteadyO.ite
    | with_reducible apply SteadyO.next
    | (split <;> try lift_lets)

theorem steady_execRefLoss {μ δ : Bool} {s₀ : State} (s : State) (h_s : Steady μ δ s₀ s) :
    SteadyO μ δ s₀ (execRefLoss s) := by
  delta execRefLoss
  try lift_lets
  repeat' first
    | with_reducible assumption
    | (intro x; have hx : Steady μ δ s₀ x := ?_; (on_goal 1 => clear_value x); on_goal 2 => (subst x; try lift_lets))
    | with_reducible apply steady_refOpen
    | with_reducible apply steady_note
    | with_reducible apply steady_count
    | with_reducible apply steady_wr
    | with_reducible apply SteadyO.ite
    | with_reducible apply SteadyO.next
    | (with_reducible show 8 ≤ _; decide)

theorem steady_execPllLock {μ δ : Bool} {s₀ : State} (s : State) (h_s : Steady μ δ s₀ s) :
    SteadyO μ δ s₀ (execPllLock s) := by
  delta execPllLock
  try lift_lets
  repeat' first
    | with_reducible assumption
    | (intro x; have hx : Steady μ δ s₀ x := ?_; (on_goal 1 => clear_value x); on_goal 2 => (subst x; try lift_lets))
    | (intro x; (fail_if_success have : State := x); clear_value x)
    | with_reducible apply steady_tsRestart
    | with_reducible apply steady_wr
    | with_reducible apply SteadyO.ite
    | with_reducible exact Steady.mk_ (by assumption)
    | with_reducible apply SteadyO.next
    | (with_reducible show 8 ≤ _; decide)

theorem steady_execTileTickCheck {s₀ : State} (tile : Nat) (count : BitVec 16) (s : State)
    (h_s : Steady true true s₀ s) :
    SteadyO true true s₀ (execTileTickCheck tile count s) := by
  delta execTileTickCheck
  try lift_lets
  repeat' first
    | with_reducible assumption
    | (intro x; have hx : Steady true true s₀ x := ?_; (on_goal 1 => clear_value x); on_goal 2 => (subst x; try lift_lets))
    | with_reducible apply steady_fault
    | with_reducible apply steady_wr
    | with_reducible apply SteadyO.ite
    | with_reducible apply SteadyO.next
    | (with_reducible show 8 ≤ _; decide)

theorem steady_execPllUnlock {s₀ : State} (s : State) (h_s : Steady true true s₀ s) :
    SteadyO true true s₀ (execPllUnlock s) := by
  delta execPllUnlock
  try lift_lets
  repeat' first
    | with_reducible assumption
    | (intro x; have hx : Steady true true s₀ x := ?_; (on_goal 1 => clear_value x); on_goal 2 => (subst x; try lift_lets))
    | (intro x; (fail_if_success have : State := x); clear_value x)
    | with_reducible apply steady_fault
    | with_reducible apply steady_wr
    | with_reducible apply SteadyO.ite
    | with_reducible exact Steady.mk_ (by assumption)
    | with_reducible apply SteadyO.next
    | (with_reducible show 8 ≤ _; decide)

/-! ## Units -/

theorem steady_execUnitEnable {μ δ : Bool} {s₀ : State} (n : Nat) (s : State) (h_s : Steady μ δ s₀ s) :
    SteadyO μ δ s₀ (execUnitEnable n s) := by
  delta execUnitEnable
  try lift_lets
  repeat' first
    | with_reducible assumption
    | (intro x; have hx : Steady μ δ s₀ x := ?_; (on_goal 1 => clear_value x); on_goal 2 => (subst x; try lift_lets))
    | (intro x; (fail_if_success have : State := x); clear_value x)
    | with_reducible apply steady_command
    | with_reducible apply steady_enableDone
    | with_reducible apply steady_enableOn
    | with_reducible apply steady_deny
    | with_reducible apply steady_ok
    | with_reducible apply Steady.ite
    | with_reducible apply Steady.foldl
    | with_reducible apply SteadyO.next
    | (intro x a hx; try lift_lets)
    | (split <;> try lift_lets)

theorem steady_execUnitDisable {μ δ : Bool} {s₀ : State} (n : Nat) (s : State) (h_s : Steady μ δ s₀ s) :
    SteadyO μ δ s₀ (execUnitDisable n s) := by
  delta execUnitDisable
  try lift_lets
  repeat' first
    | with_reducible assumption
    | with_reducible apply steady_command
    | with_reducible apply steady_enableOff
    | with_reducible apply steady_deny
    | with_reducible apply steady_ok
    | with_reducible apply Steady.foldl
    | with_reducible apply SteadyO.next
    | (intro x a hx; try lift_lets)
    | (split <;> try lift_lets)

theorem steady_fenceBy {δ : Bool} {s₀ : State} (s : State) (n : Nat) (u : UnitDesc) (h_s : Steady true δ s₀ s) :
    Steady true δ s₀ (s.fenceBy n u) := by
  delta State.fenceBy
  try lift_lets
  repeat' first
    | with_reducible assumption
    | with_reducible apply steady_fenceUnit
    | with_reducible apply steady_deny
    | with_reducible apply steady_ok
    | with_reducible apply Steady.ite

theorem steady_execFence {δ : Bool} {s₀ : State} (n : Nat) (s : State) (h_s : Steady true δ s₀ s) :
    SteadyO true δ s₀ (execFence n s) := by
  delta execFence
  try lift_lets
  repeat' first
    | with_reducible assumption
    | with_reducible apply steady_fenceBy
    | with_reducible apply steady_command
    | with_reducible apply SteadyO.next
    | (intro x a hx; try lift_lets)

theorem steady_execMemRetire {δ : Bool} {s₀ : State} (n : Nat) (s : State) (h_s : Steady true δ s₀ s) :
    SteadyO true δ s₀ (execMemRetire n s) := by
  delta execMemRetire
  try lift_lets
  repeat' first
    | with_reducible assumption
    | (intro x; (fail_if_success have : State := x); clear_value x)
    | with_reducible apply steady_fenceBy
    | with_reducible apply steady_command
    | with_reducible apply steady_deny
    | with_reducible apply Steady.ite
    | with_reducible apply SteadyO.next
    | (intro x a hx; try lift_lets)

theorem steady_execUnfence {μ δ : Bool} {s₀ : State} (n : Nat) (s : State) (h_s : Steady μ δ s₀ s) :
    SteadyO μ δ s₀ (execUnfence n s) := by
  delta execUnfence
  try lift_lets
  repeat' first
    | with_reducible assumption
    | (intro x; (fail_if_success have : State := x); clear_value x)
    | with_reducible apply steady_command
    | with_reducible apply steady_progress
    | with_reducible apply steady_deny
    | with_reducible apply steady_ok
    | with_reducible apply Steady.ite
    | with_reducible apply SteadyO.next
    | (intro x a hx; try lift_lets)

theorem steady_reload {s₀ : State} (s : State) (u : UnitDesc) (h_s : Steady true true s₀ s) :
    Steady true true s₀ (s.reload u) := by
  delta State.reload
  try lift_lets
  repeat' first
    | with_reducible assumption
    | (intro x; have hx : Steady true true s₀ x := ?_; (on_goal 1 => clear_value x); on_goal 2 => (subst x; try lift_lets))
    | with_reducible apply steady_loadUnit
    | with_reducible apply steady_makeDue
    | with_reducible apply steady_dropCal
    | with_reducible apply Steady.ite

theorem steady_noValue {μ δ : Bool} {s₀ : State} (s : State) (k : OutKind) (t c : Nat) (h_s : Steady μ δ s₀ s) :
    Steady μ δ s₀ (s.noValue k t c) := by
  delta State.noValue
  try lift_lets
  repeat' first
    | with_reducible assumption
    | (intro x; (fail_if_success have : State := x); clear_value x)
    | with_reducible apply steady_setEn

theorem steady_unfenceDrive {s₀ : State} (s : State) (t c : Nat) (h_s : Steady true true s₀ s) :
    Steady true true s₀ (s.unfenceDrive t c) := by
  delta State.unfenceDrive
  try lift_lets
  repeat' first
    | with_reducible assumption
    | (intro x; have hx : Steady true true s₀ x := ?_; (on_goal 1 => clear_value x); on_goal 2 => (subst x; try lift_lets))
    | (intro x; (fail_if_success have : State := x); clear_value x)
    | with_reducible apply steady_noValue
    | with_reducible apply steady_reload
    | with_reducible apply steady_startCal
    | with_reducible apply steady_spareIdle
    | with_reducible apply steady_setDrvFences
    | with_reducible apply steady_setSpare
    | with_reducible apply steady_wr
    | with_reducible apply Steady.ite
    | (with_reducible show 8 ≤ _; decide)
    | (split <;> try lift_lets)

theorem steady_unfenceSpare {s₀ : State} (s : State) (t g : Nat) (h_s : Steady true true s₀ s) :
    Steady true true s₀ (s.unfenceSpare t g) := by
  unfold State.unfenceSpare
  dsimp only
  have h1 := steady_reload _ ⟨2, t, g⟩ (Steady.filter (p := fun e => !(decide (R.DRV_CTRL.addr [t, 64 + g] 0 ≤ e.1) &&
    decide (e.1 < R.DRV_CTRL.addr [t, 64 + g] 0 + 0x1000))) h_s
    (fun e => absurd e (by decide)))
  split
  · exact steady_spareIdle _ _ _ h1
  · exact h1

theorem steady_settleSlices {μ δ : Bool} {s₀ : State} (s : State) (t l : Nat) (h_s : Steady μ δ s₀ s) :
    Steady μ δ s₀ (s.settleSlices t l) := by
  delta State.settleSlices
  try lift_lets
  repeat' first
    | with_reducible assumption
    | (intro x; have hx : Steady μ δ s₀ x := ?_; (on_goal 1 => clear_value x); on_goal 2 => (subst x; try lift_lets))
    | (intro x; (fail_if_success have : State := x); clear_value x)
    | with_reducible apply steady_setLine
    | with_reducible apply steady_wr
    | with_reducible apply Steady.ite
    | (with_reducible show 8 ≤ _; decide)

theorem steady_unfenceAdc {s₀ : State} (s : State) (t a : Nat) (h_s : Steady true true s₀ s) :
    Steady true true s₀ (s.unfenceAdc t a) := by
  delta State.unfenceAdc
  try lift_lets
  repeat' first
    | with_reducible assumption
    | (intro x; have hx : Steady true true s₀ x := ?_; (on_goal 1 => clear_value x); on_goal 2 => (subst x; try lift_lets))
    | with_reducible apply steady_reload
    | with_reducible apply steady_setAdc
    | with_reducible apply steady_wrB
    | with_reducible apply steady_wr
    | with_reducible apply Steady.ite
    | (with_reducible show 8 ≤ _; decide)
    | (split <;> try lift_lets)

theorem steady_freeThread {μ δ : Bool} {s₀ : State} (s : State) (g : Nat) (h_s : Steady μ δ s₀ s) :
    Steady μ δ s₀ (s.freeThread g) := by
  delta State.freeThread
  try lift_lets
  repeat' first
    | with_reducible assumption
    | (intro x; have hx : Steady μ δ s₀ x := ?_; (on_goal 1 => clear_value x); on_goal 2 => (subst x; try lift_lets))
    | (intro x; (fail_if_success have : State := x); clear_value x)
    | with_reducible apply steady_updThr
    | with_reducible apply steady_wr
    | (with_reducible show 8 ≤ _; decide)

theorem steady_unfenceLane {μ δ : Bool} {s₀ : State} (s : State) (p l : Nat) (h_s : Steady μ δ s₀ s) :
    Steady μ δ s₀ (s.unfenceLane p l) := by
  delta State.unfenceLane
  try lift_lets
  repeat' first
    | with_reducible assumption
    | (intro x; have hx : Steady μ δ s₀ x := ?_; (on_goal 1 => clear_value x); on_goal 2 => (subst x; try lift_lets))
    | with_reducible apply steady_putLane
    | with_reducible apply steady_wr
    | (with_reducible show 8 ≤ _; decide)

theorem steady_unretire {μ δ : Bool} {s₀ : State} (s : State) (d : Nat) (h_s : Steady μ δ s₀ s) :
    Steady μ δ s₀ (s.unretire d) := by
  delta State.unretire
  try lift_lets
  repeat' first
    | with_reducible assumption
    | (intro x; have hx : Steady μ δ s₀ x := ?_; (on_goal 1 => clear_value x); on_goal 2 => (subst x; try lift_lets))
    | (intro x; (fail_if_success have : State := x); clear_value x)
    | with_reducible apply steady_wr
    | with_reducible exact Steady.mk_ (by assumption)
    | (with_reducible show 8 ≤ _; decide)

theorem steady_restTile {μ δ : Bool} {s₀ : State} (s : State) (t : Nat) (h_s : Steady μ δ s₀ s) :
    Steady μ δ s₀ (s.restTile t) := by
  delta State.restTile
  try lift_lets
  repeat' first
    | (intro x; (fail_if_success have : State := x); clear_value x)
    | with_reducible exact Steady.mk_ (by assumption)

theorem steady_unfenceTile {s₀ : State} (s : State) (t : Nat) (h_s : Steady true true s₀ s) :
    Steady true true s₀ (s.unfenceTile t) := by
  unfold State.unfenceTile
  have h1 : Steady true true s₀ (({ s with regs := s.regs.filter (fun e => !resetWithTile t e.1) }).restTile t) :=
    steady_restTile _ _ (Steady.filter h_s (fun e => absurd e (by decide)))
  dsimp only
  refine Steady.foldl (fun x a hx => steady_reload _ _ hx) (steady_wr _ _ _ _ ?_ (by decide))
  exact steady_wr _ _ _ _ (steady_wr _ _ _ _ h1 (by decide)) (by decide)

theorem steady_unfenceUnit {s₀ : State} (s : State) (u : UnitDesc) (h_s : Steady true true s₀ s) :
    Steady true true s₀ (s.unfenceUnit u) := by
  delta State.unfenceUnit
  try lift_lets
  repeat' first
    | with_reducible assumption
    | (intro x; (fail_if_success have : State := x); clear_value x)
    | with_reducible apply steady_unfenceTile
    | with_reducible apply steady_unretire
    | with_reducible apply steady_unfenceLane
    | with_reducible apply steady_freeThread
    | with_reducible apply steady_unfenceAdc
    | with_reducible apply steady_settleSlices
    | with_reducible apply steady_unfenceSpare
    | with_reducible apply steady_unfenceDrive
    | with_reducible apply steady_noValue
    | with_reducible apply steady_reload
    | with_reducible apply steady_wr
    | with_reducible apply Steady.foldl
    | (with_reducible show 8 ≤ _; decide)
    | (intro x a hx; try lift_lets)
    | (split <;> try lift_lets)

theorem steady_endUnfence {s₀ : State} (s : State) (n : Nat) (u : UnitDesc) (ok : Bool) (h_s : Steady true true s₀ s) :
    Steady true true s₀ (s.endUnfence n u ok) := by
  delta State.endUnfence
  try lift_lets
  repeat' first
    | with_reducible assumption
    | with_reducible apply steady_unfenceUnit
    | with_reducible apply steady_logUnit
    | with_reducible apply steady_advise
    | with_reducible apply steady_fail
    | with_reducible apply steady_ok
    | with_reducible apply Steady.ite

/-! ## General -/

theorem steady_execGetInfo {μ δ : Bool} {s₀ : State} (n : Nat) (s : State) (h_s : Steady μ δ s₀ s) :
    SteadyO μ δ s₀ (execGetInfo n s) := by
  delta execGetInfo
  try lift_lets
  repeat' first
    | with_reducible assumption
    | with_reducible apply steady_command
    | with_reducible apply steady_ok
    | with_reducible apply SteadyO.next
    | (intro x a hx; try lift_lets)

theorem steady_execResume {μ δ : Bool} {s₀ : State} (n : Nat) (s : State) (h_s : Steady μ δ s₀ s) :
    SteadyO μ δ s₀ (execResume n s) := by
  delta execResume
  try lift_lets
  repeat' first
    | with_reducible assumption
    | exact steady_wr_mode _ _ _ (by assumption) rfl rfl (.inr (by decide))
    | with_reducible apply steady_command
    | with_reducible apply steady_progress
    | with_reducible apply steady_deny
    | with_reducible apply Steady.ite
    | with_reducible apply SteadyO.next
    | (intro x a hx; try lift_lets)

theorem steady_execResumeComplete {μ : Bool} {s₀ : State} (s : State) (h_s : Steady μ true s₀ s) :
    SteadyO μ true s₀ (execResumeComplete s) := by
  unfold execResumeComplete
  dsimp only
  split
  · refine Steady.foldl (fun x a hx => steady_ok _ _ _ hx) ?_
    exact steady_wr_mode _ _ _ (steady_setMode _ _ _ (Steady.mk_ h_s) (by decide)) rfl rfl (.inr (by decide))
  · exact h_s

theorem steady_execSafeEnter {s₀ : State} (n : Nat) (s : State) (h_s : Steady true true s₀ s) :
    SteadyO true true s₀ (execSafeEnter n s) := by
  delta execSafeEnter
  try lift_lets
  repeat' first
    | with_reducible assumption
    | with_reducible apply steady_command
    | with_reducible apply steady_enterSafe
    | with_reducible apply steady_deny
    | with_reducible apply steady_ok
    | with_reducible apply Steady.ite
    | with_reducible apply SteadyO.next
    | (intro x a hx; try lift_lets)

theorem steady_execMgmtHandover {μ δ : Bool} {s₀ : State} (n : Nat) (s : State) (h_s : Steady μ δ s₀ s) :
    SteadyO μ δ s₀ (execMgmtHandover n s) := by
  delta execMgmtHandover
  try lift_lets
  repeat' first
    | with_reducible assumption
    | with_reducible apply steady_command
    | with_reducible apply steady_handover
    | with_reducible apply steady_deny
    | with_reducible apply steady_ok
    | with_reducible apply Steady.ite
    | with_reducible apply SteadyO.next
    | (intro x a hx; try lift_lets)

theorem steady_execLogRead {μ δ : Bool} {s₀ : State} (n : Nat) (s : State) (h_s : Steady μ δ s₀ s) :
    SteadyO μ δ s₀ (execLogRead n s) := by
  delta execLogRead
  try lift_lets
  repeat' first
    | with_reducible assumption
    | (intro x; (fail_if_success have : State := x); clear_value x)
    | with_reducible apply steady_command
    | with_reducible apply steady_deny
    | with_reducible apply steady_ok
    | with_reducible apply Steady.ite
    | with_reducible apply SteadyO.next
    | (intro x a hx; try lift_lets)

theorem steady_execMemInfo {μ δ : Bool} {s₀ : State} (n : Nat) (s : State) (h_s : Steady μ δ s₀ s) :
    SteadyO μ δ s₀ (execMemInfo n s) := by
  delta execMemInfo
  try lift_lets
  repeat' first
    | with_reducible assumption
    | with_reducible apply steady_command
    | with_reducible apply steady_ok
    | with_reducible apply SteadyO.next
    | (intro x a hx; try lift_lets)

theorem steady_beginCopy {μ δ : Bool} {s₀ : State} (s : State) (n : Nat) (a : CopyAsk) (h_s : Steady μ δ s₀ s) :
    Steady μ δ s₀ (s.beginCopy n a) := by
  delta State.beginCopy
  try lift_lets
  repeat' first
    | with_reducible assumption
    | with_reducible apply steady_progress
    | with_reducible apply steady_deny
    | with_reducible apply Steady.ite

theorem steady_execHostCopyIn {μ δ : Bool} {s₀ : State} (n : Nat) (s : State) (h_s : Steady μ δ s₀ s) :
    SteadyO μ δ s₀ (execHostCopyIn n s) := by
  delta execHostCopyIn
  try lift_lets
  repeat' first
    | with_reducible assumption
    | with_reducible apply steady_beginCopy
    | with_reducible apply steady_command
    | with_reducible apply SteadyO.next
    | (intro x a hx; try lift_lets)

theorem steady_execHostCopyOut {μ δ : Bool} {s₀ : State} (n : Nat) (s : State) (h_s : Steady μ δ s₀ s) :
    SteadyO μ δ s₀ (execHostCopyOut n s) := by
  delta execHostCopyOut
  try lift_lets
  repeat' first
    | with_reducible assumption
    | with_reducible apply steady_beginCopy
    | with_reducible apply steady_command
    | with_reducible apply SteadyO.next
    | (intro x a hx; try lift_lets)

theorem steady_endCopy {δ : Bool} {s₀ : State} (s : State) (n : Nat) (inward : Bool) (a : CopyAsk) (o : FinalObs)
    (h_s : Steady true δ s₀ s) :
    Steady true δ s₀ (s.endCopy n inward a o) := by
  delta State.endCopy
  try lift_lets
  repeat' first
    | with_reducible assumption
    | (intro x; have hx : Steady true δ s₀ x := ?_; (on_goal 1 => clear_value x); on_goal 2 => (subst x; try lift_lets))
    | (intro x; (fail_if_success have : State := x); clear_value x)
    | with_reducible apply steady_ok
    | with_reducible apply steady_respond
    | with_reducible apply steady_emit
    | with_reducible apply steady_memWrite
    | with_reducible apply Steady.ite

theorem steady_setFlash {μ δ : Bool} {s₀ : State} (s : State) (b : Bool) (o : Option SlotObs) (h_s : Steady μ δ s₀ s) :
    Steady μ δ s₀ (s.setFlash b o) := by
  delta State.setFlash
  try lift_lets
  repeat' first
    | (intro x; (fail_if_success have : State := x); clear_value x)
    | with_reducible exact Steady.mk_ (by assumption)

theorem steady_execFwStage {μ δ : Bool} {s₀ : State} (n : Nat) (s : State) (h_s : Steady μ δ s₀ s) :
    SteadyO μ δ s₀ (execFwStage n s) := by
  delta execFwStage
  try lift_lets
  repeat' first
    | with_reducible assumption
    | (intro x; have hx : Steady μ δ s₀ x := ?_; (on_goal 1 => clear_value x); on_goal 2 => (subst x; try lift_lets))
    | (intro x; (fail_if_success have : State := x); clear_value x)
    | with_reducible apply steady_setFlash
    | with_reducible apply steady_command
    | with_reducible apply steady_progress
    | with_reducible apply steady_deny
    | with_reducible apply steady_wr
    | with_reducible apply Steady.ite
    | with_reducible exact Steady.mk_ (by assumption)
    | with_reducible apply SteadyO.next
    | (with_reducible show 8 ≤ _; decide)
    | (intro x a hx; try lift_lets)

theorem steady_endFwStage {μ δ : Bool} {s₀ : State} (s : State) (n : Nat) (ok : Bool) (h_s : Steady μ δ s₀ s) :
    Steady μ δ s₀ (s.endFwStage n ok) := by
  delta State.endFwStage
  try lift_lets
  repeat' first
    | with_reducible assumption
    | (intro x; have hx : Steady μ δ s₀ x := ?_; (on_goal 1 => clear_value x); on_goal 2 => (subst x; try lift_lets))
    | (intro x; (fail_if_success have : State := x); clear_value x)
    | with_reducible apply steady_setFlash
    | with_reducible apply steady_fail
    | with_reducible apply steady_ok
    | with_reducible apply steady_wr
    | with_reducible apply Steady.ite
    | with_reducible exact Steady.mk_ (by assumption)
    | (with_reducible show 8 ≤ _; decide)
    | (split <;> try lift_lets)

theorem steady_execFwActivate {μ δ : Bool} {s₀ : State} (n : Nat) (s : State) (h_s : Steady μ δ s₀ s) :
    SteadyO μ δ s₀ (execFwActivate n s) := by
  delta execFwActivate
  try lift_lets
  repeat' first
    | with_reducible assumption
    | (intro x; have hx : Steady μ δ s₀ x := ?_; (on_goal 1 => clear_value x); on_goal 2 => (subst x; try lift_lets))
    | with_reducible apply steady_command
    | with_reducible apply steady_progress
    | with_reducible apply steady_deny
    | with_reducible apply steady_wr
    | with_reducible apply Steady.ite
    | with_reducible exact Steady.mk_ (by assumption)
    | with_reducible apply SteadyO.next
    | (with_reducible show 8 ≤ _; decide)
    | (intro x a hx; try lift_lets)

theorem steady_endFwActivate {μ δ : Bool} {s₀ : State} (s : State) (n : Nat) (ok : Bool) (h_s : Steady μ δ s₀ s) :
    Steady μ δ s₀ (s.endFwActivate n ok) := by
  delta State.endFwActivate
  try lift_lets
  repeat' first
    | with_reducible assumption
    | (intro x; have hx : Steady μ δ s₀ x := ?_; (on_goal 1 => clear_value x); on_goal 2 => (subst x; try lift_lets))
    | (intro x; (fail_if_success have : State := x); clear_value x)
    | with_reducible apply steady_handover
    | with_reducible apply steady_fail
    | with_reducible apply steady_ok
    | with_reducible apply steady_wrB
    | with_reducible apply steady_wr
    | with_reducible apply steady_setRegWord
    | with_reducible exact Steady.mk_ (by assumption)
    | (with_reducible show 8 ≤ _; decide)
    | (split <;> try lift_lets)

/-! ## Parts -/

theorem steady_execPartCreate {μ δ : Bool} {s₀ : State} (n : Nat) (s : State) (h_s : Steady μ δ s₀ s) :
    SteadyO μ δ s₀ (execPartCreate n s) := by
  delta execPartCreate
  try lift_lets
  repeat' first
    | with_reducible assumption
    | (intro x; have hx : Steady μ δ s₀ x := ?_; (on_goal 1 => clear_value x); on_goal 2 => (subst x; try lift_lets))
    | (intro x; (fail_if_success have : State := x); clear_value x)
    | with_reducible apply steady_command
    | with_reducible apply steady_deny
    | with_reducible apply steady_ok
    | with_reducible apply steady_wr
    | with_reducible apply Steady.ite
    | with_reducible apply SteadyO.next
    | (with_reducible show 8 ≤ _; decide)
    | (intro x a hx; try lift_lets)

theorem steady_streamPolicy {μ δ : Bool} {s₀ : State} (s : State) (p pol : Nat) (h_s : Steady μ δ s₀ s) :
    Steady μ δ s₀ (s.streamPolicy p pol) := by
  delta State.streamPolicy
  try lift_lets
  repeat' first
    | with_reducible assumption
    | with_reducible apply steady_wr
    | with_reducible apply Steady.ite
    | with_reducible apply Steady.foldl
    | (with_reducible show 8 ≤ _; decide)
    | (intro x a hx; try lift_lets)

theorem steady_execPartPolicy {μ δ : Bool} {s₀ : State} (n : Nat) (s : State) (h_s : Steady μ δ s₀ s) :
    SteadyO μ δ s₀ (execPartPolicy n s) := by
  delta execPartPolicy
  try lift_lets
  repeat' first
    | with_reducible assumption
    | (intro x; (fail_if_success have : State := x); clear_value x)
    | with_reducible apply steady_streamPolicy
    | with_reducible apply steady_command
    | with_reducible apply steady_deny
    | with_reducible apply steady_ok
    | with_reducible apply steady_wr
    | with_reducible apply Steady.ite
    | with_reducible apply SteadyO.next
    | (with_reducible show 8 ≤ _; decide)
    | (intro x a hx; try lift_lets)

theorem steady_releaseSlot {μ δ : Bool} {s₀ : State} (s : State) (slot : Nat) (h_s : Steady μ δ s₀ s) :
    Steady μ δ s₀ (s.releaseSlot slot) := by
  delta State.releaseSlot
  try lift_lets
  repeat' first
    | with_reducible assumption
    | (intro x; have hx : Steady μ δ s₀ x := ?_; (on_goal 1 => clear_value x); on_goal 2 => (subst x; try lift_lets))
    | (intro x; (fail_if_success have : State := x); clear_value x)
    | with_reducible apply steady_setSlotUser
    | with_reducible apply steady_wr
    | with_reducible apply Steady.foldl
    | with_reducible exact Steady.mk_ (by assumption)
    | (with_reducible show 8 ≤ _; decide)
    | (intro x a hx; try lift_lets)

theorem steady_showDecoder {μ δ : Bool} {s₀ : State} (s : State) (d mode k part port deadline : Nat)
    (h_s : Steady μ δ s₀ s) :
    Steady μ δ s₀ (s.showDecoder d mode k part port deadline) := by
  delta State.showDecoder
  try lift_lets
  repeat' first
    | with_reducible assumption
    | (intro x; have hx : Steady μ δ s₀ x := ?_; (on_goal 1 => clear_value x); on_goal 2 => (subst x; try lift_lets))
    | with_reducible apply steady_wr
    | (with_reducible show 8 ≤ _; decide)

theorem steady_clearFirings {μ δ : Bool} {s₀ : State} (s : State) (d : Nat) (gs : List Nat) (h_s : Steady μ δ s₀ s) :
    Steady μ δ s₀ (s.clearFirings d gs) := by
  delta State.clearFirings
  try lift_lets
  repeat' first
    | with_reducible assumption
    | (intro x; (fail_if_success have : State := x); clear_value x)
    | with_reducible apply steady_putGroup
    | with_reducible apply Steady.foldl
    | (intro x a hx; try lift_lets)

theorem steady_dropDecoder {μ δ : Bool} {s₀ : State} (s : State) (d : Nat) (h_s : Steady μ δ s₀ s) :
    Steady μ δ s₀ (s.dropDecoder d) := by
  delta State.dropDecoder
  try lift_lets
  repeat' first
    | with_reducible assumption
    | (intro x; have hx : Steady μ δ s₀ x := ?_; (on_goal 1 => clear_value x); on_goal 2 => (subst x; try lift_lets))
    | (intro x; (fail_if_success have : State := x); clear_value x)
    | with_reducible apply steady_clearFirings
    | with_reducible apply steady_showDecoder
    | with_reducible apply steady_hubUpdate
    | with_reducible apply steady_setDecoder
    | with_reducible apply Steady.foldl
    | (intro x a hx; try lift_lets)

theorem steady_releasePart {μ δ : Bool} {s₀ : State} (s : State) (p : Nat) (h_s : Steady μ δ s₀ s) :
    Steady μ δ s₀ (s.releasePart p) := by
  delta State.releasePart
  try lift_lets
  repeat' first
    | with_reducible assumption
    | (intro x; have hx : Steady μ δ s₀ x := ?_; (on_goal 1 => clear_value x); on_goal 2 => (subst x; try lift_lets))
    | (intro x; (fail_if_success have : State := x); clear_value x)
    | with_reducible apply steady_dropDecoder
    | with_reducible apply steady_releaseSlot
    | with_reducible apply steady_setOpen
    | with_reducible apply steady_strmClose
    | with_reducible apply steady_setPart
    | with_reducible apply steady_wr
    | with_reducible apply Steady.ite
    | with_reducible apply Steady.foldl
    | with_reducible exact Steady.mk_ (by assumption)
    | (with_reducible show 8 ≤ _; decide)
    | (intro x a hx; try lift_lets)

theorem steady_execPartDestroy {μ δ : Bool} {s₀ : State} (n : Nat) (s : State) (h_s : Steady μ δ s₀ s) :
    SteadyO μ δ s₀ (execPartDestroy n s) := by
  delta execPartDestroy
  try lift_lets
  repeat' first
    | with_reducible assumption
    | (intro x; have hx : Steady μ δ s₀ x := ?_; (on_goal 1 => clear_value x); on_goal 2 => (subst x; try lift_lets))
    | (intro x; (fail_if_success have : State := x); clear_value x)
    | with_reducible apply steady_releasePart
    | with_reducible apply steady_command
    | with_reducible apply steady_deny
    | with_reducible apply steady_ok
    | with_reducible apply steady_wr
    | with_reducible apply steady_setRegWord
    | with_reducible apply Steady.ite
    | with_reducible apply SteadyO.next
    | (with_reducible show 8 ≤ _; decide)
    | (intro x a hx; try lift_lets)

theorem steady_execPartAssign {μ δ : Bool} {s₀ : State} (n : Nat) (s : State) (h_s : Steady μ δ s₀ s) :
    SteadyO μ δ s₀ (execPartAssign n s) := by
  delta execPartAssign
  try lift_lets
  repeat' first
    | with_reducible assumption
    | (intro x; (fail_if_success have : State := x); clear_value x)
    | with_reducible apply steady_command
    | with_reducible apply steady_deny
    | with_reducible apply steady_ok
    | with_reducible apply steady_setPart
    | with_reducible apply Steady.ite
    | with_reducible apply SteadyO.next
    | (intro x a hx; try lift_lets)
    | (split <;> try lift_lets)

theorem steady_pairStart {μ δ : Bool} {s₀ : State} (s : State) (q : Nat) (h_s : Steady μ δ s₀ s) :
    Steady μ δ s₀ (s.pairStart q) := by
  delta State.pairStart
  try lift_lets
  repeat' first
    | with_reducible assumption
    | with_reducible apply steady_wr
    | (with_reducible show 8 ≤ _; decide)

theorem steady_execQpCreate {μ δ : Bool} {s₀ : State} (n : Nat) (s : State) (h_s : Steady μ δ s₀ s) :
    SteadyO μ δ s₀ (execQpCreate n s) := by
  delta execQpCreate
  try lift_lets
  repeat' first
    | with_reducible assumption
    | (intro x; have hx : Steady μ δ s₀ x := ?_; (on_goal 1 => clear_value x); on_goal 2 => (subst x; try lift_lets))
    | (intro x; (fail_if_success have : State := x); clear_value x)
    | with_reducible apply steady_pairStart
    | with_reducible apply steady_command
    | with_reducible apply steady_deny
    | with_reducible apply steady_ok
    | with_reducible apply steady_setQp
    | with_reducible apply steady_wr
    | with_reducible apply Steady.ite
    | with_reducible apply SteadyO.next
    | (with_reducible show 8 ≤ _; decide)
    | (intro x a hx; try lift_lets)

theorem steady_execQpDelete {μ δ : Bool} {s₀ : State} (n : Nat) (s : State) (h_s : Steady μ δ s₀ s) :
    SteadyO μ δ s₀ (execQpDelete n s) := by
  delta execQpDelete
  try lift_lets
  repeat' first
    | with_reducible assumption
    | (intro x; have hx : Steady μ δ s₀ x := ?_; (on_goal 1 => clear_value x); on_goal 2 => (subst x; try lift_lets))
    | (intro x; (fail_if_success have : State := x); clear_value x)
    | with_reducible apply steady_pairStart
    | with_reducible apply steady_command
    | with_reducible apply steady_deny
    | with_reducible apply steady_ok
    | with_reducible apply steady_setQp
    | with_reducible apply steady_wr
    | with_reducible apply steady_setRegWord
    | with_reducible apply Steady.ite
    | with_reducible apply SteadyO.next
    | (with_reducible show 8 ≤ _; decide)
    | (intro x a hx; try lift_lets)

theorem steady_execPlanLoad {μ δ : Bool} {s₀ : State} (n : Nat) (s : State) (h_s : Steady μ δ s₀ s) :
    SteadyO μ δ s₀ (execPlanLoad n s) := by
  delta execPlanLoad
  try lift_lets
  repeat' first
    | with_reducible assumption
    | (intro x; (fail_if_success have : State := x); clear_value x)
    | with_reducible apply steady_command
    | with_reducible apply steady_setPlan
    | with_reducible apply steady_deny
    | with_reducible apply steady_ok
    | with_reducible apply Steady.ite
    | with_reducible apply SteadyO.next
    | (intro x a hx; try lift_lets)
    | (split <;> try lift_lets)

theorem steady_execPlanDrop {μ δ : Bool} {s₀ : State} (n : Nat) (s : State) (h_s : Steady μ δ s₀ s) :
    SteadyO μ δ s₀ (execPlanDrop n s) := by
  delta execPlanDrop
  try lift_lets
  repeat' first
    | with_reducible assumption
    | (intro x; (fail_if_success have : State := x); clear_value x)
    | with_reducible apply steady_command
    | with_reducible apply steady_setPlan
    | with_reducible apply steady_deny
    | with_reducible apply steady_ok
    | with_reducible apply Steady.ite
    | with_reducible apply SteadyO.next
    | (intro x a hx; try lift_lets)

theorem steady_execJobAbort {μ δ : Bool} {s₀ : State} (n : Nat) (s : State) (h_s : Steady μ δ s₀ s) :
    SteadyO μ δ s₀ (execJobAbort n s) := by
  delta execJobAbort
  try lift_lets
  repeat' first
    | with_reducible assumption
    | (intro x; have hx : Steady μ δ s₀ x := ?_; (on_goal 1 => clear_value x); on_goal 2 => (subst x; try lift_lets))
    | (intro x; (fail_if_success have : State := x); clear_value x)
    | with_reducible apply steady_command
    | with_reducible apply steady_stage
    | with_reducible apply steady_deny
    | with_reducible apply steady_ok
    | with_reducible apply steady_updJob
    | with_reducible apply Steady.ite
    | with_reducible apply Steady.foldl
    | with_reducible apply SteadyO.next
    | (intro x a hx; try lift_lets)

theorem steady_execDecSlotAssign {μ δ : Bool} {s₀ : State} (n : Nat) (s : State) (h_s : Steady μ δ s₀ s) :
    SteadyO μ δ s₀ (execDecSlotAssign n s) := by
  delta execDecSlotAssign
  try lift_lets
  repeat' first
    | with_reducible assumption
    | (intro x; (fail_if_success have : State := x); clear_value x)
    | with_reducible apply steady_releaseSlot
    | with_reducible apply steady_command
    | with_reducible apply steady_setSlotUser
    | with_reducible apply steady_deny
    | with_reducible apply steady_ok
    | with_reducible apply Steady.ite
    | with_reducible apply SteadyO.next
    | (intro x a hx; try lift_lets)
    | (split <;> try lift_lets)

theorem steady_execDecExportSet {μ δ : Bool} {s₀ : State} (n : Nat) (s : State) (h_s : Steady μ δ s₀ s) :
    SteadyO μ δ s₀ (execDecExportSet n s) := by
  delta execDecExportSet
  try lift_lets
  repeat' first
    | with_reducible assumption
    | (intro x; have hx : Steady μ δ s₀ x := ?_; (on_goal 1 => clear_value x); on_goal 2 => (subst x; try lift_lets))
    | (intro x; (fail_if_success have : State := x); clear_value x)
    | with_reducible apply steady_command
    | with_reducible apply steady_deny
    | with_reducible apply steady_ok
    | with_reducible apply steady_wr
    | with_reducible apply Steady.ite
    | with_reducible exact Steady.mk_ (by assumption)
    | with_reducible apply SteadyO.next
    | (with_reducible show 8 ≤ _; decide)
    | (intro x a hx; try lift_lets)
    | (split <;> try lift_lets)

theorem steady_execDecImportSet {μ δ : Bool} {s₀ : State} (n : Nat) (s : State) (h_s : Steady μ δ s₀ s) :
    SteadyO μ δ s₀ (execDecImportSet n s) := by
  delta execDecImportSet
  try lift_lets
  repeat' first
    | with_reducible assumption
    | (intro x; have hx : Steady μ δ s₀ x := ?_; (on_goal 1 => clear_value x); on_goal 2 => (subst x; try lift_lets))
    | (intro x; (fail_if_success have : State := x); clear_value x)
    | with_reducible apply steady_command
    | with_reducible apply steady_deny
    | with_reducible apply steady_ok
    | with_reducible apply steady_wr
    | with_reducible apply Steady.ite
    | with_reducible exact Steady.mk_ (by assumption)
    | with_reducible apply SteadyO.next
    | (with_reducible show 8 ≤ _; decide)
    | (intro x a hx; try lift_lets)
    | (split <;> try lift_lets)

theorem steady_execSyndGroupSet {μ δ : Bool} {s₀ : State} (n : Nat) (s : State) (h_s : Steady μ δ s₀ s) :
    SteadyO μ δ s₀ (execSyndGroupSet n s) := by
  delta execSyndGroupSet
  try lift_lets
  repeat' first
    | with_reducible assumption
    | (intro x; have hx : Steady μ δ s₀ x := ?_; (on_goal 1 => clear_value x); on_goal 2 => (subst x; try lift_lets))
    | (intro x; (fail_if_success have : State := x); clear_value x)
    | with_reducible apply steady_command
    | with_reducible apply steady_putGroup
    | with_reducible apply steady_deny
    | with_reducible apply steady_ok
    | with_reducible apply steady_wrB
    | with_reducible apply steady_wr
    | with_reducible apply Steady.ite
    | with_reducible apply SteadyO.next
    | (with_reducible show 8 ≤ _; decide)
    | (intro x a hx; try lift_lets)
    | (split <;> try lift_lets)

theorem steady_putDecoder {μ δ : Bool} {s₀ : State} (s : State) (a : DecAsk) (h_s : Steady μ δ s₀ s) :
    Steady μ δ s₀ (s.putDecoder a) := by
  delta State.putDecoder
  try lift_lets
  repeat' first
    | with_reducible assumption
    | (intro x; have hx : Steady μ δ s₀ x := ?_; (on_goal 1 => clear_value x); on_goal 2 => (subst x; try lift_lets))
    | (intro x; (fail_if_success have : State := x); clear_value x)
    | with_reducible apply steady_clearFirings
    | with_reducible apply steady_showDecoder
    | with_reducible apply steady_setDecoder
    | with_reducible apply steady_wr
    | with_reducible exact Steady.mk_ (by assumption)
    | (with_reducible show 8 ≤ _; decide)

theorem steady_execSyndDecoderSet {μ δ : Bool} {s₀ : State} (n : Nat) (s : State) (h_s : Steady μ δ s₀ s) :
    SteadyO μ δ s₀ (execSyndDecoderSet n s) := by
  delta execSyndDecoderSet
  try lift_lets
  repeat' first
    | with_reducible assumption
    | (intro x; (fail_if_success have : State := x); clear_value x)
    | with_reducible apply steady_putDecoder
    | with_reducible apply steady_command
    | with_reducible apply steady_deny
    | with_reducible apply steady_ok
    | with_reducible apply Steady.ite
    | with_reducible apply SteadyO.next
    | (intro x a hx; try lift_lets)

theorem steady_execSyndRead {μ δ : Bool} {s₀ : State} (n : Nat) (s : State) (h_s : Steady μ δ s₀ s) :
    SteadyO μ δ s₀ (execSyndRead n s) := by
  delta execSyndRead
  try lift_lets
  repeat' first
    | with_reducible assumption
    | (intro x; (fail_if_success have : State := x); clear_value x)
    | with_reducible apply steady_command
    | with_reducible apply steady_deny
    | with_reducible apply steady_ok
    | with_reducible apply Steady.ite
    | with_reducible apply SteadyO.next
    | (intro x a hx; try lift_lets)

/-! ## TimeCal -/

theorem steady_writeTime {μ δ : Bool} {s₀ : State} (s : State) (a : TimeAsk) (h_s : Steady μ δ s₀ s) :
    Steady μ δ s₀ (s.writeTime a) := by
  delta State.writeTime
  try lift_lets
  repeat' first
    | with_reducible assumption
    | (intro x; have hx : Steady μ δ s₀ x := ?_; (on_goal 1 => clear_value x); on_goal 2 => (subst x; try lift_lets))
    | with_reducible apply steady_wr
    | (with_reducible show 8 ≤ _; decide)

theorem steady_execTimeConfig {μ δ : Bool} {s₀ : State} (n : Nat) (s : State) (h_s : Steady μ δ s₀ s) :
    SteadyO μ δ s₀ (execTimeConfig n s) := by
  delta execTimeConfig
  try lift_lets
  repeat' first
    | with_reducible assumption
    | (intro x; have hx : Steady μ δ s₀ x := ?_; (on_goal 1 => clear_value x); on_goal 2 => (subst x; try lift_lets))
    | (intro x; (fail_if_success have : State := x); clear_value x)
    | with_reducible apply steady_writeTime
    | with_reducible apply steady_command
    | with_reducible apply steady_tsRestart
    | with_reducible apply steady_syncInDomain
    | with_reducible apply steady_deny
    | with_reducible apply steady_ok
    | with_reducible apply steady_wr
    | with_reducible apply Steady.ite
    | with_reducible apply SteadyO.next
    | (with_reducible show 8 ≤ _; decide)
    | (intro x a hx; try lift_lets)

theorem steady_execTimeReinit {μ δ : Bool} {s₀ : State} (n : Nat) (s : State) (h_s : Steady μ δ s₀ s) :
    SteadyO μ δ s₀ (execTimeReinit n s) := by
  delta execTimeReinit
  try lift_lets
  repeat' first
    | with_reducible assumption
    | with_reducible apply steady_command
    | with_reducible apply steady_tsRestart
    | with_reducible apply steady_deny
    | with_reducible apply steady_ok
    | with_reducible apply Steady.ite
    | with_reducible apply SteadyO.next
    | (intro x a hx; try lift_lets)

theorem steady_execSyncCal {μ δ : Bool} {s₀ : State} (n : Nat) (s : State) (h_s : Steady μ δ s₀ s) :
    SteadyO μ δ s₀ (execSyncCal n s) := by
  delta execSyncCal
  try lift_lets
  repeat' first
    | with_reducible assumption
    | with_reducible apply steady_command
    | with_reducible apply steady_setTs
    | with_reducible apply steady_progress
    | with_reducible apply steady_deny
    | with_reducible apply Steady.ite
    | with_reducible apply SteadyO.ite
    | with_reducible apply SteadyO.next
    | (intro x a hx; try lift_lets)

theorem steady_execCalRun {μ δ : Bool} {s₀ : State} (n : Nat) (s : State) (h_s : Steady μ δ s₀ s) :
    SteadyO μ δ s₀ (execCalRun n s) := by
  delta execCalRun
  try lift_lets
  repeat' first
    | with_reducible assumption
    | (intro x; (fail_if_success have : State := x); clear_value x)
    | with_reducible apply steady_command
    | with_reducible apply steady_beginCal
    | with_reducible apply steady_progress
    | with_reducible apply steady_deny
    | with_reducible apply Steady.ite
    | with_reducible apply SteadyO.next
    | (intro x a hx; try lift_lets)

theorem steady_endCalRun {μ δ : Bool} {s₀ : State} (s : State) (n : Nat) (h_s : Steady μ δ s₀ s) :
    Steady μ δ s₀ (s.endCalRun n) := by
  delta State.endCalRun
  try lift_lets
  repeat' first
    | with_reducible assumption
    | (intro x; have hx : Steady μ δ s₀ x := ?_; (on_goal 1 => clear_value x); on_goal 2 => (subst x; try lift_lets))
    | (intro x; (fail_if_success have : State := x); clear_value x)
    | with_reducible apply steady_ok
    | with_reducible apply steady_respond
    | with_reducible apply steady_wr
    | with_reducible apply Steady.ite
    | with_reducible exact Steady.mk_ (by assumption)
    | (with_reducible show 8 ≤ _; decide)
    | (split <;> try lift_lets)

theorem steady_execCalRefDeclare {μ δ : Bool} {s₀ : State} (n : Nat) (s : State) (h_s : Steady μ δ s₀ s) :
    SteadyO μ δ s₀ (execCalRefDeclare n s) := by
  delta execCalRefDeclare
  try lift_lets
  repeat' first
    | with_reducible assumption
    | (intro x; (fail_if_success have : State := x); clear_value x)
    | with_reducible apply steady_command
    | with_reducible apply steady_progress
    | with_reducible apply steady_deny
    | with_reducible apply Steady.ite
    | with_reducible apply SteadyO.ite
    | with_reducible exact Steady.mk_ (by assumption)
    | with_reducible apply SteadyO.next
    | (intro x a hx; try lift_lets)

theorem steady_endRefDeclare {μ δ : Bool} {s₀ : State} (s : State) (n : Nat) (measured : List Int)
    (h_s : Steady μ δ s₀ s) :
    Steady μ δ s₀ (s.endRefDeclare n measured) := by
  delta State.endRefDeclare
  try lift_lets
  repeat' first
    | with_reducible assumption
    | (intro x; have hx : Steady μ δ s₀ x := ?_; (on_goal 1 => clear_value x); on_goal 2 => (subst x; try lift_lets))
    | (intro x; (fail_if_success have : State := x); clear_value x)
    | with_reducible apply steady_deny
    | with_reducible apply steady_ok
    | with_reducible apply steady_draw
    | with_reducible apply Steady.ite
    | with_reducible exact Steady.mk_ (by assumption)
    | (split <;> try lift_lets)

theorem steady_execCalStatus {μ δ : Bool} {s₀ : State} (n : Nat) (s : State) (h_s : Steady μ δ s₀ s) :
    SteadyO μ δ s₀ (execCalStatus n s) := by
  delta execCalStatus
  try lift_lets
  repeat' first
    | with_reducible assumption
    | (intro x; (fail_if_success have : State := x); clear_value x)
    | with_reducible apply steady_command
    | with_reducible apply steady_deny
    | with_reducible apply steady_ok
    | with_reducible apply Steady.ite
    | with_reducible apply SteadyO.next
    | (intro x a hx; try lift_lets)

theorem steady_finish {s₀ : State} (s : State) (n : Nat) (o : FinalObs) (h_s : Steady true true s₀ s) :
    Steady true true s₀ (s.finish n o) := by
  delta State.finish
  try lift_lets
  repeat' first
    | with_reducible assumption
    | (intro x; (fail_if_success have : State := x); clear_value x)
    | with_reducible apply steady_endRefDeclare
    | with_reducible apply steady_endCalRun
    | with_reducible apply steady_endFwActivate
    | with_reducible apply steady_endFwStage
    | with_reducible apply steady_endCopy
    | with_reducible apply steady_endUnfence
    | with_reducible apply steady_endStage
    | with_reducible apply steady_loadProgram
    | (split <;> try lift_lets)

theorem steady_execCommandFinalResponse {s₀ : State} (n : Nat) (obs : FinalObs) (s : State)
    (h_s : Steady true true s₀ s) :
    SteadyO true true s₀ (execCommandFinalResponse n obs s) := by
  delta execCommandFinalResponse
  try lift_lets
  repeat' first
    | with_reducible assumption
    | with_reducible apply steady_finish
    | with_reducible apply SteadyO.ite
    | with_reducible apply SteadyO.next

end Sys2Proof.Machine
end

