-- ==== Sys2Proof/Machine/Views.lean ====
section
/-! DEFINITION. What a host read of an address returns (00 R5, R13, R15; 01 R24, R25; 15 R334, R335): the stored word of a
register with the fields that follow from other state, 0 for write-only fields, and the memory windows. No command of the
table is a plain register read; `readReg` is what one would carry. -/

namespace Sys2Proof.Machine

/-! ## Fields that follow from other state -/

def num (b : Bool) : Nat := if b then 1 else 0

/-- An output's status fields. -/
def State.viewOut (s : State) (k : OutKind) (t c : Nat) : Nat × Nat := (num (s.ballLive k t c), num (s.en k t c).checking.isSome)

/-- A spare's SERVES, MODE and SWITCHING. -/
def SpareJob.view (j : SpareJob) (unusable : Bool) : Nat × Nat × Nat :=
  match j with
  | .none => (0, if unusable then 3 else 0, 0)
  | .takeover c _ => (c % 8, 2, 1)
  | .calRun c _ d => (c % 8, 1, num d)
  | .evict c _ _ => (c % 8, 1, 1)
  | .serve c u => (c % 8, 2, num u)
  | .faultBack c _ => (c % 8, 3, 1)

/-- Units of a tile that have a calibration record here. -/
def State.calOfTile (s : State) (t : Nat) : List (UnitDesc × CalUnit) :=
  (s.cal.units.map (fun (e : Nat × CalUnit) => ((⟨e.1 / 2 ^ 24, e.1 / 2 ^ 16 % 256, e.1 % 2 ^ 16⟩ : UnitDesc), e.2))).filter
    (fun e => decide (e.1.tile = t))

/-- Every unit on the tile has valid calibration in force. -/
def State.tileCalValid (s : State) (t : Nat) : Bool :=
  [(1, 64), (2, 8), (3, 8), (4, 64), (5, 64), (6, 5)].all (fun (e : Nat × Nat) =>
    (List.range e.2).all (fun i => s.calValid ⟨e.1, t, i⟩))

/-- A thread is in a shot. -/
def State.inShot (s : State) (g : Nat) : Bool := let st := (s.thr g).st; decide (1 ≤ st) && decide (st ≤ 6)

/-- Threads of a cluster move from a failed micro-store bank to the one filled in its place (04 R120). -/
def State.replacing (s : State) (gc : Nat) : Bool :=
  s.stores.bankRepl.any (fun r => decide (r.cluster = gc) && decide (r.store = .micro) && r.filled)

/-- QMG_JOB_STATE.STATE. -/
def Job.state (b : Job) : Nat := if !b.present then 0 else if b.ended.isSome then 3 else if b.begun then 2 else 1

/-- Short time, 0 for none. -/
def State.shortAt (s : State) (t : Option Nat) : Nat :=
  match t with
  | some n => short (s.gridAt n)
  | none => 0

/-- The fields of a register instance that follow from other state, each with its word, lowest bit, width and value. -/
def State.derived (s : State) (r : Reg) (ix : List Nat) : List (Fld × Nat) :=
  let t := ix.headD 0
  let i := ix.getD 1 0
  let g := gid t i (ix.getD 2 0)
  let h := s.thr g
  if r.is R.TIL_STATUS then
    [(F.TIL_STATUS_CAL_VALID, num (s.tileCalValid t)),
      (F.TIL_STATUS_RUNNING, num ((List.range 72).any (fun k => s.inShot (72 * t + k))))]
  else if r.is R.CLU_STATUS then
    [(F.CLU_STATUS_RUNNING, ((List.range 8).map (fun k => num (s.inShot (gid t i k)) * 2 ^ k)).sum)]
  else if r.is R.CLU_REGION then [(F.CLU_REGION_IN_USE, num (s.regionUsed t i (ix.getD 2 0)))]
  else if r.is R.CLU_THR_STATE then
    [(F.CLU_THR_STATE_STATE, h.st), (F.CLU_THR_STATE_CSP, h.stack.length), (F.CLU_THR_STATE_PC, h.pc)]
  else if r.is R.CLU_THR_SHOT then
    [(F.CLU_THR_SHOT_STATUS, h.status.toNat), (⟨R.CLU_THR_SHOT, 0, 8, 5⟩, h.flags.toNat)]
  else if r.is R.CLU_THR_SHOT_TICK then [(F.CLU_THR_SHOT_TICK_TICK, h.endTick.toNat)]
  else if r.is R.CLU_THR_BUDGET then [(F.CLU_THR_BUDGET_PEAK, h.peak), (F.CLU_THR_BUDGET_SLIP_COUNT, h.slips)]
  else if r.is R.CLU_THR_LATE then [(F.CLU_THR_LATE_DEC_LATE, h.decLate), (F.CLU_THR_LATE_WAIT_LATE, h.waitLate)]
  else if r.is R.SPN_MCODE_VER then [(⟨R.SPN_MCODE_VER, 0, 0, 32⟩, s.mcodeVer)]
  else if r.is R.CLU_UCODE_STATUS then
    [(F.CLU_UCODE_STATUS_U_SWITCHING, match s.stores.ustage with
        | some u => num ((u.applying && u.targets.any (fun e => decide (e.1 = 9 * t + i))) || s.replacing (9 * t + i))
        | none => num (s.replacing (9 * t + i))),
      (F.CLU_UCODE_STATUS_N_SWITCHING, num (s.swapping (9 * t + i)))]
  else if r.is R.DRV_STATUS then
    if 64 ≤ i then []
    else
      let v := s.viewOut .drive t i
      [(F.DRV_STATUS_LIVE, v.1), (F.DRV_STATUS_SPARE, num (s.served t i)), (F.DRV_STATUS_WIDE_TOL, num (s.wideTol t (i / 8))),
        (F.DRV_STATUS_CHECKING, v.2)]
  else if r.is R.PRB_STATUS then
    let v := s.viewOut .probe t i
    [(F.PRB_STATUS_LIVE, v.1), (F.PRB_STATUS_CHECKING, v.2)]
  else if r.is R.DRV_SPARE then
    if i < 64 then []
    else
      let v := (s.spare t (i - 64)).view (s.spareFenced t (i - 64))
      [(F.DRV_SPARE_SERVES, v.1), (F.DRV_SPARE_MODE, v.2.1), (F.DRV_SPARE_SWITCHING, v.2.2)]
  else if r.is R.FLX_STATUS then
    let v := s.viewOut .flux t i
    [(F.FLX_STATUS_LIVE, v.1), (F.FLX_STATUS_SPAN_CHANGING, num (s.spanChanging .flux t i)), (F.FLX_STATUS_CHECKING, v.2)]
  else if r.is R.BIA_STATUS then
    let v := s.viewOut .bias t i
    [(F.BIA_STATUS_LIVE, v.1), (F.BIA_STATUS_SPAN_CHANGING, num (s.spanChanging .bias t i)), (F.BIA_STATUS_CHECKING, v.2)]
  else if r.is R.TIL_SEG then [(F.TIL_SEG_INUSE, num (s.segInUse t i))]
  else if r.is R.QMG_STRM_STATUS then [(F.QMG_STRM_STATUS_STALL, num (s.strmStall t i))]
  else if r.is R.QMG_STRM_CP then [(F.QMG_STRM_CP_CP, short (s.strmCp t i))]
  else if r.is R.RDO_STATUS then
    [(F.RDO_STATUS_OPEN, s.openTones t i)]
  else if r.is R.TDC_FIFO_STATUS then [(F.TDC_FIFO_STATUS_COUNT, s.tdc.log.length)]
  else if r.is R.TDC_FIFO_REC then
    (List.range 4).map (fun k => (⟨R.TDC_FIFO_REC, k, 0, 32⟩, ((s.tdc.log.headD []).getD k 0).toNat))
  else if r.is R.BVN_PORT_STATUS then
    [(F.BVN_PORT_STATUS_REPLAYING, num ((s.port t).restripe.isSome || (s.port t).nakAt.isSome || (s.port t).rplWaits))]
  else if r.is R.QMG_STATUS then
    [(F.QMG_STATUS_IN_FLIGHT, s.inFlight), (F.QMG_STATUS_FETCH_PAUSED, num s.fetchPaused),
      (F.QMG_STATUS_PARTS, ((List.range 64).filter s.partValid).length)]
  else if r.is R.QMG_PART_USE then [(F.QMG_PART_USE_USE, ((s.partUse t) / 2 ^ 20).ceil.toNat)]
  else if r.is R.QMG_PART_JOBS then
    [(F.QMG_PART_JOBS_IN_FLIGHT, (s.qm.jobs.filter (fun e => decide (e.2.part = t))).length)]
  else if r.is R.QMG_JOB_TAG then [(F.QMG_JOB_TAG_TAG, (s.job t).tag.toNat)]
  else if r.is R.QMG_JOB_STATE then
    let b := s.job t
    [(F.QMG_JOB_STATE_STATE, b.state), (F.QMG_JOB_STATE_PART, b.part), (F.QMG_JOB_STATE_QP, b.qp),
      (F.QMG_JOB_STATE_KIND, b.kind), (F.QMG_JOB_STATE_TRIG_OVR, min 511 b.trigOvr)]
  else if r.is R.QMG_JOB_SHOTS then [(F.QMG_JOB_SHOTS_SHOTS, (s.job t).shotsRun)]
  else if r.is R.QMG_JOB_NEXT then
    let b := s.job t
    [(F.QMG_JOB_NEXT_TICK, if b.ended.isSome then 0 else s.shortAt (if b.begun then b.nextAt else b.startAt))]
  else if r.is R.MBX_GLOBAL then [(F.MBX_GLOBAL_MODE, s.mode)]
  else if r.is R.SPN_TXN then
    let o := s.openTxn t
    let c := s.commTxn t
    [(F.SPN_TXN_STATE, num o.isSome + 2 * num c.isSome), (F.SPN_TXN_ENTRIES, (o.map (fun x => x.entries.length)).getD 0),
      (F.SPN_TXN_COMMIT_TICK, s.shortAt (c.map Txn.commit)), (F.SPN_TXN_C_ENTRIES, (c.map (fun x => x.entries.length)).getD 0),
      (F.SPN_TXN_C_TXN_ID, (c.map (fun x => x.id.toNat)).getD 0)]
  else if r.is R.MEM_BW then
    [(F.MEM_BW_RESERVED, (((List.range (64 * s.variant.tiles)).filter (fun k =>
      let st := s.strmState (k / 64) (k % 64)
      decide (1 ≤ st) && decide (st ≤ 2))).map (fun k => s.rd F.QMG_STRM_CFG_RATE [k / 64, k % 64])).sum)]
  else if r.is R.SPN_CAL_STATUS then [(F.SPN_CAL_STATUS_FREQ_TRACED, num s.freqTraced)]
  else if r.is R.TIL_CAL_STATUS then
    let us := s.calOfTile t
    let n := fun (p : UnitDesc × CalUnit → Bool) => min 255 (us.filter p).length
    [(F.TIL_CAL_STATUS_DUE, n (fun e => e.2.due.isSome)), (F.TIL_CAL_STATUS_STALE, n (fun e => e.2.stale)),
      (F.TIL_CAL_STATUS_HELD, n (fun e => s.isHeld e.1)), (F.TIL_CAL_STATUS_ACTIVE, num (us.any (fun e => s.stepRuns e.1)))]
  else if r.is R.THM_STATUS then
    let any := fun (f k : Fld) => num (s.sensors.any (fun n => decide (s.sens n f k = 1)))
    [(F.THM_STATUS_WARN, any F.THM_SENS_WARN F.THM_SENS_T_WARN), (F.THM_STATUS_CRIT, any F.THM_SENS_CRIT F.THM_SENS_T_CRIT),
      (F.THM_STATUS_RATE, any F.THM_SENS_RATE F.THM_SENS_T_RATE), (F.THM_STATUS_FAST, any F.THM_SENS_FAST F.THM_SENS_T_FAST)]
  else if r.is R.SPN_REPLACE then [(⟨R.SPN_REPLACE, 0, 0, 7⟩, s.replaceCauses)]
  else if r.is R.SPN_ERR_PIN then
    [(F.SPN_ERR_PIN_ASSERTED, num s.flt.errN), (F.SPN_ERR_PIN_HW_HOLD, num s.flt.errHold.isSome)]
  else if r.is R.SPN_BOOT_STATUS then [(F.SPN_BOOT_STATUS_PREFERRED, num s.boot.preferred)]
  else if r.is R.SPN_FW_SVN then [(F.SPN_FW_SVN_MIN, s.boot.minSvn)]
  else if r.is R.TIM_NOW_LO then [(F.TIM_NOW_LO_TICK_LO, short s.grid)]
  else []

/-- Fence bits as read: the fence of a tile or a cluster fences every unit of it (21 R455, R457). -/
def State.fenceBits (s : State) (r : Reg) (ix : List Nat) : List (Fld × Nat) :=
  let t := ix.headD 0
  let i := ix.getD 1 0
  let b := fun (k i : Nat) => num (s.fenced ⟨k, t, i⟩)
  if r.is R.DRV_STATUS then [(F.DRV_STATUS_FENCED, if i < 64 then b 1 i else b 2 (i - 64))]
  else if r.is R.PRB_STATUS then [(F.PRB_STATUS_FENCED, b 3 i)]
  else if r.is R.RDO_STATUS then [(F.RDO_STATUS_FENCED, b 3 i)]
  else if r.is R.FLX_STATUS then [(F.FLX_STATUS_FENCED, b 4 i)]
  else if r.is R.BIA_STATUS then [(F.BIA_STATUS_FENCED, b 5 i)]
  else if r.is R.SNS_ADC then [(F.SNS_ADC_FENCED, b 6 i)]
  else if r.is R.CLU_STATUS then
    [(F.CLU_STATUS_FENCED, ((List.range 8).map (fun k => b 8 (8 * i + k) * 2 ^ k)).sum),
      (F.CLU_STATUS_CL_FENCED, max (b 9 i) (num (s.tileFenced t)))]
  else if r.is R.CAP_STATUS then [(F.CAP_STATUS_FENCED, b 10 0)]
  else []

/-! ## Words -/

/-- A spare's block reads as the channel it serves; idle or unusable, as reset (05 R146). Its status is its own. -/
def State.spareWord (s : State) (r : Reg) (ix : List Nat) (w : Nat) : Option Word :=
  let t := ix.headD 0
  let i := ix.getD 1 0
  if spareReg r ix && !r.is R.DRV_STATUS && !r.is R.DRV_SPARE && !r.is R.DRV_REFUSE then
    let v := (s.spare t (i - 64)).view (s.spareFenced t (i - 64))
    if v.2.1 = 1 ∨ v.2.1 = 2 then some (s.regWord r (t :: (8 * (i - 64) + v.1) :: ix.drop 2) w)
    else some (resetWord s.variant r (t :: 0 :: ix.drop 2) w)
  else none

/-- A word of a register instance as read: write-only fields read 0. -/
def State.viewWord (s : State) (r : Reg) (ix : List Nat) (w : Nat) : Word :=
  if r.exists_ s.variant ix w then
    let base := ((s.spareWord r ix w).getD (s.regWord r ix w)) &&& ~~~(BitVec.ofNat 32 (r.maskBy w (fun a => decide (a = .wo))))
    (s.derived r ix ++ s.fenceBits r ix).foldl (fun (v : Word) (e : Fld × Nat) =>
      if e.1.word = w then BitVec.ofNat 32 (setBits v.toNat e.1.lo e.1.width e.2) else v) base
  else 0

/-- The register at an address; an unlisted offset reads 0. -/
def State.regView (s : State) (addr : Nat) : Word :=
  match findReg addr regTable with
  | some (r, ix, w) => s.viewWord r ix w
  | none => 0

/-- Even parity of each byte of a micro-store word (04 R100). -/
def microParity (w : Word) : Nat :=
  ((List.range 4).map (fun b => (((List.range 8).filter (fun k => w.getLsbD (8 * b + k))).length % 2) * 2 ^ b)).sum

/-- The dwords of a slot's entry in a replica (10 R244). -/
def State.slotWord (s : State) (r o : Nat) : Word :=
  let v := s.slot r (o / 16)
  match o % 16 / 4 with
  | 0 => BitVec.ofNat 32 (v.cls.toNat + 4 * num (s.slotValid r (o / 16)) + 8 * num v.late + 16 * num v.margin + 32 * v.src + 256 * num v.aged)
  | 1 => v.tick
  | 2 => v.origin
  | _ => v.vtick

/-- The dword of a tile window outside its registers (03 R64, 04 R102, 05 R129, 09 R242, 10 R244, 11 CAP_PAGE); none: not
a memory window. -/
def State.tileMem (s : State) (t o : Nat) : Option Word :=
  let c := s.rd F.TIL_MEMWIN_SEL_CLUSTER [t]
  let gc := 9 * t + c
  let half := fun (n : Nat) => (BitVec.ofNat 32 (n / 2 ^ (o % 8 * 8)) : Word)
  if 0x800000 ≤ o ∧ o < 0xC00000 then some (SMap.get 0 s.stores.env (2 ^ 20 * t + (o - 0x800000) / 4))
  else if 0x8000 ≤ o ∧ o < 0xC000 then some (s.slotWord t (o - 0x8000))
  else if 0x3C0000 ≤ o ∧ o < 0x400000 then
    let a := 2 ^ 21 * t + 2 ^ 18 * s.rd F.CAP_PAGE_PAGE [t] + (o - 0x3C0000)
    if (s.cap t).scratch then some (Config.freeSample (s.freeCtr + a))
    else some (BitVec.ofNat 32 (leAt (SMap.getList 0 s.stores.capMem a 4) 0 4))
  else if 0x300000 ≤ o ∧ o < 0x340000 ∧ 0x4000 ≤ (o - 0x300000) % 0x8000 then
    let l := (o - 0x300000) / 0x8000
    some (SMap.get 0x7FFF s.stores.weights (weightKey (8 * t + l) (s.rd F.RDO_WSEL_TONE [t, l]) (s.rd F.RDO_WSEL_SET [t, l])
      ((o - 0x300000) % 0x8000 % 0x4000 / 4)))
  else if 0x400000 ≤ o ∧ o < 0x800000 then
    if 8 < c then some 0
    else if o < 0x480000 then some (half (s.gateAt gc ((o - 0x400000) / 8)).toNat)
    else if o < 0x4C0000 then
      let w := s.microAt gc (decide (0x4A0000 ≤ o)) ((o - 0x480000) % 0x20000 / 8)
      some (half (w.toNat + 2 ^ 32 * microParity w))
    else if 0x500000 ≤ o ∧ o < 0x540000 then
      some (BitVec.ofNat 32 ((s.nanoAt gc (decide (0x520000 ≤ o)) ((o - 0x500000) % 0x20000 / 32)).toNat / 2 ^ (o % 32 * 8)))
    else some 0
  else none

/-- The 2,048 bytes of a response region (17 R371). -/
def respBytes (r : MbxResp) : List Byte :=
  leBytes 2 r.opcode ++ leBytes 1 r.status ++ leBytes 1 0 ++ leBytes 4 r.cmdId.toNat ++ leBytes 4 r.payload.length ++
    leBytes 4 r.txnId.toNat ++ leBytes 2 r.reason ++ leBytes 2 0 ++ leBytes 4 r.detail.toNat ++ leBytes 4 r.tick.toNat ++
    leBytes 4 0 ++ r.payload

/-- A dword of BAR2: mailboxes, CXL registers, MSI-X table and PBA (R334, R340, R369). -/
def State.bar2 (s : State) (o : Nat) : Option Word :=
  if o < 0x40000 then
    let m := s.mbx (o / 0x1000)
    let k := o % 0x1000
    if k < 0x800 then some (BitVec.ofNat 32 (leAt (SMap.getList 0 m.region k 4) 0 4))
    else some (BitVec.ofNat 32 (leAt ((respBytes m.resp).drop (k - 0x800)) 0 4))
  else if 0x80000 ≤ o ∧ o < 0xA0000 then
    some (Config.cfgWord (0x1000000 + o) (SMap.get 0 s.hif.cfg (0x1000000 + o)) (s.hif.controls s.d3hot))
  else if 0xC0000 ≤ o ∧ o < 0xC8000 then
    let v := (o - 0xC0000) / 16
    let w := o % 16 / 4
    if w = 3 then some (if s.hif.unmasked.contains v then 0 else 1) else some (SMap.get 0 s.hif.msixTab (3 * v + w))
  else if 0xD0000 ≤ o ∧ o < 0xD0100 then
    some (BitVec.ofNat 32 (((List.range 32).map (fun b => num (s.hif.pba.contains (8 * (o - 0xD0000) + b)) * 2 ^ b)).sum))
  else none

/-- What a read of an aligned dword of the part's BARs returns. After a failed boot only the identity and boot registers
answer (22 R477); a tile that is absent or cut off reads 0 (00 R5, 21 R451). -/
def State.readReg (s : State) (addr : Nat) : Word :=
  if s.rdB F.SPN_BOOT_STATUS_BOOT_FAIL [] && decide (0x50 ≤ addr) then 0
  else if addr < 0x1000000 then
    if 0x100000 ≤ addr ∧ addr < 0x200000 then SMap.get 0 s.stores.table ((addr - 0x100000) / 4)
    else if 0x68000 ≤ addr ∧ addr < 0x6C000 then s.slotWord hub (addr - 0x68000)
    else s.regView addr
  else if addr < 0x8000000 then
    let t := addr / 0x1000000 - 1
    if s.tileReached t then (s.tileMem t (addr % 0x1000000)).getD (s.regView addr) else 0
  else if 0x10000000 ≤ addr ∧ addr < 0x10100000 then (s.bar2 (addr - 0x10000000)).getD (s.regView addr)
  else s.regView addr

end Sys2Proof.Machine
end

