-- ==== Sys2Proof/WellFormed.lean ====
section
/-! DEFINITION. Well-formed commands: every unit a command names lies in the ranges of the manual (01 R16, R19; 16 R349,
R356; 17 R368, R370; the register tables), and an entry or a line of data has its length. The widest part is meant; a unit
of an absent tile is well-formed and answers as 00 R5 says. The machine takes ill-formed commands too: they find no unit
and change nothing. -/

namespace Sys2Proof

/-- Tiles 0-6 (00 R1). -/
def tileOk (tile : Nat) : Bool := decide (tile < 7)
/-- Threads by global index: 7 tiles of 9 clusters of 8 (01 R19). -/
def threadOk (thr : Nat) : Bool := decide (thr < 504)
/-- Mailboxes 0-63 (17 R368). -/
def mailboxOk (n : Nat) : Bool := decide (n < 64)
/-- A code of a readout ADC (09 R223). -/
def codeOk (c : Int) : Bool := decide (-2048 ≤ c) && decide (c ≤ 2047)
/-- Borvon ports 0-3, and the lanes 0-3 of a port (13). -/
def portOk (port : Nat) : Bool := decide (port < 4)
def laneOk (lane : Nat) : Bool := decide (lane < 4)
/-- Job slots: 1,024 jobs in flight (16 R350). -/
def jobOk (job : Nat) : Bool := decide (job < 1024)
/-- Queue pairs 0-4,095 (16 R351). -/
def qpOk (qp : Nat) : Bool := decide (qp < 4096)
/-- Thermal sensors: 6 of the spine, 12 of each tile (20). -/
def sensorOk (sensor : Nat) : Bool := decide (sensor < 90)
/-- A submission entry has 64 bytes (16 R355). -/
def entryOk (entry : List Byte) : Bool := decide (entry.length = 64)

/-- Outputs of a kind on one tile: the drive channels with the spares, the probes, the flux and the bias outputs. -/
def OutKind.count : OutKind → Nat
  | .drive => 72
  | .probe => 8
  | .flux | .bias => 64

/-- A unit descriptor with a kind of 17 R382, and its tile where it has one (0xFF where it has none). -/
def UnitDesc.known (u : UnitDesc) : Bool :=
  decide (1 ≤ u.kind) && decide (u.kind ≤ 14) && (if u.kind ≤ 11 then tileOk u.tile else true)

/-- A fault block of the spine or of a tile (21 R446, R447). -/
def FltBlk.valid : FltBlk → Bool
  | .spine b => decide (b < 13)
  | .tile n k => tileOk n && decide (k < 108)

/-- The command names only units that exist in the widest part. -/
def Instr.wellFormed : Instr → Bool
  | .regWrite _ len _ => decide (1 ≤ len) && decide (len ≤ 8)
  | .tickBoundaryApply _ | .coupleTimeout _ | .timNowLoRead | .refinEdgeSeen | .qualifyEnd _ _
  | .qualifyReturn | .refLock | .refLoss | .timRefCtrlWrite _ | .pllLock => true
  | .tileTickCheck tile _ => tileOk tile
  | .pllUnlock => true
  | .shotStart job => jobOk job
  | .play thr _ | .waitRelease thr => threadOk thr
  | .frame f | .setf f | .wait f | .sync f | .meas f | .brd f | .jump f | .call f | .ret f | .loop f | .sweep f | .mark f
  | .trig f | .pub f => threadOk f.thr
  | .barrierRelease bar => decide (bar < 32)
  | .syncTimeout thr => threadOk thr
  | .syncMiss bar => decide (bar < 32)
  | .brdResolve thr | .brdLate thr | .trigRelease thr | .trigTimeout thr | .custom thr _
  | .waitsRelease thr | .waitsTimeout thr | .peerStop thr => threadOk thr
  | .shotComplete job | .shotRerun job => jobOk job
  | .mchkReloadDone tile cluster _ _ _ | .bankReplaceDone tile cluster _ => tileOk tile && decide (cluster < 9)
  | .nanoViewWrite tile off _ => tileOk tile && decide (0x500000 ≤ off) && decide (off < 0x540000) && decide (off % 4 = 0)
  | .envMemWrite tile sample _ => tileOk tile && decide (sample < 2 ^ 20)
  | .weightWrite tile line d _ => tileOk tile && decide (line < 8) && decide (d < 4096)
  | .decodeTableWrite entry _ => decide (entry < 262144)
  | .drvEnable probe tile chan => tileOk tile && decide (chan < if probe then 8 else 72)
  | .flxEnable tile chan | .biaEnable tile chan => tileOk tile && decide (chan < 64)
  | .enableCheckDone kind tile chan => tileOk tile && decide (chan < kind.count)
  | .spareTakeoverDone tile group | .spareHandback tile group | .handbackForced tile group
  | .calTakeover tile group | .calOfflineDone tile group _ _ => tileOk tile && decide (group < 8)
  | .segOpen tile seg | .segSeal tile seg => tileOk tile && decide (seg < 256)
  | .strmJumpRequest tile strm target => tileOk tile && decide (strm < 64) && decide (target < 256)
  | .commitPoint tile strm | .passEnd tile strm | .strmWpWrite tile strm _ | .streamFetch tile strm
  | .streamBlockArrive tile strm | .streamUnderrun tile strm => tileOk tile && decide (strm < 64)
  | .genEnable tile gen | .genRestart tile gen => tileOk tile && decide (gen < 32)
  | .biasLatch tile chan => tileOk tile && decide (chan < 64)
  | .spanChange _ tile chan span _ => tileOk tile && decide (chan < 64) && decide (span < 4)
  | .spanChangeEnd _ tile chan => tileOk tile && decide (chan < 64)
  | .scanEnable tile _ => tileOk tile
  | .senseSlotStart tile list | .senseConversionDone tile list _ | .snsInjGo tile list | .snsInjTime tile list =>
    tileOk tile && decide (list < 4)
  | .senseRotate tile => tileOk tile
  | .windowEnd tile line tone codes =>
    tileOk tile && decide (line < 8) && decide (tone < 16) && codes.all codeOk
  | .sliceRotate tile line | .sliceSpareInPlace tile line | .agcStep tile line | .xtSwap tile line =>
    tileOk tile && decide (line < 8)
  | .decisionUpdate replica => decide (replica < 8)
  | .slotAged replica slot => decide (replica < 8) && decide (slot < 1024)
  | .decSwWrite _ => true
  | .groupFire group => decide (group < 256)
  | .decoderFire dec _ => decide (dec < 4)
  | .tableReloadDone entry => decide (entry < 262144)
  | .extDecoderFire dec | .synBaseWrite dec _ => decide (dec < 4)
  | .decQueueSend port => portOk port
  | .ringRebuildDone => true
  | .spineLinkRetry tile lane => tileOk tile && decide (lane < 32)
  | .capArm tile | .capStop tile | .capForce tile | .capArmTimeReached tile | .capRearmEnd tile => tileOk tile
  | .capTrigger tile _ codes => tileOk tile && codes.all codeOk
  | .capRecordDone tile late _ => tileOk tile && late.codes.all codeOk
  | .tdcEdge inp _ _ _ => decide (inp < 10)
  | .intervalStartExpire iv => decide (iv < 4)
  | .tdcLineSwap inp _ => decide (inp < 10)
  | .tdcFifoPop | .tdcFreqGo | .tdcFreqGateEnd => true
  | .laneTrainStep port lane _ | .trainStepTimeout port lane | .trainRetry port lane | .deepPoll port lane =>
    portOk port && laneOk lane
  | .laneFail port _ | .skipSend port | .skipReceive port _ | .rstReceive port _ _ _ | .rplReceive port _ _
  | .ackReceive port _ _ | .nakReceive port _ _ | .nakRepeat port | .ackSend port => portOk port
  | .msgError found => portOk found.port
  | .decReceive port msg => portOk port && decide (msg.val.slot < 1024) && decide (msg.val.dtick < 65536)
  | .pktAnswerReceive port dec _ _ => portOk port && decide (dec < 256)
  | .pktManagementReceive port _ | .bvnRetrain port | .bvnWiden port => portOk port
  | .bvnInj port lane => portOk port && laneOk lane
  | .announceSend port | .announceTimeout port => portOk port
  | .announceReceive port m =>
    portOk port && decide (m.seq < 65536) && laneOk m.lane && decide (m.ann.hops < 32) && decide (m.ann.subtree < 64)
  | .delayReqSend => true
  | .delayReq port seq lane _ _ => portOk port && decide (seq < 65536) && laneOk lane
  | .delayResp seq lane _ _ _ => decide (seq < 65536) && laneOk lane
  | .timeStep | .tsHoldExpire | .syncOutPulse => true
  | .synReceive port id _ sent => portOk port && decide (id < 256) && laneOk sent.val.1
  | .syncCalDone => true
  | .timedEventFire ev => decide (ev < 8)
  | .linkUp _ _ _ | .linkOutage | .d3hotWrite | .d0Write => true
  | .hdmCommit dec _ _ _ _ => decide (dec < 2)
  | .cxlmemRequest _ _ data => decide (data.length = 64)
  | .viralReceive | .memReady _ => true
  | .sqTailDoorbell qp _ | .cqHeadDoorbell qp _ => qpOk qp
  | .submitRun qp entry | .submitCapture qp entry | .submitCalibrate qp entry | .submitStreamOpen qp entry
  | .submitStreamClose qp entry | .submitScan qp entry => qpOk qp && entryOk entry
  | .jobStart job | .jobDeadline job => jobOk job
  | .completionPost qp => qpOk qp
  | .mailboxDoorbell n req => mailboxOk n && decide (req.payload.length = req.len)
  | .commandFinalResponse n _ | .getInfo n | .resume n => mailboxOk n
  | .resumeComplete => true
  | .safeEnter n | .txnBegin n | .txnSet n | .txnCommit n | .txnRollback n | .txnStatus n => mailboxOk n
  | .txnTimeout part | .txnApply part => decide (part ≤ 64)
  | .unitEnable n | .unitDisable n | .fence n | .unfence n | .programLoad n | .patchStage n
  | .userUcodeStage n | .patchApply n => mailboxOk n
  | .patchApplyDone => true
  | .patchDiscard n | .nanoLoad n | .nanoSwap n => mailboxOk n
  | .nanoSwapDone tile cluster => tileOk tile && decide (cluster < 9)
  | .partCreate n | .partDestroy n | .partPolicy n | .partAssign n | .qpCreate n | .qpDelete n | .planLoad n
  | .planDrop n | .jobAbort n | .decSlotAssign n | .decExportSet n | .decImportSet n | .syndGroupSet n
  | .syndDecoderSet n | .syndRead n | .timeConfig n | .timeReinit n | .syncCal n | .calRun n
  | .calRefDeclare n | .calStatus n | .hostCopyIn n | .hostCopyOut n | .fwStage n | .fwActivate n
  | .mgmtHandover n | .logRead n | .memInfo n | .memRetire n => mailboxOk n
  | .patrolPassEnd => true
  | .devRetireThreshold dev => decide (dev < 80)
  | .memUncorrectable _ _ _ | .memInitDone => true
  | .calDue unit | .calStale unit | .gapCalStep unit _ | .calComplete unit _ | .calHoldTimeout unit
  | .calRecordWrite unit => unit.known
  | .bootCalDone failed => failed.all UnitDesc.known
  | .thermSample sensor _ | .thermStateEntry sensor _ | .thermStateLeave sensor _ | .thermRateEntry sensor
  | .thermRateLeave sensor | .thermSensorFail sensor => sensorOk sensor
  | .thermShutdown | .thermRestart | .thmCfgWrite _ => true
  | .faultRecord blk _ | .fltInject blk _ => blk.valid
  | .errHoldExpire => true
  | .tileLinkSilence tile => tileOk tile
  | .heartbeatMiss | .standbyRestartDone _ => true
  | .fwAudit stale => stale.all UnitDesc.known
  | .logWrite => true
  | .peakClr thr => threadOk thr
  | .maxClear => true
  | .railSeqError rail | .railDrop rail => decide (rail < 8)
  | .perstAssert | .perstDeassert | .vauxLoss | .bootImageCheck _ _ _ | .fwReady => true
  | .spineLaneRepairDone tile => tileOk tile
  | .spareFaultHandbackDone tile group => tileOk tile && decide (group < 8)
  | .trainingSignalLoss port lane => portOk port && laneOk lane
  | .deskewWaitExpire port => portOk port
  | .syncMissing | .resultDelivery | .configRequest _ | .cacheSnoop _ | .pcieRefclkLoss => true
  | .railReturn rail => decide (rail < 8)
  | .bootStart => true

end Sys2Proof
end

