-- ==== Sys2Proof/Tests/Slice0.lean ====
section
/-! SUPPORT. Tests: for every statement with hypotheses a witness of each of its clauses, an ill-formed command for each
check of well-formedness, and the worked examples of the spec. -/

set_option Elab.async false
open Sys2Proof Sys2Proof.Machine
namespace Sys2Proof.Machine

/-! ## States for the witnesses -/

def State.at_ (s : State) (n : Nat) : State := { s with clk := { s.clk with tick := n } }
def State.withBoot (s : State) (b : Boot) : State := { s with boot := b }
def State.modeOf (s : State) (m : Nat) : State := s.wr F.SPN_MODE_MODE [] m

/-- A request of an opcode. -/
def reqOf (op : Nat) (txn : Word) (p : List Byte) : MbxReq :=
  { opcode := op, flags := 0, cmdId := 1, len := p.length, txnId := txn, rsv := 0, payload := p }

/-- Mailbox 0 of a state is BUSY with a request; `work` says whether it has answered IN_PROGRESS. -/
def State.busyWith (s : State) (r : MbxReq) (work : Bool) : State :=
  (s.wr F.MBX_STATUS_STATE [0] mBusy).setMbx 0 { s.mbx 0 with req := r, inProg := work }

def askedOf (op : Nat) (p : List Byte) : State := State.reset.busyWith (reqOf op 0 p) false
def workingOn (op : Nat) (p : List Byte) : State := State.reset.busyWith (reqOf op 0 p) true

/-- Device memory is active. -/
def State.memOn (s : State) : State := (s.wr F.SPN_HIF_STATUS_MEM_ACTIVE [] 1).wr F.MEM_HOST_SIZE_H [] 8
def finalObs : FinalObs := { ok := true, measured := [], bytes := 64, data := List.replicate 64 5 }
def copyBytes (a b : Nat) : List Byte := leBytes 8 a ++ leBytes 8 b ++ leBytes 4 64

def aTxn (commit : Nat) : Txn := { Txn.idle with id := 1, commit := commit }
def drvCouple : Couple := { addr := R.DRV_FREQ.addr [6, 63] 0, second := false, value := 0, entry := 0 }

/-- Partition 63 is created, IDLE, and owns the last channel, line, thread and generator. -/
def havePart (s : State) : State :=
  (s.wr F.QMG_PART_CFG_VALID [63] 1).setPart 63 { Part.idle with chans := [447], lines := [55], thrs := [503], gens := [223] }
/-- That partition is ARMED. -/
def busyPart (s : State) : State := (havePart s).setJob 1023 { Job.idle with kind := 1, part := 63 }
def drvRunning : State := busyPart State.reset

/-- FW_STAGE asked for an image of 4 KiB in device memory whose header is in order. -/
def fwHead : List Byte :=
  leBytes 4 0x57465345 ++ leBytes 2 1 ++ leBytes 2 0x200 ++ leBytes 4 0 ++ leBytes 4 65535 ++ leBytes 4 0x21 ++ leBytes 4 4096
def fwPayload : List Byte := leBytes 8 0 ++ leBytes 4 4096
def fwAsked : State := ((askedOf 0x90 fwPayload).memOn.memWrite 0 fwHead)
theorem fwAsked_ok (h : Config.fwSigOk (fwAsked.memRead 0 4096) = true) :
    fwAsked.fwReason (leAt fwPayload 0 8) (leAt fwPayload 8 4) = 0 := by
  have e1 : leAt fwPayload 0 8 = 0 := by decide +kernel
  have e2 : leAt fwPayload 8 4 = 4096 := by decide +kernel
  have e3 : fwAsked.srcOk 0 4096 = true := by decide +kernel
  have e4 : (fwHeader (fwAsked.memRead 0 4096)).hdrOk = true := by decide +kernel
  have e5 : (fwHeader (fwAsked.memRead 0 4096)).sigOk = true := h
  have e6 : ¬ (fwHeader (fwAsked.memRead 0 4096)).svn < fwAsked.boot.minSvn := by decide +kernel
  have e7 : (fwHeader (fwAsked.memRead 0 4096)).stepping = fwAsked.rd F.SPN_ID_STEPPING [] := by decide +kernel
  have e8 : (fwAsked.boot.staging.isSome || fwAsked.boot.activating.isSome) = false := by decide +kernel
  unfold State.fwReason
  simp only [e1, e2, e3, e4, e5, e6, e7, e8, Bool.not_true, Bool.false_eq_true, if_false, ne_eq, not_true_eq_false]

/-! ## Threads -/

/-- A gate-level word of an opcode whose operand fields hold the values listed by their lowest bits. -/
def gw (op : Nat) (l : List (Nat × Nat)) : GateWord := BitVec.ofNat 64 (l.foldl (fun a e => a + e.2 * 2 ^ e.1) (op * 2 ^ 58))

/-- The last thread of the part, in a shot of job 1023, with one address left in its region. -/
def aThread : Thread := { Thread.idle with st := 1, pc := 65534, last := 65535, job := some 1023 }
def atWord (t : Thread) (w : GateWord) : State :=
  { State.reset with
    threads := [(503, t)], stores := { State.reset.stores with sram := [(65536 * 62 + 65534, w)] } }
/-- It issues the word with so many issue slots used. -/
def issuingAt (used : Nat) (w : GateWord) : State := atWord { aThread with used := used } w
def waiting (r : WaitRec) : State := atWord { aThread with st := 2, wait := r } 0
/-- Barrier 31 has that thread as its only member. -/
def withBar (s : State) : State := { s with bars := [(31, { job := some 1023, members := [503], failed := none })] }
def measNano : NanoWord := BitVec.ofNat 256 (2 ^ 143 + 2 ^ 112 + 127 * 2 ^ 105)
def withNano (s : State) : State := { s with stores := { s.stores with nano := [(4096 * 124, measNano)] } }
/-- CUSTOM0 enters micro address 0x3C20, whose microword is the last. -/
def withMicro (s : State) : State :=
  { s with stores :=
    { s.stores with micro := [(16384 * 124 + 0x3C00, 0x44000#32 ||| 0x3C20#32), (16384 * 124 + 0x3C20, 0xE8000000#32)] } }
def badWord : BadWord :=
  { cluster := 62, store := .micro, bank := true, addr := 16383, tick := 0, thr := 503, cause := 0 }
def aRepl : BankRepl := { cluster := 62, store := .nano, bank := false, tick := 0, filled := false }

/-! ## Outputs -/

def checkingOut (k : OutKind) (c : Nat) : State := State.reset.setEn k 6 c { EnRun.idle with checking := some 0 }
def okCal : CalObs := { pass := true, gain := 0, offset := 0, pad := 0, fine := 0 }
def badCal : CalObs := { okCal with pass := false }
def aCode : BiasCode := { sample := 0, code := 1, fromReg := true, thr := 0 }
def aSpan : SpanRun := { at_ := 0, span := 0, after := 5, live := true }
/-- Segment 255 of tile 6 covers the last page and is not sealed. -/
def openPage : State := ((State.reset.wr F.TIL_SEG_TYPE [6, 255] 1).wr F.TIL_SEG_PAGE_BASE [6, 255] 1023).wr F.TIL_SEG_PAGES [6, 255] 1
/-- The last stream plays a pass. -/
def playing (f : Option Nat) : State :=
  (State.reset.wr F.TIL_STRM_STATUS_STATE [6, 63] kPlaying).setStrm 6 63 { StreamRun.idle with fixedK := f, fetched := 5 }
def genMode (m : Nat) : State := State.reset.wr F.TIL_GEN_CTRL_MODE [6, 31] m

/-! ## Measurement -/

def levelTrigger (st : Nat) : State :=
  ((State.reset.wr F.CAP_EDGE_EN [6] 1).wr F.CAP_EDGE_LEVELMODE [6] 1).wr F.CAP_STATUS_STATE [6] st
def recording : State :=
  (State.reset.wr F.CAP_STATUS_STATE [6] cTriggered).setCap 6
    { CapRun.idle with trig := some (0, 32, 5, 0, 0), set := { tap := 0, long := false, len := 64, pre := 0, dest := 0 } }
def tdcOn : State := State.reset.wr F.TDC_IN_CFG_EN [9] 1
/-- Tile 6 scans; its list 3 is as given. -/
def withSense (l : SenseList) : State :=
  (State.reset.setSenseTile 6 { SenseTile.idle with running := true }).setSenseList 6 3 l
/-- Every list of tile 6 has begun the slots of its scan, the tile having done so many scans. -/
def scanned (cycle : Nat) : State :=
  ((List.range 4).foldl (fun s k => s.setSenseList 6 k { SenseList.idle with begun := 25 })
    (State.reset.setSenseTile 6 { SenseTile.idle with running := true, cycle := cycle })).at_ 1000000
def rotating : State := (scanned 31).wr F.SNS_ADC_LIST [6, 4] 0
def injTime : State := State.reset.wr F.SNS_INJ_CTRL_SRC [6, 3] 0xA
def senseObs : SenseObs := { raw := 0, clamp := false, imon := 0, overload := false }
def aWindow (xt : Bool) (latch : Option WinLatch) : Window :=
  { tile := 6, line := 7, tone := 0, set := 0, thr := 503, job := none, shot := 0, shotNo := 0, issue := 0, w0 := 0, e := 64,
    wlen := 1, group := 0, xt := xt, nodec := false, nores := true, widx := 0, latch := latch, rangeSettle := false,
    overrange := false, sat := false, gapped := false, dead := false, raw := none, out := none, oldW := [] }
def aLatch : WinLatch := { ftw := 0, dphase := 0, shift := 0, resMode := 0, calOk := true }
def withWindow (w : Window) : State := { State.reset with rdo := { State.reset.rdo with windows := [w] } }

/-! ## Decisions and links -/

def withFabric (r : Nat) : State :=
  { State.reset with dec := { State.reset.dec with fabric := [⟨r, 0, 7, .upd (invalOf 5 1)⟩] } }
/-- Parity group 255 with member 1023, due in tick 0. -/
def groupDue : State := (State.reset.setGroup 255 { Group.idle with members := [1023], dueAt := some 0 }).at_ 1
/-- Decoder 3 in a mode with group 255, which has fired for it. -/
def decAt (mode : Nat) : State :=
  (((State.reset.wr F.SPN_SYN_DEC_CFG_MODE [3] mode).setDecoder 3 { Decoder.idle with groups := [255], mask := [255] }).setGroup
    255 { Group.idle with members := [1023], fired := some 0, waiting := [3] }).at_ 1
def lanesAt (st : Nat) : State := State.reset.wr F.BVN_LANE_STATUS_TSTATE [3, 3] st
def trainObs : TrainObs :=
  { fom := 0, ctle := 0, dfe1 := 0, dfe2 := 0, dfe3 := 0, polInv := false, laneSeen := 3, skew := 16, partnerId := 0,
    partnerPort := 0, partnerWidth := 4, partnerGood := 8, second := false, chk := 0 }
def goodTrain (second : Bool) (lane : Nat) : TrainObs :=
  let o := { trainObs with second := second, laneSeen := lane }
  { o with chk := goodChk o }
def portUp : State := State.reset.setPortState 3 pActive
def portAll : State := (portUp.wr F.BVN_PORT_STATUS_IN_USE [3] 15).wr F.BVN_PORT_STATUS_WIDTH [3] 4

/-! ## Time service and host -/

def gridOn (s : State) : State := { s with clk := { s.clk with gridValid := true, off := 0 } }
def announced : Announce :=
  { domain := 0, masterId := 0, hops := 30, freqTraced := false, inDomain := true, holdover := false, subtree := 1 }
/-- A slave of port 3, which is ACTIVE. -/
def slaveUp : State := gridOn ((portUp.wr F.TIM_TS_CFG_ROLE [] roleSlave).wr F.TIM_TS_CFG_UPSTREAM [] 3)
/-- A master with port 3 downstream. -/
def masterUp : State := gridOn ((portUp.wr F.TIM_TS_CFG_ROLE [] roleMaster).wr F.TIM_TS_CFG_DOWNSTREAM [] 8)
def exchanging (s : State) : State := s.setTs { s.ts with req := some (1, 0, 3, 0) }
def syncIn : State := slaveUp.wr F.TIM_SYNC_CFG_IN_EN [] 1
def eventOn : State := (gridOn State.reset).wr F.TIM_EVT_CTRL_EN [7] 1
/-- The CXL link is up and configuration space is ready. -/
def linked : State :=
  ((State.reset.wr F.SPN_HIF_STATUS_MODE [] 1).wr F.SPN_HIF_STATUS_LINK_UP [] 1).setHif
    { State.reset.hif with cfgReady := true, memEn := true, viralEn := true }
/-- Decoder 0 maps 4 KiB from address 4,096. -/
def mapped : State :=
  (linked.memOn).setHif
    { linked.hif with hdm0 := { base := 4096, size := 4096, committed := true, locked := false, err := false } }
def memObs : MemObs :=
  { trained := true, testOk := true, capacity := 64, ranks := 1, density := 16, down := false, badDevs := [],
    speed := 4800, width := 4, stacked := false, alike := true, changed := [] }

/-! ## Transactions and units -/

/-- One entry: EN of time event 7 is set. -/
def txnSetPayload : List Byte := [1, 0, 0, 0, 0, 0, 0, 0] ++ leBytes 4 (R.TIM_EVT_CTRL.addr [7] 0) ++ leBytes 4 1 ++ leBytes 4 1
/-- The transaction of the device's own partition, OPEN since tick 0, with that entry. -/
def devTrans : Txn := { Txn.idle with id := 64, entries := txnEntries txnSetPayload, commit := 2000 }
def State.withTxn (s : State) : State := { s with mb := { s.mb with open_ := [(64, devTrans)] } }
def State.withCommitted (s : State) : State := { s with mb := { s.mb with committed := [(64, devTrans)] } }
def askedTxn (op : Nat) (p : List Byte) : State := State.reset.busyWith (reqOf op 64 p) false
def calDone (s : State) : State := s.wr F.FLX_STATUS_CAL_VALID [6, 63] 1

/-! ## Programs and images -/

/-- Partition 63 is valid and device memory active. -/
def readyMem (s : State) : State := ((s.memOn).wr F.QMG_PART_CFG_VALID [63] 1).wr F.QMG_PART_CFG_POLICY [63] 1
/-- Region 15 of cluster 8 of tile 6, for partition 63, from address 65,534 to the last, from memory address 64. -/
def progPayload : List Byte := [6, 8, 15, 63] ++ leBytes 2 65534 ++ leBytes 2 65535 ++ leBytes 8 64
def progState : State := ((readyMem (askedOf 0x30 progPayload)).memWrite 71 [0x28]).memWrite 79 [0x28]
/-- The same region of 8,193 instructions, each RET. -/
def longPayload : List Byte := [6, 8, 15, 63] ++ leBytes 2 0 ++ leBytes 2 8192 ++ leBytes 8 0
def retWords : Nat → Nat → SMap Byte
  | _, 0 => []
  | a, n + 1 => (a + 7, 0x28) :: retWords (a + 8) n
def longState : State := { readyMem (askedOf 0x30 longPayload) with mem := retWords 0 8193 }

theorem retWords_get (n a k : Nat) :
    SMap.get 0 (retWords a n) k = if a ≤ k ∧ k < a + 8 * n ∧ (k - a) % 8 = 7 then 0x28 else 0 := by
  induction n generalizing a with
  | zero => rw [if_neg (by omega)]; rfl
  | succ n ih =>
    unfold retWords SMap.get
    split
    · rw [if_pos (by omega)]
    · rw [ih]; congr 1; exact propext (by omega)

theorem getList_getD (m : SMap Byte) (n a i : Nat) :
    (SMap.getList 0 m a n).getD i 0 = if i < n then SMap.get 0 m (a + i) else 0 := by
  induction n generalizing a i with
  | zero => rfl
  | succ n ih =>
    cases i with
    | zero => rfl
    | succ i =>
      show (SMap.getList 0 m (a + 1) n).getD i 0 = _
      rw [ih, Nat.add_right_comm, Nat.add_assoc]
      simp

theorem longState_words : longState.progWords (progAsk longPayload) = List.replicate 8193 (0x28 * 2 ^ 56) := by
  have e1 : (progAsk longPayload).src = 0 := by decide +kernel
  have e2 : progLen (progAsk longPayload) = 8193 := by decide +kernel
  unfold State.progWords wordsOf
  rw [e1, e2, List.eq_replicate_iff]
  refine ⟨by simp, ?_⟩
  intro b hb
  obtain ⟨i, hi, rfl⟩ := List.mem_map.1 hb
  rw [List.mem_range] at hi
  have g : ∀ k, (longState.memRead 0 (8 * 8193)).getD k 0 = if k < 65544 ∧ k % 8 = 7 then 0x28 else 0 := by
    intro k
    show (SMap.getList 0 (retWords 0 8193) 0 (8 * 8193)).getD k 0 = _
    rw [getList_getD, retWords_get]
    by_cases h : k < 65544 ∧ k % 8 = 7
    · rw [if_pos h, if_pos (by omega), if_pos (by omega)]
    · rw [if_neg h]
      split
      · rw [if_neg (by omega)]
      · rfl
  simp only [leAt, g]
  rw [if_neg (show ¬ (8 * i < 65544 ∧ 8 * i % 8 = 7) by omega)]
  rw [if_neg (show ¬ (8 * i + 1 < 65544 ∧ (8 * i + 1) % 8 = 7) by omega)]
  rw [if_neg (show ¬ (8 * i + 1 + 1 < 65544 ∧ (8 * i + 1 + 1) % 8 = 7) by omega)]
  rw [if_neg (show ¬ (8 * i + 1 + 1 + 1 < 65544 ∧ (8 * i + 1 + 1 + 1) % 8 = 7) by omega)]
  rw [if_neg (show ¬ (8 * i + 1 + 1 + 1 + 1 < 65544 ∧ (8 * i + 1 + 1 + 1 + 1) % 8 = 7) by omega)]
  rw [if_neg (show ¬ (8 * i + 1 + 1 + 1 + 1 + 1 < 65544 ∧ (8 * i + 1 + 1 + 1 + 1 + 1) % 8 = 7) by omega)]
  rw [if_neg (show ¬ (8 * i + 1 + 1 + 1 + 1 + 1 + 1 < 65544 ∧ (8 * i + 1 + 1 + 1 + 1 + 1 + 1) % 8 = 7) by omega)]
  rw [if_pos (show 8 * i + 1 + 1 + 1 + 1 + 1 + 1 + 1 < 65544 ∧ (8 * i + 1 + 1 + 1 + 1 + 1 + 1 + 1) % 8 = 7 by omega)]
  rfl

theorem firstReason_replicate {α : Type} (f : α → Nat) (a : α) (h : f a = 0) (n i : Nat) :
    firstReason f i (List.replicate n a) = none := by
  induction n generalizing i with
  | zero => rfl
  | succ n ih => rw [List.replicate_succ, firstReason, if_pos h, ih]

theorem longState_ok : longState.progReason (progAsk longPayload) = none := by
  unfold State.progReason
  rw [longState_words]
  have e1 : longState.clusterReason (progAsk longPayload).tile (progAsk longPayload).cluster = 0 := by decide +kernel
  have e2 : ¬ (15 < (progAsk longPayload).region ∨ 63 < (progAsk longPayload).part ∨ !longState.partValid (progAsk longPayload).part ∨
      (progAsk longPayload).last < (progAsk longPayload).base ∨ (progAsk longPayload).src % 8 ≠ 0) := by decide +kernel
  have e3 : ¬ (longState.regionUsed (progAsk longPayload).tile (progAsk longPayload).cluster (progAsk longPayload).region = true ∨
      longState.regionClash (progAsk longPayload) = true) := by decide +kernel
  have e4 : longState.srcOk (progAsk longPayload).src (8 * progLen (progAsk longPayload)) = true := by decide +kernel
  have e5 : longState.gateReason (9 * (progAsk longPayload).tile + (progAsk longPayload).cluster) (progAsk longPayload).base
      (progAsk longPayload).last (BitVec.ofNat 64 (0x28 * 2 ^ 56)) = 0 := by decide +kernel
  have e6 := firstReason_replicate (fun w => longState.gateReason (9 * (progAsk longPayload).tile + (progAsk longPayload).cluster)
    (progAsk longPayload).base (progAsk longPayload).last (BitVec.ofNat 64 w)) (0x28 * 2 ^ 56) e5 8193 0
  generalize List.replicate 8193 (0x28 * 2 ^ 56) = l at e6 ⊢
  simp only [e1, e2, e3, e4, ne_eq, not_true_eq_false, if_false, Bool.not_true, Bool.false_eq_true]
  exact e6

def nanoPayload : List Byte := [6, 8] ++ leBytes 2 4095 ++ leBytes 2 1 ++ leBytes 8 64
def nanoState : State := (askedOf 0x35 nanoPayload).memOn
/-- A swap of cluster 8 of tile 6 to bank 0 waits for a thread that has just left bank 1. -/
def swapDone : State :=
  let s := workingOn 0x36 [6, 8]
  { s with stores := { s.stores with nanoSwap := [(62, false, 0, some 0)] } }
/-- A user image of one record: the word NOP at the first user address. -/
def userImage : List Byte :=
  leBytes 4 0x43554D45 ++ leBytes 2 1 ++ leBytes 2 2 ++ leBytes 4 1 ++ leBytes 4 7 ++ leBytes 4 0 ++ leBytes 4 0 ++ leBytes 2 0x100 ++
    leBytes 1 0x21 ++ leBytes 1 0 ++ leBytes 4 1 ++ leBytes 4 0x3FFF ++ leBytes 4 0xE0000000
def userPayload : List Byte := [0x40] ++ leBytes 8 0 ++ leBytes 4 40
def userState : State := ((askedOf 0x32 userPayload).memOn).memWrite 0 userImage
def withStage (s : State) (u : UStage) : State := { s with stores := { s.stores with ustage := some u } }
def aStage : UStage := { UStage.idle with clusters := [62], user := true, targets := [(62, true)] }
/-- A vendor image of one record, and a PATCH_STAGE that names it. -/
def vendorImage : List Byte :=
  leBytes 4 0x43554D45 ++ leBytes 2 1 ++ leBytes 2 1 ++ leBytes 4 1 ++ leBytes 4 7 ++ leBytes 4 0 ++ leBytes 4 0 ++ leBytes 2 0x100 ++
    leBytes 1 0x21 ++ leBytes 1 0 ++ leBytes 4 1 ++ leBytes 4 0x100 ++ leBytes 4 0xE0000000 ++ List.replicate 96 0
def patchPayload : List Byte := leBytes 8 0 ++ leBytes 4 136
def patchState : State := ((askedOf 0x31 patchPayload).memOn).memWrite 0 vendorImage
def patchSig : Bool := Config.microSigOk (patchState.regWord R.SPN_FW_VER [] 0).toNat (imageOf true (patchState.memRead 0 136)).bytes
theorem patchState_ok (h : patchSig = true) :
    patchState.stageReason 0 true 0x7F (leAt patchPayload 0 8) (leAt patchPayload 8 4) = none := by
  have e1 : leAt patchPayload 0 8 = 0 := by decide +kernel
  have e2 : leAt patchPayload 8 4 = 136 := by decide +kernel
  have e3 : patchState.srcOk 0 136 = true := by decide +kernel
  have e4 : (imageOf true (patchState.memRead 0 136)).fits = true := by decide +kernel
  have e5 : badRecord true 0 none (imageOf true (patchState.memRead 0 136)).recs = none := by decide +kernel
  have e6 : Config.microSigOk (patchState.regWord R.SPN_FW_VER [] 0).toNat (imageOf true (patchState.memRead 0 136)).bytes = true := h
  have e7 : ¬ (imageOf true (patchState.memRead 0 136)).svn < patchState.stores.ucodeSvnMin := by decide +kernel
  have e8 : (imageOf true (patchState.memRead 0 136)).baseId = patchState.rd F.SPN_MCODE_ID_IMAGE_ID [] := by decide +kernel
  have e9 : (imageOf true (patchState.memRead 0 136)).stepping = patchState.rd F.SPN_ID_STEPPING [] := by decide +kernel
  have e10 : patchState.staging 0 = false := by decide +kernel
  have e11 : ((patchState.imageClusters (imageOf true (patchState.memRead 0 136)) 0x7F).any
      (fun gc => (patchState.shadowMicro gc).isNone)) = false := by decide +kernel
  unfold State.stageReason
  simp only [e1, e2, e3, e4, e5, e6, e7, e8, e9, e10, e11, Bool.not_true, Bool.false_eq_true, if_false, ne_eq, not_true_eq_false,
    and_false, Bool.and_false, Bool.false_and, Bool.or_self]

/-! ## Partitions, plans and settings -/

def qpPayload : List Byte := leBytes 2 4095 ++ [63] ++ leBytes 8 1024 ++ leBytes 8 512 ++ leBytes 2 16 ++ leBytes 2 16 ++ leBytes 2 2047
/-- A plan of one thread, the last of the part, entering the last address of region 15. -/
def planImage : List Byte :=
  leBytes 4 0x4E414C50 ++ leBytes 2 1 ++ List.replicate 26 0 ++ [6, 8, 7, 15] ++ List.replicate 8 255 ++ leBytes 4 0
def planPayload : List Byte := leBytes 2 1023 ++ [63] ++ leBytes 8 64 ++ leBytes 4 48
def planState : State :=
  ((((((havePart (askedOf 0x46 planPayload)).memOn).memWrite 64 planImage).wr F.CLU_REGION_VALID [6, 8, 15] 1).wr F.CLU_REGION_BASE [6, 8, 15]
    65534).wr F.CLU_REGION_LAST [6, 8, 15] 65535).wr F.CLU_REGION_PART [6, 8, 15] 63
/-- Port 3's partner is in the same time domain. -/
def inDomain (s : State) : State :=
  (s.setTs { s.ts with heard := [(3, { ann := announced, tick := 0 })] }).wr F.TIM_TS_STATUS_IN_DOMAIN [] 1
def decPayload : List Byte := [3, 3, 63, 0] ++ leBytes 4 0 ++ [3] ++ leBytes 2 1 ++ List.replicate 18 0 ++ List.replicate 31 0 ++ [128]
def timePayload : List Byte := [0] ++ leBytes 4 0 ++ leBytes 4 9 ++ [3, 7, 20, 1] ++ leBytes 8 5
def calPayload : List Byte := [0, 1, 0, 0, 1, 6, 63, 0, 1, 0] ++ List.replicate 34 0

/-! ## Queues and jobs -/

def State.noteJob (s : State) (b : Job) : State := s.setJob 1023 b
/-- Pair 4095 is valid, with rings of 16 entries and one entry to fetch; its completions are as given. -/
def pairUp (done : List Done) : State :=
  (((State.reset.wr F.QMG_QP_VALID [4095] 1).wr F.QMG_QP_CFG_PART [4095] 63).wr F.SPN_HIF_STATUS_LINK_UP [] 1).setQp 4095
    { Qp.idle with sqLen := 16, cqLen := 16, sqTail := 1, done := done }
/-- A CAPTURE entry for tile 6 with 64 bytes of results. -/
def capEntry : List Byte := [2, 0, 0, 0] ++ leBytes 4 7 ++ List.replicate 12 0 ++ [6] ++ List.replicate 19 0 ++ leBytes 4 64 ++ List.replicate 20 0
def runJob : Job := { Job.idle with kind := 1, part := 63, begun := true, nextAt := some 0, shots := 1 }
/-- Partition 63 runs with CONTINUITY and holds results beyond its quota. -/
def noQuota : State := (State.reset.wr F.QMG_PART_CFG_POLICY [63] 1).setPart 63 { Part.idle with inUse := 1 }
/-- The head moves past the entry, and the job it describes. -/
def taken (s : State) : State := { s.wr F.QMG_QP_SQ_HEAD [4095] 1 with qm := { s.qm with rr := 4095 } }
def capJob (s : State) : Job := jobOf capEntry 4095 ((taken s).rd F.QMG_QP_CFG_PART [4095]) (taken s).now 1

/-! ## Calibration and temperature -/

def biasUnit : UnitDesc := ⟨5, 6, 63⟩
/-- What calibration knows of the last bias output. -/
def knowing (k : CalUnit) : State := State.reset.setCalU biasUnit k
def gapWork (n : Nat) (t : Option Nat) : CalUnit := { CalUnit.idle with due := some 0, work := .gap n, stepFrom := t }
/-- A request wants some steps of that output. -/
def wanting (steps : Nat) : State :=
  { State.reset with cal :=
    { State.reset.cal with
      reqs := [{ mbx := some 0, job := none, scope := 0, steps := steps, hold := false, units := [biasUnit], todo := [(biasUnit, steps)],
                 done := 0, failed := 0, firstFail := 0xFFFF, since := 0, reason := 0 }] } }
def booting : State := { State.reset with cal := { State.reset.cal with boot := true } }
/-- What is known of the last tile sensor. -/
def sensing (v : Sensor) : State := State.reset.setSensor 89 v

/-! ## Faults and supplies -/

def withFlt (f : Flt) : State := { State.reset with flt := f }
def fwUp : State := State.reset.wr F.MBX_GLOBAL_FW_READY [] 1
def railsAt (good : Nat) (perst : Bool) : State :=
  (State.reset.wr F.SPN_RAIL_STATUS_GOOD [] good).withBoot { State.reset.boot with perstN := perst }
def okSlot : SlotObs := { readOk := true, hdrOk := true, sigOk := true, selfTest := true, version := 0x10000, svn := 65535, stepping := 0x21 }
def bootRom : State := State.reset.withBoot { State.reset.boot with started := true, accepted := false }
def aLog : LogRec :=
  { seq := 0, kind := 8, sev := 0, bit := 0, flags := 0, block := 0x700, unit := 0, desc := 0xFFFFFFFF, time := 0, boot := 0, repeat_ := 0,
    data := [] }

/-! ## Witnesses: for every statement, states and operands that meet the hypotheses of each of its clauses -/

theorem witness_FrontCommandRuns :
    ∃ (c : Instr) (rest : List Instr) (s : State), s.pending = c :: rest :=
  ⟨.pllUnlock, [.bootStart], { State.reset with pending := [.pllUnlock, .bootStart] }, by decide +kernel⟩

theorem witness_EmptyQueueIdles :
    ∃ s : State, s.pending = [] :=
  ⟨State.reset, by decide +kernel⟩

theorem witness_StepKeepsInvariant :
    ∃ s t : State, s.Inv ∧ step s = .next t :=
  ⟨State.reset, State.reset, by decide +kernel, rfl⟩

theorem witness_DeviceMemoryFrame :
    ∃ (c : Instr) (s t : State), mayStore c = false ∧ exec c s = .next t :=
  ⟨.getInfo 64, State.reset, State.reset, by decide +kernel, rfl⟩

theorem witness_ModeFrame :
    ∃ (c : Instr) (s t : State), mayChangeMode c = false ∧ exec c s = .next t :=
  ⟨.getInfo 64, State.reset, State.reset, by decide +kernel, rfl⟩

theorem witness_BadHeaderIsRefused :
    ∃ (c : Instr) (n op : Nat) (txn : Bool) (s : State), mailboxOf c = some (n, op, txn) ∧ s.asks n op = true ∧
      headerOk (s.mbx n).req txn = false ∧ s.ts.cal = none ∧ s.cal.refReq = none :=
  ⟨.getInfo 0, 0, 1, false, State.reset.busyWith (reqOf 1 7 []) false, by decide +kernel, by decide +kernel,
    by decide +kernel, by decide +kernel, by decide +kernel⟩

theorem witness_UnaskedCommandDoesNothing :
    ∃ (c : Instr) (n op : Nat) (txn : Bool) (s : State), mailboxOf c = some (n, op, txn) ∧ s.asks n op = false :=
  ⟨.getInfo 63, 63, 1, false, State.reset, by decide +kernel, by decide +kernel⟩

theorem witness_FinalResponseLeavesDone :
    ∃ (n status : Nat) (k : _), n < 64 ∧ status ≠ stProgress ∧ k ≠ n :=
  ⟨63, 0, 62, by decide +kernel, by decide +kernel, by decide +kernel⟩

theorem witness_DoorbellTakesRequest :
    (∃ (n : Nat) (req : MbxReq) (s u : State), n < 64 ∧ s.mbxState n ≠ mBusy ∧ s.mbxState n ≠ mOffline ∧ u =
      s.regionWrite n 0 (reqBytes req) ∧ (∀ r, (u.mbx n).record = some r → ¬(r.1 = (u.mbx n).request.opcode ∧ r.2.1 =
      (u.mbx n).request.cmdId)) ∧ (u.mbx n).request.opcode ∈ opcodes) ∧
    (∃ (n : Nat) (req : MbxReq) (s u : State) (r : MbxResp), n < 64 ∧ s.mbxState n ≠ mBusy ∧ s.mbxState n ≠ mOffline ∧
      u = s.regionWrite n 0 (reqBytes req) ∧ (u.mbx n).record = some ((u.mbx n).request.opcode, (u.mbx
      n).request.cmdId, r) ∧ (u.mbx n).request.flags.getLsbD 0 = false) ∧
    (∃ (n : Nat) (s : State), n < 64 ∧ s.mbxState n = mBusy) ∧
    (∃ (n : Nat) (s : State), n < 64 ∧ s.mbxState n = mOffline) :=
  ⟨⟨63, reqOf 0x41 0 [0], State.reset.wr F.MBX_STATUS_STATE [63] mIdleBox, _, by decide +kernel, by decide +kernel,
     by decide +kernel, rfl, fun r h => absurd (show none = some r from h) (by simp), by decide +kernel⟩,
   ⟨0, reqOf 1 0 [], (State.reset.wr F.MBX_STATUS_STATE [0] mDone).setMbx 0
     { Mbx.idle with record := some (1, 1, MbxResp.idle) }, _, MbxResp.idle, by decide +kernel, by decide +kernel,
     by decide +kernel, rfl, by decide +kernel, by decide +kernel⟩,
   ⟨63, State.reset.wr F.MBX_STATUS_STATE [63] mBusy, by decide +kernel, by decide +kernel⟩,
   ⟨0, State.reset, by decide +kernel, by decide +kernel⟩⟩

theorem witness_InformationCommandsAnswer :
    (∃ (n : Nat) (s : State) (p : List Byte), s.asked n 0x01 false (bytesOk 0 []) p) ∧
    (∃ (n : Nat) (s : State) (p : List Byte), s.asked n 0x93 false (bytesOk 8 [5, 6, 7]) p ∧ 1 ≤ leAt p 4 1 ∧ leAt p 4
      1 ≤ 31 ∧ leAt p 0 4 ≠ 0xFFFFFFFF) ∧
    (∃ (n : Nat) (s : State) (p : List Byte), s.asked n 0xA0 false (bytesOk 0 []) p) ∧
    (∃ (n : Nat) (s : State) (p : List Byte), s.asked n 0x14 false (bytesOk 4 [1, 2, 3]) p ∧ s.txnPartOk (leAt p 0 1)
      = true ∧ s.txnInTime (leAt p 0 1)) ∧
    (∃ (n : Nat) (s : State) (p : List Byte), s.asked n 0x55 false (bytesOk 1 []) p ∧ leAt p 0 1 ≤ 3) ∧
    (∃ (n : Nat) (s : State) (p : List Byte), s.asked n 0x72 false (bytesOk 4 []) p ∧ converterKind (unitOfWord (leAt
      p 0 4)).kind = true ∧ (unitOfWord (leAt p 0 4)).valid = true ∧ (unitOfWord (leAt p 0 4)).present s.variant =
      true) :=
  ⟨⟨0, askedOf 0x01 [], [], by decide +kernel⟩,
   ⟨0, askedOf 0x93 [7, 0, 0, 0, 31, 0, 0, 0], [7, 0, 0, 0, 31, 0, 0, 0], by decide +kernel, by decide +kernel,
     by decide +kernel, by decide +kernel⟩,
   ⟨0, askedOf 0xA0 [], [], by decide +kernel⟩,
   ⟨0, askedOf 0x14 [64, 0, 0, 0], [64, 0, 0, 0], by decide +kernel, by decide +kernel, by decide +kernel⟩,
   ⟨0, askedOf 0x55 [3], [3], by decide +kernel, by decide +kernel⟩,
   ⟨0, askedOf 0x72 [1, 0, 63, 0], [1, 0, 63, 0], by decide +kernel, by decide +kernel, by decide +kernel,
     by decide +kernel⟩⟩

theorem witness_SafeModeCommands :
    (∃ (n : Nat) (s : State) (p : List Byte), s.asked n 0x03 false (bytesOk 0 []) p ∧ s.mode ≠ mReset ∧ s.mode ≠
      mSafe) ∧
    (∃ (n : Nat) (s : State) (p : List Byte), s.asked n 0x03 false (bytesOk 0 []) p ∧ s.mode = mSafe) ∧
    (∃ (n : Nat) (s : State) (p : List Byte), s.asked n 0x02 false (bytesOk 0 []) p ∧ s.mode = mSafe ∧ s.viral = false
      ∧ s.shutdown = false ∧ s.rdB F.THM_STATUS_DWELL [] = false ∧ s.anyWarm = false ∧ s.rdB F.MBX_GLOBAL_IDLE_READY
      [] = true ∧ (s.rdB F.TIM_REF_CTRL_REQUIRE_REF [] = true → s.rd F.TIM_REF_STATUS_STATE [] = 4)) ∧
    (∃ s : State, s.boot.resuming.isSome = true ∧ s.mode = mSafe) :=
  ⟨⟨0, (askedOf 0x03 []).modeOf mRun, [], by decide +kernel, by decide +kernel, by decide +kernel⟩,
   ⟨0, (askedOf 0x03 []).modeOf mSafe, [], by decide +kernel, by decide +kernel⟩,
   ⟨0, ((askedOf 0x02 []).modeOf mSafe).wr F.MBX_GLOBAL_IDLE_READY [] 1, [], by decide +kernel, by decide +kernel,
     by decide +kernel, by decide +kernel, by decide +kernel, by decide +kernel, by decide +kernel, by decide +kernel⟩,
   ⟨(State.reset.modeOf mSafe).withBoot { State.reset.boot with resuming := some 0 }, by decide +kernel,
     by decide +kernel⟩⟩

theorem witness_FirmwareCommands :
    ((Config.fwSigOk (fwAsked.memRead 0 4096) = true → ∃ s p, State.asked s 0 0x90 false (bytesOk 12 []) p ∧
      s.fwReason (leAt p 0 8) (leAt p 8 4) = 0)) ∧
    (∃ (n : Nat) (s : State) (p : List Byte), s.asked n 0x91 false (bytesOk 4 [1, 2, 3]) p ∧ leAt p 0 1 ≤ 1 ∧ s.rdB
      F.SPN_BOOT_STATUS_STAGED [] = true ∧ s.rdB F.MBX_GLOBAL_STANDBY_READY [] = true ∧ s.boot.staging = none) ∧
    (∃ (n : Nat) (s : State) (p : List Byte), s.asked n 0x92 false (bytesOk 0 []) p ∧ s.rdB F.MBX_GLOBAL_STANDBY_READY
      [] = true) :=
  ⟨fun h => ⟨fwAsked, fwPayload, by decide +kernel, fwAsked_ok h⟩,
   ⟨0, ((askedOf 0x91 [1, 0, 0, 0]).wr F.SPN_BOOT_STATUS_STAGED [] 1).wr F.MBX_GLOBAL_STANDBY_READY [] 1, [1, 0, 0,
     0], by decide +kernel, by decide +kernel, by decide +kernel, by decide +kernel, by decide +kernel⟩,
   ⟨0, (askedOf 0x92 []).wr F.MBX_GLOBAL_STANDBY_READY [] 1, [], by decide +kernel, by decide +kernel⟩⟩

theorem witness_HostCopiesMoveBytes :
    (∃ (n : Nat) (s : State) (p : List Byte), s.asked n 0x80 false (bytesOk 20 []) p ∧ s.copyReason (copyAsk true p) =
      0) ∧
    (∃ (n : Nat) (s : State) (p : List Byte), s.asked n 0x81 false (bytesOk 20 []) p ∧ s.copyReason (copyAsk false p)
      = 0) ∧
    (∃ (n : Nat) (s : State) (o : FinalObs) (a : _), n < 64 ∧ s.mbxState n = mBusy ∧ (s.mbx n).inProg = true ∧ (s.mbx
      n).req.opcode = 0x80 ∧ o.ok = true ∧ (copyAsk true (s.mbx n).req.payload).len ≤ o.data.length ∧ (a < (copyAsk
      true (s.mbx n).req.payload).dev ∨ (copyAsk true (s.mbx n).req.payload).dev + (copyAsk true (s.mbx
      n).req.payload).len ≤ a)) ∧
    (∃ (n : Nat) (s : State) (o : FinalObs), n < 64 ∧ s.mbxState n = mBusy ∧ (s.mbx n).inProg = true ∧ (s.mbx
      n).req.opcode = 0x81 ∧ o.ok = true ∧ 0 < (copyAsk false (s.mbx n).req.payload).len) :=
  ⟨⟨0, (askedOf 0x80 (copyBytes 0 0x40000000)).memOn, copyBytes 0 0x40000000, by decide +kernel, by decide +kernel⟩,
   ⟨0, (askedOf 0x81 (copyBytes 0x40000000 0)).memOn, copyBytes 0x40000000 0, by decide +kernel, by decide +kernel⟩,
   ⟨0, workingOn 0x80 (copyBytes 0 64), finalObs, 128, by decide +kernel, by decide +kernel, by decide +kernel,
     by decide +kernel, by decide +kernel, by decide +kernel, by decide +kernel⟩,
   ⟨0, workingOn 0x81 (copyBytes 64 0), finalObs, by decide +kernel, by decide +kernel, by decide +kernel,
     by decide +kernel, by decide +kernel, by decide +kernel⟩⟩

theorem witness_GridTimeReads :
    (R.SPN_ID.addr [] 0 ≠ R.TIM_NOW_HI.addr [] 0) ∧
    (∃ s : State, s.clk.gridValid = true) :=
  ⟨by decide +kernel,
   ⟨{ State.reset with clk := { State.reset.clk with gridValid := true } }, by decide +kernel⟩⟩

theorem witness_ReferenceMachine :
    (∃ s : State, s.rdB F.TIM_REF_CTRL_REF_EN [] = true ∧ (s.refState = rFree ∨ s.refState = rHold)) ∧
    (∃ (s : State) (freq : Nat), s.refState = rQualify ∧ s.clk.refFail = none ∧ s.clk.refSince + 15625000 ≤ s.now ∧
      ((freq : Int) - s.refNominal).natAbs * 50000 ≤ s.refNominal) ∧
    (∃ (s : State) (freq : Nat), s.refState = rQualify ∧ s.clk.refFail = none ∧ s.clk.refSince + 15625000 ≤ s.now ∧
      s.refNominal < ((freq : Int) - s.refNominal).natAbs * 50000) ∧
    (∃ now band : Nat, band ≤ now) ∧
    (∃ (s : State) (t : Nat), s.refState = rQualify ∧ s.clk.refFail = some t ∧ t + 156250000 ≤ s.now) ∧
    (∃ (s : State) (t : Nat), s.refState = rPull ∧ s.clk.refInBand = some t ∧ t + 156250000 ≤ s.now) ∧
    (∃ s : State, (s.refState = rLocked ∨ s.refState = rPull)) ∧
    (∃ (s : State) (v : Word), (s.mode = mSafe ∨ s.mode = mReset ∧ (s.regWord R.TIM_REF_CTRL [] 0).toNat % 4 ≠ v.toNat
      % 4)) :=
  ⟨⟨State.reset.wr F.TIM_REF_CTRL_REF_EN [] 1, by decide +kernel, by decide +kernel⟩,
   ⟨(State.reset.wr F.TIM_REF_STATUS_STATE [] rQualify).at_ 15625000, 1000020000, by decide +kernel,
     by decide +kernel, by decide +kernel, by decide +kernel⟩,
   ⟨(State.reset.wr F.TIM_REF_STATUS_STATE [] rQualify).at_ 15625000, 1000020001, by decide +kernel,
     by decide +kernel, by decide +kernel, by decide +kernel⟩,
   ⟨5, 5, by decide +kernel⟩,
   ⟨(({ State.reset with clk := { State.reset.clk with refFail := some 0 } } : State).wr F.TIM_REF_STATUS_STATE []
     rQualify).at_ 156250000, 0, by decide +kernel, by decide +kernel, by decide +kernel⟩,
   ⟨(({ State.reset with clk := { State.reset.clk with refInBand := some 0 } } : State).wr F.TIM_REF_STATUS_STATE []
     rPull).at_ 156250000, 0, by decide +kernel, by decide +kernel, by decide +kernel⟩,
   ⟨State.reset.wr F.TIM_REF_STATUS_STATE [] rLocked, by decide +kernel⟩,
   ⟨State.reset, 3, by decide +kernel⟩⟩

theorem witness_MainPll :
    (∃ s : State, s.boot.started = true ∧ s.rdB F.TIM_PLL_STATUS_LOCKED [] = false) ∧
    (∃ s : State, s.rdB F.TIM_PLL_STATUS_LOCKED [] = true) ∧
    (∃ (s : State) (tile : Nat) (n : BitVec 16), tile < s.variant.tiles ∧ s.rdB F.TIM_PLL_STATUS_TILES_ALIGNED [] =
      true ∧ s.grid % 1024 = 0 ∧ n.toNat ≠ s.grid % 65536) ∧
    (∃ (s : State) (n : BitVec 16), (n.toNat = s.grid % 65536 ∨ s.grid % 1024 ≠ 0)) :=
  ⟨⟨State.reset.withBoot { State.reset.boot with started := true }, by decide +kernel, by decide +kernel⟩,
   ⟨State.reset.wr F.TIM_PLL_STATUS_LOCKED [] 1, by decide +kernel⟩,
   ⟨State.reset.wr F.TIM_PLL_STATUS_TILES_ALIGNED [] 1, 6, 1, by decide +kernel, by decide +kernel, by decide +kernel,
     by decide +kernel⟩,
   ⟨State.reset, 0, by decide +kernel⟩⟩

theorem witness_BoundaryAppliesStaged :
    (∃ (s : State) (part : Nat) (t : Txn), s.commTxn part = some t ∧ t.applied = false ∧ t.commit = s.now + 1) ∧
    (∃ (s : State) (a e : Nat) (v m : Word) (r : Reg) (ix : List Nat) (w : Nat), s.staged = [⟨.word a v m, e, false⟩]
      ∧ e < s.now ∧ findReg a regTable = some (r, ix, w)) ∧
    (∃ s : State, s.mb.committed.all (fun e => e.2.applied || decide (s.now < e.2.commit)) = true) ∧
    (∃ (s : State) (p : Nat) (t : Txn), s.mb.committed = [(p, t)] ∧ t.applied = false ∧ t.commit ≤ s.now) ∧
    (∃ (s : State) (d : _), d ∈ s.dueTicks ∧ s.now < d) ∧
    (∃ (s : State) (addr : Nat) (c : Couple) (b : FltBlk) (bit unit : Nat), c ∈ s.couples ∧ c.addr = addr ∧ c.entry +
      156250 ≤ s.now ∧ coupleFault addr = some (b, bit, unit)) ∧
    (∃ (s : State) (addr : Nat), (∀ c ∈ s.couples, c.addr = addr → s.now < c.entry + 156250)) :=
  ⟨⟨({ State.reset with mb := { State.reset.mb with committed := [(64, aTxn 1)] } } : State), 64, aTxn 1,
     by decide +kernel, by decide +kernel, by decide +kernel⟩,
   ⟨({ State.reset with staged := [⟨.word (R.TIM_EVT_CTRL.addr [7] 0) 1 1, 0, false⟩] } : State).at_ 1, _, 0, 1, 1,
     R.TIM_EVT_CTRL, [7], 0, rfl, by decide +kernel, by decide +kernel⟩,
   ⟨({ State.reset with mb := { State.reset.mb with committed := [(64, aTxn 5)] } } : State), by decide +kernel⟩,
   ⟨({ State.reset with mb := { State.reset.mb with committed := [(64, aTxn 1)] } } : State).at_ 1, 64, aTxn 1,
     by decide +kernel, by decide +kernel, by decide +kernel⟩,
   ⟨({ State.reset with mb := { State.reset.mb with committed := [(64, aTxn 5)] } } : State), 5, by decide +kernel,
     by decide +kernel⟩,
   ⟨({ State.reset with couples := [drvCouple] } : State).at_ 156250, drvCouple.addr, drvCouple, .tile 6 63, 6, 0,
     by decide +kernel, by decide +kernel, by decide +kernel, by decide +kernel⟩,
   ⟨{ State.reset with couples := [drvCouple] }, drvCouple.addr, by decide +kernel⟩⟩

theorem witness_RegisterWrites :
    (∃ a : Nat, a % 4 = 0 ∧ a < 0x100000 ∧ findReg a regTable = none) ∧
    (∃ (s : State) (a : Nat), a % 4 = 0 ∧ 0x1000000 ≤ a ∧ a < 0x8000000 ∧ s.variant.tiles ≤ a / 0x1000000 - 1) ∧
    (∃ a len : Nat, 0 < len ∧ a % 4 + len < 4) ∧
    (∃ (a : Nat) (r : Reg) (ix : List Nat) (w : Nat), a % 4 = 0 ∧ a < 0x100000 ∧ findReg a regTable = some (r, ix, w)) ∧
    (∃ (s : State) (a : Nat) (r : Reg) (ix : List Nat) (w : Nat), a % 4 = 0 ∧ 0x1000000 ≤ a ∧ a < 0x8000000 ∧ a %
      0x1000000 < 0x300000 ∧ s.tileReached (a / 0x1000000 - 1) = true ∧ findReg a regTable = some (r, ix, w) ∧ takeMsg
      (a / 0x1000000 - 1) s.dec.fabric = none) ∧
    (∃ (s : State) (a : Nat), a % 4 = 0 ∧ 0x1000000 ≤ a ∧ a < 0x8000000 ∧ s.tileReached (a / 0x1000000 - 1) = true ∧
      (takeMsg (a / 0x1000000 - 1) s.dec.fabric).isSome = true) ∧
    (∃ (s : State) (t c : Nat) (r : Reg), s.canonical ∧ r ∈ [R.DRV_GAIN, R.DRV_OFFSET, R.FLX_GAIN, R.FLX_LEVEL] ∧ t <
      7 ∧ c < 64) ∧
    (∃ (s : State) (t c : Nat) (v : Word) (r : Reg), r ∈ [R.DRV_DELAY, R.FLX_DELAY, R.BIA_DELAY] ∧ t < 7 ∧ c < 64 ∧
      s.changesRl r [t, c] 0 v.toNat = true ∧ s.running r [t, c] = true) :=
  ⟨⟨0xFFFFC, by decide +kernel, by decide +kernel, by decide +kernel⟩,
   ⟨{ State.reset with variant := .sqc7064 }, 0x7FFFFFC, by decide +kernel, by decide +kernel, by decide +kernel,
     by decide +kernel⟩,
   ⟨0, 3, by decide +kernel, by decide +kernel⟩,
   ⟨R.SPN_MODE.addr [] 0, R.SPN_MODE, [], 0, by decide +kernel, by decide +kernel, by decide +kernel⟩,
   ⟨State.reset, R.DRV_GAIN.addr [6, 63] 0, R.DRV_GAIN, [6, 63], 0, by decide +kernel, by decide +kernel,
     by decide +kernel, by decide +kernel, by decide +kernel, by decide +kernel, by decide +kernel⟩,
   ⟨withFabric 6, 0x7000000, by decide +kernel, by decide +kernel, by decide +kernel, by decide +kernel,
     by decide +kernel⟩,
   ⟨State.reset, 6, 63, R.FLX_LEVEL, by decide +kernel, by decide +kernel, by decide +kernel, by decide +kernel⟩,
   ⟨drvRunning, 6, 63, 1, R.DRV_DELAY, by decide +kernel, by decide +kernel, by decide +kernel, by decide +kernel,
     by decide +kernel⟩⟩

theorem witness_GateIssueRules :
    (∃ (c : Instr) (g op k : Nat) (ev : FetchEv) (cost : GateWord → Nat) (s : State) (w : GateWord), gateOf c = some
      (g, ev, op, cost) ∧ w = s.gateAt (thrGc g) (s.thr g).pc ∧ k = (if s.dispatchFails g ev w then 0 else cost w) ∧
      ((s.thr g).issues s.now = false ∨ opcode w ≠ op)) ∧
    (∃ (c : Instr) (g op k : Nat) (ev : FetchEv) (cost : GateWord → Nat) (s : State) (w : GateWord), gateOf c = some
      (g, ev, op, cost) ∧ w = s.gateAt (thrGc g) (s.thr g).pc ∧ k = (if s.dispatchFails g ev w then 0 else cost w) ∧
      (s.thr g).issues s.now = true ∧ opcode w = op ∧ (s.thr g).inRegion = false) ∧
    (∃ (c : Instr) (g op k : Nat) (ev : FetchEv) (cost : GateWord → Nat) (s : State) (w : GateWord), gateOf c = some
      (g, ev, op, cost) ∧ w = s.gateAt (thrGc g) (s.thr g).pc ∧ k = (if s.dispatchFails g ev w then 0 else cost w) ∧
      (s.thr g).issues s.now = true ∧ opcode w = op ∧ (s.thr g).inRegion = true ∧ 8 < (s.thr g).used + k) ∧
    (∃ (c : Instr) (g op k : Nat) (ev : FetchEv) (cost : GateWord → Nat) (s : State) (w : GateWord) (e : Ending),
      gateOf c = some (g, ev, op, cost) ∧ w = s.gateAt (thrGc g) (s.thr g).pc ∧ k = (if s.dispatchFails g ev w then 0
      else cost w) ∧ s.issuing g op k w ∧ s.fetchFails g ev w = some e) :=
  ⟨⟨.ret ⟨503, .ok⟩, 503, 0x0A, 2, .ok, fun _ => 2, State.reset, _, rfl, rfl, (by decide +kernel), by decide +kernel⟩,
   ⟨.ret ⟨503, .ok⟩, 503, 0x0A, 2, .ok, fun _ => 2, atWord { aThread with last := 0 } (gw 0x0A []), _, rfl, rfl,
     by decide +kernel, by decide +kernel, by decide +kernel, by decide +kernel⟩,
   ⟨.ret ⟨503, .ok⟩, 503, 0x0A, 2, .ok, fun _ => 2, issuingAt 7 (gw 0x0A []), _, rfl, rfl, by decide +kernel,
     by decide +kernel, by decide +kernel, by decide +kernel, by decide +kernel⟩,
   ⟨.ret ⟨503, .microParity 0x280⟩, 503, 0x0A, 2, .microParity 0x280, fun _ => 2, issuingAt 6 (gw 0x0A []), _, .store
     .micro 0x280, rfl, rfl, by decide +kernel, by decide +kernel, by decide +kernel⟩⟩

theorem witness_FrameAdditions :
    (∃ (g : Nat) (ev : FetchEv) (s : State) (w : GateWord) (k : _), s.runs g ev 0x02 2 w ∧ opr w 53 1 = 0 ∧ (s.thr
      g).pc + 1 ≤ (s.thr g).last ∧ k ≠ opr w 55 3) ∧
    (∃ (g : Nat) (ev : FetchEv) (s : State) (w : GateWord) (h : _), s.runs g ev 0x02 2 w ∧ opr w 53 1 = 0 ∧ (s.thr
      g).pc + 1 ≤ (s.thr g).last ∧ h ≠ g) ∧
    (∃ (g : Nat) (ev : FetchEv) (s : State) (w : GateWord) (k : _), s.runs g ev 0x02 2 w ∧ opr w 53 1 = 1 ∧ (s.thr
      g).pc + 1 ≤ (s.thr g).last ∧ k ≠ opr w 55 3) ∧
    (∃ (g : Nat) (ev : FetchEv) (s : State) (w : GateWord) (h : _), s.runs g ev 0x02 2 w ∧ opr w 53 1 = 1 ∧ (s.thr
      g).pc + 1 ≤ (s.thr g).last ∧ h ≠ g) :=
  ⟨⟨503, .ok, issuingAt 6 (gw 0x02 [(55, 7)]), gw 0x02 [(55, 7)], 0, by decide +kernel, by decide +kernel,
     by decide +kernel, by decide +kernel⟩,
   ⟨503, .ok, issuingAt 6 (gw 0x02 [(55, 7)]), gw 0x02 [(55, 7)], 502, by decide +kernel, by decide +kernel,
     by decide +kernel, by decide +kernel⟩,
   ⟨503, .ok, issuingAt 6 (gw 0x02 [(53, 1)]), gw 0x02 [(53, 1)], 7, by decide +kernel, by decide +kernel,
     by decide +kernel, by decide +kernel⟩,
   ⟨503, .ok, issuingAt 6 (gw 0x02 [(53, 1)]), gw 0x02 [(53, 1)], 502, by decide +kernel, by decide +kernel,
     by decide +kernel, by decide +kernel⟩⟩

theorem witness_GateInstructionResults :
    (∃ (g : Nat) (ev : FetchEv) (s : State) (w : GateWord), s.runs g ev 0x03 2 w) ∧
    (∃ (g : Nat) (ev : FetchEv) (s : State) (w : GateWord), s.runs g ev 0x0B 2 w ∧ opr w 54 2 = 0) ∧
    (∃ (g : Nat) (ev : FetchEv) (s : State) (w : GateWord), s.runs g ev 0x0B 2 w ∧ opr w 54 2 = 1 ∧ (s.thr g).reg (opr
      w 50 4) ≠ 0) ∧
    (∃ (g : Nat) (ev : FetchEv) (s : State) (w : GateWord), s.runs g ev 0x0B 3 w ∧ opr w 54 2 = 2) ∧
    (∃ (g : Nat) (ev : FetchEv) (s : State) (w : GateWord), s.runs g ev 0x0C 3 w ∧ opr w 53 5 < 32 ∧ opr w 52 1 = 0 ∧
      s.rdB F.TIL_GEN_CTRL_EN [thrTile g, opr w 53 5] = true) ∧
    (∃ (g : Nat) (ev : FetchEv) (s : State) (w : GateWord), s.runs g ev 0x0D 2 w) ∧
    (∃ (g j : Nat) (ev : FetchEv) (s : State) (w : GateWord), s.runs g ev 0x0F 2 w ∧ (s.thr g).job = some j ∧
      s.slotUser (960 + opr w 52 6) = .pub j g ∧ opr w 51 1 = 0 ∧ opr w 49 2 < 3) ∧
    (∃ (g k : Nat) (s : State) (w : GateWord) (n : Nano), s.runs g .ok 0x01 k w ∧ k = 3 + opr w 38 1 + opr w 37 1 ∧
      s.poisoned (thrGc g) .nano (s.nBank g) (opr w 46 12) = false ∧ n = playNano (s.thr g) w (decodeNano (s.nanoAt
      (thrGc g) (s.nBank g) (opr w 46 12))) ∧ n.valid = true ∧ n.off ≤ 254 ∧ n.reaches (thrCluster g) = true ∧ n.tkind
      ≠ 3 ∧ n.stream = false) ∧
    (∃ (g : Nat) (ev : FetchEv) (s : State) (w : GateWord), s.runs g ev 0x06 4 w) :=
  ⟨⟨503, .ok, issuingAt 6 (gw 0x03 []), gw 0x03 [], by decide +kernel⟩,
   ⟨503, .ok, issuingAt 6 (gw 0x0B []), gw 0x0B [], by decide +kernel, by decide +kernel⟩,
   ⟨503, .ok, atWord { aThread with g := Vector.replicate 16 1, used := 6 } (gw 0x0B [(54, 1)]), gw 0x0B [(54, 1)],
     by decide +kernel, by decide +kernel, by decide +kernel⟩,
   ⟨503, .ok, issuingAt 5 (gw 0x0B [(54, 2)]), gw 0x0B [(54, 2)], by decide +kernel, by decide +kernel⟩,
   ⟨503, .ok, (issuingAt 5 (gw 0x0C [(53, 31)])).wr F.TIL_GEN_CTRL_EN [6, 31] 1, gw 0x0C [(53, 31)],
     by decide +kernel, by decide +kernel, by decide +kernel, by decide +kernel⟩,
   ⟨503, .ok, issuingAt 6 (gw 0x0D []), gw 0x0D [], by decide +kernel⟩,
   ⟨503, 1023, .ok,
     { issuingAt 6 (gw 0x0F [(52, 63), (49, 2)]) with dec := { State.reset.dec with users := [(63, .pub 1023 503)] } },
     gw 0x0F [(52, 63), (49, 2)], by decide +kernel, by decide +kernel, by decide +kernel, by decide +kernel,
     by decide +kernel⟩,
   ⟨503, 3, withNano (issuingAt 5 (gw 0x01 [(39, 127)])), gw 0x01 [(39, 127)], playNano aThread (gw 0x01 [(39, 127)])
     (decodeNano measNano), by decide +kernel, by decide +kernel, by decide +kernel, by decide +kernel,
     by decide +kernel, by decide +kernel, by decide +kernel, by decide +kernel, by decide +kernel⟩,
   ⟨503, .ok, issuingAt 4 (gw 0x06 [(55, 7), (39, 1)]), gw 0x06 [(55, 7), (39, 1)], by decide +kernel⟩⟩

theorem witness_ControlFlow :
    (∃ (g : Nat) (ev : FetchEv) (s : State) (w : GateWord), s.runs g ev 0x08 2 w) ∧
    (∃ (g : Nat) (ev : FetchEv) (s : State) (w : GateWord), s.runs g ev 0x09 3 w ∧ (s.thr g).stack.length < 8) ∧
    (∃ (g : Nat) (ev : FetchEv) (s : State) (w : GateWord), s.runs g ev 0x09 3 w ∧ 8 ≤ (s.thr g).stack.length) ∧
    (∃ (g : Nat) (ev : FetchEv) (s : State) (w : GateWord) (a : Nat) (rest : List Nat), s.runs g ev 0x0A 2 w ∧ (s.thr
      g).stack = a :: rest) ∧
    (∃ (g : Nat) (ev : FetchEv) (s : State) (w : GateWord), s.runs g ev 0x0A 2 w ∧ (s.thr g).stack = []) ∧
    (∃ (g : Nat) (s : State), (s.thr g).st = 1 ∧ (s.thr g).inRegion = false) ∧
    (∃ (g : Nat) (s : State), (s.thr g).inRegion = true) :=
  ⟨⟨503, .ok, issuingAt 6 (gw 0x08 []), gw 0x08 [], by decide +kernel⟩,
   ⟨503, .ok, atWord { aThread with used := 5, stack := List.replicate 7 1 } (gw 0x09 []), gw 0x09 [],
     by decide +kernel, by decide +kernel⟩,
   ⟨503, .ok, atWord { aThread with used := 5, stack := List.replicate 8 1 } (gw 0x09 []), gw 0x09 [],
     by decide +kernel, by decide +kernel⟩,
   ⟨503, .ok, atWord { aThread with used := 6, stack := [65535] } (gw 0x0A []), gw 0x0A [], 65535, [],
     by decide +kernel, by decide +kernel⟩,
   ⟨503, .ok, issuingAt 6 (gw 0x0A []), gw 0x0A [], by decide +kernel, by decide +kernel⟩,
   ⟨503, atWord { aThread with pc := 65536 } 0, by decide +kernel, by decide +kernel⟩,
   ⟨503, atWord { aThread with pc := 65535 } 0, by decide +kernel⟩⟩

theorem witness_GateInstructionWaits :
    (∃ (g n : Nat) (ev : FetchEv) (s : State) (w : GateWord), s.runs g ev 0x04 2 w ∧ opr w 56 2 ≤ 1 ∧ n = (if opr w 56
      2 = 0 then opr w 20 32 else ((s.thr g).reg (opr w 52 4)).toNat) ∧ 0 < n ∧ n < 2 ^ 31) ∧
    (∃ (g n : Nat) (ev : FetchEv) (s : State) (w : GateWord), s.runs g ev 0x04 2 w ∧ opr w 56 2 ≤ 1 ∧ n = (if opr w 56
      2 = 0 then opr w 20 32 else ((s.thr g).reg (opr w 52 4)).toNat) ∧ (n = 0 ∨ 2 ^ 31 ≤ n)) ∧
    (∃ (g target : Nat) (ev : FetchEv) (s : State) (w : GateWord), s.runs g ev 0x04 2 w ∧ 2 ≤ opr w 56 2 ∧ target =
      (if opr w 56 2 = 2 then short (s.gridAt (s.thr g).start + opr w 20 32) else ((s.thr g).reg (opr w 52 4)).toNat)) ∧
    (∃ (g j : Nat) (ev : FetchEv) (s : State) (w : GateWord), s.runs g ev 0x05 3 w ∧ (s.thr g).job = some j ∧ (s.bar
      (opr w 53 5)).job = some j ∧ g ∈ (s.bar (opr w 53 5)).members ∧ (s.bar (opr w 53 5)).failed = none) ∧
    (∃ (g : Nat) (ev : FetchEv) (s : State) (w : GateWord), s.runs g ev 0x05 3 w ∧ g ∉ (s.bar (opr w 53 5)).members) ∧
    (∃ (g : Nat) (ev : FetchEv) (s : State) (w : GateWord), s.runs g ev 0x07 6 w) ∧
    (∃ (g : Nat) (ev : FetchEv) (s : State) (w : GateWord), s.runs g ev 0x0E 3 w) :=
  ⟨⟨503, 2 ^ 31 - 1, .ok, issuingAt 6 (gw 0x04 [(20, 2 ^ 31 - 1)]), gw 0x04 [(20, 2 ^ 31 - 1)], by decide +kernel,
     by decide +kernel, by decide +kernel, by decide +kernel, by decide +kernel⟩,
   ⟨503, 2 ^ 31, .ok, issuingAt 6 (gw 0x04 [(20, 2 ^ 31)]), gw 0x04 [(20, 2 ^ 31)], by decide +kernel,
     by decide +kernel, by decide +kernel, by decide +kernel⟩,
   ⟨503, _, .ok, issuingAt 6 (gw 0x04 [(56, 2)]), gw 0x04 [(56, 2)], by decide +kernel, by decide +kernel, rfl⟩,
   ⟨503, 1023, .ok, withBar (issuingAt 5 (gw 0x05 [(53, 31)])), gw 0x05 [(53, 31)], by decide +kernel,
     by decide +kernel, by decide +kernel, by decide +kernel, by decide +kernel⟩,
   ⟨503, .ok, withBar (issuingAt 5 (gw 0x05 [(53, 30)])), gw 0x05 [(53, 30)], by decide +kernel, by decide +kernel⟩,
   ⟨503, .ok, issuingAt 2 (gw 0x07 [(48, 1020), (46, 2)]), gw 0x07 [(48, 1020), (46, 2)], by decide +kernel⟩,
   ⟨503, .ok, issuingAt 5 (gw 0x0E [(54, 8)]), gw 0x0E [(54, 8)], by decide +kernel⟩⟩

theorem witness_ThreadsGoOn :
    (∃ (g tick : Nat) (c : Bool) (s : State), (s.thr g).wait = .until tick c ∧ tick ≤ s.now) ∧
    (∃ (b tr : Nat) (s : State), s.releaseTick b = some tr ∧ tr ≤ s.now ∧ (s.bar b).failed = none) ∧
    (∃ (t : Nat) (s : State) (g slot num : Nat) (take tgt : BitVec 16) (dl lact issue : Nat) (c : Bool), (g, s.thr g)
      ∈ s.threads ∧ (s.thr g).wait = .brd slot num take tgt dl lact issue c none ∧ thrTile g = t ∧ issue ≤ s.now ∧
      s.now ≤ issue + dl ∧ (brdSlots slot num).all (s.slotValid t) = true) ∧
    (∃ (g slot num a key : Nat) (take tgt : BitVec 16) (dl lact issue : Nat) (c : Bool) (s : State), (s.thr g).wait =
      .brd slot num take tgt dl lact issue c (some (a, key)) ∧ a ≤ s.now) ∧
    (∃ (g slot num : Nat) (take tgt : BitVec 16) (dl lact issue : Nat) (c : Bool) (s : State), (s.thr g).wait = .brd
      slot num take tgt dl lact issue c none ∧ issue + dl + 1 ≤ s.now) ∧
    (∃ (g src tmo tact : Nat) (tgt : BitVec 16) (issue e : Nat) (c : Bool) (s : State), (s.thr g).wait = .trig src tmo
      tact tgt issue (some e) c ∧ e + 8 ≤ s.now) ∧
    (∃ (g src tmo tact : Nat) (tgt : BitVec 16) (issue : Nat) (c : Bool) (s : State), (s.thr g).wait = .trig src tmo
      tact tgt issue none c ∧ issue + tmo + 8 ≤ s.now) ∧
    (∃ (g b val arr : Nat) (c : Bool) (s : State), (s.thr g).wait = .barrier b false val arr c ∧ arr + val ≤ s.now ∧
      s.releaseTick b = none ∧ (∀ t, s.missTick b = some t → arr + val < t)) ∧
    (∃ (b t0 : Nat) (s : State), s.missTick b = some t0 ∧ t0 ≤ s.now ∧ s.releaseTick b = none) ∧
    (∃ (g k tmo issue : Nat) (s : State), (s.thr g).wait = .stream k tmo issue ∧ s.strmReady (thrTile g) k = true ∧
      issue ≤ s.now ∧ s.now ≤ issue + tmo) ∧
    (∃ (g k tmo issue : Nat) (s : State), (s.thr g).wait = .stream k tmo issue ∧ s.strmReady (thrTile g) k = false ∧
      issue + tmo ≤ s.now) ∧
    (∃ (g d : Nat) (s : State), (s.thr g).peerEnd = some d) :=
  ⟨⟨503, 0, false, waiting (.until 0 false), by decide +kernel, by decide +kernel⟩,
   ⟨31, 6, (withBar (waiting (.barrier 31 true 6 0 false))).at_ 6, by decide +kernel, by decide +kernel,
     by decide +kernel⟩,
   ⟨6,
     { waiting (.brd 1023 0 1 2 5 0 0 false none) with dec := { State.reset.dec with slots := [(1024 * 6 + 1023, { Slot.idle with valid := true })] } },
     503, 1023, 0, 1, 2, 5, 0, 0, false, by decide +kernel, by decide +kernel, by decide +kernel, by decide +kernel,
     by decide +kernel, by decide +kernel⟩,
   ⟨503, 1023, 0, 4, 0, 1, 2, 5, 0, 0, false, (waiting (.brd 1023 0 1 2 5 0 0 false (some (4, 0)))).at_ 5,
     by decide +kernel, by decide +kernel⟩,
   ⟨503, 1023, 0, 1, 2, 5, 0, 0, false, (waiting (.brd 1023 0 1 2 5 0 0 false none)).at_ 6, by decide +kernel,
     by decide +kernel⟩,
   ⟨503, 8, 5, 0, 0, 0, 0, false, (waiting (.trig 8 5 0 0 0 (some 0) false)).at_ 8, by decide +kernel,
     by decide +kernel⟩,
   ⟨503, 8, 5, 0, 0, 0, false, (waiting (.trig 8 5 0 0 0 none false)).at_ 13, by decide +kernel, by decide +kernel⟩,
   ⟨503, 31, 5, 0, false, (waiting (.barrier 31 false 5 0 false)).at_ 5, by decide +kernel, by decide +kernel,
     by decide +kernel, fun t h => absurd ((show none = some t from h)) (by simp)⟩,
   ⟨31, 0,
     { waiting (.barrier 31 true 0 5 false) with bars := [(31, { job := some 1023, members := [503, 502], failed := none })] },
     by decide +kernel, by decide +kernel, by decide +kernel⟩,
   ⟨503, 63, 5, 0, (waiting (.stream 63 5 0)).wr F.TIL_STRM_STATUS_STATE [6, 63] kOpen, by decide +kernel,
     by decide +kernel, by decide +kernel, by decide +kernel⟩,
   ⟨503, 63, 5, 0, (waiting (.stream 63 5 0)).at_ 5, by decide +kernel, by decide +kernel, by decide +kernel⟩,
   ⟨503, 0, atWord { aThread with peerEnd := some 0 } 0, by decide +kernel⟩⟩

theorem witness_CustomAndStores :
    (∃ (g : Nat) (s u : State) (w : GateWord) (n : Nat), s.gateAt (thrGc g) (s.thr g).pc = w ∧ 0x30 ≤ opcode w ∧
      s.issuing g (opcode w) n w ∧ opcode w ≤ 0x37 ∧ n = mfld (s.entry g w) 14 3 ∧ bit (s.entry g w).toNat 18 = true ∧
      s.dispatchFails g .ok w = false ∧ ((s.charged g n).customRun g .ok w).2 = .ok u) ∧
    (∃ (t c : Nat) (k : StoreKind) (b : Bool) (a thr : Nat) (s : State) (mine : BadWord → Bool), mine = (fun (w :
      BadWord) => decide (w.cluster = 9 * t + c) && decide (w.store = k) && decide (w.bank = b) && decide (w.addr =
      a)) ∧ (s.stores.poison.find? mine).map (fun w => w.thr) = some thr) ∧
    (∃ (t c : Nat) (k : StoreKind) (r : BankRepl) (s : State), s.stores.bankRepl.find? (fun r => decide (r.cluster = 9
      * t + c) && decide (r.store = k) && !r.filled) = some r) ∧
    (∃ (t off c : Nat) (s : State), t < s.variant.tiles ∧ 0x500000 ≤ off ∧ off < 0x540000 ∧ off % 4 = 0 ∧ c = s.rd
      F.TIL_MEMWIN_SEL_CLUSTER [t] ∧ c ≤ 8 ∧ s.nanoRead (9 * t + c) (decide (0x520000 ≤ off)) = false ∧ s.swapping (9
      * t + c) = false) ∧
    (∃ (t off c : Nat) (s : State), t < s.variant.tiles ∧ 0x500000 ≤ off ∧ off < 0x540000 ∧ off % 4 = 0 ∧ c = s.rd
      F.TIL_MEMWIN_SEL_CLUSTER [t] ∧ c ≤ 8 ∧ s.nanoRead (9 * t + c) (decide (0x520000 ≤ off)) = true) :=
  ⟨⟨503, withMicro (issuingAt 7 (gw 0x30 [])), _, gw 0x30 [], _, by decide +kernel, by decide +kernel,
     by decide +kernel, by decide +kernel, rfl, by decide +kernel, by decide +kernel, (by rfl)⟩,
   ⟨6, 8, .micro, true, 16383, 503, { State.reset with stores := { State.reset.stores with poison := [badWord] } }, _,
     rfl, by decide +kernel⟩,
   ⟨6, 8, .nano, aRepl, { State.reset with stores := { State.reset.stores with bankRepl := [aRepl] } },
     by decide +kernel⟩,
   ⟨6, 0x53FFFC, _, State.reset.wr F.TIL_MEMWIN_SEL_CLUSTER [6] 8, by decide +kernel, by decide +kernel,
     by decide +kernel, by decide +kernel, rfl, by decide +kernel, by decide +kernel, by decide +kernel⟩,
   ⟨6, 0x51FFFC, _, State.reset.wr F.TIL_MEMWIN_SEL_CLUSTER [6] 8, by decide +kernel, by decide +kernel,
     by decide +kernel, by decide +kernel, rfl, by decide +kernel, by decide +kernel⟩⟩

theorem witness_OutputsAreEnabled :
    (∃ (s : State) (k : OutKind) (t c : Nat), t < s.variant.tiles ∧ c < (if k = .probe then 8 else 64)) ∧
    (∃ (s : State) (t c : Nat), t < s.variant.tiles ∧ 64 ≤ c ∧ c < 72) ∧
    (∃ (s : State) (k : OutKind) (t c : Nat), (s.en k t c).checking.isSome = true ∧ s.enableReason k t c ≠ 0) ∧
    (∃ (s : State) (t c : Nat), (s.en .drive t c).checking.isSome = true ∧ s.enableReason .drive t c = 0) ∧
    (∃ (s : State) (t c : Nat), (s.en .flux t c).checking.isSome = true ∧ s.enableReason .flux t c = 0) :=
  ⟨⟨State.reset, .probe, 6, 7, by decide +kernel, by decide +kernel⟩,
   ⟨State.reset, 6, 71, by decide +kernel, by decide +kernel, by decide +kernel⟩,
   ⟨checkingOut .flux 63, .flux, 6, 63, by decide +kernel, by decide +kernel⟩,
   ⟨(checkingOut .drive 63).setCalValid ⟨1, 6, 63⟩ true, 6, 63, by decide +kernel, by decide +kernel⟩,
   ⟨(checkingOut .flux 63).setCalValid ⟨4, 6, 63⟩ true, 6, 63, by decide +kernel, by decide +kernel⟩⟩

theorem witness_SpareDacs :
    (∃ (s : State) (t g c f : Nat), s.spare t g = .takeover c f) ∧
    (∃ (s : State) (t g c : Nat), s.spare t g = .serve c true ∧ s.quiet .drive t c 32 = true) ∧
    (∃ (s : State) (t g c f : Nat) (o : CalObs), s.spare t g = .calRun c f true ∧ s.quietFrom .drive t c (s.now + 1)
      32 = true ∧ s.isComing ⟨1, t, c⟩ = false ∧ (s.calU ⟨1, t, c⟩).result = some o ∧ o.pass = true) ∧
    (∃ (s : State) (t g a b f : Nat), s.spare t g = .evict a b f ∧ s.quiet .drive t a 32 = true ∧ s.now ≤ f + 625) ∧
    (∃ (s : State) (t g a b f : Nat), s.spare t g = .evict a b f ∧ f + 625 ≤ s.now) ∧
    (∃ (s : State) (t g c : Nat), t < s.variant.tiles ∧ g < 8 ∧ s.spare t g = .none ∧ s.nextDue t g = some c ∧
      s.spareFenced t g = false ∧ s.quiet .drive t c 32 = true) ∧
    (∃ (s : State) (t g c f : Nat) (o : CalObs), s.spare t g = .calRun c f false ∧ o.pass = true) ∧
    (∃ (s : State) (t g c f : Nat) (o : CalObs), s.spare t g = .calRun c f false ∧ o.pass = false) ∧
    (∃ (s : State) (t g c f : Nat), s.spare t g = .faultBack c f) :=
  ⟨⟨State.reset.setSpare 6 7 (.takeover 63 0), 6, 7, 63, 0, by decide +kernel⟩,
   ⟨State.reset.setSpare 6 7 (.serve 63 true), 6, 7, 63, by decide +kernel, by decide +kernel⟩,
   ⟨(State.reset.setSpare 6 7 (.calRun 63 0 true)).setCalU ⟨1, 6, 63⟩ { CalUnit.idle with result := some okCal }, 6,
     7, 63, 0, okCal, by decide +kernel, by decide +kernel, by decide +kernel, by decide +kernel, by decide +kernel⟩,
   ⟨(State.reset.setSpare 6 7 (.evict 63 62 0)).at_ 625, 6, 7, 63, 62, 0, by decide +kernel, by decide +kernel,
     by decide +kernel⟩,
   ⟨(State.reset.setSpare 6 7 (.evict 63 62 0)).at_ 625, 6, 7, 63, 62, 0, by decide +kernel, by decide +kernel⟩,
   ⟨State.reset.setCalU ⟨1, 6, 63⟩ { CalUnit.idle with due := some 0 }, 6, 7, 63, by decide +kernel,
     by decide +kernel, by decide +kernel, by decide +kernel, by decide +kernel, by decide +kernel⟩,
   ⟨State.reset.setSpare 6 7 (.calRun 63 0 false), 6, 7, 63, 0, okCal, by decide +kernel, by decide +kernel⟩,
   ⟨State.reset.setSpare 6 7 (.calRun 63 0 false), 6, 7, 63, 0, badCal, by decide +kernel, by decide +kernel⟩,
   ⟨State.reset.setSpare 6 7 (.faultBack 63 0), 6, 7, 63, 0, by decide +kernel⟩⟩

theorem witness_BiasAndSpan :
    (∃ (s : State) (t c l : Nat), s.nextLatch t c = some l ∧ l < 128 * (s.now + 1) ∧ s.outsOn = true) ∧
    (∃ (s : State) (t c l m : Nat), s.nextLatch t c = some l ∧ (s.bias t c).latched = some m) ∧
    (∃ (s : State) (t c : Nat), t < s.variant.tiles ∧ c < 64) ∧
    (∃ (s : State) (t c sp : Nat), (spanListed .bias sp = false ∨ s.spanChanging .bias t c = true ∨ (s.rd
      F.BIA_SPAN_SPAN [t, c] ≠ sp ∧ s.outRunning .bias t c = true))) ∧
    (∃ (s : State) (t c sp : Nat), spanListed .bias sp = true ∧ s.spanChanging .bias t c = false ∧ s.outRunning .bias
      t c = false ∧ s.rd F.BIA_SPAN_SPAN [t, c] ≠ sp) ∧
    (∃ (s : State) (t c l : Nat) (r : SpanRun), s.nextLatch t c = some l ∧ (s.bias t c).change = some r ∧ r.live =
      true) ∧
    (∃ (s : State) (t c : Nat) (r : SpanRun), (s.bias t c).change = some r ∧ r.at_ + 3126 ≤ s.now) ∧
    (∃ (s : State) (t c : Nat) (r : SpanRun), (s.flux t c).change = some r ∧ r.at_ + 3126 ≤ s.now) :=
  ⟨⟨((State.reset.modeOf mRun).setBias 6 63 { BiasRun.idle with waiting := [aCode] }).at_ 8, 6, 63, 1024,
     by decide +kernel, by decide +kernel, by decide +kernel⟩,
   ⟨State.reset.setBias 6 63 { BiasRun.idle with waiting := [aCode], latched := some 0 }, 6, 63, 20096, 0,
     by decide +kernel, by decide +kernel⟩,
   ⟨State.reset, 6, 63, by decide +kernel, by decide +kernel⟩,
   ⟨State.reset, 6, 63, 7, by decide +kernel⟩,
   ⟨State.reset, 6, 63, 6, by decide +kernel, by decide +kernel, by decide +kernel, by decide +kernel⟩,
   ⟨State.reset.setBias 6 63 { BiasRun.idle with waiting := [aCode], change := some { aSpan with at_ := 5 } }, 6, 63,
     1024, { aSpan with at_ := 5 }, by decide +kernel, by decide +kernel, by decide +kernel⟩,
   ⟨(State.reset.setBias 6 63 { BiasRun.idle with change := some aSpan }).at_ 3126, 6, 63, aSpan, by decide +kernel,
     by decide +kernel⟩,
   ⟨(State.reset.setFlux 6 63 { span := 0, change := some aSpan }).at_ 3126, 6, 63, aSpan, by decide +kernel,
     by decide +kernel⟩⟩

theorem witness_SegmentsAndStreams :
    (∃ (s : State) (t g : Nat), t < s.variant.tiles ∧ g < 256) ∧
    (∃ (s : State) (t n : Nat) (a : _), t < s.variant.tiles ∧ n < 2 ^ 20 ∧ s.pageOpen t (n / 1024) = true ∧
      s.pageSealed t (n / 1024) = false ∧ a ≠ 2 ^ 20 * t + n) ∧
    (∃ (s : State) (t n : Nat), t < s.variant.tiles ∧ n < 2 ^ 20 ∧ (s.pageOpen t (n / 1024) = false ∨ s.pageSealed t
      (n / 1024) = true)) ∧
    (∃ (s : State) (t k g : Nat), t < s.variant.tiles ∧ k < 64 ∧ g < 256) ∧
    (∃ (s : State) (t k : Nat) (cp wp : Word), t < 7 ∧ k < 64 ∧ cp = BitVec.ofNat 32 (s.strmCp t k) ∧ wp =
      BitVec.ofNat 32 (s.rd F.QMG_STRM_WP_WP [t, k])) ∧
    (∃ (s : State) (t k n : Nat) (r : StreamRun), r = s.strm t k ∧ (s.strmState t k = kOpen ∨ s.strmState t k =
      kPlaying) ∧ n = min ((BitVec.ofNat 32 (s.rd F.QMG_STRM_WP_WP [t, k]) : Word) - BitVec.ofNat 32 r.fetched).toNat
      (64 - r.fetched % 64) ∧ 0 < n ∧ s.shutdown = false ∧ s.rateOk t k n = true ∧ (r.fetched % 64 ≠ 0 ∨ r.fetched +
      64 ≤ s.strmReleased t k / 64 * 64 + s.strmWin t k)) ∧
    (∃ (s u : State) (t k late : Nat) (r : StreamRun), (s.strm t k).arrived < (s.strm t k).fetched ∧ u =
      s.noteUnderrun t k ∧ r = u.strm t k ∧ late = min (min r.fetched (64 * (r.arrived / 64 + 1))) (u.playedRing t k)) ∧
    (∃ (s : State) (t k : Nat), t < s.variant.tiles ∧ k < 64) ∧
    (∃ (s : State) (t g : Nat), t < s.variant.tiles ∧ g < 32) :=
  ⟨⟨State.reset, 6, 255, by decide +kernel, by decide +kernel⟩,
   ⟨openPage, 6, 2 ^ 20 - 1, 0, by decide +kernel, by decide +kernel, by decide +kernel, by decide +kernel,
     by decide +kernel⟩,
   ⟨State.reset, 6, 2 ^ 20 - 1, by decide +kernel, by decide +kernel, by decide +kernel⟩,
   ⟨State.reset, 6, 63, 255, by decide +kernel, by decide +kernel, by decide +kernel⟩,
   ⟨State.reset, 6, 63, _, _, by decide +kernel, by decide +kernel, rfl, rfl⟩,
   ⟨(((State.reset.wr F.TIL_STRM_STATUS_STATE [6, 63] kOpen).wr F.QMG_STRM_WP_WP [6, 63] 1).wr F.QMG_STRM_CFG_WIN [6,
     63] 4).wr F.QMG_STRM_CFG_RATE [6, 63] 1, 6, 63, _, _, rfl, by decide +kernel, rfl, by decide +kernel,
     by decide +kernel, by decide +kernel, by decide +kernel⟩,
   ⟨playing none, _, 6, 63, _, _, by decide +kernel, rfl, rfl, rfl⟩,
   ⟨State.reset, 6, 63, by decide +kernel, by decide +kernel⟩,
   ⟨State.reset, 6, 31, by decide +kernel, by decide +kernel⟩⟩

theorem witness_StreamPasses :
    (∃ (s : State) (t k f : Nat) (j : Bool) (r : StreamRun), r = s.strm t k ∧ s.strmState t k = kPlaying ∧ r.fixedK =
      none ∧ r.rewound = false ∧ s.commitSample t k < 128 * (s.now + 1) ∧ s.successor t k = (f, j)) ∧
    (∃ (s : State) (t k f : Nat) (r : StreamRun), (s.strm t k).fixedK = some f ∧ s.strmState t k = kPlaying ∧ (s.strm
      t k).rewound = false ∧ s.passStop t k < 128 * (s.now + 1) ∧ r = (s.countMissing t k ((s.strm t k).passStart +
      s.segLen t (s.strmCur t k))).strm t k ∧ r.rewound = false) :=
  ⟨⟨playing none, 6, 63, 256, false, _, rfl, by decide +kernel, by decide +kernel, by decide +kernel,
     by decide +kernel, by decide +kernel⟩,
   ⟨playing (some 256), 6, 63, 256, _, by decide +kernel, by decide +kernel, by decide +kernel, by decide +kernel,
     rfl, by decide +kernel⟩⟩

theorem witness_GeneratorSequences :
    (∃ (s : State) (t g : Nat) (f : Fld → Word), (∀ x, f x = BitVec.ofNat 32 (s.rd x [t, g])) ∧ s.rd
      F.TIL_GEN_CTRL_MODE [t, g] = 0) ∧
    (∃ (s : State) (t g : Nat) (f : Fld → Word) (n k : _), (∀ x, f x = BitVec.ofNat 32 (s.rd x [t, g])) ∧ s.rd
      F.TIL_GEN_CTRL_MODE [t, g] = 1 ∧ (f F.TIL_GEN_START_START).toNat ≤ (f F.TIL_GEN_LIMIT_LIMIT).toNat ∧ n = ((f
      F.TIL_GEN_LIMIT_LIMIT).toNat - (f F.TIL_GEN_START_START).toNat) / (f F.TIL_GEN_STEP_STEP).toNat + 1 ∧ k = (s.gen
      t g).i % (2 * n)) ∧
    (∃ (s : State) (t g : Nat) (f : Fld → Word) (j : Word), (∀ x, f x = BitVec.ofNat 32 (s.rd x [t, g])) ∧ s.rd
      F.TIL_GEN_CTRL_MODE [t, g] = 2 ∧ (f F.TIL_GEN_STEP_STEP).toNat < 32 ∧ j = BitVec.ofNat 32 ((s.gen t g).i % 2 ^
      (f F.TIL_GEN_STEP_STEP).toNat)) ∧
    (∃ (s : State) (t g : Nat) (f : Fld → Word), (∀ x, f x = BitVec.ofNat 32 (s.rd x [t, g])) ∧ s.rd
      F.TIL_GEN_CTRL_MODE [t, g] = 3) :=
  ⟨⟨genMode 0, 6, 31, fun x => BitVec.ofNat 32 ((genMode 0).rd x [6, 31]), fun _ => rfl, by decide +kernel⟩,
   ⟨genMode 1, 6, 31, fun x => BitVec.ofNat 32 ((genMode 1).rd x [6, 31]), _, _, fun _ => rfl, by decide +kernel,
     by decide +kernel, rfl, rfl⟩,
   ⟨genMode 2, 6, 31, fun x => BitVec.ofNat 32 ((genMode 2).rd x [6, 31]), _, fun _ => rfl, by decide +kernel,
     by decide +kernel, rfl⟩,
   ⟨genMode 3, 6, 31, fun x => BitVec.ofNat 32 ((genMode 3).rd x [6, 31]), fun _ => rfl, by decide +kernel⟩⟩

theorem witness_CaptureEngine :
    (∃ (s : State) (t : Nat), t < s.variant.tiles ∧ s.rdB F.CAP_STATUS_HELD [t] = false ∧ (s.capState t = cIdle ∨
      s.capState t = cDone)) ∧
    (∃ (s : State) (t : Nat), t < s.variant.tiles ∧ s.rdB F.CAP_STATUS_HELD [t] = false) ∧
    (∃ (s : State) (t : Nat), t < s.variant.tiles ∧ s.rdB F.CAP_STATUS_HELD [t] = true) ∧
    (∃ (s : State) (t : Nat), t < s.variant.tiles ∧ s.capState t ≠ cIdle ∧ s.capState t ≠ cDone) ∧
    (∃ (s : State) (t b : Nat), s.capState t = cWait ∧ (s.cap t).wake = some b ∧ b ≤ s.now) ∧
    (∃ (s : State) (t : Nat) (r : CapRun), r = s.cap t ∧ s.capState t = cRearm ∧ r.since + 8 ≤ s.now) ∧
    (∃ (s : State) (t first : Nat) (codes : List Int), t < s.variant.tiles ∧ (s.cap t).set.kind < 2 ∧ (∀ c ∈ codes,
      -2048 ≤ c ∧ c ≤ 2047) ∧ s.tapIndex 0 first + codes.length ≤ 64 * (if s.capState t = cWait then s.now else s.now
      + 1)) ∧
    (∃ (s : State) (t causes k : Nat) (r : CapRun) (e : CapEval) (x : Int × Int) (first : Bool), r = s.cap t ∧ first =
      decide (r.place (s.capState t) r.next = .armed ∧ r.next = tapBoundary r.set.kind r.since) ∧ capStep (s.capCfg t)
      r.ev x first = (e, k) ∧ causes = k + (if capSlew (s.capCfg t) r.past x then 8 else 0) ∧ causes ≠ 0) ∧
    (∃ (s u : State) (t first n c p valid m : Nat) (codes : List Int) (r : CapRun), u = s.tapCodes t first codes ∧ r =
      u.cap t ∧ u.capState t = cTriggered ∧ r.trig = some (n, c, p, valid, m) ∧ r.aborted = none ∧ r.gaps = [] ∧
      r.set.long = false ∧ r.next + r.set.pre ≤ n + (r.set.len - 1)) ∧
    (∃ (s u : State) (t first n c p valid m : Nat) (codes : List Int) (r : CapRun), u = s.tapCodes t first codes ∧ r =
      u.cap t ∧ u.capState t = cTriggered ∧ r.trig = some (n, c, p, valid, m) ∧ r.aborted = none ∧ r.gaps = [] ∧
      r.set.long = false ∧ n + (r.set.len - 1) < r.next + r.set.pre ∧ r.job = none) :=
  ⟨⟨State.reset, 6, by decide +kernel, by decide +kernel, by decide +kernel⟩,
   ⟨State.reset, 6, by decide +kernel, by decide +kernel⟩,
   ⟨State.reset.wr F.CAP_STATUS_HELD [6] 1, 6, by decide +kernel, by decide +kernel⟩,
   ⟨State.reset.wr F.CAP_STATUS_STATE [6] cArmed, 6, by decide +kernel, by decide +kernel, by decide +kernel⟩,
   ⟨(State.reset.wr F.CAP_STATUS_STATE [6] cWait).setCap 6 { CapRun.idle with wake := some 0 }, 6, 0,
     by decide +kernel, by decide +kernel, by decide +kernel⟩,
   ⟨(State.reset.wr F.CAP_STATUS_STATE [6] cRearm).at_ 8, 6, _, rfl, by decide +kernel, by decide +kernel⟩,
   ⟨State.reset, 6, 0, [2047], by decide +kernel, by decide +kernel, by decide +kernel, by decide +kernel⟩,
   ⟨levelTrigger cArmed, 6, 1, 1, _, _, (0, 0), _, rfl, rfl, rfl, by decide +kernel, by decide +kernel⟩,
   ⟨recording, _, 6, 0, 0, 32, 5, 0, 0, [0], _, rfl, rfl, by decide +kernel, by decide +kernel, by decide +kernel,
     by decide +kernel, by decide +kernel, by decide +kernel⟩,
   ⟨recording, _, 6, 0, 0, 32, 5, 0, 0, List.replicate 64 0, _, rfl, rfl, by decide +kernel, by decide +kernel,
     by decide +kernel, by decide +kernel, by decide +kernel, by decide +kernel, by decide +kernel⟩⟩

theorem witness_TimingInputs :
    (∃ (s u : State) (i bin held b : Nat) (rise e : Bool), b = s.binIn bin ∧ e = (rise != s.rdB F.TDC_IN_CFG_INV [i])
      ∧ u = s.wrB F.TDC_IN_STATUS_LEVEL [i] (e != decide (held < s.rd F.TDC_IN_CFG_FILT [i])) ∧ i < 10 ∧ b / 5120 ≤
      s.now ∧ u.rdB F.TDC_IN_CFG_EN [i] = true ∧ u.fenced ⟨13, 0xFF, i⟩ = false ∧ held < s.rd F.TDC_IN_CFG_FILT [i]) ∧
    (∃ (s u : State) (i bin held b : Nat) (rise e : Bool), b = s.binIn bin ∧ e = (rise != s.rdB F.TDC_IN_CFG_INV [i])
      ∧ u = s.wrB F.TDC_IN_STATUS_LEVEL [i] (e != decide (held < s.rd F.TDC_IN_CFG_FILT [i])) ∧ i < 10 ∧ b / 5120 ≤
      s.now ∧ u.rdB F.TDC_IN_CFG_EN [i] = true ∧ u.fenced ⟨13, 0xFF, i⟩ = false ∧ s.rd F.TDC_IN_CFG_FILT [i] ≤ held ∧
      selects (u.rd F.TDC_IN_CFG_POL [i]) e = true ∧ (u.tdcIn i).swapAt ≠ b / 5120 + 1 ∧ (∀ l, (u.tdcIn i).lastBin =
      some l → b < l ∨ l + 1280 ≤ b)) ∧
    (∃ (s u : State) (i bin held b : Nat) (rise e : Bool) (l : _), b = s.binIn bin ∧ e = (rise != s.rdB
      F.TDC_IN_CFG_INV [i]) ∧ u = s.wrB F.TDC_IN_STATUS_LEVEL [i] (e != decide (held < s.rd F.TDC_IN_CFG_FILT [i])) ∧
      i < 10 ∧ b / 5120 ≤ s.now ∧ u.rdB F.TDC_IN_CFG_EN [i] = true ∧ u.fenced ⟨13, 0xFF, i⟩ = false ∧ s.rd
      F.TDC_IN_CFG_FILT [i] ≤ held ∧ selects (u.rd F.TDC_IN_CFG_POL [i]) e = true ∧ (u.tdcIn i).swapAt ≠ b / 5120 + 1
      ∧ (u.tdcIn i).lastBin = some l ∧ l ≤ b ∧ b < l + 1280) ∧
    (∃ s : State, s.tdc.log.length < 1024) ∧
    (∃ s : State, 1024 ≤ s.tdc.log.length) ∧
    (∃ (s : State) (r : List Word) (rest : List (List Word)), s.tdc.log = r :: rest) ∧
    (∃ s : State, s.tdc.log = []) ∧
    (∃ (s : State) (k b tk : Nat), s.ivStart k = some (b, tk) ∧ tk + 2 ^ 30 < s.now) ∧
    (∃ s : State, s.rdB F.TDC_FREQ_STATUS_BUSY [] = false) ∧
    (∃ (s : State) (r : FreqRun) (f span : Nat), s.tdc.freq = some r ∧ r.start + s.rd F.TDC_FREQ_GATE_GATE [] ≤ s.now
      ∧ span = r.last - r.first ∧ f = (if r.n < 2 ∨ span = 0 then 0 else (roundDiv (((r.n - 1) * 8 * 10 ^ 14 : Nat) :
      Int) span).toNat)) ∧
    (∃ (s : State) (i : Nat), i < 10 ∧ s.fenced ⟨13, 0xFF, i⟩ = false ∧ (s.tdcIn i).dllBad = false) ∧
    (∃ (s : State) (i : Nat), i < 10 ∧ s.fenced ⟨13, 0xFF, i⟩ = false ∧ (s.tdcIn i).dllBad = true) :=
  ⟨⟨tdcOn.wr F.TDC_IN_CFG_FILT [9] 5, _, 9, 0, 4, _, true, _, rfl, rfl, rfl, by decide +kernel, by decide +kernel,
     by decide +kernel, by decide +kernel, by decide +kernel⟩,
   ⟨tdcOn, _, 9, 0, 0, _, true, _, rfl, rfl, rfl, by decide +kernel, by decide +kernel, by decide +kernel,
     by decide +kernel, by decide +kernel, by decide +kernel, by decide +kernel, (by intro l h; cases h)⟩,
   ⟨tdcOn.setTdcIn 9 { TdcIn.idle with lastBin := some 0 }, _, 9, 1279, 0, _, true, _, 0, rfl, rfl, rfl,
     by decide +kernel, by decide +kernel, by decide +kernel, by decide +kernel, by decide +kernel, by decide +kernel,
     by decide +kernel, by decide +kernel, by decide +kernel, by decide +kernel⟩,
   ⟨{ State.reset with tdc := { State.reset.tdc with log := List.replicate 1023 [] } }, by decide +kernel⟩,
   ⟨{ State.reset with tdc := { State.reset.tdc with log := List.replicate 1024 [] } }, by decide +kernel⟩,
   ⟨{ State.reset with tdc := { State.reset.tdc with log := [[1, 2, 3, 4]] } }, [1, 2, 3, 4], [], by decide +kernel⟩,
   ⟨State.reset, by decide +kernel⟩,
   ⟨(State.reset.setIvStart 3 (some (0, 0))).at_ (2 ^ 30 + 1), 3, 0, 0, by decide +kernel, by decide +kernel⟩,
   ⟨State.reset, by decide +kernel⟩,
   ⟨({ State.reset with tdc := { State.reset.tdc with freq := some ⟨0, 0, 51200, 2⟩ } } : State).at_ (2 ^ 28), ⟨0, 0,
     51200, 2⟩, 15625000000, 51200, by decide +kernel, by decide +kernel, by decide +kernel, by decide +kernel⟩,
   ⟨State.reset, 9, by decide +kernel, by decide +kernel, by decide +kernel⟩,
   ⟨State.reset.setTdcIn 9 { TdcIn.idle with dllBad := true }, 9, by decide +kernel, by decide +kernel,
     by decide +kernel⟩⟩

theorem witness_SenseScan :
    (∃ (s : State) (t : Nat), t < s.variant.tiles) ∧
    (∃ (s u v : State) (t k a : Nat), k < 4 ∧ (s.senseTile t).running = true ∧ (s.senseList t k).using_ = .idle ∧ v =
      s.takeLists t ∧ u = (if v.scanOver t then v.endScan t else v) ∧ u.adcOf t k = some a ∧ (u.senseTile t).running =
      true ∧ (u.senseList t k).begun < u.scanSlots t ∧ u.slotAt t k ≤ 32 * u.now) ∧
    (∃ (s u : State) (t k a p : Nat) (o : SenseObs), (s.senseList t k).using_ = .pair p false false ∧ a = (s.senseList
      t k).adc ∧ s.slotAt t k ≤ 32 * s.now ∧ u = s.endSlot t k a (s.slotAt t k - s.tConv t) o) ∧
    (∃ (s u : State) (t k a p : Nat) (o : SenseObs), (s.senseList t k).using_ = .injected p ∧ a = (s.senseList t
      k).adc ∧ s.slotAt t k ≤ 32 * s.now ∧ u = s.endSlot t k a (s.slotAt t k - s.tConv t) o) ∧
    (∃ (s u : State) (t k p : Nat) (b : Bool) (o : SenseObs), (s.senseList t k).using_ = .pair p b true ∧ s.slotAt t k
      ≤ 32 * s.now ∧ u = s.senseSticky t p o.clamp o.overload) ∧
    (∃ (s : State) (t k : Nat), t < s.variant.tiles ∧ k < 4) ∧
    (∃ (s u : State) (t k : Nat), s.rd F.SNS_INJ_CTRL_SRC [t, k] = 0xA ∧ (s.senseList t k).timeDone = false ∧ reached
      (s.rd F.SNS_INJ_TIME_TICK [t, k]) (short s.grid) = true ∧ u = s.setSenseList t k
      { s.senseList t k with timeDone := true } ∧ u.rdB F.SNS_INJ_STATUS_BUSY [t, k] = true) ∧
    (∃ (s u : State) (t k : Nat), s.rd F.SNS_INJ_CTRL_SRC [t, k] = 0xA ∧ (s.senseList t k).timeDone = false ∧ reached
      (s.rd F.SNS_INJ_TIME_TICK [t, k]) (short s.grid) = true ∧ u = s.setSenseList t k
      { s.senseList t k with timeDone := true } ∧ u.rdB F.SNS_INJ_STATUS_BUSY [t, k] = false) ∧
    (∃ (s : State) (t ph : Nat) (o : _), ph = (s.senseTile t).cycle / 32 ∧ (s.senseTile t).running = true ∧ s.rotates
      t = true ∧ s.scanOver t = true ∧ ((s.senseTile t).cycle + 1) % 32 = 0 ∧ s.rd F.SNS_ADC_LIST [t, 4] = (if ph < 4
      then ph else noList) ∧ (s.calU ⟨6, t, if ph < 4 then ph else 4⟩).result = some o) ∧
    (∃ (s : State) (t ph : Nat), ph = (s.senseTile t).cycle / 32 ∧ (s.senseTile t).running = true ∧ s.rotates t = true
      ∧ s.scanOver t = true ∧ ((s.senseTile t).cycle + 1) % 32 = 0 ∧ s.rd F.SNS_ADC_LIST [t, 4] = (if ph < 4 then ph
      else noList) ∧ (s.calU ⟨6, t, if ph < 4 then ph else 4⟩).result = none) :=
  ⟨⟨State.reset, 6, by decide +kernel⟩,
   ⟨withSense SenseList.idle, _, _, 6, 3, 3, by decide +kernel, by decide +kernel, by decide +kernel, rfl, rfl,
     by decide +kernel, by decide +kernel, by decide +kernel, by decide +kernel⟩,
   ⟨withSense { SenseList.idle with using_ := .pair 63 false false }, _, 6, 3, _, 63, senseObs, by decide +kernel,
     rfl, by decide +kernel, rfl⟩,
   ⟨withSense { SenseList.idle with using_ := .injected 63 }, _, 6, 3, _, 63, senseObs, by decide +kernel, rfl,
     by decide +kernel, rfl⟩,
   ⟨withSense { SenseList.idle with using_ := .pair 63 false true }, _, 6, 3, 63, false, senseObs, by decide +kernel,
     by decide +kernel, rfl⟩,
   ⟨State.reset, 6, 3, by decide +kernel, by decide +kernel⟩,
   ⟨injTime.wr F.SNS_INJ_STATUS_BUSY [6, 3] 1, _, 6, 3, by decide +kernel, by decide +kernel, by decide +kernel, rfl,
     by decide +kernel⟩,
   ⟨injTime, _, 6, 3, by decide +kernel, by decide +kernel, by decide +kernel, rfl, by decide +kernel⟩,
   ⟨rotating.setCalU ⟨6, 6, 0⟩ { CalUnit.idle with result := some okCal }, 6, _, okCal, rfl, by decide +kernel,
     by decide +kernel, by decide +kernel, by decide +kernel, by decide +kernel, by decide +kernel⟩,
   ⟨rotating, 6, _, rfl, by decide +kernel, by decide +kernel, by decide +kernel, by decide +kernel,
     by decide +kernel, by decide +kernel⟩⟩

theorem witness_WindowsAndClasses :
    (∃ (s : State) (t l k : Nat) (x : List Int) (w w' : Window) (v : WinLatch) (raw : Int × Int) (sat : Bool) (u :
      State), s.rdo.windows.find? (fun w => w.on t l && decide (w.tone = k) && w.raw.isNone && !w.dead) = some w ∧
      decisionTick w.e ≤ s.now ∧ x.length = 8 * w.wlen + 40 ∧ (∀ c ∈ x, -2048 ≤ c ∧ c ≤ 2047) ∧ v = w.latch.getD
      (s.latchOf w) ∧ s.integrate w v (s.samples w x) = (raw, sat) ∧ u = s.noteSat w sat ∧ w' =
      { w with raw := some raw, latch := some v, sat := sat, rangeSettle := (List.range w.wlen).any (u.masked w), overrange := ((x.drop 20).take (8 * w.wlen)).any overCode }
      ∧ w.xt = true) ∧
    (∃ (s : State) (t l k : Nat) (x : List Int) (w w' : Window) (v : WinLatch) (raw : Int × Int) (sat : Bool) (u :
      State), s.rdo.windows.find? (fun w => w.on t l && decide (w.tone = k) && w.raw.isNone && !w.dead) = some w ∧
      decisionTick w.e ≤ s.now ∧ x.length = 8 * w.wlen + 40 ∧ (∀ c ∈ x, -2048 ≤ c ∧ c ≤ 2047) ∧ v = w.latch.getD
      (s.latchOf w) ∧ s.integrate w v (s.samples w x) = (raw, sat) ∧ u = s.noteSat w sat ∧ w' =
      { w with raw := some raw, latch := some v, sat := sat, rangeSettle := (List.range w.wlen).any (u.masked w), overrange := ((x.drop 20).take (8 * w.wlen)).any overCode }
      ∧ w.xt = false) ∧
    (∃ (s v : State) (w : Window) (iq : Int × Int) (c : Nat) (m : Bool), v = s.gapNow w.tile w.line ∧ classify
      (s.centroids [w.tile, w.line, w.tone]) (s.rd F.RDO_TONE_MARGIN_MARGIN [w.tile, w.line, w.tone]) iq = (c, m)) ∧
    (∃ (cs : List (Int × Int)) (i : _), cs ≠ [] ∧ i < cs.length) ∧
    (∃ i, i < (classify [(0, 0), (10, 0)] 0 (9, 0)).1) ∧
    (∃ (a b p : Int × Int) (q : Nat), q = dist2 a b ∧ dist2 p a ≤ dist2 p b) :=
  ⟨⟨(withWindow (aWindow true none)).at_ 100000, 6, 7, 0, List.replicate 48 0, aWindow true none, _, _, _, _, _,
     by decide +kernel, by decide +kernel, by decide +kernel, by decide +kernel, rfl, Prod.mk.eta.symm, rfl, rfl,
     by decide +kernel⟩,
   ⟨(withWindow (aWindow false none)).at_ 100000, 6, 7, 0, List.replicate 48 0, aWindow false none, _, _, _, _, _,
     by decide +kernel, by decide +kernel, by decide +kernel, by decide +kernel, rfl, Prod.mk.eta.symm, rfl, rfl,
     by decide +kernel⟩,
   ⟨State.reset, _, aWindow false none, (0, 0), _, _, rfl, Prod.mk.eta.symm⟩,
   ⟨[(0, 0), (10, 0)], 1, by decide +kernel, by decide +kernel⟩,
   ⟨0, by decide +kernel⟩,
   ⟨(0, 0), (10, 0), (5, 1), _, rfl, by decide +kernel⟩⟩

theorem witness_GainAndSlices :
    (∃ (s : State) (t l : Nat), t < s.variant.tiles ∧ l < 8 ∧ s.rdB F.RDO_IN_CTRL_AUTO [t, l] = true ∧ s.rd
      F.RDO_STATUS_GAIN [t, l] ≠ 0) ∧
    (∃ (s : State) (t l : Nat), t < s.variant.tiles ∧ l < 8 ∧ s.rdB F.RDO_SLICE_ROT_EN [t, l] = true ∧ s.rd
      F.RDO_SLICE_FAILED [t, l] = 0 ∧ (s.line t l).rotSince + 2 ^ 20 ≤ s.now) ∧
    (∃ (s : State) (t l p f : Nat) (own : Bool), (s.line t l).repair = some (p, f, own)) ∧
    (∃ (s : State) (t l : Nat), t < s.variant.tiles ∧ l < 8) ∧
    (∃ (s : State) (t l d tone set : Nat) (mine : Window → Bool), t < s.variant.tiles ∧ l < 8 ∧ d < 4096 ∧ tone = s.rd
      F.RDO_WSEL_TONE [t, l] ∧ set = s.rd F.RDO_WSEL_SET [t, l] ∧ mine = (fun w => w.on t l && decide (w.tone = tone)
      && decide (w.set = set) && w.latch.isSome) ∧ s.rdo.windows.any (fun w => mine w && w.openAt s.now) = true) ∧
    (∃ (s : State) (t l d tone set : Nat) (mine : Window → Bool) (k : _), t < s.variant.tiles ∧ l < 8 ∧ d < 4096 ∧
      tone = s.rd F.RDO_WSEL_TONE [t, l] ∧ set = s.rd F.RDO_WSEL_SET [t, l] ∧ mine = (fun w => w.on t l && decide
      (w.tone = tone) && decide (w.set = set) && w.latch.isSome) ∧ s.rdo.windows.any (fun w => mine w && w.openAt
      s.now) = false ∧ k ≠ weightKey (8 * t + l) tone set d) :=
  ⟨⟨(State.reset.wr F.RDO_IN_CTRL_AUTO [6, 7] 1).wr F.RDO_STATUS_GAIN [6, 7] 3, 6, 7, by decide +kernel,
     by decide +kernel, by decide +kernel, by decide +kernel⟩,
   ⟨(State.reset.wr F.RDO_SLICE_ROT_EN [6, 7] 1).at_ (2 ^ 20), 6, 7, by decide +kernel, by decide +kernel,
     by decide +kernel, by decide +kernel, by decide +kernel⟩,
   ⟨State.reset.setLine 6 7 { LineRun.idle with repair := some (3, 8, false) }, 6, 7, 3, 8, false, by decide +kernel⟩,
   ⟨State.reset, 6, 7, by decide +kernel, by decide +kernel⟩,
   ⟨withWindow (aWindow false (some aLatch)), 6, 7, 4095, _, _, _, by decide +kernel, by decide +kernel,
     by decide +kernel, rfl, rfl, rfl, by decide +kernel⟩,
   ⟨State.reset, 6, 7, 4095, _, _, _, 0, by decide +kernel, by decide +kernel, by decide +kernel, rfl, rfl, rfl,
     by decide +kernel, by decide +kernel⟩⟩

theorem witness_DecisionFabric :
    (∃ (s u : State) (r : Nat) (m : FabMsg) (d : Update) (rest : List FabMsg), takeMsg r s.dec.fabric = some (m, rest)
      ∧ m.body = .upd d ∧ u = { s with dec := { s.dec with fabric := rest } } ∧ r = 7) ∧
    (∃ (s u : State) (r : Nat) (m : FabMsg) (d : Update) (rest : List FabMsg), takeMsg r s.dec.fabric = some (m, rest)
      ∧ m.body = .upd d ∧ u = { s with dec := { s.dec with fabric := rest } } ∧ r ≠ 7 ∧ s.dec.rebuild = none ∧
      u.tileFenced r = false) ∧
    (∃ u : Update, u.inval = true) ∧
    (∃ (s : State) (v : Slot) (u : Update), u.inval = false ∧ (v.aged = true ∨ s.vtickOld v = true ∨ 0 ≤ shortDiff
      u.origin.toNat v.vtick.toNat)) ∧
    (∃ (s : State) (v : Slot) (u : Update), u.inval = false ∧ v.aged = false ∧ s.vtickOld v = false ∧ shortDiff
      u.origin.toNat v.vtick.toNat < 0) ∧
    (∃ (s : State) (u : Update), s.updated (s.slot 7 u.slot) u = none) ∧
    (∃ (s : State) (r i : Nat), r ≤ 7 ∧ i < 1024 ∧ s.vtickOld (s.slot r i) = true ∧ (s.slot r i).aged = false) ∧
    (∃ v : Word, bits v.toNat 6 2 = 3) ∧
    (∃ (s : State) (v : Word) (p : Nat), bits v.toNat 6 2 ≠ 3 ∧ s.slotUser (960 + bits v.toNat 0 6) = .software p) ∧
    (∃ (s : State) (v : Word), bits v.toNat 6 2 ≠ 3 ∧ s.slotUser (960 + bits v.toNat 0 6) = .none) ∧
    (∃ (s u : State) (p n : Nat), p < 4 ∧ u = s.flushPort p ∧ n = u.perTick p - u.sentNow p) ∧
    (∃ (s : State) (t l : Nat), t < s.variant.tiles ∧ l < 32) :=
  ⟨⟨withFabric 7, _, 7, ⟨7, 0, 7, .upd (invalOf 5 1)⟩, invalOf 5 1, [], by decide +kernel, by decide +kernel, rfl,
     by decide +kernel⟩,
   ⟨withFabric 6, _, 6, ⟨6, 0, 7, .upd (invalOf 5 1)⟩, invalOf 5 1, [], by decide +kernel, by decide +kernel, rfl,
     by decide +kernel, by decide +kernel, by decide +kernel⟩,
   ⟨invalOf 1023 5, by decide +kernel⟩,
   ⟨State.reset, Slot.idle, writeOf 1023 1 1 false false 5 0, by decide +kernel, by decide +kernel⟩,
   ⟨State.reset, { Slot.idle with vtick := 6 }, writeOf 1023 1 1 false false 5 5, by decide +kernel,
     by decide +kernel, by decide +kernel, by decide +kernel⟩,
   ⟨State.reset.setSlot 7 1023 { Slot.idle with vtick := 6 }, writeOf 1023 1 1 false false 5 5, by decide +kernel⟩,
   ⟨(State.reset.setSlot 7 1023 { Slot.idle with vtick := BitVec.ofNat 32 (2 ^ 31 + 1) }), 7, 1023, by decide +kernel,
     by decide +kernel, by decide +kernel, by decide +kernel⟩,
   ⟨0xFF, by decide +kernel⟩,
   ⟨{ State.reset with dec := { State.reset.dec with users := [(63, .software 63)] } }, 0xBF, 63, by decide +kernel,
     by decide +kernel⟩,
   ⟨State.reset, 0xBF, by decide +kernel, by decide +kernel⟩,
   ⟨portUp, _, 3, _, by decide +kernel, rfl, rfl⟩,
   ⟨State.reset, 6, 31, by decide +kernel, by decide +kernel⟩⟩

theorem witness_SyndromeUnit :
    (∃ (s : State) (g h : Nat) (v w : Group) (es : List Slot), v = s.group g ∧ v.dueAt = some h ∧ h < s.now ∧
      s.shutdown = false ∧ es = v.members.map (s.slot 7) ∧ w =
      { v with fresh := [], dueAt := none, fired := some s.now, waiting := s.groupUsers g, parity := es.foldl (fun b e => b != (decide (e.cls = 1) || (v.map && decide (e.cls = 2)))) v.inv, leak := es.any (fun e => decide (e.cls = 2)), marg := es.any (fun e => e.margin), glate := es.any (fun e => e.late), origin := BitVec.ofNat 32 (latest (es.map (fun e => e.origin.toNat))) }) ∧
    (∃ (s u : State) (d f e entry at_ src : Nat) (err mir late margin : Bool) (gs : List Nat), gs = (s.decoder
      d).groups ∧ (s.decMode d = 1 ∨ s.decMode d = 2) ∧ s.lastFired d gs = some f ∧ f < s.now ∧ e = s.rd
      F.SPN_SYN_DEC_BASE_BASE [d] + s.decIndex gs ∧ mir = (decide (s.decMode d = 1) && s.stores.tableMir.contains e) ∧
      entry = (SMap.get 0 (if mir then s.stores.tableMirror else s.stores.table) e).toNat ∧ at_ = s.now + (if mir then
      4 else 1) ∧ src = (if s.decMode d = 1 then srcTable else srcPass) ∧ late = gs.any (fun g => (s.group g).glate) ∧
      margin = gs.any (fun g => (s.group g).marg || (s.group g).leak) ∧ u = ((s.consume d gs).count
      F.SPN_SYN_DEC_FIRES_FIRES [d] 1).wr F.SPN_SYN_DEC_FIRE_TICK_TICK [d] (short ((s.consume d gs).count
      F.SPN_SYN_DEC_FIRES_FIRES [d] 1).grid) ∧ (decide (s.decMode d = 1) && err && !mir) = false) ∧
    (∃ (s u : State) (d f e : Nat) (gs : List Nat), gs = (s.decoder d).groups ∧ s.decMode d = 1 ∧ s.lastFired d gs =
      some f ∧ f < s.now ∧ e = s.rd F.SPN_SYN_DEC_BASE_BASE [d] + s.decIndex gs ∧ s.stores.tableMir.contains e = false
      ∧ u = ((s.consume d gs).count F.SPN_SYN_DEC_FIRES_FIRES [d] 1).wr F.SPN_SYN_DEC_FIRE_TICK_TICK [d] (short
      ((s.consume d gs).count F.SPN_SYN_DEC_FIRES_FIRES [d] 1).grid)) ∧
    (∃ (s u : State) (d f port : Nat) (gs : List Nat) (round : BitVec 16) (origin : Word), gs = (s.decoder d).mask ∧
      s.decMode d = 3 ∧ s.lastFired d gs = some f ∧ port = s.rd F.SPN_SYN_DEC_CFG_PORT [d] ∧ round = BitVec.ofNat 16
      (s.rd F.SPN_SYN_DEC_STATE_ROUND [d] + 1) ∧ origin = BitVec.ofNat 32 (latest (gs.map (fun g => (s.group
      g).origin.toNat))) ∧ u = (((s.consume d gs).count F.SPN_SYN_DEC_FIRES_FIRES [d] 1).wr
      F.SPN_SYN_DEC_FIRE_TICK_TICK [d] (short s.grid)).wr F.SPN_SYN_DEC_STATE_ROUND [d] round.toNat ∧ u.portCarries
      port = true ∧ (u.decoder d).rounds.length < 8) ∧
    (∃ (s : State) (e : Nat) (k : _), s.stores.tableRepair.any (fun r => decide (r.1 = e)) = true ∧ k ≠ e) ∧
    (∃ (s : State) (e : Nat), e < 2 ^ 18 ∧ s.tableBusy e = true) ∧
    (∃ (s : State) (e : Nat) (k : _), e < 2 ^ 18 ∧ s.tableBusy e = false ∧ k ≠ e) ∧
    (∃ d : Nat, d < 4) :=
  ⟨⟨groupDue, 255, 0, _, _, _, rfl, by decide +kernel, by decide +kernel, by decide +kernel, rfl, rfl⟩,
   ⟨decAt 2, _, 3, 0, _, _, _, _, false, _, _, _, _, rfl, by decide +kernel, by decide +kernel, by decide +kernel,
     rfl, rfl, rfl, rfl, rfl, rfl, rfl, rfl, by decide +kernel⟩,
   ⟨decAt 1, _, 3, 0, _, _, rfl, by decide +kernel, by decide +kernel, by decide +kernel, rfl, by decide +kernel, rfl⟩,
   ⟨(decAt 3).setPortState 0 pActive, _, 3, 0, _, _, _, _, rfl, by decide +kernel, by decide +kernel, rfl, rfl, rfl,
     rfl, by decide +kernel, by decide +kernel⟩,
   ⟨{ State.reset with stores := { State.reset.stores with tableRepair := [(2 ^ 18 - 1, 0)] } }, 2 ^ 18 - 1, 0,
     by decide +kernel, by decide +kernel⟩,
   ⟨(busyPart (decAt 1)).wr F.SPN_SYN_DEC_CFG_PART [3] 63, 0, by decide +kernel, by decide +kernel⟩,
   ⟨State.reset, 2 ^ 18 - 1, 0, by decide +kernel, by decide +kernel, by decide +kernel⟩,
   ⟨3, by decide +kernel⟩⟩

theorem witness_LaneTraining :
    (∃ (s : State) (p l : Nat) (o : TrainObs), p < 4 ∧ l < 4 ∧ (s.lane p l).wait = 0 ∧ (s.lane p l).since + (if
      s.laneState p l = lDetect then 15625 else 0) ≤ s.now ∧ (s.laneState p l = lComma ∨ s.laneState p l = lParam) ∧
      o.chk ≠ goodChk o) ∧
    (∃ (s : State) (p l : Nat), p < 4 ∧ l < 4 ∧ (s.lane p l).wait = 0 ∧ (s.lane p l).since + (if s.laneState p l =
      lDetect then 15625 else 0) ≤ s.now ∧ s.laneState p l = lDetect ∧ (s.lane p l).polls = false ∧ s.portState p =
      pTraining) ∧
    (∃ (s : State) (p l : Nat), p < 4 ∧ l < 4 ∧ (s.lane p l).wait = 0 ∧ (s.lane p l).since + (if s.laneState p l =
      lDetect then 15625 else 0) ≤ s.now ∧ s.laneState p l = lBitLock) ∧
    (∃ (s : State) (p l : Nat) (o : TrainObs), p < 4 ∧ l < 4 ∧ (s.lane p l).wait = 0 ∧ (s.lane p l).since + (if
      s.laneState p l = lDetect then 15625 else 0) ≤ s.now ∧ s.laneState p l = lComma ∧ o.chk = goodChk o ∧ (s.lane p
      l).commaOk = false ∧ o.laneSeen = l) ∧
    (∃ (s : State) (p l : Nat) (o : TrainObs), p < 4 ∧ l < 4 ∧ (s.lane p l).wait = 0 ∧ (s.lane p l).since + (if
      s.laneState p l = lDetect then 15625 else 0) ≤ s.now ∧ s.laneState p l = lComma ∧ o.chk = goodChk o ∧ (s.lane p
      l).commaOk = false ∧ o.laneSeen ≠ l) ∧
    (∃ (s : State) (p l : Nat) (o : TrainObs), p < 4 ∧ l < 4 ∧ (s.lane p l).wait = 0 ∧ (s.lane p l).since + (if
      s.laneState p l = lDetect then 15625 else 0) ≤ s.now ∧ s.laneState p l = lDeskew ∧ o.skew ≤ 16) ∧
    (∃ (s : State) (p l : Nat) (o : TrainObs), p < 4 ∧ l < 4 ∧ (s.lane p l).wait = 0 ∧ (s.lane p l).since + (if
      s.laneState p l = lDetect then 15625 else 0) ≤ s.now ∧ s.laneState p l = lParam ∧ o.chk = goodChk o ∧ o.second =
      true) ∧
    (∃ (s : State) (p l k : Nat), k = s.rd F.BVN_LANE_STATUS_ATTEMPTS [p, l] + 1) ∧
    (∃ (s : State) (p l st : Nat), p < 4 ∧ l < 4 ∧ st = s.laneState p l ∧ (s.lane p l).wait = 0 ∧ (s.lane p l).since +
      1562500 ≤ s.now ∧ (s.lane p l).polls = false ∧ (st = 1 ∨ st = 2 ∨ (st = 3 ∧ (s.lane p l).commaOk = false))) ∧
    (∃ (s : State) (p l st : Nat), p < 4 ∧ l < 4 ∧ st = s.laneState p l ∧ (s.lane p l).wait = 0 ∧ (s.lane p l).since +
      1562500 ≤ s.now ∧ (s.lane p l).polls = false ∧ (st = 4 ∨ st = 5)) ∧
    (∃ (s : State) (p l : Nat), p < 4 ∧ l < 4 ∧ (s.lane p l).wait ≠ 0 ∧ (s.lane p l).wait ≤ s.now) ∧
    (∃ (s : State) (p l : Nat), p < 4 ∧ l < 4 ∧ s.laneState p l = lAbsent ∧ (s.lane p l).since + 15625000 ≤ s.now) ∧
    (∃ (s : State) (p l : Nat), p < 4 ∧ l < 4 ∧ 2 ≤ s.laneState p l ∧ s.laneState p l ≤ 5) ∧
    (∃ (s : State) (p t : Nat), p < 4 ∧ (s.port p).commaAt = some t ∧ t + 1562500 ≤ s.now ∧ s.portState p = pTraining) ∧
    (∃ (s : State) (p : Nat), p < 4 ∧ s.rdB F.BVN_PORT_CTRL_EN [p] = true ∧ s.rdB F.BVN_PORT_CTRL_TEST [p] = false) :=
  ⟨⟨lanesAt lComma, 3, 3, { trainObs with chk := goodChk trainObs + 1 }, by decide +kernel, by decide +kernel,
     by decide +kernel, by decide +kernel, by decide +kernel, by decide +kernel⟩,
   ⟨((lanesAt lDetect).setPortState 3 pTraining).at_ 15625, 3, 3, by decide +kernel, by decide +kernel,
     by decide +kernel, by decide +kernel, by decide +kernel, by decide +kernel, by decide +kernel⟩,
   ⟨lanesAt lBitLock, 3, 3, by decide +kernel, by decide +kernel, by decide +kernel, by decide +kernel,
     by decide +kernel⟩,
   ⟨lanesAt lComma, 3, 3, goodTrain false 3, by decide +kernel, by decide +kernel, by decide +kernel,
     by decide +kernel, by decide +kernel, by decide +kernel, by decide +kernel, by decide +kernel⟩,
   ⟨lanesAt lComma, 3, 3, goodTrain false 0, by decide +kernel, by decide +kernel, by decide +kernel,
     by decide +kernel, by decide +kernel, by decide +kernel, by decide +kernel, by decide +kernel⟩,
   ⟨lanesAt lDeskew, 3, 3, trainObs, by decide +kernel, by decide +kernel, by decide +kernel, by decide +kernel,
     by decide +kernel, by decide +kernel⟩,
   ⟨lanesAt lParam, 3, 3, goodTrain true 3, by decide +kernel, by decide +kernel, by decide +kernel,
     by decide +kernel, by decide +kernel, by decide +kernel, by decide +kernel⟩,
   ⟨State.reset, 3, 3, _, rfl⟩,
   ⟨(lanesAt lComma).at_ 1562500, 3, 3, _, by decide +kernel, by decide +kernel, rfl, by decide +kernel,
     by decide +kernel, by decide +kernel, by decide +kernel⟩,
   ⟨(lanesAt lParam).at_ 1562500, 3, 3, _, by decide +kernel, by decide +kernel, rfl, by decide +kernel,
     by decide +kernel, by decide +kernel, by decide +kernel⟩,
   ⟨(State.reset.setLane 3 3 { LaneRun.idle with wait := 5 }).at_ 5, 3, 3, by decide +kernel, by decide +kernel,
     by decide +kernel, by decide +kernel⟩,
   ⟨(lanesAt lAbsent).at_ 15625000, 3, 3, by decide +kernel, by decide +kernel, by decide +kernel, by decide +kernel⟩,
   ⟨lanesAt lParam, 3, 3, by decide +kernel, by decide +kernel, by decide +kernel, by decide +kernel⟩,
   ⟨((State.reset.setPortState 3 pTraining).setPort 3 { PortRun.idle with commaAt := some 0 }).at_ 1562500, 3, 0,
     by decide +kernel, by decide +kernel, by decide +kernel, by decide +kernel⟩,
   ⟨State.reset.wr F.BVN_PORT_CTRL_EN [3] 1, 3, by decide +kernel, by decide +kernel, by decide +kernel⟩⟩

theorem witness_PortMessages :
    (∃ (s : State) (p bad use : Nat) (ls : BitVec 4) (lost : Bool), p < 4 ∧ use = s.rd F.BVN_PORT_STATUS_IN_USE [p] ∧
      bad = ls.toNat &&& use ∧ bad ≠ 0 ∧ s.portCarries p = true ∧ bad = use ∧ lost = true) ∧
    (∃ (s : State) (p bad use : Nat) (ls : BitVec 4) (lost : Bool), p < 4 ∧ use = s.rd F.BVN_PORT_STATUS_IN_USE [p] ∧
      bad = ls.toNat &&& use ∧ bad ≠ 0 ∧ s.portCarries p = true ∧ (bad ≠ use ∨ lost = false)) ∧
    (∃ (s : State) (p : Nat) (r : PortRun), p < 4 ∧ s.portCarries p = true ∧ r = s.port p ∧ r.skipAt ≤ 2 * s.now + 1) ∧
    (∃ (s : State) (p : Nat) (d f : Int) (ls : List Nat), p < 4 ∧ s.portCarries p = true ∧ f = (s.port p).fill + d ∧
      ls = (List.range 4).filter (fun l => decide (s.laneState p l = lActive) || decide (s.laneState p l = lStandby))
      ∧ 16 < f ∧ f ≤ 32) ∧
    (∃ (s : State) (p : Nat) (d f : Int) (ls : List Nat), p < 4 ∧ s.portCarries p = true ∧ f = (s.port p).fill + d ∧
      ls = (List.range 4).filter (fun l => decide (s.laneState p l = lActive) || decide (s.laneState p l = lStandby))
      ∧ 0 ≤ f ∧ f < 16) ∧
    (∃ (s : State) (p : Nat) (d f : Int) (ls : List Nat), p < 4 ∧ s.portCarries p = true ∧ f = (s.port p).fill + d ∧
      ls = (List.range 4).filter (fun l => decide (s.laneState p l = lActive) || decide (s.laneState p l = lStandby))
      ∧ (f < 0 ∨ 32 < f)) ∧
    (∃ (s : State) (p : Nat) (m : BitVec 4) (r : PortRun) (mine : Bool), p < 4 ∧ s.portCarries p = true ∧ m ≠ 0 ∧ r =
      { s.port p with cur := [], os := [], tx := (s.port p).tx.filter (fun e => decide (e.rank ≠ 0)) } ∧ mine = (match
      (s.port p).restripe with | some x => x.2.2 | none => false)) ∧
    (∃ (s : State) (p : Nat) (m : BitVec 4) (d q : Word) (c : Byte), p < 4 ∧ s.portCarries p = true ∧ c ≠ xorBytes
      (rstBody m d q)) ∧
    (∃ (s : State) (p : Nat) (d q : Word) (c : Byte), p < 4 ∧ s.portCarries p = true ∧ c ≠ xorBytes (rplBody d q)) ∧
    (∃ (s : State) (p : Nat) (d q : Word), p < 4 ∧ s.portCarries p = true ∧ d = (s.port p).dCount ∧ q = (s.port
      p).pCount) ∧
    (∃ (s : State) (p : Nat) (d q : Word) (c : Byte), p < 4 ∧ s.portCarries p = true ∧ c ≠ crc8 (countBody d q)) ∧
    (∃ (s : State) (p : Nat), p < 4 ∧ s.portState p = pActive) ∧
    (∃ (s : State) (p : Nat), p < 4 ∧ s.portState p = pActive ∧ (s.port p).nakAt = none) ∧
    (∃ (s : State) (p : Nat), p < 4 ∧ s.portState p = pActive ∧ (s.port p).nakAt ≠ none) ∧
    (∃ (s : State) (p x y : Nat), p < 4 ∧ s.portState p = pActive ∧ controlKnown x y = false) ∧
    (∃ (s : State) (p t : Nat), p < 4 ∧ s.portCarries p = true ∧ (s.port p).nakAt = some t ∧ t + 157 ≤ s.now) ∧
    (∃ (s : State) (p : Nat), p < 4 ∧ s.portState p = pActive ∧ (s.port p).ackDue = true) ∧
    (∃ (s : State) (p : Nat), s.portTakes p = true) ∧
    (∃ (s u : State) (p d : Nat) (r : BitVec 16) (c : Word) (e : BitVec 32), s.portTakes p = true ∧ u = s.countP p ∧ e
      = crc32 (pktBody 2 (answerPayload d r c)) ∧ d < 4 ∧ u.decMode d = 3 ∧ u.rd F.SPN_SYN_DEC_CFG_PORT [d] = p) ∧
    (∃ (s u : State) (p d : Nat) (r : BitVec 16) (c : Word) (e : BitVec 32), s.portTakes p = true ∧ u = s.countP p ∧ e
      = crc32 (pktBody 2 (answerPayload d r c)) ∧ (4 ≤ d ∨ u.decMode d ≠ 3 ∨ u.rd F.SPN_SYN_DEC_CFG_PORT [d] ≠ p)) ∧
    (∃ (s : State) (p : Nat) (bs : List Byte), s.portTakes p = true ∧ 1 ≤ bs.length ∧ bs.length ≤ 512) ∧
    (∃ (s : State) (p : Nat) (bs : List Byte), s.portTakes p = true ∧ (bs.length = 0 ∨ 512 < bs.length)) ∧
    (∃ (s : State) (p w good : Nat), p < 4 ∧ good = ((List.range 4).filter (fun l => bit (s.rd F.BVN_PORT_STATUS_GOOD
      [p]) l && (decide (s.laneState p l = lActive) || decide (s.laneState p l = lStandby)))).foldl (fun m l => m + 2
      ^ l) 0 ∧ w = widthFor (min (laneCount good) (s.rd F.BVN_PORT_CTRL_WIDTH_MAX [p])) ∧ s.portState p = pActive ∧
      s.rd F.BVN_PORT_STATUS_WIDTH [p] < w) ∧
    (∃ (s : State) (p l : Nat), p < 4 ∧ l < 4 ∧ s.portState p = pTest) ∧
    (∃ (s : State) (p l : Nat), p < 4 ∧ l < 4 ∧ s.portState p = pActive ∧ s.laneState p l = lActive) :=
  ⟨⟨portAll, 3, _, _, 15, true, by decide +kernel, rfl, rfl, by decide +kernel, by decide +kernel, rfl,
     by decide +kernel⟩,
   ⟨portAll, 3, _, _, 8, false, by decide +kernel, rfl, rfl, by decide +kernel, by decide +kernel, by decide +kernel⟩,
   ⟨portUp.at_ 100, 3, _, by decide +kernel, by decide +kernel, rfl, by decide +kernel⟩,
   ⟨portUp, 3, 1, _, _, by decide +kernel, by decide +kernel, rfl, rfl, by decide +kernel, by decide +kernel⟩,
   ⟨portUp, 3, -1, _, _, by decide +kernel, by decide +kernel, rfl, rfl, by decide +kernel, by decide +kernel⟩,
   ⟨portUp, 3, 17, _, _, by decide +kernel, by decide +kernel, rfl, rfl, by decide +kernel⟩,
   ⟨portUp, 3, 15, _, _, by decide +kernel, by decide +kernel, by decide +kernel, rfl, rfl⟩,
   ⟨portUp, 3, 15, 0, 0, xorBytes (rstBody 15 0 0) + 1, by decide +kernel, by decide +kernel, by decide +kernel⟩,
   ⟨portUp, 3, 0, 0, xorBytes (rplBody 0 0) + 1, by decide +kernel, by decide +kernel, by decide +kernel⟩,
   ⟨portUp, 3, _, _, by decide +kernel, by decide +kernel, rfl, rfl⟩,
   ⟨portUp, 3, 0, 0, crc8 (countBody 0 0) + 1, by decide +kernel, by decide +kernel, by decide +kernel⟩,
   ⟨portUp, 3, by decide +kernel, by decide +kernel⟩,
   ⟨portUp, 3, by decide +kernel, by decide +kernel, by decide +kernel⟩,
   ⟨portUp.setPort 3 { PortRun.idle with nakAt := some 0 }, 3, by decide +kernel, by decide +kernel,
     by decide +kernel⟩,
   ⟨portUp, 3, 0, 0, by decide +kernel, by decide +kernel, by decide +kernel⟩,
   ⟨(portUp.setPort 3 { PortRun.idle with nakAt := some 0 }).at_ 157, 3, 0, by decide +kernel, by decide +kernel,
     by decide +kernel, by decide +kernel⟩,
   ⟨portUp.setPort 3 { PortRun.idle with ackDue := true }, 3, by decide +kernel, by decide +kernel, by decide +kernel⟩,
   ⟨portUp, 3, by decide +kernel⟩,
   ⟨(((decAt 3).wr F.SPN_SYN_DEC_CFG_PORT [3] 3).setPortState 3 pActive), _, 3, 3, 0, 0, _, by decide +kernel, rfl,
     rfl, by decide +kernel, by decide +kernel, by decide +kernel⟩,
   ⟨portUp, _, 3, 4, 0, 0, _, by decide +kernel, rfl, rfl, by decide +kernel⟩,
   ⟨portUp, 3, List.replicate 512 0, by decide +kernel, by decide +kernel, by decide +kernel⟩,
   ⟨portUp, 3, [], by decide +kernel, by decide +kernel⟩,
   ⟨(lanesAt lActive).setPortState 3 pActive |>.wr F.BVN_PORT_STATUS_GOOD [3] 8, 3, _, _, by decide +kernel, rfl, rfl,
     by decide +kernel, by decide +kernel⟩,
   ⟨State.reset.setPortState 3 pTest, 3, 3, by decide +kernel, by decide +kernel, by decide +kernel⟩,
   ⟨(lanesAt lActive).setPortState 3 pActive, 3, 3, by decide +kernel, by decide +kernel, by decide +kernel,
     by decide +kernel⟩⟩

theorem witness_DomainsAndExchanges :
    (∃ (s u v : State) (p n t : Nat), p < 4 ∧ s.portState p = pActive ∧ SMap.get 0 s.ts.annAt p ≤ s.now ∧ s.draw = (n,
      u) ∧ u.binNow = (t, v)) ∧
    (∃ (s u : State) (p q l t : Nat) (a : Announce) (c : BitVec 16), p < 4 ∧ s.portCarries p = true ∧ u = s.setTs
      { s.ts with heard := s.ts.heard.filter (fun e => decide (e.1 ≠ p)) ++ [(p, ⟨a, s.now⟩)] } ∧ c = crc16 (annBody q
      l t a)) ∧
    (∃ (s u : State) (p q l t : Nat) (a : Announce) (c : BitVec 16), p < 4 ∧ s.portCarries p = true ∧ u = s.setTs
      { s.ts with heard := s.ts.heard.filter (fun e => decide (e.1 ≠ p)) ++ [(p, ⟨a, s.now⟩)] } ∧ c ≠ crc16 (annBody q
      l t a)) ∧
    (∃ (s u : State) (p : Nat) (a : Announce), p < 4 ∧ s.portCarries p = true ∧ u = s.setTs
      { s.ts with heard := s.ts.heard.filter (fun e => decide (e.1 ≠ p)) ++ [(p, ⟨a, s.now⟩)] } ∧ a.hops < 31) ∧
    (∃ (s : State) (p : Nat) (h : Heard), p < 4 ∧ s.heard p = some h ∧ h.tick + 468750 < s.now) ∧
    (∃ (s u v : State) (p t1 : Nat), p = s.tsUp ∧ s.tsRole = roleSlave ∧ s.portState p = pActive ∧ s.ts.reqAt ≤ s.now
      ∧ u = (if s.ts.req.isSome then s.exchLost else s) ∧ u.binNow = (t1, v)) ∧
    (∃ (s u : State) (p t3 : Nat) (d : Word), s.tsDown.contains p = true ∧ s.portState p = pActive ∧ (s.tsRole =
      roleMaster ∨ (s.tsRole = roleSlave ∧ s.selfInDomain = true)) ∧ d.toNat = s.rd F.TIM_TS_DOMAIN_DOMAIN [] ∧
      s.binNow = (t3, u)) ∧
    (∃ (s : State) (q l k t1 t2 t3 a : Nat) (c : BitVec 16), s.ts.req = some (q, t1, l, a) ∧ s.tsRole = roleSlave ∧ c
      = crc16 (respBody q k t2 t3) ∧ s.upstreamIds = some false) ∧
    (∃ (s : State) (q l k t1 t2 t3 t4 a : Nat) (c : BitVec 16) (theta d : Int), s.ts.req = some (q, t1, l, a) ∧
      s.tsRole = roleSlave ∧ c = crc16 (respBody q k t2 t3) ∧ s.upstreamIds ≠ some false ∧ d = ((t4 : Int) - t3) +
      ((t2 : Int) - t1) ∧ theta = ((t4 : Int) - t3) - ((t2 : Int) - t1) - 2 * s.rdI F.TIM_TS_ASYM_ASYM [k] ∧ k = l ∧
      s.now ≤ a + 2 ^ s.rd F.TIM_TS_CFG_PERIOD [] ∧ (s.ts.exch = [] ∨ |2 * d - median2 (s.ts.exch.map Prod.snd)| ≤
      320)) ∧
    (∃ (s : State) (q l k t1 t2 t3 t4 a : Nat) (c : BitVec 16) (theta d : Int), s.ts.req = some (q, t1, l, a) ∧
      s.tsRole = roleSlave ∧ c = crc16 (respBody q k t2 t3) ∧ s.upstreamIds ≠ some false ∧ d = ((t4 : Int) - t3) +
      ((t2 : Int) - t1) ∧ theta = ((t4 : Int) - t3) - ((t2 : Int) - t1) - 2 * s.rdI F.TIM_TS_ASYM_ASYM [k] ∧ (k ≠ l ∨
      a + 2 ^ s.rd F.TIM_TS_CFG_PERIOD [] < s.now ∨ (s.ts.exch ≠ [] ∧ 320 < |2 * d - median2 (s.ts.exch.map
      Prod.snd)|))) :=
  ⟨⟨portUp, _, _, 3, _, _, by decide +kernel, by decide +kernel, by decide +kernel, Prod.mk.eta.symm,
     Prod.mk.eta.symm⟩,
   ⟨portUp, _, 3, 0, 3, 5, announced, _, by decide +kernel, by decide +kernel, rfl, rfl⟩,
   ⟨portUp, _, 3, 0, 3, 5, announced, crc16 (annBody 0 3 5 announced) + 1, by decide +kernel, by decide +kernel, rfl,
     by decide +kernel⟩,
   ⟨portUp, _, 3, announced, by decide +kernel, by decide +kernel, rfl, by decide +kernel⟩,
   ⟨({ State.reset with ts := { State.reset.ts with heard := [(3, ⟨announced, 0⟩)] } } : State).at_ 468751, 3,
     ⟨announced, 0⟩, by decide +kernel, by decide +kernel, by decide +kernel⟩,
   ⟨slaveUp, _, _, _, _, rfl, by decide +kernel, by decide +kernel, by decide +kernel, rfl, Prod.mk.eta.symm⟩,
   ⟨masterUp, _, 3, _, 0, by decide +kernel, by decide +kernel, by decide +kernel, by decide +kernel,
     Prod.mk.eta.symm⟩,
   ⟨({ exchanging slaveUp with ts := { (exchanging slaveUp).ts with heard := [(3, ⟨{ announced with domain := 1 }, 0⟩)] } }
     : State), 1, 3, 3, 0, 1, 1, 0, _, by decide +kernel, by decide +kernel, rfl, by decide +kernel⟩,
   ⟨exchanging slaveUp, 1, 3, 3, 0, 10, 11, 21, 0, _, _, _, by decide +kernel, by decide +kernel, rfl,
     by decide +kernel, rfl, rfl, by decide +kernel, by decide +kernel, by decide +kernel⟩,
   ⟨exchanging slaveUp, 1, 3, 2, 0, 10, 11, 21, 0, _, _, _, by decide +kernel, by decide +kernel, rfl,
     by decide +kernel, rfl, rfl, by decide +kernel⟩⟩

theorem witness_StepsAndEvents :
    (∃ s : State, s.tsRole = roleMaster ∧ s.ts.epochDue = true) ∧
    (∃ (s : State) (n : Int), s.tsRole = roleSlave ∧ s.tsState = tsStepWait ∧ (s.mode = mIdle ∨ s.mode = mSafe) ∧
      s.ts.exch ≠ [] ∧ n = roundDiv s.ts.thetaSum (10240 * s.ts.exch.length)) ∧
    (∃ (s : State) (h : Nat), s.tsState = tsHoldoverSt ∧ s.ts.holdAt = some h ∧ h + 156250 * s.rd F.TIM_TS_HOLD_HOLD
      [] ≤ s.now) ∧
    (∃ (s u : State) (n : Nat), s.tsRole = roleMaster ∧ s.rdB F.TIM_TS_CFG_SYNC_OUT [] = true ∧ s.grid % s.rd
      F.TIM_SYNC_CFG_PERIOD [] = 0 ∧ s.ts.synAt ≤ s.now ∧ s.draw = (n, u)) ∧
    (∃ (s u : State) (p id l x : Nat) (e : Word) (c : BitVec 16) (t : _), c = crc16 (synBody id e l x) ∧ s.tsRole =
      roleSlave ∧ p = s.tsUp ∧ s.portCarries p = true ∧ u = (if s.selfInDomain then s.sendSyn id e else s) ∧ u.rdB
      F.TIM_SYNC_CFG_IN_EN [] = true ∧ u.ts.stamps.find? (fun t => near2ms t.2 u.now) = some t) ∧
    (∃ (s u : State) (p id l x : Nat) (e : Word) (c : BitVec 16), c = crc16 (synBody id e l x) ∧ s.tsRole = roleSlave
      ∧ p = s.tsUp ∧ s.portCarries p = true ∧ u = (if s.selfInDomain then s.sendSyn id e else s) ∧ u.rdB
      F.TIM_SYNC_CFG_IN_EN [] = true ∧ u.ts.stamps.find? (fun t => near2ms t.2 u.now) = none) ∧
    (∃ (s : State) (t : Nat × Nat) (rest : List (Nat × Nat)), s.ts.stamps = t :: rest ∧ t.2 + 312500 < s.now) ∧
    (∃ (s : State) (n k l : Nat) (sum v : Int), s.ts.cal = some (n, k, sum, l) ∧ 4096 ≤ k ∧ v = clamp32 (s.rdI
      F.TIM_TS_ASYM_ASYM [l] + roundDiv sum 8192)) ∧
    (∃ (s u : State) (k : Nat), k < 8 ∧ s.rdB F.TIM_EVT_CTRL_EN [k] = true ∧ reached (s.rd F.TIM_EVT_TARGET_TICK [k])
      (short s.grid) = true ∧ u = (s.eventAction k).wr F.TIM_EVT_CTRL_FIRED [k] 1 ∧ u.rd F.TIM_EVT_PERIOD_PERIOD [k] =
      0) ∧
    (∃ (s u : State) (k : Nat), k < 8 ∧ s.rdB F.TIM_EVT_CTRL_EN [k] = true ∧ reached (s.rd F.TIM_EVT_TARGET_TICK [k])
      (short s.grid) = true ∧ u = (s.eventAction k).wr F.TIM_EVT_CTRL_FIRED [k] 1 ∧ u.rd F.TIM_EVT_PERIOD_PERIOD [k] ≠
      0) :=
  ⟨⟨masterUp.setTs { masterUp.ts with epochDue := true }, by decide +kernel, by decide +kernel⟩,
   ⟨((slaveUp.setTs { slaveUp.ts with exch := [(0, 0)] }).setTsState tsStepWait).modeOf mIdle, _, by decide +kernel,
     by decide +kernel, by decide +kernel, by decide +kernel, rfl⟩,
   ⟨(({ State.reset with ts := { State.reset.ts with holdAt := some 0 } } : State).setTsState tsHoldoverSt).at_
     (156250 * 2 ^ 16), 0, by decide +kernel, by decide +kernel, by decide +kernel⟩,
   ⟨(masterUp.wr F.TIM_TS_CFG_SYNC_OUT [] 1).wr F.TIM_SYNC_CFG_PERIOD [] 1, _, _, by decide +kernel,
     by decide +kernel, by decide +kernel, by decide +kernel, Prod.mk.eta.symm⟩,
   ⟨syncIn.setTs { syncIn.ts with stamps := [(0, 0)] }, _, _, 5, 3, 0, 7, _, (0, 0), rfl, by decide +kernel, rfl,
     by decide +kernel, rfl, by decide +kernel, by decide +kernel⟩,
   ⟨syncIn, _, _, 5, 3, 0, 7, _, rfl, by decide +kernel, rfl, by decide +kernel, rfl, by decide +kernel,
     by decide +kernel⟩,
   ⟨({ State.reset with ts := { State.reset.ts with stamps := [(0, 0)] } } : State).at_ 312501, (0, 0), [],
     by decide +kernel, by decide +kernel⟩,
   ⟨{ State.reset with ts := { State.reset.ts with cal := some (0, 4096, 0, 3) } }, 0, 4096, 3, 0, _,
     by decide +kernel, by decide +kernel, rfl⟩,
   ⟨eventOn, _, 7, by decide +kernel, by decide +kernel, by decide +kernel, rfl, by decide +kernel⟩,
   ⟨eventOn.wr F.TIM_EVT_PERIOD_PERIOD [7] 100, _, 7, by decide +kernel, by decide +kernel, by decide +kernel, rfl,
     by decide +kernel⟩⟩

theorem witness_HostLink :
    (∃ (s : State) (cxl : Bool) (w v want : Nat), want = (if cxl then 1 else 2) ∧ s.boot.perstN = true ∧
      s.boot.seqHold = false ∧ s.linkUp = false ∧ (s.rd F.SPN_HIF_STATUS_MODE [] = 0 ∨ s.rd F.SPN_HIF_STATUS_MODE [] =
      want) ∧ (w = 1 ∨ w = 2 ∨ w = 4 ∨ w = 8) ∧ 1 ≤ v ∧ v ≤ 5 ∧ (cxl = true → 3 ≤ v)) ∧
    (∃ s : State, s.linkUp = true) ∧
    (∃ s : State, s.linkUp = true ∧ s.d3hot = false) ∧
    (∃ s : State, s.d3hot = true) ∧
    (∃ s : State, s.linkUp = true ∧ s.hif.cfgReady = false) ∧
    (∃ s : State, s.linkUp = true ∧ s.hif.cfgReady = true ∧ s.cxlMode = true) ∧
    (∃ s : State, s.linkUp = true ∧ s.hif.cfgReady = true ∧ s.cxlMode = false) ∧
    (∃ s : State, s.cxlMode = true ∧ s.linkUp = true ∧ s.hif.viralEn = true) ∧
    (∃ s : State, s.cxlMode = true ∧ s.linkCarries = true) :=
  ⟨⟨State.reset.withBoot { State.reset.boot with perstN := true }, true, 8, 5, _, rfl, by decide +kernel,
     by decide +kernel, by decide +kernel, by decide +kernel, by decide +kernel, by decide +kernel, by decide +kernel,
     by decide +kernel⟩,
   ⟨linked, by decide +kernel⟩,
   ⟨linked, by decide +kernel, by decide +kernel⟩,
   ⟨linked.wr F.SPN_HIF_STATUS_D3HOT [] 1, by decide +kernel⟩,
   ⟨linked.setHif { linked.hif with cfgReady := false }, by decide +kernel, by decide +kernel⟩,
   ⟨linked, by decide +kernel, by decide +kernel, by decide +kernel⟩,
   ⟨linked.wr F.SPN_HIF_STATUS_MODE [] 2, by decide +kernel, by decide +kernel, by decide +kernel⟩,
   ⟨linked, by decide +kernel, by decide +kernel, by decide +kernel⟩,
   ⟨linked, by decide +kernel, by decide +kernel⟩⟩

theorem witness_HostMemoryRequests :
    (∃ (s : State) (d z : Nat), d < 2 ∧ s.linkUp = true ∧ s.hif.cfgReady = true ∧ (s.hdm d).locked = false ∧ z ≤ (if d
      = 0 then s.hostSize / 2 else s.hostSize - s.hostSize / 2)) ∧
    (∃ (s : State) (d z w : Nat), d < 2 ∧ s.linkUp = true ∧ s.hif.cfgReady = true ∧ (s.hdm d).locked = false ∧ (w ≠ 1
      ∨ (if d = 0 then s.hostSize / 2 else s.hostSize - s.hostSize / 2) < z)) ∧
    (∃ (s : State) (h a : Nat) (data : List Byte) (x : _), s.cxlMode = true ∧ s.linkUp = true ∧ s.d3hot = false ∧
      s.viral = false ∧ s.rdB F.SPN_HIF_STATUS_MEM_ACTIVE [] = true ∧ s.hif.memEn = true ∧ s.hdmMap h = some a ∧
      data.length ≤ 64 ∧ (x < a ∨ a + data.length ≤ x)) ∧
    (∃ (s : State) (h : Nat) (data : List Byte), s.cxlMode = true ∧ s.linkUp = true ∧ s.d3hot = false ∧ data.length ≤
      64 ∧ s.hdmMap h = none) ∧
    (∃ (s : State) (h : Nat), s.hif.hdm0.committed = true ∧ s.hif.hdm0.base ≤ h ∧ h < s.hif.hdm0.base +
      s.hif.hdm0.size) ∧
    (∃ s : State, s.linkCarries = true ∧ s.viral = false) ∧
    (∃ s : State, s.linkCarries = true ∧ s.viral = false) ∧
    (∃ s : State, s.linkCarries = true ∧ s.viral = false) :=
  ⟨⟨linked, 1, 0, by decide +kernel, by decide +kernel, by decide +kernel, by decide +kernel, by decide +kernel⟩,
   ⟨linked, 1, 0, 0, by decide +kernel, by decide +kernel, by decide +kernel, by decide +kernel, by decide +kernel⟩,
   ⟨mapped, 8191, 4095, List.replicate 64 1, 4094, by decide +kernel, by decide +kernel, by decide +kernel,
     by decide +kernel, by decide +kernel, by decide +kernel, by decide +kernel, by decide +kernel, by decide +kernel⟩,
   ⟨mapped, 4095, [], by decide +kernel, by decide +kernel, by decide +kernel, by decide +kernel, by decide +kernel⟩,
   ⟨mapped, 8191, by decide +kernel, by decide +kernel, by decide +kernel⟩,
   ⟨linked, by decide +kernel, by decide +kernel⟩,
   ⟨linked, by decide +kernel, by decide +kernel⟩,
   ⟨linked, by decide +kernel, by decide +kernel⟩⟩

theorem witness_DeviceMemory :
    (∃ (s : State) (o : MemObs) (old bad : List Nat), s.boot.accepted = true ∧ s.rdB F.SPN_HIF_STATUS_MEM_ACTIVE [] =
      false ∧ s.rdB F.SPN_HIF_STATUS_MEM_FAIL [] = false ∧ old = (s.msvc.sinterRetired.filter (fun d =>
      !o.changed.contains (d / 40))).filter (deviceFitted o.ranks) ∧ bad = o.badDevs.filter (fun d => deviceFitted
      o.ranks d && !old.contains d)) ∧
    (∃ s u : State, s.rdB F.SPN_HIF_STATUS_MEM_ACTIVE [] = true ∧ u = (List.range 80).foldl (fun s d => (s.wr
      F.MEM_DEV_ERR_LAST_PASS [d] (min 4095 (s.rd F.MEM_DEV_ERR_CE_COUNT [d]))).wr F.MEM_DEV_ERR_CE_COUNT [d] 0) s) ∧
    (∃ (s u : State) (d n : Nat), s.rdB F.SPN_HIF_STATUS_MEM_ACTIVE [] = true ∧ s.rdB F.MEM_DEV_ERR_FITTED [d] = true
      ∧ s.rdB F.MEM_DEV_ERR_RETIRED [d] = false ∧ n = s.rd F.MEM_RETIRE_THR_THR [] - s.rd F.MEM_DEV_ERR_CE_COUNT [d] ∧
      u = ((((s.count F.MEM_DEV_ERR_CE_COUNT [d] n).count F.MEM_CE_TOTAL_COUNT [] n).wr F.MEM_LAST_ERR_DEVICE [] d).wr
      F.MEM_LAST_ERR_UE [] 0).note (.spine 10) 5 d) ∧
    (∃ (s u : State) (a d : Nat) (w : MemOwner) (both : _), s.rdB F.SPN_HIF_STATUS_MEM_ACTIVE [] = true ∧ a < s.memCap
      ∧ (d < 80 ∨ d = 0x7F) ∧

      (let b := ((s.count F.MEM_UE_TOTAL_COUNT [] 1).wr F.MEM_LAST_ERR_DEVICE [] d).wr F.MEM_LAST_ERR_UE [] 1;
       let c := (b.wr F.MEM_LAST_ERR_OWNER [] (ownerCode w)).wr F.MEM_LAST_ERR_LO_ADDR_LO [] (64 * (a / 64));
       u = c.wr F.MEM_LAST_ERR_HI_ADDR_HI [] (64 * (a / 64) / 2 ^ 32))
      ∧ w = .firmware both) ∧
    (∃ (s u : State) (a d : Nat) (w : MemOwner) (v : _), s.rdB F.SPN_HIF_STATUS_MEM_ACTIVE [] = true ∧ a < s.memCap ∧
      (d < 80 ∨ d = 0x7F) ∧

      (let b := ((s.count F.MEM_UE_TOTAL_COUNT [] 1).wr F.MEM_LAST_ERR_DEVICE [] d).wr F.MEM_LAST_ERR_UE [] 1;
       let c := (b.wr F.MEM_LAST_ERR_OWNER [] (ownerCode w)).wr F.MEM_LAST_ERR_LO_ADDR_LO [] (64 * (a / 64));
       u = c.wr F.MEM_LAST_ERR_HI_ADDR_HI [] (64 * (a / 64) / 2 ^ 32))
      ∧ v = ((if u.msvc.poison.contains (a / 64) then u else
      { u with msvc := { u.msvc with poison := u.msvc.poison ++ [a / 64] } }).note (.spine 10) 3 d) ∧ (w = .hostRead ∨
      w = .hostCopy ∨ (w = .patrol ∧ u.memCap - 2 ^ 32 > a))) ∧
    (∃ (s u : State) (a d : Nat) (w : MemOwner) (v t k : _), s.rdB F.SPN_HIF_STATUS_MEM_ACTIVE [] = true ∧ a <
      s.memCap ∧ (d < 80 ∨ d = 0x7F) ∧

      (let b := ((s.count F.MEM_UE_TOTAL_COUNT [] 1).wr F.MEM_LAST_ERR_DEVICE [] d).wr F.MEM_LAST_ERR_UE [] 1;
       let c := (b.wr F.MEM_LAST_ERR_OWNER [] (ownerCode w)).wr F.MEM_LAST_ERR_LO_ADDR_LO [] (64 * (a / 64));
       u = c.wr F.MEM_LAST_ERR_HI_ADDR_HI [] (64 * (a / 64) / 2 ^ 32))
      ∧ v = ((if u.msvc.poison.contains (a / 64) then u else
      { u with msvc := { u.msvc with poison := u.msvc.poison ++ [a / 64] } }).note (.spine 10) 3 d) ∧ w = .ring t k) ∧
    (∃ (s u : State) (a d : Nat) (w : MemOwner) (v n l : _), s.rdB F.SPN_HIF_STATUS_MEM_ACTIVE [] = true ∧ a <
      s.memCap ∧ (d < 80 ∨ d = 0x7F) ∧

      (let b := ((s.count F.MEM_UE_TOTAL_COUNT [] 1).wr F.MEM_LAST_ERR_DEVICE [] d).wr F.MEM_LAST_ERR_UE [] 1;
       let c := (b.wr F.MEM_LAST_ERR_OWNER [] (ownerCode w)).wr F.MEM_LAST_ERR_LO_ADDR_LO [] (64 * (a / 64));
       u = c.wr F.MEM_LAST_ERR_HI_ADDR_HI [] (64 * (a / 64) / 2 ^ 32))
      ∧ v = ((if u.msvc.poison.contains (a / 64) then u else
      { u with msvc := { u.msvc with poison := u.msvc.poison ++ [a / 64] } }).note (.spine 10) 3 d) ∧ w = .staging n
      l) ∧
    (∃ s : State, s.rdB F.SPN_HIF_STATUS_MEM_ACTIVE [] = true) :=
  ⟨⟨State.reset.withBoot { State.reset.boot with accepted := true }, memObs, _, _, by decide +kernel,
     by decide +kernel, by decide +kernel, rfl, rfl⟩,
   ⟨State.reset.memOn, _, by decide +kernel, rfl⟩,
   ⟨State.reset.memOn.wr F.MEM_DEV_ERR_FITTED [79] 1, _, 79, _, by decide +kernel, by decide +kernel,
     by decide +kernel, rfl, rfl⟩,
   ⟨State.reset.memOn.wr F.MEM_CFG_CAPACITY [] 64, _, 2 ^ 36 - 1, 0x7F, .firmware true, true, by decide +kernel,
     by decide +kernel, by decide +kernel, rfl, by decide +kernel⟩,
   ⟨State.reset.memOn.wr F.MEM_CFG_CAPACITY [] 64, _, 2 ^ 36 - 2 ^ 32 - 1, 79, .patrol, _, by decide +kernel,
     by decide +kernel, by decide +kernel, rfl, rfl, by decide +kernel⟩,
   ⟨State.reset.memOn.wr F.MEM_CFG_CAPACITY [] 64, _, 0, 79, .ring 6 63, _, 6, 63, by decide +kernel,
     by decide +kernel, by decide +kernel, rfl, rfl, by decide +kernel⟩,
   ⟨State.reset.memOn.wr F.MEM_CFG_CAPACITY [] 64, _, 0, 79, .staging 1023 5, _, 1023, 5, by decide +kernel,
     by decide +kernel, by decide +kernel, rfl, rfl, by decide +kernel⟩,
   ⟨State.reset.memOn, by decide +kernel⟩⟩

theorem witness_Transactions :
    (∃ (n : Nat) (s : State) (p : List Byte), s.asked n 0x10 false (bytesOk 4 [1, 2, 3]) p ∧ s.txnPartOk (leAt p 0 1)
      = true ∧ s.openTxn (leAt p 0 1) = none) ∧
    (∃ (n q : Nat) (s : State) (p : List Byte) (t : Txn) (es l : List TxnEntry), s.asked n 0x11 true txnSetLayout p ∧
      s.named (s.mbx n).req.txnId = some (q, t) ∧ s.txnInTime ((s.mbx n).req.txnId.toNat % 256) ∧ es = txnEntries p ∧
      es.length ≠ 0 ∧ es.length ≤ 125 ∧ firstReason (s.stageEntryReason q) 0 es = none ∧ l = es.foldl putEntry
      t.entries ∧ l.length ≤ 4096 ∧ s.txnTotal - t.entries.length + l.length ≤ 16384) ∧
    (∃ (n q tick c : Nat) (s u : State) (p : List Byte) (t : Txn), s.asked n 0x12 true (bytesOk 8 []) p ∧ s.named
      (s.mbx n).req.txnId = some (q, t) ∧ s.txnInTime ((s.mbx n).req.txnId.toNat % 256) ∧ u = s.settleTxns ∧ tick =
      leAt p 0 8 ∧ c = (if tick = 0 then u.now + 1563 else u.fromGrid (tick / 128)) ∧ u.commTxn q = none ∧ tick % 128
      = 0 ∧ firstReason (u.checkEntry n c t.entries) 0 t.entries = none ∧ u.now + 1563 ≤ c ∧ c ≤ u.now + 1562500000) ∧
    (∃ (n q : Nat) (s : State) (p : List Byte) (t : Txn), s.asked n 0x13 true (bytesOk 0 []) p ∧ s.named (s.mbx
      n).req.txnId = some (q, t) ∧ s.txnInTime ((s.mbx n).req.txnId.toNat % 256)) ∧
    (∃ (n : Nat) (s : State) (p : List Byte) (t : Txn), s.asked n 0x13 true (bytesOk 0 []) p ∧ s.named (s.mbx
      n).req.txnId = none ∧ s.txnInTime ((s.mbx n).req.txnId.toNat % 256) ∧ s.commTxn ((s.mbx n).req.txnId.toNat %
      256) = some t ∧ t.id = (s.mbx n).req.txnId) ∧
    (∃ (s u : State) (q : Nat) (t : Txn), s.openTxn q = some t ∧ t.begin_ + 1562500000 ≤ s.now ∧ u = s.setOpen q none) :=
  ⟨⟨0, askedOf 0x10 [64, 0, 0, 0], [64, 0, 0, 0], by decide +kernel, by decide +kernel, by decide +kernel⟩,
   ⟨0, 64, (askedTxn 0x11 txnSetPayload).withTxn, txnSetPayload, devTrans, _, _, by decide +kernel, by decide +kernel,
     by decide +kernel, rfl, by decide +kernel, by decide +kernel, by decide +kernel, rfl, by decide +kernel,
     by decide +kernel⟩,
   ⟨0, 64, 0, _, (askedTxn 0x12 (leBytes 8 0)).withTxn, _, leBytes 8 0, devTrans, by decide +kernel,
     by decide +kernel, by decide +kernel, rfl, by decide +kernel, rfl, by decide +kernel, by decide +kernel,
     by decide +kernel, by decide +kernel, by decide +kernel⟩,
   ⟨0, 64, (askedTxn 0x13 []).withTxn, [], devTrans, by decide +kernel, by decide +kernel, by decide +kernel⟩,
   ⟨0, (askedTxn 0x13 []).withCommitted, [], devTrans, by decide +kernel, by decide +kernel, by decide +kernel,
     by decide +kernel, by decide +kernel⟩,
   ⟨State.reset.withTxn.at_ 1562500000, _, 64, devTrans, by decide +kernel, by decide +kernel, rfl⟩⟩

theorem witness_UnitCommands :
    (∃ (n t : Nat) (s u : State) (p : List Byte) (k : OutKind) (cs rs : List Nat), s.asked n 0x20 false (bytesOk 8 [5,
      6, 7]) p ∧ s.enRange p = .ok (k, t, cs) ∧ u = cs.foldl (fun (s : State) c => (s.enableOn k t c).enableDone k t
      c) s ∧ rs = cs.map (fun c => u.rd (fEnReason k) [t, c]) ∧ rs.all (fun x => decide (x ≠ 0)) = false) ∧
    (∃ (n t : Nat) (s u : State) (p : List Byte) (k : OutKind) (cs rs : List Nat), s.asked n 0x20 false (bytesOk 8 [5,
      6, 7]) p ∧ s.enRange p = .ok (k, t, cs) ∧ u = cs.foldl (fun (s : State) c => (s.enableOn k t c).enableDone k t
      c) s ∧ rs = cs.map (fun c => u.rd (fEnReason k) [t, c]) ∧ rs.all (fun x => decide (x ≠ 0)) = true) ∧
    (∃ (n t : Nat) (s : State) (p : List Byte) (k : OutKind) (cs : List Nat), s.asked n 0x21 false (bytesOk 8 [5, 6,
      7]) p ∧ s.enRange p = .ok (k, t, cs)) ∧
    (∃ (n : Nat) (s : State) (p : List Byte) (v : UnitDesc), s.asked n 0x22 false (bytesOk 4 []) p ∧ v = unitOfWord
      (leAt p 0 4) ∧ s.fenceReason v = 0) ∧
    (∃ (n : Nat) (s : State) (p : List Byte) (v : UnitDesc), s.asked n 0x22 false (bytesOk 4 []) p ∧ v = unitOfWord
      (leAt p 0 4) ∧ s.fenceReason v ≠ 0) ∧
    (∃ (n : Nat) (s : State) (p : List Byte) (v : UnitDesc), s.asked n 0xA1 false (bytesOk 4 []) p ∧ v = unitOfWord
      (leAt p 0 4) ∧ v.kind = 14 ∧ s.fenceReason v = 0) ∧
    (∃ (n : Nat) (s : State) (p : List Byte) (v : UnitDesc), s.asked n 0xA1 false (bytesOk 4 []) p ∧ v = unitOfWord
      (leAt p 0 4) ∧ v.kind ≠ 14) ∧
    (∃ (n : Nat) (s : State) (p : List Byte) (v : UnitDesc), s.asked n 0x23 false (bytesOk 4 []) p ∧ v = unitOfWord
      (leAt p 0 4) ∧ s.unfenceReason v = 0 ∧ s.ownFence v = true) ∧
    (∃ (n : Nat) (s : State) (p : List Byte) (v : UnitDesc), s.asked n 0x23 false (bytesOk 4 []) p ∧ v = unitOfWord
      (leAt p 0 4) ∧ s.unfenceReason v = 0 ∧ s.ownFence v = false) ∧
    (∃ (n : Nat) (s : State) (o : FinalObs) (v : UnitDesc), n < 64 ∧ s.mbxState n = mBusy ∧ (s.mbx n).inProg = true ∧
      (s.mbx n).req.opcode = 0x23 ∧ v = unitOfWord (leAt (s.mbx n).req.payload 0 4) ∧ o.ok = true) ∧
    (∃ (n : Nat) (s : State) (o : FinalObs) (v : UnitDesc), n < 64 ∧ s.mbxState n = mBusy ∧ (s.mbx n).inProg = true ∧
      (s.mbx n).req.opcode = 0x23 ∧ v = unitOfWord (leAt (s.mbx n).req.payload 0 4) ∧ o.ok = false) ∧
    (∃ (s : State) (v : UnitDesc), v.valid = true ∧ v.present s.variant = false) ∧
    (∃ (s : State) (v : UnitDesc), v.valid = true ∧ v.present s.variant = true ∧ v.kind = 13 ∧ v.index = 9) ∧
    (∃ (s : State) (v : UnitDesc), v.valid = true ∧ v.present s.variant = true ∧ v.kind = 14 ∧ s.rdB
      F.MEM_DEV_ERR_FITTED [v.index] = true ∧ s.ownFence v = false ∧ s.groupRetired v.index = true) :=
  ⟨⟨0, 6, calDone (askedOf 0x20 [4, 6, 63, 0, 1, 0, 0, 0]), _, [4, 6, 63, 0, 1, 0, 0, 0], .flux, [63], _,
     by decide +kernel, by decide +kernel, rfl, rfl, by decide +kernel⟩,
   ⟨0, 6, askedOf 0x20 [4, 6, 63, 0, 1, 0, 0, 0], _, [4, 6, 63, 0, 1, 0, 0, 0], .flux, [63], _, by decide +kernel,
     by decide +kernel, rfl, rfl, by decide +kernel⟩,
   ⟨0, 6, askedOf 0x21 [4, 6, 63, 0, 1, 0, 0, 0], [4, 6, 63, 0, 1, 0, 0, 0], .flux, [63], by decide +kernel,
     by decide +kernel⟩,
   ⟨0, askedOf 0x22 [4, 6, 63, 0], [4, 6, 63, 0], _, by decide +kernel, rfl, by decide +kernel⟩,
   ⟨0, askedOf 0x22 [13, 255, 9, 0], [13, 255, 9, 0], _, by decide +kernel, rfl, by decide +kernel⟩,
   ⟨0, (askedOf 0xA1 [14, 255, 79, 0]).wr F.MEM_DEV_ERR_FITTED [79] 1, [14, 255, 79, 0], _, by decide +kernel, rfl,
     by decide +kernel, by decide +kernel⟩,
   ⟨0, askedOf 0xA1 [4, 6, 63, 0], [4, 6, 63, 0], _, by decide +kernel, rfl, by decide +kernel⟩,
   ⟨0, (askedOf 0x23 [4, 6, 63, 0]).wr F.FLX_STATUS_FENCED [6, 63] 1, [4, 6, 63, 0], _, by decide +kernel, rfl,
     by decide +kernel, by decide +kernel⟩,
   ⟨0, askedOf 0x23 [4, 6, 63, 0], [4, 6, 63, 0], _, by decide +kernel, rfl, by decide +kernel, by decide +kernel⟩,
   ⟨0, workingOn 0x23 [4, 6, 63, 0], finalObs, _, by decide +kernel, by decide +kernel, by decide +kernel,
     by decide +kernel, rfl, by decide +kernel⟩,
   ⟨0, workingOn 0x23 [4, 6, 63, 0], { finalObs with ok := false }, _, by decide +kernel, by decide +kernel,
     by decide +kernel, by decide +kernel, rfl, by decide +kernel⟩,
   ⟨{ State.reset with variant := .sqc7064 }, ⟨4, 6, 63⟩, by decide +kernel, by decide +kernel⟩,
   ⟨State.reset, ⟨13, 255, 9⟩, by decide +kernel, by decide +kernel, by decide +kernel, by decide +kernel⟩,
   ⟨(State.reset.wr F.MEM_DEV_ERR_FITTED [79] 1).wr F.MEM_DEV_ERR_RETIRED [70] 1, ⟨14, 255, 79⟩, by decide +kernel,
     by decide +kernel, by decide +kernel, by decide +kernel, by decide +kernel, by decide +kernel⟩⟩

theorem witness_ProgramsAndImages :
    (∃ (n : Nat) (s : State) (p : List Byte) (a : ProgAsk), s.asked n 0x30 false (bytesOk 16 []) p ∧ a = progAsk p ∧
      s.progReason a = none ∧ 8192 < progLen a) ∧
    (∃ (n : Nat) (s : State) (p : List Byte) (a : ProgAsk) (i : _), s.asked n 0x30 false (bytesOk 16 []) p ∧ a =
      progAsk p ∧ s.progReason a = none ∧ progLen a ≤ 8192 ∧ i < progLen a) ∧
    (∃ (n : Nat) (s : State) (p : List Byte) (a : ProgAsk) (k : _), s.asked n 0x30 false (bytesOk 16 []) p ∧ a =
      progAsk p ∧ s.progReason a = none ∧ progLen a ≤ 8192 ∧ (k < 65536 * (9 * a.tile + a.cluster) + a.base ∨ 65536 *
      (9 * a.tile + a.cluster) + a.base + progLen a ≤ k)) ∧
    (∃ (n t c first cnt src : Nat) (b : Bool) (s : State) (p : List Byte) (ws : List NanoWord), s.asked n 0x35 false
      (bytesOk 14 []) p ∧ t = leAt p 0 1 ∧ c = leAt p 1 1 ∧ first = leAt p 2 2 ∧ cnt = leAt p 4 2 ∧ src = leAt p 6 8 ∧
      ws = (wordsOf (s.memRead src (32 * cnt)) 32 cnt).map (fun w => BitVec.ofNat 256 w) ∧ s.clusterReason t c = 0 ∧ 0
      < cnt ∧ first + cnt ≤ 4096 ∧ s.inactiveNano (9 * t + c) = some b ∧ s.swapping (9 * t + c) = false ∧ s.srcOk src
      (32 * cnt) = true ∧ firstReason (nanoReason c) 0 ws = none) ∧
    (∃ (n t c : Nat) (s : State) (p : List Byte), s.asked n 0x36 false (bytesOk 2 []) p ∧ t = leAt p 0 1 ∧ c = leAt p
      1 1 ∧ s.swapReason t c = none) ∧
    (∃ (t c g k n : Nat) (b : Bool) (s u : State), s.stores.nanoSwap.find? (fun w => decide (w.1 = 9 * t + c)) = some
      (g, b, k, some n) ∧ s.nanoRead (9 * t + c) (!b) = false ∧ u =
      { s with stores := { s.stores with nanoSwap := s.stores.nanoSwap.filter (fun w => decide (w.1 ≠ 9 * t + c)) } }
      ∧ u.working n 0x36 = true) ∧
    ((patchSig = true → patchState.asked 0 0x31 false (bytesOk 12 []) patchPayload ∧ patchState.stageReason 0 true
      0x7F (leAt patchPayload 0 8) (leAt patchPayload 8 4) = none)) ∧
    (∃ (n t a l : Nat) (s : State) (p : List Byte), s.asked n 0x32 false (bytesOk 13 []) p ∧ t = leAt p 0 1 ∧ a = leAt
      p 1 8 ∧ l = leAt p 9 4 ∧ t < 0x80 ∧ s.stageReason n false t a l = none) ∧
    (∃ (n : Nat) (s : State) (p : List Byte), s.asked n 0x33 false (bytesOk 0 []) p ∧ s.applyReason n = 0) ∧
    (∃ (n : Nat) (s : State) (p : List Byte), s.asked n 0x33 false (bytesOk 0 []) p ∧ s.applyReason n ≠ 0) ∧
    (∃ (n : Nat) (s : State) (u : UStage), s.stores.ustage = some u ∧ u.applying = true ∧ s.applied u = true ∧ u.mbx =
      some n ∧ (s.endApply u).working n 0x33 = true) ∧
    (∃ (n : Nat) (s : State) (p : List Byte) (u : UStage), s.asked n 0x34 false (bytesOk 0 []) p ∧ s.stores.ustage =
      some u ∧ u.applying = false) ∧
    (∃ (n : Nat) (s : State) (p : List Byte) (u : UStage), s.asked n 0x34 false (bytesOk 0 []) p ∧ s.stores.ustage =
      some u ∧ u.applying = true) :=
  ⟨⟨0, longState, longPayload, _, by decide +kernel, rfl, longState_ok, by decide +kernel⟩,
   ⟨0, progState, progPayload, _, 1, by decide +kernel, rfl, by decide +kernel, by decide +kernel, by decide +kernel⟩,
   ⟨0, progState, progPayload, _, 65536 * 62 + 65533, by decide +kernel, rfl, by decide +kernel, by decide +kernel,
     by decide +kernel⟩,
   ⟨0, 6, 8, 4095, 1, 64, true, nanoState, nanoPayload, _, by decide +kernel, by decide +kernel, by decide +kernel,
     by decide +kernel, by decide +kernel, by decide +kernel, rfl, by decide +kernel, by decide +kernel,
     by decide +kernel, by decide +kernel, by decide +kernel, by decide +kernel, by decide +kernel⟩,
   ⟨0, 6, 8, askedOf 0x36 [6, 8], [6, 8], by decide +kernel, by decide +kernel, by decide +kernel, by decide +kernel⟩,
   ⟨6, 8, 62, 0, 0, false, swapDone, _, by decide +kernel, by decide +kernel, rfl, by decide +kernel⟩,
   fun h => ⟨by decide +kernel, patchState_ok h⟩,
   ⟨0, 0x40, 0, 40, userState, userPayload, by decide +kernel, by decide +kernel, by decide +kernel,
     by decide +kernel, by decide +kernel, by decide +kernel⟩,
   ⟨0, withStage (askedOf 0x33 []) aStage, [], by decide +kernel, by decide +kernel⟩,
   ⟨0, askedOf 0x33 [], [], by decide +kernel, by decide +kernel⟩,
   ⟨0, withStage (workingOn 0x33 []) { aStage with targets := [(62, false)], applying := true, mbx := some 0 },
     { aStage with targets := [(62, false)], applying := true, mbx := some 0 }, by decide +kernel, by decide +kernel,
     by decide +kernel, by decide +kernel, by decide +kernel⟩,
   ⟨0, withStage (askedOf 0x34 []) aStage, [], aStage, by decide +kernel, by decide +kernel, by decide +kernel⟩,
   ⟨0, withStage (askedOf 0x34 []) { aStage with applying := true }, [], { aStage with applying := true },
     by decide +kernel, by decide +kernel, by decide +kernel⟩⟩

theorem witness_PartitionCommands :
    (∃ (n q pol k : Nat) (s : State) (p : List Byte), s.asked n 0x40 false (bytesOk 6 []) p ∧ q = leAt p 0 1 ∧ pol =
      leAt p 1 1 ∧ k = leAt p 2 4 ∧ q < 64 ∧ (pol = 1 ∨ pol = 2) ∧ s.partValid q = false ∧ s.quotaSum + k ≤ s.rd
      F.QMG_STAGE_POOL_POOL []) ∧
    (∃ (n q : Nat) (s : State) (p : List Byte), s.asked n 0x41 false (bytesOk 1 []) p ∧ q = leAt p 0 1 ∧ s.created q =
      true ∧ s.partBusy q = false ∧ s.rd F.QMG_PART_CFG_QUEUES [q] = 0 ∧ s.commTxn q = none) ∧
    (∃ (n q pol : Nat) (s : State) (p : List Byte), s.asked n 0x42 false (bytesOk 2 []) p ∧ q = leAt p 0 1 ∧ pol =
      leAt p 1 1 ∧ s.created q = true ∧ (pol = 1 ∨ pol = 2) ∧ s.partBusy q = false) ∧
    (∃ (n q kind op first cnt : Nat) (s : State) (p : List Byte) (us : List Nat), s.asked n 0x43 false (bytesOk 7 [])
      p ∧ q = leAt p 0 1 ∧ kind = leAt p 1 1 ∧ op = leAt p 2 1 ∧ first = leAt p 3 2 ∧ cnt = leAt p 5 2 ∧ us =
      (List.range cnt).map (fun i => first + i) ∧ s.created q = true ∧ assignCount kind ≠ 0 ∧ op ≤ 1 ∧ cnt ≠ 0 ∧ first
      + cnt ≤ assignCount kind ∧ (s.partBusy q || us.any (fun i => s.ownerBusy (s.unitOwner kind i))) = false ∧ (∀ i ∈
      us, s.unitOwner kind i = none ∨ s.unitOwner kind i = some q) ∧ (∀ i ∈ us, i / (assignCount kind / 7) <
      s.variant.tiles)) ∧
    (∃ (n q k : Nat) (s : State) (p : List Byte), s.asked n 0x44 false (bytesOk 25 []) p ∧ q = leAt p 0 2 ∧ k = leAt p
      2 1 ∧ q < 4096 ∧ s.created k = true ∧ s.rdB F.QMG_QP_VALID [q] = false ∧ ringOk (leAt p 19 2) (leAt p 3 8) 64 =
      true ∧ ringOk (leAt p 21 2) (leAt p 11 8) 32 = true ∧ 1024 ≤ leAt p 23 2 ∧ leAt p 23 2 ≤ 2047) ∧
    (∃ (n q k : Nat) (s : State) (p : List Byte), s.asked n 0x45 false (bytesOk 2 []) p ∧ q = leAt p 0 2 ∧ k = s.rd
      F.QMG_QP_CFG_PART [q] ∧ q < 4096 ∧ s.rdB F.QMG_QP_VALID [q] = true ∧ s.qm.jobs.any (fun e => decide (e.2.qp =
      q)) = false) ∧
    (∃ (n num part : Nat) (s : State) (p b : List Byte), s.asked n 0x46 false (bytesOk 15 []) p ∧ num = leAt p 0 2 ∧
      part = leAt p 2 1 ∧ b = s.memRead (leAt p 3 8) (leAt p 11 4) ∧ num ≤ 1023 ∧ s.created part = true ∧ s.srcOk
      (leAt p 3 8) (leAt p 11 4) = true ∧ s.planHeld num = false ∧ planOk b (planOf part b) = true ∧ s.planReason
      (planOf part b) = none) ∧
    (∃ (n num : Nat) (s : State) (p : List Byte), s.asked n 0x47 false (bytesOk 2 []) p ∧ num = leAt p 0 2 ∧ num ≤
      1023 ∧ s.planHeld num = false) ∧
    (∃ (n q : Nat) (tag : Word) (s : State) (p : List Byte) (js : List Nat), s.asked n 0x48 false (bytesOk 6 []) p ∧ q
      = leAt p 0 2 ∧ tag = BitVec.ofNat 32 (leAt p 2 4) ∧ js = s.jobsWhere (fun _ b => decide (b.qp = q) && decide
      (b.tag = tag)) ∧ js.isEmpty = false) :=
  ⟨⟨0, 63, 2, 0, askedOf 0x40 [63, 2, 0, 0, 0, 0], [63, 2, 0, 0, 0, 0], by decide +kernel, by decide +kernel,
     by decide +kernel, by decide +kernel, by decide +kernel, by decide +kernel, by decide +kernel, by decide +kernel⟩,
   ⟨0, 63, havePart (askedOf 0x41 [63]), [63], by decide +kernel, by decide +kernel, by decide +kernel,
     by decide +kernel, by decide +kernel, by decide +kernel⟩,
   ⟨0, 63, 2, havePart (askedOf 0x42 [63, 2]), [63, 2], by decide +kernel, by decide +kernel, by decide +kernel,
     by decide +kernel, by decide +kernel, by decide +kernel⟩,
   ⟨0, 63, 4, 0, 223, 1, havePart (askedOf 0x43 [63, 4, 0, 223, 0, 1, 0]), [63, 4, 0, 223, 0, 1, 0], [223],
     by decide +kernel, by decide +kernel, by decide +kernel, by decide +kernel, by decide +kernel, by decide +kernel,
     by decide +kernel, by decide +kernel, by decide +kernel, by decide +kernel, by decide +kernel, by decide +kernel,
     by decide +kernel, by decide +kernel, by decide +kernel⟩,
   ⟨0, 4095, 63, havePart (askedOf 0x44 qpPayload), qpPayload, by decide +kernel, by decide +kernel,
     by decide +kernel, by decide +kernel, by decide +kernel, by decide +kernel, by decide +kernel, by decide +kernel,
     by decide +kernel, by decide +kernel⟩,
   ⟨0, 4095, _, (askedOf 0x45 [255, 15]).wr F.QMG_QP_VALID [4095] 1, [255, 15], by decide +kernel, by decide +kernel,
     rfl, by decide +kernel, by decide +kernel, by decide +kernel⟩,
   ⟨0, 1023, 63, planState, planPayload, _, by decide +kernel, by decide +kernel, by decide +kernel, rfl,
     by decide +kernel, by decide +kernel, by decide +kernel, by decide +kernel, by decide +kernel, by decide +kernel⟩,
   ⟨0, 1023, askedOf 0x47 [255, 3], [255, 3], by decide +kernel, by decide +kernel, by decide +kernel,
     by decide +kernel⟩,
   ⟨0, 5, 7, (askedOf 0x48 [5, 0, 7, 0, 0, 0]).setJob 1023 { Job.idle with kind := 1, qp := 5, tag := 7 }, [5, 0, 7,
     0, 0, 0], [1023], by decide +kernel, by decide +kernel, by decide +kernel, by decide +kernel, by decide +kernel⟩⟩

theorem witness_DecisionAndTimeCommands :
    (∃ (n slot kind q port : Nat) (s : State) (p : List Byte), s.asked n 0x50 false (bytesOk 5 []) p ∧ slot = leAt p 0
      2 ∧ kind = leAt p 2 1 ∧ q = leAt p 3 1 ∧ port = leAt p 4 1 ∧ 960 ≤ slot ∧ slot ≤ 1023 ∧ port ≤ 3 ∧ (kind = 2 ∨
      kind = 3) ∧ s.created q = true ∧ s.partBusy q = false ∧ s.slotUser slot = .none) ∧
    (∃ (n slot kind q port : Nat) (s : State) (p : List Byte) (j t : _), s.asked n 0x50 false (bytesOk 5 []) p ∧ slot
      = leAt p 0 2 ∧ kind = leAt p 2 1 ∧ q = leAt p 3 1 ∧ port = leAt p 4 1 ∧ 960 ≤ slot ∧ slot ≤ 1023 ∧ port ≤ 3 ∧
      kind = 0 ∧ (s.slotUser slot = .imp j t ∨ s.slotUser slot = .software t)) ∧
    (∃ (n port : Nat) (s : State) (p : List Byte) (l : List Nat), s.asked n 0x51 false (listOk 2) p ∧ port = leAt p 0
      1 ∧ l = slotList p 2 (leAt p 1 1) ∧ port ≤ 3 ∧ l.length ≤ 64 ∧ l.any (fun i => decide (1023 < i)) = false ∧
      l.findIdx? s.slotAbsent = none ∧ s.concerned ((SMap.get [] s.dec.exports port ++ l).map s.slotOwner) = false) ∧
    (∃ (n port : Nat) (s : State) (p : List Byte) (es : List (Nat × Nat)), s.asked n 0x52 false (listOk 4) p ∧ port =
      leAt p 0 1 ∧ es = (List.range (leAt p 1 1)).map (fun i => (leAt p (2 + 4 * i) 2, leAt p (4 + 4 * i) 2)) ∧ port ≤
      3 ∧ es.length ≤ 64 ∧ es.any (fun (e : Nat × Nat) => decide (1023 < e.1) || decide (e.2 < 960) || decide (1023 <
      e.2)) = false ∧ s.concerned ((SMap.get [] s.dec.imports port ++ es).map (fun e => s.userPart e.2)) = false ∧
      es.findIdx? (fun e => !s.importOf port e.2) = none ∧ s.sameDomain port = true) ∧
    (∃ (n g fl : Nat) (s : State) (p : List Byte) (l : List Nat) (ps : List (Option Nat)), s.asked n 0x53 false (fun b
      => decide (3 ≤ b.length) && decide (b.length = 3 + 2 * leAt b 2 1)) p ∧ g = leAt p 0 1 ∧ fl = leAt p 1 1 ∧ l =
      slotList p 3 (leAt p 2 1) ∧ ps = (s.groupUsers g).map (fun d => some (s.rd F.SPN_SYN_DEC_CFG_PART [d])) ∧
      l.isEmpty = false ∧ l.length ≤ 64 ∧ fl ≤ 3 ∧ l.findIdx? (fun i => decide (1023 < i) || (decide (896 ≤ i) &&
      decide (i < 960))) = none ∧ l.findIdx? s.slotAbsent = none ∧ s.concerned (((s.group g).members ++ l).map
      s.slotOwner ++ ps) = false ∧ l.findIdx? (fun i => ps.any (fun x => decide (s.slotOwner i ≠ x))) = none) ∧
    (∃ (n : Nat) (s : State) (p : List Byte) (a : DecAsk), s.asked n 0x54 false (bytesOk 61 []) p ∧ a = decAsk p ∧
      a.fieldsOk = true ∧ s.created a.part = true ∧ s.concerned [some a.part, if (s.decoder a.dec).owned then some
      (s.rd F.SPN_SYN_DEC_CFG_PART [a.dec]) else none] = false ∧ s.decForeign a = false) ∧
    (∃ (n : Nat) (s : State) (p : List Byte) (a : TimeAsk), s.asked n 0x60 false (bytesOk 21 []) p ∧ a = timeAsk p ∧
      s.timeReason a = 0 ∧ s.rdB F.TIM_TS_STATUS_STEPPED [] = true) ∧
    (∃ (n : Nat) (s : State) (p : List Byte) (a : TimeAsk), s.asked n 0x60 false (bytesOk 21 []) p ∧ a = timeAsk p ∧
      s.timeReason a = 0 ∧ s.rdB F.TIM_TS_STATUS_STEPPED [] = false) ∧
    (∃ (n : Nat) (s : State) (p : List Byte), s.asked n 0x61 false (bytesOk 8 []) p ∧ s.mode = mIdle) ∧
    (∃ (n : Nat) (s : State) (p : List Byte), s.asked n 0x61 false (bytesOk 8 []) p ∧ s.mode ≠ mIdle) ∧
    (∃ (n : Nat) (s : State) (p : List Byte), s.asked n 0x62 false (bytesOk 0 []) p ∧ s.ts.cal = none ∧ s.rd
      F.TDC_IN_CFG_FILT [8] = 0 ∧ s.tsState = tsLocked ∧ s.pairFresh = true) ∧
    (∃ (n : Nat) (s : State) (p : List Byte), s.asked n 0x70 false (fun p => bytesOk 44 (3 :: (List.range 34).map (· +
      10)) p && decide (leAt p 1 1 < 8) && decide (leAt p 2 1 < 2)) p ∧ s.calRefusal (calAsk p 0) false = 0) ∧
    (∃ (n v : Nat) (s : State) (p : List Byte), s.asked n 0x71 false (bytesOk 8 []) p ∧ s.cal.refReq = none ∧ v = leAt
      p 0 4 ∧ 1000000 ≤ v ∧ v ≤ 5000000 ∧ s.allIdle = true ∧ (s.mode = mIdle ∨ s.mode = mSafe)) :=
  ⟨⟨0, 1023, 3, 63, 3, havePart (askedOf 0x50 [255, 3, 3, 63, 3]), [255, 3, 3, 63, 3], by decide +kernel,
     by decide +kernel, by decide +kernel, by decide +kernel, by decide +kernel, by decide +kernel, by decide +kernel,
     by decide +kernel, by decide +kernel, by decide +kernel, by decide +kernel, by decide +kernel⟩,
   ⟨0, 1023, 0, 63, 3, (askedOf 0x50 [255, 3, 0, 63, 3]).setSlotUser 1023 (.imp 3 63), [255, 3, 0, 63, 3], 3, 63,
     by decide +kernel, by decide +kernel, by decide +kernel, by decide +kernel, by decide +kernel, by decide +kernel,
     by decide +kernel, by decide +kernel, by decide +kernel, by decide +kernel⟩,
   ⟨0, 3, askedOf 0x51 [3, 1, 255, 3], [3, 1, 255, 3], [1023], by decide +kernel, by decide +kernel,
     by decide +kernel, by decide +kernel, by decide +kernel, by decide +kernel, by decide +kernel, by decide +kernel⟩,
   ⟨0, 3, inDomain ((askedOf 0x52 [3, 1, 0, 0, 255, 3]).setSlotUser 1023 (.imp 3 63)), [3, 1, 0, 0, 255, 3], [(0,
     1023)], by decide +kernel, by decide +kernel, by decide +kernel, by decide +kernel, by decide +kernel,
     by decide +kernel, by decide +kernel, by decide +kernel, by decide +kernel⟩,
   ⟨0, 255, 3, askedOf 0x53 [255, 3, 1, 255, 3], [255, 3, 1, 255, 3], [1023], [], by decide +kernel,
     by decide +kernel, by decide +kernel, by decide +kernel, by decide +kernel, by decide +kernel, by decide +kernel,
     by decide +kernel, by decide +kernel, by decide +kernel, by decide +kernel, by decide +kernel⟩,
   ⟨0, havePart (askedOf 0x54 decPayload), decPayload, _, by decide +kernel, rfl, by decide +kernel,
     by decide +kernel, by decide +kernel, by decide +kernel⟩,
   ⟨0, ((askedOf 0x60 timePayload).modeOf mIdle).wr F.TIM_TS_STATUS_STEPPED [] 1, timePayload, _, by decide +kernel,
     rfl, by decide +kernel, by decide +kernel⟩,
   ⟨0, (askedOf 0x60 timePayload).modeOf mIdle, timePayload, _, by decide +kernel, rfl, by decide +kernel,
     by decide +kernel⟩,
   ⟨0, (askedOf 0x61 (leBytes 8 9)).modeOf mIdle, leBytes 8 9, by decide +kernel, by decide +kernel⟩,
   ⟨0, askedOf 0x61 (leBytes 8 9), leBytes 8 9, by decide +kernel, by decide +kernel⟩,
   ⟨0, ((askedOf 0x62 []).setTs { (askedOf 0x62 []).ts with lastPair := some 0 }).wr F.TIM_TS_STATUS_STATE []
     tsLocked, [], by decide +kernel, by decide +kernel, by decide +kernel, by decide +kernel, by decide +kernel⟩,
   ⟨0, askedOf 0x70 calPayload, calPayload, by decide +kernel, by decide +kernel⟩,
   ⟨0, 5000000, (askedOf 0x71 (leBytes 4 5000000 ++ leBytes 4 7)).modeOf mIdle, leBytes 4 5000000 ++ leBytes 4 7,
     by decide +kernel, by decide +kernel, by decide +kernel, by decide +kernel, by decide +kernel, by decide +kernel,
     by decide +kernel⟩⟩

theorem witness_QueueEntries :
    (∃ (q v h l : Nat) (s : State), q < 4096 ∧ h = s.rd F.QMG_QP_SQ_HEAD [q] ∧ l = (s.qp q).sqLen ∧ s.rdB
      F.QMG_QP_VALID [q] = true ∧ v < l ∧ ((s.qp q).sqTail + l - h) % l ≤ (v + l - h) % l) ∧
    (∃ (q v h l : Nat) (s : State), q < 4096 ∧ h = s.rd F.QMG_QP_SQ_HEAD [q] ∧ l = (s.qp q).sqLen ∧ (s.rdB
      F.QMG_QP_VALID [q] = false ∨ l ≤ v ∨ (v + l - h) % l < ((s.qp q).sqTail + l - h) % l)) ∧
    (∃ (q v t h l : Nat) (s : State), q < 4096 ∧ t = s.rd F.QMG_QP_CQ_TAIL [q] ∧ h = (s.qp q).cqHead ∧ l = (s.qp
      q).cqLen ∧ s.rdB F.QMG_QP_VALID [q] = true ∧ v < l ∧ (v + l - h) % l ≤ (t + l - h) % l) ∧
    (∃ (q v t h l : Nat) (s : State), q < 4096 ∧ t = s.rd F.QMG_QP_CQ_TAIL [q] ∧ h = (s.qp q).cqHead ∧ l = (s.qp
      q).cqLen ∧ (s.rdB F.QMG_QP_VALID [q] = false ∨ l ≤ v ∨ (t + l - h) % l < (v + l - h) % l)) ∧
    (∃ (c : Instr) (q k h r : Nat) (e : List Byte) (s u v : State) (a b : Job), k = leAt e 0 1 ∧ ((c = .submitRun q e
      ∧ (k ≤ 1 ∨ 7 ≤ k)) ∨ (c = .submitCapture q e ∧ k = 2) ∨ (c = .submitCalibrate q e ∧ k = 3) ∨ (c =
      .submitStreamOpen q e ∧ k = 4) ∨ (c = .submitStreamClose q e ∧ k = 5) ∨ (c = .submitScan q e ∧ k = 6)) ∧ q <
      4096 ∧ e.length = 64 ∧ s.fetchPaused = false ∧ s.entriesRead = true ∧ s.qpTurn q = true ∧ h = (s.rd
      F.QMG_QP_SQ_HEAD [q] + 1) % (s.qp q).sqLen ∧ u =
      { s.wr F.QMG_QP_SQ_HEAD [q] h with qm := { s.qm with rr := q } } ∧ a = jobOf e q (u.rd F.QMG_QP_CFG_PART [q])
      u.now h ∧ v = (if a.kind = 1 ∧ u.planLoaded a.plan then u.setPlan a.plan (u.scanPlan (u.plan a.plan)) else u) ∧
      b = (if v.continuity a.part then a else { a with startAt := v.fixedStart a }) ∧ r = (if v.admitReason e b ≠ 0
      then v.admitReason e b else if v.continuity a.part = false ∧ v.timingReason b ≠ 0 then v.timingReason b else if
      v.txnLocks b = true then 0x0908 else 0) ∧ r = 0) ∧
    (∃ (c : Instr) (q k h r : Nat) (e : List Byte) (s u v : State) (a b : Job), k = leAt e 0 1 ∧ ((c = .submitRun q e
      ∧ (k ≤ 1 ∨ 7 ≤ k)) ∨ (c = .submitCapture q e ∧ k = 2) ∨ (c = .submitCalibrate q e ∧ k = 3) ∨ (c =
      .submitStreamOpen q e ∧ k = 4) ∨ (c = .submitStreamClose q e ∧ k = 5) ∨ (c = .submitScan q e ∧ k = 6)) ∧ q <
      4096 ∧ e.length = 64 ∧ s.fetchPaused = false ∧ s.entriesRead = true ∧ s.qpTurn q = true ∧ h = (s.rd
      F.QMG_QP_SQ_HEAD [q] + 1) % (s.qp q).sqLen ∧ u =
      { s.wr F.QMG_QP_SQ_HEAD [q] h with qm := { s.qm with rr := q } } ∧ a = jobOf e q (u.rd F.QMG_QP_CFG_PART [q])
      u.now h ∧ v = (if a.kind = 1 ∧ u.planLoaded a.plan then u.setPlan a.plan (u.scanPlan (u.plan a.plan)) else u) ∧
      b = (if v.continuity a.part then a else { a with startAt := v.fixedStart a }) ∧ r = (if v.admitReason e b ≠ 0
      then v.admitReason e b else if v.continuity a.part = false ∧ v.timingReason b ≠ 0 then v.timingReason b else if
      v.txnLocks b = true then 0x0908 else 0) ∧ r ≠ 0) :=
  ⟨⟨4095, 15, _, _, pairUp [], by decide +kernel, rfl, rfl, by decide +kernel, by decide +kernel, by decide +kernel⟩,
   ⟨4095, 16, _, _, pairUp [], by decide +kernel, rfl, rfl, by decide +kernel⟩,
   ⟨4095, 15, _, _, _, (pairUp []).wr F.QMG_QP_CQ_TAIL [4095] 15, by decide +kernel, rfl, rfl, rfl, by decide +kernel,
     by decide +kernel, by decide +kernel⟩,
   ⟨4095, 1, _, _, _, pairUp [], by decide +kernel, rfl, rfl, rfl, by decide +kernel⟩,
   ⟨.submitCapture 4095 capEntry, 4095, 2, 1, 0, capEntry, (pairUp []).modeOf mIdle, taken ((pairUp []).modeOf mIdle),
     taken ((pairUp []).modeOf mIdle), capJob ((pairUp []).modeOf mIdle),
     { capJob ((pairUp []).modeOf mIdle) with startAt := (taken ((pairUp []).modeOf mIdle)).fixedStart (capJob ((pairUp []).modeOf mIdle)) },
     by decide +kernel, by decide +kernel, by decide +kernel, by decide +kernel, by decide +kernel, by decide +kernel,
     by decide +kernel, by decide +kernel, rfl, rfl, (by exact (if_neg (by decide +kernel)).symm),
     (by exact (if_neg (by decide +kernel)).symm), by decide +kernel, by decide +kernel⟩,
   ⟨.submitCapture 4095 capEntry, 4095, 2, 1, 0x0504, capEntry, pairUp [], taken (pairUp []), taken (pairUp []),
     capJob (pairUp []), { capJob (pairUp []) with startAt := (taken (pairUp [])).fixedStart (capJob (pairUp [])) },
     by decide +kernel, by decide +kernel, by decide +kernel, by decide +kernel, by decide +kernel, by decide +kernel,
     by decide +kernel, by decide +kernel, rfl, rfl, (by exact (if_neg (by decide +kernel)).symm),
     (by exact (if_neg (by decide +kernel)).symm), by decide +kernel, by decide +kernel⟩⟩

theorem witness_JobsAndShots :
    (∃ (j t : Nat) (late : Bool) (s u : State), s.startOf j = some (t, late) ∧ (s.job j).open_ = true ∧ (s.job
      j).begun = false ∧ t ≤ s.now ∧ u = s.setJob j { s.job j with startAt := some t, begun := true, nextAt := none }) ∧
    (∃ (j t : Nat) (s : State) (b : Job), b = s.job j ∧ b.nextAt = some t ∧ b.open_ = true ∧ b.kind = 1 ∧ b.begun =
      true ∧ t ≤ s.now ∧ b.rerun = [] ∧ b.redo = [] ∧ b.shotsRun < b.shots ∧ s.noRoom j = true) ∧
    (∃ (j t : Nat) (s : State) (b : Job) (a : _), b = s.job j ∧ b.nextAt = some t ∧ b.open_ = true ∧ b.kind = 1 ∧
      b.begun = true ∧ t ≤ s.now ∧ b.rerun = [] ∧ b.redo = [] ∧ b.shotsRun < b.shots ∧ s.noRoom j = false ∧ a = (if
      b.held = true then s.now else t)) ∧
    (∃ (j r d : Nat) (s w u : State) (b : Job), b = s.job j ∧ b.recAt = some r ∧ s.rerunReady j = true ∧ r < s.now ∧
      b.shotAt ≤ r ∧ d = r + 1 - b.shotAt ∧ w = s.parkShot j false ∧ u = (w.partStrms b.part).foldl (fun s e => if
      (s.strm e.1 e.2).rewound then s.resumeStream e.1 e.2 j b.shotAt (r + 1) else s) w) ∧
    (∃ (j : Nat) (s : State) (b : Job) (x : Redo) (rest : List Redo), b = s.job j ∧ b.rerun = [] ∧ b.redo = x :: rest
      ∧ b.open_ = true ∧ b.begun = true ∧ b.shotAt < s.now ∧ (s.liveThreads j).isEmpty = true ∧ s.recovered j x.start
      x.aw = true ∧ (∀ t k, x.aw ≠ .stream t k)) ∧
    (∃ (j : Nat) (s : State) (b : Job) (t rest : _), b = s.job j ∧ b.tails = t :: rest ∧ s.shotWindows j t.start =
      false) ∧
    (∃ (j : Nat) (s u : State) (b : Job), b = s.job j ∧ b.tails = [] ∧ b.present = true ∧ b.kind = 1 ∧ b.running =
      true ∧ b.rerun = [] ∧ (s.liveThreads j).isEmpty = true ∧ s.shotWindows j b.shotAt = false ∧ u = (s.tallyShot j
      b.shotAt b.shotStatus true).updJob j (fun c => { c with running := false })) ∧
    (∃ (j : Nat) (s : State) (b : Job), b = s.job j ∧ b.present = true ∧ b.deadline ≠ 0 ∧ b.admitAt + b.deadline ≤
      s.now) ∧
    (∃ (q tail phase st r : Nat) (s u v : State) (d : Done) (rest : List Done) (b : Job), (s.qp q).done = d :: rest ∧
      s.cqFree q = true ∧ s.linkCarries = true ∧ s.viral = false ∧ tail = s.rd F.QMG_QP_CQ_TAIL [q] ∧ phase = s.rd
      F.QMG_QP_PHASE [q] ∧ u = s.emit (.completion q tail (completionWords b st r phase)) ∧ v = (State.setQp ((u.wr
      F.QMG_QP_CQ_TAIL [q] ((tail + 1) % (s.qp q).cqLen)).wr F.QMG_QP_PHASE [q] (if (tail + 1) % (s.qp q).cqLen = 0
      then 1 - phase else phase)) q { s.qp q with done := rest }).wr F.QMG_QP_CQ_FULL [q] 0 ∧ d.job = none ∧ st = 1 ∧
      r = d.reason ∧ b = { Job.idle with tag := d.tag, sqHead := d.sqHead }) ∧
    (∃ (q tail phase st r : Nat) (s u v : State) (d : Done) (rest : List Done) (b : Job) (j : _), (s.qp q).done = d ::
      rest ∧ s.cqFree q = true ∧ s.linkCarries = true ∧ s.viral = false ∧ tail = s.rd F.QMG_QP_CQ_TAIL [q] ∧ phase =
      s.rd F.QMG_QP_PHASE [q] ∧ u = s.emit (.completion q tail (completionWords b st r phase)) ∧ v = (State.setQp
      ((u.wr F.QMG_QP_CQ_TAIL [q] ((tail + 1) % (s.qp q).cqLen)).wr F.QMG_QP_PHASE [q] (if (tail + 1) % (s.qp q).cqLen
      = 0 then 1 - phase else phase)) q { s.qp q with done := rest }).wr F.QMG_QP_CQ_FULL [q] 0 ∧ d.job = some j ∧
      s.resultsOut j = true ∧ b = s.job j ∧ (st, r) = b.ended.getD (0, 0)) :=
  ⟨⟨1023, 0, false, State.reset.noteJob { runJob with begun := false, startAt := some 0 }, _, by decide +kernel,
     by decide +kernel, by decide +kernel, by decide +kernel, rfl⟩,
   ⟨1023, 0, noQuota.noteJob runJob, _, rfl, by decide +kernel, by decide +kernel, by decide +kernel,
     by decide +kernel, by decide +kernel, by decide +kernel, by decide +kernel, by decide +kernel, by decide +kernel⟩,
   ⟨1023, 0, State.reset.noteJob runJob, _, _, rfl, by decide +kernel, by decide +kernel, by decide +kernel,
     by decide +kernel, by decide +kernel, by decide +kernel, by decide +kernel, by decide +kernel, by decide +kernel,
     rfl⟩,
   ⟨1023, 5, _, (State.reset.noteJob { runJob with running := true, rerun := [.lane 6], recAt := some 5 }).at_ 6, _,
     _, _, rfl, by decide +kernel, by decide +kernel, by decide +kernel, by decide +kernel, rfl, rfl, rfl⟩,
   ⟨1023, (State.reset.noteJob { runJob with redo := [⟨0, 0, .lane 6⟩] }).at_ 1, _, ⟨0, 0, .lane 6⟩, [], rfl,
     by decide +kernel, by decide +kernel, by decide +kernel, by decide +kernel, by decide +kernel, by decide +kernel,
     by decide +kernel, fun _ _ h => by cases h⟩,
   ⟨1023, State.reset.noteJob { runJob with tails := [⟨0, 0, 0, 0, true⟩] }, _, ⟨0, 0, 0, 0, true⟩, [], rfl,
     by decide +kernel, by decide +kernel⟩,
   ⟨1023, State.reset.noteJob { runJob with running := true }, _, _, rfl, by decide +kernel, by decide +kernel,
     by decide +kernel, by decide +kernel, by decide +kernel, by decide +kernel, by decide +kernel, rfl⟩,
   ⟨1023, (State.reset.noteJob { runJob with deadline := 5 }).at_ 5, _, rfl, by decide +kernel, by decide +kernel,
     by decide +kernel⟩,
   ⟨4095, _, _, _, _, pairUp [⟨none, 7, 0x0501, 1⟩], _, _, ⟨none, 7, 0x0501, 1⟩, [], _, by decide +kernel,
     by decide +kernel, by decide +kernel, by decide +kernel, rfl, rfl, rfl, rfl, by decide +kernel, rfl, rfl, rfl⟩,
   ⟨4095, _, _, 0, 0, pairUp [⟨some 1023, 7, 0, 1⟩], _, _, ⟨some 1023, 7, 0, 1⟩, [], _, 1023, by decide +kernel,
     by decide +kernel, by decide +kernel, by decide +kernel, rfl, rfl, rfl, rfl, by decide +kernel,
     by decide +kernel, rfl, by decide +kernel⟩⟩

theorem witness_CalibrationEvents :
    (∃ (u : UnitDesc) (s : State), u.valid = true ∧ u.present s.variant = true ∧ converterKind u.kind = true ∧
      s.rotating u = false ∧ s.mode ≠ mReset ∧ s.rdB F.SPN_CAL_CFG2_AUTO [] = true ∧ (s.drifted u (s.calU u).temp =
      true ∨ (s.calU u).opsec + 60 * s.rd F.SPN_CAL_CFG_MAXAGE [] ≤ s.opSec)) ∧
    (∃ (u : UnitDesc) (d : Nat) (s : State) (k : CalUnit), k = s.calU u ∧ k.due = some d ∧ d + 156250000 * s.rd
      F.SPN_CAL_CFG2_GRACE [] ≤ s.now ∧ k.stale = false ∧ converterKind u.kind = true) ∧
    (∃ (u : UnitDesc) (s v : State) (k : CalUnit), v = s.settleStep u false ∧ k = v.calU u ∧ k.due.isSome = true ∧
      v.fenced u = false ∧ (v.gapTotal u).isSome = true ∧ v.inGap u = true ∧ v.calTurn u = true ∧ k.stepFrom = none ∧
      k.work = .none) ∧
    (∃ (u : UnitDesc) (s v : State) (k : CalUnit) (n : _), v = s.settleStep u false ∧ k = v.calU u ∧ k.due.isSome =
      true ∧ v.fenced u = false ∧ (v.gapTotal u).isSome = true ∧ v.inGap u = true ∧ v.calTurn u = true ∧ k.stepFrom =
      none ∧ k.work = .gap n) ∧
    (∃ (u : UnitDesc) (n t : Nat) (s : State) (k : CalUnit), k = s.calU u ∧ k.work = .gap n ∧ k.stepFrom = some t ∧ t
      + stepTicks u n ≤ s.now) ∧
    (∃ (u : UnitDesc) (n t : Nat) (s : State) (k : CalUnit), k = s.calU u ∧ k.work = .gap n ∧ k.stepFrom = some t ∧
      s.now < t + stepTicks u n) ∧
    (∃ (u : UnitDesc) (s w : State), u.valid = true ∧ u.present s.variant = true ∧ s.fenced u = false ∧ s.isHeld u =
      false ∧ s.isComing u = false ∧ s.calReady u = true ∧ w = (if (s.calU u).work = .none ∧ s.foreground u = false
      then s.startCal u .none else s)) ∧
    (∃ (u : UnitDesc) (s w : State), u.valid = true ∧ u.present s.variant = true ∧ s.fenced u = false ∧ s.isHeld u =
      false ∧ s.isComing u = false ∧ s.calReady u = false ∧ u.kind ≠ 6 ∧ s.stepWanted u = some 1 ∧ s.leadReady u =
      true ∧ w = s.leadBack u) ∧
    (∃ (u : UnitDesc) (s : State), u.valid = true ∧ u.present s.variant = true ∧ s.fenced u = false ∧ s.isHeld u =
      false ∧ s.isComing u = false ∧ s.calReady u = false ∧ s.stepWanted u = some 2) ∧
    (∃ (u : UnitDesc) (t : Nat) (s : State), (s.calU u).work = .held t ∧ t + 9375000000 ≤ s.now) ∧
    (∃ (u : UnitDesc) (c : CalObs) (s v : State) (k : CalUnit) (r : CalRec), k = s.calU u ∧ k.unwritten = some c ∧
      s.shutdown = false ∧ (k.written = none ∨ ∃ w, k.written = some w ∧ w + 600 ≤ s.opSec) ∧ r.crc = r.sum ∧ r =
      { (⟨u.word, max (recSeq k.recA) (recSeq k.recB) + 1, k.opsec, k.temp, 0x21, 0, c⟩ : CalRec) with crc := r.crc }
      ∧ v = s.setCalU u
      { (if recSeq k.recA ≤ recSeq k.recB then { k with recA := some r } else { k with recB := some r } : CalUnit) with unwritten := none, written := some s.opSec }) ∧
    (∃ (bad : List UnitDesc) (s v : State) (us : List UnitDesc), s.cal.boot = true ∧ us = (s.cal.reqs.filter (fun r =>
      decide (r.scope = 1) && r.mbx.isNone)).flatMap (fun r => r.todo.map Prod.fst) ∧ v = us.foldl (fun s u =>
      s.bootUnit bad u) s) ∧
    (∃ s w : State, w = s.cal.coming.foldl (fun s e => s.bringOne e.1 e.2)
      { s with cal := { s.cal with coming := [] } } ∧ w.cal.refDue = none ∧ w.cal.boot = true ∧ w.cal.reqs.any (fun r
      => decide (r.scope = 1) && r.mbx.isNone) = false) :=
  ⟨⟨biasUnit, ((State.reset.modeOf mIdle).wr F.SPN_CAL_CFG2_AUTO [] 1).wr F.SPN_CAL_CFG_MAXAGE [] 0,
     by decide +kernel, by decide +kernel, by decide +kernel, by decide +kernel, by decide +kernel, by decide +kernel,
     by decide +kernel⟩,
   ⟨biasUnit, 0, (knowing { CalUnit.idle with due := some 0 }).wr F.SPN_CAL_CFG2_GRACE [] 0, _, rfl,
     by decide +kernel, by decide +kernel, by decide +kernel, by decide +kernel⟩,
   ⟨biasUnit, knowing { CalUnit.idle with due := some 0 }, _, _, rfl, rfl, by decide +kernel, by decide +kernel,
     by decide +kernel, by decide +kernel, by decide +kernel, by decide +kernel, by decide +kernel⟩,
   ⟨biasUnit, knowing (gapWork 0 none), _, _, 0, rfl, rfl, by decide +kernel, by decide +kernel, by decide +kernel,
     by decide +kernel, by decide +kernel, by decide +kernel, by decide +kernel⟩,
   ⟨biasUnit, 31, 0, (knowing (gapWork 31 (some 0))).at_ 1000000000, _, rfl, by decide +kernel, by decide +kernel,
     by decide +kernel⟩,
   ⟨biasUnit, 31, 0, knowing (gapWork 31 (some 0)), _, rfl, by decide +kernel, by decide +kernel, by decide +kernel⟩,
   ⟨⟨2, 6, 7⟩, State.reset.setCalU ⟨2, 6, 7⟩ { CalUnit.idle with due := some 0 }, _, by decide +kernel,
     by decide +kernel, by decide +kernel, by decide +kernel, by decide +kernel, by decide +kernel, rfl⟩,
   ⟨biasUnit, (wanting 2).setCalU biasUnit { CalUnit.idle with work := .lead 3 0 0 }, _, by decide +kernel,
     by decide +kernel, by decide +kernel, by decide +kernel, by decide +kernel, by decide +kernel, by decide +kernel,
     by decide +kernel, by decide +kernel, rfl⟩,
   ⟨biasUnit, wanting 4, by decide +kernel, by decide +kernel, by decide +kernel, by decide +kernel,
     by decide +kernel, by decide +kernel, by decide +kernel⟩,
   ⟨biasUnit, 0, (knowing { CalUnit.idle with work := .held 0 }).at_ 9375000000, by decide +kernel, by decide +kernel⟩,
   ⟨biasUnit, okCal, knowing { CalUnit.idle with unwritten := some okCal }, _, _, newRec biasUnit
     { CalUnit.idle with unwritten := some okCal } okCal, rfl, by decide +kernel, by decide +kernel,
     (by exact .inl (by decide +kernel)), by decide +kernel, by decide +kernel, rfl⟩,
   ⟨[biasUnit], booting, _, _, by decide +kernel, rfl, rfl⟩,
   ⟨booting, _, rfl, by decide +kernel, by decide +kernel, by decide +kernel⟩⟩

theorem witness_Temperature :
    (∃ (n : Nat) (s : State) (v : Sensor), n < 6 + 12 * s.variant.tiles ∧ v = s.sensor n ∧ v.due s.now (s.sensFast n)
      = true) ∧
    (∃ (n : Nat) (t : Int) (s u : State) (v : Sensor), n < 6 + 12 * s.variant.tiles ∧ s.now < (s.sensor n).slowAt +
      156250 ∧ s.sensFast n = true ∧ (∀ l, (s.sensor n).last = some l → l + 7812 ≤ s.now) ∧ (∀ l, l = s.threshold
      .warn ∨ l = s.threshold .crit ∨ l = shutLevel → 640 < l - t) ∧ v =
      { s.sensor n with last := some s.now, silent := owed (!s.sensFailed n) false (s.sensor n).silent, bad := owed (!s.sensFailed n) (decide (t < -5120) || decide (19200 < t)) (s.sensor n).bad, warnUp := owed (!s.inState n .warn) (decide (s.threshold .warn ≤ t)) (s.sensor n).warnUp, warnDown := owed (s.inState n .warn) (decide (t < s.leaveLevel .warn)) (s.sensor n).warnDown, critUp := owed (!s.inState n .crit) (decide (s.threshold .crit ≤ t)) (s.sensor n).critUp, critDown := owed (s.inState n .crit) (decide (t < s.leaveLevel .crit)) (s.sensor n).critDown, hotUp := owed (!s.shutdown) (decide (shutLevel ≤ t)) (s.sensor n).hotUp, far := min 4 ((s.sensor n).far + 1) }
      ∧ u = (s.putSens n F.THM_SENS_TEMP F.THM_SENS_T_TEMP (unsigned 16 t)).putSens n F.THM_SENS_FAST
      F.THM_SENS_T_FAST (if 4 ≤ v.far then 0 else 1)) ∧
    (∃ (n : Nat) (s : State), s.works n = true ∧ s.inState n .warn = false ∧ 4 ≤ (s.sensor n).warnUp) ∧
    (∃ (n : Nat) (s : State), s.works n = true ∧ s.inState n .crit = false ∧ 4 ≤ (s.sensor n).critUp) ∧
    (∃ (n : Nat) (s : State), s.works n = true ∧ s.inState n .warn = true ∧ 4 ≤ (s.sensor n).warnDown) ∧
    (∃ (n : Nat) (s : State), s.works n = true ∧ s.inState n .crit = true ∧ 4 ≤ (s.sensor n).critDown) ∧
    (∃ (n : Nat) (s : State), s.works n = true ∧ s.inRate n = false ∧ 4 ≤ (s.sensor n).rateUp) ∧
    (∃ (n : Nat) (s : State), s.works n = true ∧ s.inRate n = true ∧ 4 ≤ (s.sensor n).rateDown) ∧
    (∃ (n : Nat) (s u : State), s.works n = true ∧ (4 ≤ (s.sensor n).bad ∨ 4 ≤ (s.sensor n).silent) ∧ u = State.dwell
      (State.note ((((s.putSens n F.THM_SENS_FAILED F.THM_SENS_T_FAILED 1).putSens n F.THM_SENS_WARN F.THM_SENS_T_WARN
      0).putSens n F.THM_SENS_CRIT F.THM_SENS_T_CRIT 0).putSens n F.THM_SENS_RATE F.THM_SENS_T_RATE 0) (.spine 2) 5 n)
      ∧ n < 6) ∧
    (∃ (n : Nat) (s u : State) (t : _), s.works n = true ∧ (4 ≤ (s.sensor n).bad ∨ 4 ≤ (s.sensor n).silent) ∧ u =
      State.dwell (State.note ((((s.putSens n F.THM_SENS_FAILED F.THM_SENS_T_FAILED 1).putSens n F.THM_SENS_WARN
      F.THM_SENS_T_WARN 0).putSens n F.THM_SENS_CRIT F.THM_SENS_T_CRIT 0).putSens n F.THM_SENS_RATE F.THM_SENS_T_RATE
      0) (.spine 2) 5 n) ∧ 6 ≤ n ∧ t = (n - 6) / 12) ∧
    (∃ (n : Nat) (s u v : State), s.sensors.find? (fun n => s.works n && decide (4 ≤ (s.sensor n).hotUp)) = some n ∧
      s.shutdown = false ∧

      u = (let w := ((s.wr F.THM_STATUS_SHUTDOWN [] 1).count F.THM_STATUS_SHUT_COUNT [] 1).wr F.THM_SD_TICK_TICK [] (short s.grid);
       ({ w with therm := { w.therm with thermN := true } } : State).fault (.spine 2) 0 n)
      ∧ v = (List.range u.variant.tiles).foldl (fun s t => (s.haltScan t).capSafe t) u) ∧
    (∃ (t : Nat) (s u : State), s.therm.dwellAt = some t ∧ s.shutdown = true ∧ t + 1562500000 ≤ s.now ∧ u = (State.wr
      { s with therm := { s.therm with dwellAt := none, thermN := false }, clk := { s.clk with strobe := true } }
      F.THM_STATUS_SHUTDOWN [] 0).wr F.THM_STATUS_DWELL [] 0) :=
  ⟨⟨89, State.reset, _, by decide +kernel, rfl, by decide +kernel⟩,
   ⟨89, 0, State.reset.putSens 89 F.THM_SENS_FAST F.THM_SENS_T_FAST 1, _, _, by decide +kernel, by decide +kernel,
     by decide +kernel, (by exact fun l h => absurd (show none = some l from h) (by simp)),
     (by rintro l (h | h | h) <;> subst h <;> decide +kernel), rfl, rfl⟩,
   ⟨89, sensing { Sensor.idle with warnUp := 4 }, by decide +kernel, by decide +kernel, by decide +kernel⟩,
   ⟨89, sensing { Sensor.idle with critUp := 4 }, by decide +kernel, by decide +kernel, by decide +kernel⟩,
   ⟨89, (sensing { Sensor.idle with warnDown := 4 }).putSens 89 F.THM_SENS_WARN F.THM_SENS_T_WARN 1,
     by decide +kernel, by decide +kernel, by decide +kernel⟩,
   ⟨89, (sensing { Sensor.idle with critDown := 4 }).putSens 89 F.THM_SENS_CRIT F.THM_SENS_T_CRIT 1,
     by decide +kernel, by decide +kernel, by decide +kernel⟩,
   ⟨89, sensing { Sensor.idle with rateUp := 4 }, by decide +kernel, by decide +kernel, by decide +kernel⟩,
   ⟨89, (sensing { Sensor.idle with rateDown := 4 }).putSens 89 F.THM_SENS_RATE F.THM_SENS_T_RATE 1,
     by decide +kernel, by decide +kernel, by decide +kernel⟩,
   ⟨5, State.reset.setSensor 5 { Sensor.idle with bad := 4 }, _, by decide +kernel, by decide +kernel, rfl,
     by decide +kernel⟩,
   ⟨89, sensing { Sensor.idle with silent := 4 }, _, _, by decide +kernel, by decide +kernel, rfl, by decide +kernel,
     rfl⟩,
   ⟨89, sensing { Sensor.idle with hotUp := 4 }, _, _, by decide +kernel, by decide +kernel, rfl, rfl⟩,
   ⟨0, ({ State.reset with therm := { State.reset.therm with dwellAt := some 0 } }.wr F.THM_STATUS_SHUTDOWN [] 1).at_
     1562500000, _, by decide +kernel, by decide +kernel, by decide +kernel, rfl⟩⟩

theorem witness_FaultEvents :
    (∃ (b : FltBlk) (fs : List FaultEv) (s : State), b.live s.variant = true ∧ (∀ f ∈ fs, (s.faultSev b f.bit).isSome
      = true ∧ unitOk b f.bit f.unit = true ∧ f.real = true ∧ f.inj = false ∧ clipBit b f.bit = false ∧ (b = .spine 0
      → f.bit = 1 → s.hif.viralEn = true))) ∧
    (∃ (b : FltBlk) (v : Word) (s : State), b.live s.variant = true ∧ injGo v = true ∧ s.rdB F.SPN_FLT_CTRL_INJ_EN []
      = true ∧ (s.faultSev b (injBit v)).isSome = true ∧ unitOk b (injBit v) (injUnit v) = true) ∧
    (∃ (b : FltBlk) (v : Word) (s : State), b.live s.variant = true ∧ injGo v = true ∧ (s.rdB F.SPN_FLT_CTRL_INJ_EN []
      = false ∨ s.faultSev b (injBit v) = none ∨ unitOk b (injBit v) (injUnit v) = false)) ∧
    (∃ (t : Nat) (s : State), s.flt.errHold = some t ∧ t ≤ s.now) ∧
    (∃ (n t : Nat) (s : State), t = SMap.get 0 s.flt.silent n ∧ t ≠ 0 ∧ t + 63 ≤ s.now) ∧
    (∃ (c : Nat) (s u : State), c = s.rd F.MBX_GLOBAL_ACTIVE_CORE [] ∧ s.rdB F.MBX_GLOBAL_FW_READY [] = true ∧
      s.flt.lost = false ∧ s.rdB F.MBX_GLOBAL_STANDBY_READY [] = true ∧ u = ((s.fault (.spine 12) 1 c).handover).wr
      F.MBX_GLOBAL_STANDBY_READY [] 0) ∧
    (∃ (c : Nat) (s u : State), c = s.rd F.MBX_GLOBAL_ACTIVE_CORE [] ∧ s.rdB F.MBX_GLOBAL_FW_READY [] = true ∧
      s.flt.lost = false ∧ s.rdB F.MBX_GLOBAL_STANDBY_READY [] = false ∧ u = s.fault (.spine 12) 0 c) ∧
    (∃ (t : Nat) (ok : Bool) (s : State), s.flt.restart = some t ∧ ok = true ∧ s.now ≤ t + 312500000) ∧
    (∃ (t : Nat) (ok : Bool) (s u : State), s.flt.restart = some t ∧ (ok = false ∨ t + 312500000 < s.now) ∧ u =
      { s with flt := { s.flt with restart := none, standbyLost := true } }) ∧
    (∃ (us : List UnitDesc) (s : State), s.rdB F.MBX_GLOBAL_FW_READY [] = true ∧ s.flt.lost = false ∧ (∀ u ∈ us,
      u.valid = true ∧ u.present s.variant = true)) ∧
    (∃ (r : LogRec) (l : List LogRec) (s : State), s.flt.logBuf = r :: l ∧ s.shutdown = false) ∧
    (∃ (n : Nat) (s : State), n < 72 * s.variant.tiles) :=
  ⟨⟨.spine 12, [⟨3, 1, true, false, 0⟩], State.reset, by decide +kernel, by decide +kernel⟩,
   ⟨.spine 12, 0x80000023, State.reset.wr F.SPN_FLT_CTRL_INJ_EN [] 1, by decide +kernel, by decide +kernel,
     by decide +kernel⟩,
   ⟨.spine 12, 0x80000023, State.reset.wr F.SPN_FLT_CTRL_INJ_EN [] 0, by decide +kernel, by decide +kernel,
     by decide +kernel⟩,
   ⟨0, withFlt { State.reset.flt with errHold := some 0 }, by decide +kernel, by decide +kernel⟩,
   ⟨6, 1, (withFlt { State.reset.flt with silent := [(6, 1)] }).at_ 64, by decide +kernel, by decide +kernel,
     by decide +kernel⟩,
   ⟨_, fwUp.wr F.MBX_GLOBAL_STANDBY_READY [] 1, _, rfl, by decide +kernel, by decide +kernel, by decide +kernel, rfl⟩,
   ⟨_, fwUp.wr F.MBX_GLOBAL_STANDBY_READY [] 0, _, rfl, by decide +kernel, by decide +kernel, by decide +kernel, rfl⟩,
   ⟨0, true, (withFlt { State.reset.flt with restart := some 0 }).at_ 312500000, by decide +kernel, by decide +kernel,
     by decide +kernel⟩,
   ⟨0, false, withFlt { State.reset.flt with restart := some 0 }, _, by decide +kernel, by decide +kernel, rfl⟩,
   ⟨[biasUnit], fwUp, by decide +kernel, by decide +kernel, by decide +kernel⟩,
   ⟨aLog, [], withFlt { State.reset.flt with logBuf := [aLog] }, by decide +kernel, by decide +kernel⟩,
   ⟨503, State.reset, by decide +kernel⟩⟩

theorem witness_SupplyAndBoot :
    (∃ (r : Nat) (s u : State), r < 8 ∧ s.railGood r = false ∧ (r = 0 ∨ s.railGood 0 = true) ∧ u = s.setRail r true ∧
      s.railOrder r = true ∧ s.hvLate r = false) ∧
    (∃ (r : Nat) (s u : State) (v : _), r < 8 ∧ s.railGood r = false ∧ (r = 0 ∨ s.railGood 0 = true) ∧ u = s.setRail r
      true ∧ (s.railOrder r = false ∨ s.hvLate r = true) ∧ v = u.resetPart.wr F.SPN_RAIL_STATUS_SEQ_ERR [] 1 ∧
      s.railGood 0 = true) ∧
    (∃ (r : Nat) (s u : State), 1 ≤ r ∧ r < 8 ∧ s.railGood r = true ∧ u = s.setRail r false ∧ u.boot.perstN = true ∧
      u.boot.seqHold = false) ∧
    (∃ (r : Nat) (s u : State), 1 ≤ r ∧ r < 8 ∧ s.railGood r = true ∧ u = s.setRail r false ∧ (u.boot.perstN = false ∨
      u.boot.seqHold = true)) ∧
    (∃ s u : State, s.boot.perstN = false ∧ u =
      { s with boot := { s.boot with perstN := true }, flt := { s.flt with bootCount := s.flt.bootCount + 1 } }) ∧
    (∃ (t : Nat) (s : State), s.boot.perstN = true ∧ s.boot.seqHold = false ∧ s.boot.started = false ∧ s.hif.refclk =
      true ∧ s.boot.railsAt = some t ∧ t + 3906250 ≤ s.now) ∧
    (∃ s u : State, u = s.hardReset [] .idle { Boot.idle with perstN := s.boot.perstN }) ∧
    (∃ (p x y z : Bool) (a b o : SlotObs) (c1 c2 : Nat) (s u v : State), s.boot.started = true ∧ s.boot.accepted =
      false ∧ s.rdB F.SPN_BOOT_STATUS_BOOT_FAIL [] = false ∧ p = s.boot.preferred ∧ c1 = slotCause (if p = true then b
      else a) s.boot.minSvn ∧ c2 = slotCause (if p = true then a else b) s.boot.minSvn ∧

      u = (let w := s.wrB F.SPN_BOOT_STATUS_FLASH_8D [] x;
       ({ w with boot := { w.boot with slotA := some a, slotB := some b } } : State).wr (if p = true then F.SPN_BOOT_STATUS_B_CAUSE else F.SPN_BOOT_STATUS_A_CAUSE) [] c1)
      ∧ v = (if c1 = 0 then u else if c2 = 0 then (u.wr (if p = true then F.SPN_BOOT_STATUS_A_CAUSE else
      F.SPN_BOOT_STATUS_B_CAUSE) [] c2).wr F.SPN_BOOT_STATUS_FALLBACK [] 1 else (u.wr (if p = true then
      F.SPN_BOOT_STATUS_A_CAUSE else F.SPN_BOOT_STATUS_B_CAUSE) [] c2).wr F.SPN_BOOT_STATUS_BOOT_FAIL [] 1) ∧ (c1 = 0
      ∨ c2 = 0) ∧ y = (if c1 = 0 then p else !p) ∧ z = y ∧ o = (if y = true then b else a)) ∧
    (∃ (p x : Bool) (a b : SlotObs) (c1 c2 : Nat) (s u v : State), s.boot.started = true ∧ s.boot.accepted = false ∧
      s.rdB F.SPN_BOOT_STATUS_BOOT_FAIL [] = false ∧ p = s.boot.preferred ∧ c1 = slotCause (if p = true then b else a)
      s.boot.minSvn ∧ c2 = slotCause (if p = true then a else b) s.boot.minSvn ∧

      u = (let w := s.wrB F.SPN_BOOT_STATUS_FLASH_8D [] x;
       ({ w with boot := { w.boot with slotA := some a, slotB := some b } } : State).wr (if p = true then F.SPN_BOOT_STATUS_B_CAUSE else F.SPN_BOOT_STATUS_A_CAUSE) [] c1)
      ∧ v = (if c1 = 0 then u else if c2 = 0 then (u.wr (if p = true then F.SPN_BOOT_STATUS_A_CAUSE else
      F.SPN_BOOT_STATUS_B_CAUSE) [] c2).wr F.SPN_BOOT_STATUS_FALLBACK [] 1 else (u.wr (if p = true then
      F.SPN_BOOT_STATUS_A_CAUSE else F.SPN_BOOT_STATUS_B_CAUSE) [] c2).wr F.SPN_BOOT_STATUS_BOOT_FAIL [] 1) ∧ c1 ≠ 0 ∧
      c2 ≠ 0) ∧
    (∃ (mem : Bool) (s u v : State), mem = s.rdB F.SPN_HIF_STATUS_MEM_ACTIVE [] ∧ s.boot.accepted = true ∧ s.rdB
      F.MBX_GLOBAL_FW_READY [] = false ∧ s.flt.lost = false ∧ (mem = true ∨ s.rdB F.SPN_HIF_STATUS_MEM_FAIL [] = true)
      ∧ s.rdB F.TIM_PLL_STATUS_LOCKED [] = true ∧ u = (if mem = true then s.loadMicrocode else s) ∧ v = ((((List.range
      64).foldl (fun s n => s.wr F.MBX_STATUS_STATE [n] 0) ((((u.loadAll.loadRef).logEvent 8 0 0 0 0x700 0 0xFFFFFFFF
      []).wr F.MBX_GLOBAL_FW_READY [] 1).wr F.MBX_GLOBAL_STANDBY_READY [] 1)).configReady).setMode mSafe
      0).errPolicy.advise) :=
  ⟨⟨7, railsAt 63 false, _, by decide +kernel, by decide +kernel, by decide +kernel, rfl, by decide +kernel,
     by decide +kernel⟩,
   ⟨7, railsAt 1 false, _, _, by decide +kernel, by decide +kernel, by decide +kernel, rfl, by decide +kernel, rfl,
     by decide +kernel⟩,
   ⟨7, railsAt 255 true, _, by decide +kernel, by decide +kernel, by decide +kernel, rfl, by decide +kernel,
     by decide +kernel⟩,
   ⟨7, railsAt 255 false, _, by decide +kernel, by decide +kernel, by decide +kernel, rfl, by decide +kernel⟩,
   ⟨railsAt 255 false, _, by decide +kernel, rfl⟩,
   ⟨0,
     { (railsAt 255 true).withBoot { (railsAt 255 true).boot with railsAt := some 0, started := false } with hif := { State.reset.hif with refclk := true } }.at_
     3906250, by decide +kernel, by decide +kernel, by decide +kernel, by decide +kernel, by decide +kernel,
     by decide +kernel⟩,
   ⟨State.reset, _, rfl⟩,
   ⟨_, true, _, _, okSlot, okSlot, _, _, _, bootRom, _, _, by decide +kernel, by decide +kernel, by decide +kernel,
     rfl, rfl, rfl, rfl, rfl, by decide +kernel, rfl, rfl, rfl⟩,
   ⟨_, true, { okSlot with sigOk := false }, { okSlot with stepping := 0x20 }, _, _, bootRom, _, _, by decide +kernel,
     by decide +kernel, by decide +kernel, rfl, rfl, rfl, rfl, rfl, by decide +kernel, by decide +kernel⟩,
   ⟨_, ((State.reset.withBoot { State.reset.boot with accepted := true }).wr F.SPN_HIF_STATUS_MEM_FAIL [] 1).wr
     F.TIM_PLL_STATUS_LOCKED [] 1, _, _, rfl, by decide +kernel, by decide +kernel, by decide +kernel,
     by decide +kernel, by decide +kernel, rfl, rfl⟩⟩


/-! ## An ill-formed term for each check -/

theorem smoke_accepts : (Instr.regWrite 0 4 0).wellFormed = true := by decide
theorem smoke_length : (Instr.regWrite 0 9 0).wellFormed = false := by decide
theorem smoke_tile : (Instr.capArm 7).wellFormed = false := by decide
theorem smoke_job : (Instr.shotStart 1024).wellFormed = false := by decide
theorem smoke_thread : (Instr.waitRelease 504).wellFormed = false := by decide
theorem smoke_barrier : (Instr.barrierRelease 32).wellFormed = false := by decide
theorem smoke_cluster : (Instr.bankReplaceDone 6 9 .micro).wellFormed = false := by decide
theorem smoke_view : (Instr.nanoViewWrite 6 0x540000 0).wellFormed = false := by decide
theorem smoke_view_align : (Instr.nanoViewWrite 6 0x500002 0).wellFormed = false := by decide
theorem smoke_sample : (Instr.envMemWrite 6 (2 ^ 20) 0).wellFormed = false := by decide
theorem smoke_weight : (Instr.weightWrite 6 7 4096 0).wellFormed = false := by decide
theorem smoke_table : (Instr.decodeTableWrite 262144 0).wellFormed = false := by decide
theorem smoke_probe : (Instr.drvEnable true 6 8).wellFormed = false := by decide
theorem smoke_channel : (Instr.drvEnable false 6 72).wellFormed = false := by decide
theorem smoke_group : (Instr.spareHandback 6 8).wellFormed = false := by decide
theorem smoke_segment : (Instr.segOpen 6 256).wellFormed = false := by decide
theorem smoke_stream : (Instr.streamFetch 6 64).wellFormed = false := by decide
theorem smoke_generator : (Instr.genEnable 6 32).wellFormed = false := by decide
theorem smoke_span : (Instr.spanChange .bias 6 63 4 0).wellFormed = false := by decide
theorem smoke_list : (Instr.snsInjGo 6 4).wellFormed = false := by decide
theorem smoke_code : (Instr.windowEnd 6 7 15 [2048]).wellFormed = false := by decide
theorem smoke_replica : (Instr.decisionUpdate 8).wellFormed = false := by decide
theorem smoke_slot : (Instr.slotAged 7 1024).wellFormed = false := by decide
theorem smoke_parity_group : (Instr.groupFire 256).wellFormed = false := by decide
theorem smoke_port : (Instr.ackSend 4).wellFormed = false := by decide
theorem smoke_lane : (Instr.deepPoll 3 4).wellFormed = false := by decide
theorem smoke_input : (Instr.tdcLineSwap 10 true).wellFormed = false := by decide
theorem smoke_interval : (Instr.intervalStartExpire 4).wellFormed = false := by decide
theorem smoke_event : (Instr.timedEventFire 8).wellFormed = false := by decide
theorem smoke_pair : (Instr.completionPost 4096).wellFormed = false := by decide
theorem smoke_entry : (Instr.submitScan 4095 []).wellFormed = false := by decide
theorem smoke_mailbox : (Instr.getInfo 64).wellFormed = false := by decide
theorem smoke_partition : (Instr.txnTimeout 65).wellFormed = false := by decide
theorem smoke_unit : (Instr.calDue ⟨15, 0, 0⟩).wellFormed = false := by decide
theorem smoke_unit_tile : (Instr.calDue ⟨1, 7, 0⟩).wellFormed = false := by decide
theorem smoke_sensor : (Instr.thermRateEntry 90).wellFormed = false := by decide
theorem smoke_device : (Instr.devRetireThreshold 80).wellFormed = false := by decide
theorem smoke_block : (Instr.fltInject (.tile 6 108) 0).wellFormed = false := by decide
theorem smoke_rail : (Instr.railDrop 8).wellFormed = false := by decide

/-! ## The spec's worked examples -/

/-- 06 R180: SEED 1, POLY 0x80200003 and RANGE 24 give 12, 18, 9, 16. -/
theorem test_lfsr_sequence :
    let s1 := lfsrNext 0x80200003 1
    let s2 := lfsrNext 0x80200003 s1
    let s3 := lfsrNext 0x80200003 s2
    let s4 := lfsrNext 0x80200003 s3
    [s1, s2, s3, s4].map (lfsrValue 24) = [12, 18, 9, 16] ∧ s4 = 0xB02C0003 := by decide

/-- 05 R135: the phases of the two pulses of the example. -/
theorem test_nco_phase :
    phi48 0x600000000000 0x20000000 0x4000 1280005 = 0x400000000000 ∧
    phi48 0x400000000000 0x20000000 0x4000 1292805 = 0xA00000000000 := by decide

/-- 23 R492: the balls of qubit 300, which is qubit 44 of tile 4. -/
theorem test_balls :
    (TileSig.drive 44).ball 4 = ⟨66, 66⟩ ∧ (TileSig.flux 44).ball 4 = ⟨77, 62⟩ ∧ (TileSig.bias 44).ball 4 = ⟨68, 78⟩ ∧
    (TileSig.snsP 44).ball 4 = ⟨82, 61⟩ ∧ (TileSig.brtn 5).ball 4 = ⟨83, 78⟩ ∧ (TileSig.probe 5).ball 4 = ⟨70, 76⟩ ∧
    (TileSig.input 5).ball 4 = ⟨72, 72⟩ := by decide

end Sys2Proof.Machine
end

/-! SUPPORT. What every command keeps, and that every command completes: the laws of the meanings of the commands, put
together for `exec` and `step` (obligations O3, O4, O5). -/

namespace Sys2Proof.Machine

/-! ## Every command is steady -/

/-- Every command keeps the variant, the queue and the invariant; one outside `mayStore` keeps device memory, one outside
`mayChangeMode` keeps MODE. -/
theorem steady_exec (c : Instr) (s : State) : SteadyO (mayStore c) (mayChangeMode c) s (exec c s) :=
  match c with
  | .regWrite addr len value => steady_execRegWrite addr len value s (.refl s)
  | .tickBoundaryApply n => steady_execTickBoundaryApply n s (.refl s)
  | .coupleTimeout addr => steady_execCoupleTimeout addr s (.refl s)
  | .timNowLoRead => steady_execTimNowLoRead s (.refl s)
  | .refinEdgeSeen => steady_execRefinEdgeSeen s (.refl s)
  | .qualifyEnd freq phase => steady_execQualifyEnd freq phase s (.refl s)
  | .qualifyReturn => steady_execQualifyReturn s (.refl s)
  | .refLock => steady_execRefLock s (.refl s)
  | .refLoss => steady_execRefLoss s (.refl s)
  | .timRefCtrlWrite value => steady_execTimRefCtrlWrite value s (.refl s)
  | .pllLock => steady_execPllLock s (.refl s)
  | .tileTickCheck tile count => steady_execTileTickCheck tile count s (.refl s)
  | .pllUnlock => steady_execPllUnlock s (.refl s)
  | .shotStart job => steady_execShotStart job s (.refl s)
  | .play thr ev => steady_execPlay thr ev s (.refl s)
  | .frame f => steady_execFrame f s (.refl s)
  | .setf f => steady_execSetf f s (.refl s)
  | .wait f => steady_execWait f s (.refl s)
  | .waitRelease thr => steady_execWaitRelease thr s (.refl s)
  | .sync f => steady_execSync f s (.refl s)
  | .barrierRelease bar => steady_execBarrierRelease bar s (.refl s)
  | .syncTimeout thr => steady_execSyncTimeout thr s (.refl s)
  | .syncMiss bar => steady_execSyncMiss bar s (.refl s)
  | .meas f => steady_execMeas f s (.refl s)
  | .brd f => steady_execBrd f s (.refl s)
  | .brdResolve thr => steady_execBrdResolve thr s (.refl s)
  | .brdLate thr => steady_execBrdLate thr s (.refl s)
  | .jump f => steady_execJump f s (.refl s)
  | .call f => steady_execCall f s (.refl s)
  | .ret f => steady_execRet f s (.refl s)
  | .loop f => steady_execLoop f s (.refl s)
  | .sweep f => steady_execSweep f s (.refl s)
  | .mark f => steady_execMark f s (.refl s)
  | .trig f => steady_execTrig f s (.refl s)
  | .trigRelease thr => steady_execTrigRelease thr s (.refl s)
  | .trigTimeout thr => steady_execTrigTimeout thr s (.refl s)
  | .pub f => steady_execPub f s (.refl s)
  | .custom thr ev => steady_execCustom thr ev s (.refl s)
  | .waitsRelease thr => steady_execWaitsRelease thr s (.refl s)
  | .waitsTimeout thr => steady_execWaitsTimeout thr s (.refl s)
  | .peerStop thr => steady_execPeerStop thr s (.refl s)
  | .shotComplete job => steady_execShotComplete job s (.refl s)
  | .shotRerun job => steady_execShotRerun job s (.refl s)
  | .mchkReloadDone tile cluster store bank addr => steady_execMchkReloadDone tile cluster store bank addr s (.refl s)
  | .bankReplaceDone tile cluster store => steady_execBankReplaceDone tile cluster store s (.refl s)
  | .nanoViewWrite tile off value => steady_execNanoViewWrite tile off value s (.refl s)
  | .envMemWrite tile sample value => steady_execEnvMemWrite tile sample value s (.refl s)
  | .weightWrite tile line d value => steady_execWeightWrite tile line d value s (.refl s)
  | .decodeTableWrite entry value => steady_execDecodeTableWrite entry value s (.refl s)
  | .drvEnable probe tile chan => steady_execDrvEnable probe tile chan s (.refl s)
  | .flxEnable tile chan => steady_execFlxEnable tile chan s (.refl s)
  | .biaEnable tile chan => steady_execBiaEnable tile chan s (.refl s)
  | .enableCheckDone kind tile chan => steady_execEnableCheckDone kind tile chan s (.refl s)
  | .spareTakeoverDone tile group => steady_execSpareTakeoverDone tile group s (.refl s)
  | .spareHandback tile group => steady_execSpareHandback tile group s (.refl s)
  | .handbackForced tile group => steady_execHandbackForced tile group s (.refl s)
  | .calTakeover tile group => steady_execCalTakeover tile group s (.refl s)
  | .calOfflineDone tile group chan spare => steady_execCalOfflineDone tile group chan spare s (.refl s)
  | .segOpen tile seg => steady_execSegOpen tile seg s (.refl s)
  | .segSeal tile seg => steady_execSegSeal tile seg s (.refl s)
  | .strmJumpRequest tile strm target => steady_execStrmJumpRequest tile strm target s (.refl s)
  | .commitPoint tile strm => steady_execCommitPoint tile strm s (.refl s)
  | .passEnd tile strm => steady_execPassEnd tile strm s (.refl s)
  | .strmWpWrite tile strm value => steady_execStrmWpWrite tile strm value s (.refl s)
  | .streamFetch tile strm => steady_execStreamFetch tile strm s (.refl s)
  | .streamBlockArrive tile strm => steady_execStreamBlockArrive tile strm s (.refl s)
  | .streamUnderrun tile strm => steady_execStreamUnderrun tile strm s (.refl s)
  | .genEnable tile gen => steady_execGenEnable tile gen s (.refl s)
  | .genRestart tile gen => steady_execGenRestart tile gen s (.refl s)
  | .biasLatch tile chan => steady_execBiasLatch tile chan s (.refl s)
  | .spanChange kind tile chan span codeAfter => steady_execSpanChange kind tile chan span codeAfter s (.refl s)
  | .spanChangeEnd kind tile chan => steady_execSpanChangeEnd kind tile chan s (.refl s)
  | .scanEnable tile on => steady_execScanEnable tile on s (.refl s)
  | .senseSlotStart tile list => steady_execSenseSlotStart tile list s (.refl s)
  | .senseConversionDone tile list obs => steady_execSenseConversionDone tile list obs s (.refl s)
  | .snsInjGo tile list => steady_execSnsInjGo tile list s (.refl s)
  | .snsInjTime tile list => steady_execSnsInjTime tile list s (.refl s)
  | .senseRotate tile => steady_execSenseRotate tile s (.refl s)
  | .windowEnd tile line tone x => steady_execWindowEnd tile line tone x s (.refl s)
  | .sliceRotate tile line => steady_execSliceRotate tile line s (.refl s)
  | .sliceSpareInPlace tile line => steady_execSliceSpareInPlace tile line s (.refl s)
  | .agcStep tile line => steady_execAgcStep tile line s (.refl s)
  | .xtSwap tile line => steady_execXtSwap tile line s (.refl s)
  | .decisionUpdate replica => steady_execDecisionUpdate replica s (.refl s)
  | .slotAged replica slot => steady_execSlotAged replica slot s (.refl s)
  | .decSwWrite value => steady_execDecSwWrite value s (.refl s)
  | .groupFire group => steady_execGroupFire group s (.refl s)
  | .decoderFire dec parityErr => steady_execDecoderFire dec parityErr s (.refl s)
  | .tableReloadDone entry => steady_execTableReloadDone entry s (.refl s)
  | .extDecoderFire dec => steady_execExtDecoderFire dec s (.refl s)
  | .synBaseWrite dec value => steady_execSynBaseWrite dec value s (.refl s)
  | .decQueueSend port => steady_execDecQueueSend port s (.refl s)
  | .ringRebuildDone => steady_execRingRebuildDone s (.refl s)
  | .spineLinkRetry tile lane => steady_execSpineLinkRetry tile lane s (.refl s)
  | .capArm tile => steady_execCapArm tile s (.refl s)
  | .capStop tile => steady_execCapStop tile s (.refl s)
  | .capForce tile => steady_execCapForce tile s (.refl s)
  | .capArmTimeReached tile => steady_execCapArmTimeReached tile s (.refl s)
  | .capRearmEnd tile => steady_execCapRearmEnd tile s (.refl s)
  | .capTrigger tile first codes => steady_execCapTrigger tile first codes s (.refl s)
  | .capRecordDone tile late gaps => steady_execCapRecordDone tile late gaps s (.refl s)
  | .tdcEdge inp bin rise held => steady_execTdcEdge inp bin rise held s (.refl s)
  | .intervalStartExpire iv => steady_execIntervalStartExpire iv s (.refl s)
  | .tdcLineSwap inp dllLost => steady_execTdcLineSwap inp dllLost s (.refl s)
  | .tdcFifoPop => steady_execTdcFifoPop s (.refl s)
  | .tdcFreqGo => steady_execTdcFreqGo s (.refl s)
  | .tdcFreqGateEnd => steady_execTdcFreqGateEnd s (.refl s)
  | .laneTrainStep port lane obs => steady_execLaneTrainStep port lane obs s (.refl s)
  | .trainStepTimeout port lane => steady_execTrainStepTimeout port lane s (.refl s)
  | .trainRetry port lane => steady_execTrainRetry port lane s (.refl s)
  | .deepPoll port lane => steady_execDeepPoll port lane s (.refl s)
  | .laneFail port loss => steady_execLaneFail port loss s (.refl s)
  | .skipSend port => steady_execSkipSend port s (.refl s)
  | .skipReceive port drift => steady_execSkipReceive port drift s (.refl s)
  | .rstReceive port mask dcount pcount => steady_execRstReceive port mask dcount pcount s (.refl s)
  | .rplReceive port dcount pcount => steady_execRplReceive port dcount pcount s (.refl s)
  | .decReceive port msg => steady_execDecReceive port msg s (.refl s)
  | .ackReceive port dcount pcount => steady_execAckReceive port dcount pcount s (.refl s)
  | .nakReceive port dcount pcount => steady_execNakReceive port dcount pcount s (.refl s)
  | .msgError found => steady_execMsgError found s (.refl s)
  | .nakRepeat port => steady_execNakRepeat port s (.refl s)
  | .ackSend port => steady_execAckSend port s (.refl s)
  | .pktAnswerReceive port dec round classes => steady_execPktAnswerReceive port dec round classes s (.refl s)
  | .pktManagementReceive port bytes => steady_execPktManagementReceive port bytes s (.refl s)
  | .bvnRetrain port => steady_execBvnRetrain port s (.refl s)
  | .bvnWiden port => steady_execBvnWiden port s (.refl s)
  | .bvnInj port lane => steady_execBvnInj port lane s (.refl s)
  | .announceSend port => steady_execAnnounceSend port s (.refl s)
  | .announceReceive port msg => steady_execAnnounceReceive port msg s (.refl s)
  | .announceTimeout port => steady_execAnnounceTimeout port s (.refl s)
  | .delayReqSend => steady_execDelayReqSend s (.refl s)
  | .delayReq port seq lane sent t2 => steady_execDelayReq port seq lane sent t2 s (.refl s)
  | .delayResp seq lane t2 t3 t4 => steady_execDelayResp seq lane t2 t3 t4 s (.refl s)
  | .timeStep => steady_execTimeStep s (.refl s)
  | .tsHoldExpire => steady_execTsHoldExpire s (.refl s)
  | .syncOutPulse => steady_execSyncOutPulse s (.refl s)
  | .synReceive port id event sent => steady_execSynReceive port id event sent s (.refl s)
  | .syncCalDone => steady_execSyncCalDone s (.refl s)
  | .timedEventFire ev => steady_execTimedEventFire ev s (.refl s)
  | .linkUp cxl width speed => steady_execLinkUp cxl width speed s (.refl s)
  | .linkOutage => steady_execLinkOutage s (.refl s)
  | .d3hotWrite => steady_execD3hotWrite s (.refl s)
  | .d0Write => steady_execD0Write s (.refl s)
  | .hdmCommit dec base size ways lock => steady_execHdmCommit dec base size ways lock s (.refl s)
  | .cxlmemRequest write hostAddr data => steady_execCxlmemRequest write hostAddr data s (.refl s)
  | .viralReceive => steady_execViralReceive s (.refl s)
  | .memReady obs => steady_execMemReady obs s (.refl s)
  | .sqTailDoorbell qp tail => steady_execSqTailDoorbell qp tail s (.refl s)
  | .cqHeadDoorbell qp head => steady_execCqHeadDoorbell qp head s (.refl s)
  | .submitRun qp entry => steady_execSubmitRun qp entry s (.refl s)
  | .submitCapture qp entry => steady_execSubmitCapture qp entry s (.refl s)
  | .submitCalibrate qp entry => steady_execSubmitCalibrate qp entry s (.refl s)
  | .submitStreamOpen qp entry => steady_execSubmitStreamOpen qp entry s (.refl s)
  | .submitStreamClose qp entry => steady_execSubmitStreamClose qp entry s (.refl s)
  | .submitScan qp entry => steady_execSubmitScan qp entry s (.refl s)
  | .jobStart job => steady_execJobStart job s (.refl s)
  | .jobDeadline job => steady_execJobDeadline job s (.refl s)
  | .completionPost qp => steady_execCompletionPost qp s (.refl s)
  | .mailboxDoorbell n req => steady_execMailboxDoorbell n req s (.refl s)
  | .commandFinalResponse n obs => steady_execCommandFinalResponse n obs s (.refl s)
  | .getInfo n => steady_execGetInfo n s (.refl s)
  | .resume n => steady_execResume n s (.refl s)
  | .resumeComplete => steady_execResumeComplete s (.refl s)
  | .safeEnter n => steady_execSafeEnter n s (.refl s)
  | .txnBegin n => steady_execTxnBegin n s (.refl s)
  | .txnSet n => steady_execTxnSet n s (.refl s)
  | .txnCommit n => steady_execTxnCommit n s (.refl s)
  | .txnRollback n => steady_execTxnRollback n s (.refl s)
  | .txnStatus n => steady_execTxnStatus n s (.refl s)
  | .txnTimeout part => steady_execTxnTimeout part s (.refl s)
  | .txnApply part => steady_execTxnApply part s (.refl s)
  | .unitEnable n => steady_execUnitEnable n s (.refl s)
  | .unitDisable n => steady_execUnitDisable n s (.refl s)
  | .fence n => steady_execFence n s (.refl s)
  | .unfence n => steady_execUnfence n s (.refl s)
  | .programLoad n => steady_execProgramLoad n s (.refl s)
  | .patchStage n => steady_execPatchStage n s (.refl s)
  | .userUcodeStage n => steady_execUserUcodeStage n s (.refl s)
  | .patchApply n => steady_execPatchApply n s (.refl s)
  | .patchApplyDone => steady_execPatchApplyDone s (.refl s)
  | .patchDiscard n => steady_execPatchDiscard n s (.refl s)
  | .nanoLoad n => steady_execNanoLoad n s (.refl s)
  | .nanoSwap n => steady_execNanoSwap n s (.refl s)
  | .nanoSwapDone tile cluster => steady_execNanoSwapDone tile cluster s (.refl s)
  | .partCreate n => steady_execPartCreate n s (.refl s)
  | .partDestroy n => steady_execPartDestroy n s (.refl s)
  | .partPolicy n => steady_execPartPolicy n s (.refl s)
  | .partAssign n => steady_execPartAssign n s (.refl s)
  | .qpCreate n => steady_execQpCreate n s (.refl s)
  | .qpDelete n => steady_execQpDelete n s (.refl s)
  | .planLoad n => steady_execPlanLoad n s (.refl s)
  | .planDrop n => steady_execPlanDrop n s (.refl s)
  | .jobAbort n => steady_execJobAbort n s (.refl s)
  | .decSlotAssign n => steady_execDecSlotAssign n s (.refl s)
  | .decExportSet n => steady_execDecExportSet n s (.refl s)
  | .decImportSet n => steady_execDecImportSet n s (.refl s)
  | .syndGroupSet n => steady_execSyndGroupSet n s (.refl s)
  | .syndDecoderSet n => steady_execSyndDecoderSet n s (.refl s)
  | .syndRead n => steady_execSyndRead n s (.refl s)
  | .timeConfig n => steady_execTimeConfig n s (.refl s)
  | .timeReinit n => steady_execTimeReinit n s (.refl s)
  | .syncCal n => steady_execSyncCal n s (.refl s)
  | .calRun n => steady_execCalRun n s (.refl s)
  | .calRefDeclare n => steady_execCalRefDeclare n s (.refl s)
  | .calStatus n => steady_execCalStatus n s (.refl s)
  | .hostCopyIn n => steady_execHostCopyIn n s (.refl s)
  | .hostCopyOut n => steady_execHostCopyOut n s (.refl s)
  | .fwStage n => steady_execFwStage n s (.refl s)
  | .fwActivate n => steady_execFwActivate n s (.refl s)
  | .mgmtHandover n => steady_execMgmtHandover n s (.refl s)
  | .logRead n => steady_execLogRead n s (.refl s)
  | .memInfo n => steady_execMemInfo n s (.refl s)
  | .memRetire n => steady_execMemRetire n s (.refl s)
  | .patrolPassEnd => steady_execPatrolPassEnd s (.refl s)
  | .devRetireThreshold dev => steady_execDevRetireThreshold dev s (.refl s)
  | .memUncorrectable addr dev owner => steady_execMemUncorrectable addr dev owner s (.refl s)
  | .memInitDone => steady_execMemInitDone s (.refl s)
  | .calDue unit => steady_execCalDue unit s (.refl s)
  | .calStale unit => steady_execCalStale unit s (.refl s)
  | .gapCalStep unit disturbed => steady_execGapCalStep unit disturbed s (.refl s)
  | .calComplete unit obs => steady_execCalComplete unit obs s (.refl s)
  | .calHoldTimeout unit => steady_execCalHoldTimeout unit s (.refl s)
  | .calRecordWrite unit => steady_execCalRecordWrite unit s (.refl s)
  | .bootCalDone failed => steady_execBootCalDone failed s (.refl s)
  | .thermSample sensor temp => steady_execThermSample sensor temp s (.refl s)
  | .thermStateEntry sensor st => steady_execThermStateEntry sensor st s (.refl s)
  | .thermStateLeave sensor st => steady_execThermStateLeave sensor st s (.refl s)
  | .thermRateEntry sensor => steady_execThermRateEntry sensor s (.refl s)
  | .thermRateLeave sensor => steady_execThermRateLeave sensor s (.refl s)
  | .thermSensorFail sensor => steady_execThermSensorFail sensor s (.refl s)
  | .thermShutdown => steady_execThermShutdown s (.refl s)
  | .thermRestart => steady_execThermRestart s (.refl s)
  | .thmCfgWrite value => steady_execThmCfgWrite value s (.refl s)
  | .faultRecord blk faults => steady_execFaultRecord blk faults s (.refl s)
  | .fltInject blk value => steady_execFltInject blk value s (.refl s)
  | .errHoldExpire => steady_execErrHoldExpire s (.refl s)
  | .tileLinkSilence tile => steady_execTileLinkSilence tile s (.refl s)
  | .heartbeatMiss => steady_execHeartbeatMiss s (.refl s)
  | .standbyRestartDone ok => steady_execStandbyRestartDone ok s (.refl s)
  | .fwAudit stale => steady_execFwAudit stale s (.refl s)
  | .logWrite => steady_execLogWrite s (.refl s)
  | .peakClr thr => steady_execPeakClr thr s (.refl s)
  | .maxClear => steady_execMaxClear s (.refl s)
  | .railSeqError rail => steady_execRailSeqError rail s (.refl s)
  | .railDrop rail => steady_execRailDrop rail s (.refl s)
  | .perstAssert => steady_execPerstAssert s (.refl s)
  | .perstDeassert => steady_execPerstDeassert s (.refl s)
  | .vauxLoss => steady_execVauxLoss s (.refl s)
  | .bootImageCheck slotA slotB flash8D => steady_execBootImageCheck slotA slotB flash8D s (.refl s)
  | .fwReady => steady_execFwReady s (.refl s)
  | .spineLaneRepairDone tile => steady_execSpineLaneRepairDone tile s (.refl s)
  | .spareFaultHandbackDone tile group => steady_execSpareFaultHandbackDone tile group s (.refl s)
  | .trainingSignalLoss port lane => steady_execTrainingSignalLoss port lane s (.refl s)
  | .deskewWaitExpire port => steady_execDeskewWaitExpire port s (.refl s)
  | .syncMissing => steady_execSyncMissing s (.refl s)
  | .resultDelivery => steady_execResultDelivery s (.refl s)
  | .configRequest req => steady_execConfigRequest req s (.refl s)
  | .cacheSnoop hostAddr => steady_execCacheSnoop hostAddr s (.refl s)
  | .pcieRefclkLoss => steady_execPcieRefclkLoss s (.refl s)
  | .railReturn rail => steady_execRailReturn rail s (.refl s)
  | .bootStart => steady_execBootStart s (.refl s)

/-! ## Every command ends in a next state

Every branch of every meaning ends in `.next`; the proofs follow the branches. -/

/-- The outcome is a next state. -/
def Completes (o : Host.Outcome State Fault Refusal) : Prop := ∃ t, o = .next t

theorem Completes.next {t : State} : Completes (.next t) := ⟨t, rfl⟩

theorem Completes.ite {c : Prop} {_ : Decidable c} {a b : Host.Outcome State Fault Refusal} (ha : Completes a)
    (hb : Completes b) : Completes (if c then a else b) := by split <;> assumption

/-! ### Drive -/

theorem completes_execSpareTakeoverDone (tile group : Nat) (s : State) :
    Completes (execSpareTakeoverDone tile group s) := by
  unfold execSpareTakeoverDone
  split
  exacts [.next, .next]

theorem completes_execSpareHandback (tile group : Nat) (s : State) : Completes (execSpareHandback tile group s) := by
  unfold execSpareHandback
  split
  · exact .ite .next .next
  · refine .ite ?_ .next
    split
    exacts [.next, .next]
  · exact .ite .next .next
  · exact .next

theorem completes_execHandbackForced (tile group : Nat) (s : State) :
    Completes (execHandbackForced tile group s) := by
  unfold execHandbackForced
  split
  exacts [.ite .next .next, .next]

theorem completes_execCalTakeover (tile group : Nat) (s : State) : Completes (execCalTakeover tile group s) := by
  unfold execCalTakeover
  split
  exacts [.ite .next .next, .next]

theorem completes_execCalOfflineDone (tile group : Nat) (chan spare : CalObs) (s : State) :
    Completes (execCalOfflineDone tile group chan spare s) := by
  dsimp only [execCalOfflineDone]
  split
  exacts [.ite .next .next, .next]

theorem completes_execSpareFaultHandbackDone (tile group : Nat) (s : State) :
    Completes (execSpareFaultHandbackDone tile group s) := by
  unfold execSpareFaultHandbackDone
  split
  exacts [.next, .next]

/-! ### FluxBias -/

theorem completes_execBiasLatch (tile chan : Nat) (s : State) : Completes (execBiasLatch tile chan s) := by
  dsimp only [execBiasLatch]
  split
  exacts [.next, .ite .next (.ite .next .next)]

theorem completes_execSpanChange (kind : OutKind) (tile chan span : Nat) (codeAfter : BitVec 20) (s : State) :
    Completes (execSpanChange kind tile chan span codeAfter s) := by
  unfold execSpanChange
  split
  exacts [.next, .next, .ite .next .next]

theorem completes_execSpanChangeEnd (kind : OutKind) (tile chan : Nat) (s : State) :
    Completes (execSpanChangeEnd kind tile chan s) := by
  dsimp only [execSpanChangeEnd]
  split
  exacts [.ite .next .next, .ite .next .next, .next]

/-! ### SenseFE -/

theorem completes_execSenseSlotStart (tile list : Nat) (s : State) : Completes (execSenseSlotStart tile list s) := by
  dsimp only [execSenseSlotStart]
  refine .ite ?_ .next
  split
  exacts [.ite .next .next, .next]

/-! ### Streams -/

theorem completes_execPassEnd (tile strm : Nat) (s : State) : Completes (execPassEnd tile strm s) := by
  dsimp only [execPassEnd]
  split
  exacts [.next, .ite (.ite .next (.ite .next (.ite .next (.ite .next .next)))) .next]

/-! ### Decisions -/

theorem completes_execGroupFire (group : Nat) (s : State) : Completes (execGroupFire group s) := by
  dsimp only [execGroupFire]
  split
  exacts [.next, .ite .next .next]

theorem completes_execDecoderFire (dec : Nat) (parityErr : Bool) (s : State) :
    Completes (execDecoderFire dec parityErr s) := by
  dsimp only [execDecoderFire]
  refine .ite ?_ .next
  split
  exacts [.next, .ite (.ite .next .next) .next]

theorem completes_execExtDecoderFire (dec : Nat) (s : State) : Completes (execExtDecoderFire dec s) := by
  dsimp only [execExtDecoderFire]
  refine .ite ?_ .next
  split
  exacts [.next, .ite .next .next]

/-! ### Borvon -/

theorem completes_execDeskewWaitExpire (port : Nat) (s : State) : Completes (execDeskewWaitExpire port s) := by
  unfold execDeskewWaitExpire
  split
  exacts [.ite .next .next, .next]

theorem completes_execNakRepeat (port : Nat) (s : State) : Completes (execNakRepeat port s) := by
  dsimp only [execNakRepeat]
  split
  exacts [.ite .next .next, .next]

theorem completes_execMsgError (found : MsgFault) (s : State) : Completes (execMsgError found s) := by
  unfold execMsgError
  refine .ite ?_ ?_
  · split
    exacts [.next, .next, .ite .next .next, .next, .next, .next, .next, .next]
  · refine .ite ?_ .next
    split
    exacts [.next, .next]

/-! ### Calibration -/

theorem completes_execCalStale (unit : UnitDesc) (s : State) : Completes (execCalStale unit s) := by
  dsimp only [execCalStale]
  split
  exacts [.ite .next .next, .next]

theorem completes_execGapCalStep (unit : UnitDesc) (disturbed : Bool) (s : State) :
    Completes (execGapCalStep unit disturbed s) := by
  dsimp only [execGapCalStep]
  refine .ite ?_ .next
  split
  exacts [.next, .next, .next]

theorem completes_execCalComplete (unit : UnitDesc) (obs : CalObs) (s : State) :
    Completes (execCalComplete unit obs s) := by
  dsimp only [execCalComplete]
  refine .ite (.ite .next (.ite .next ?_)) .next
  split
  exacts [.ite .next .next, .next, .next]

theorem completes_execCalHoldTimeout (unit : UnitDesc) (s : State) : Completes (execCalHoldTimeout unit s) := by
  unfold execCalHoldTimeout
  split
  exacts [.ite .next .next, .next]

theorem completes_execCalRecordWrite (unit : UnitDesc) (s : State) : Completes (execCalRecordWrite unit s) := by
  dsimp only [execCalRecordWrite]
  split
  exacts [.ite .next .next, .next]

/-! ### TimeService -/

theorem completes_execDelayResp (seq lane t2 : Nat) (t3 : Checked Nat 16) (t4 : Nat) (s : State) :
    Completes (execDelayResp seq lane t2 t3 t4 s) := by
  dsimp only [execDelayResp]
  refine .ite .next ?_
  split
  exacts [.next, .ite (.ite .next (.ite .next .next)) .next]

theorem completes_execSynReceive (port id : Nat) (event : Word) (sent : Checked (Nat × Nat) 16) (s : State) :
    Completes (execSynReceive port id event sent s) := by
  dsimp only [execSynReceive]
  refine .ite .next (.ite (.ite ?_ .next) .next)
  split
  exacts [.next, .next]

theorem completes_execSyncMissing (s : State) : Completes (execSyncMissing s) := by
  unfold execSyncMissing
  split
  exacts [.ite .next .next, .next]

theorem completes_execSyncCalDone (s : State) : Completes (execSyncCalDone s) := by
  dsimp only [execSyncCalDone]
  split
  exacts [.ite .next .next, .next]

/-! ### Readout -/

theorem completes_execWindowEnd (tile line tone : Nat) (codes : List Int) (s : State) :
    Completes (execWindowEnd tile line tone codes s) := by
  dsimp only [execWindowEnd]
  split
  exacts [.next, .ite (.ite .next .next) .next]

theorem completes_execSliceSpareInPlace (tile line : Nat) (s : State) :
    Completes (execSliceSpareInPlace tile line s) := by
  dsimp only [execSliceSpareInPlace]
  split
  exacts [.next, .next]

/-! ### Threads -/

theorem completes_execWaitRelease (thr : Nat) (s : State) : Completes (execWaitRelease thr s) := by
  unfold execWaitRelease
  split
  exacts [.ite .next .next, .next]

theorem completes_execBarrierRelease (bar : Nat) (s : State) : Completes (execBarrierRelease bar s) := by
  dsimp only [execBarrierRelease]
  split
  exacts [.ite .next .next, .next]

theorem completes_execSyncTimeout (thr : Nat) (s : State) : Completes (execSyncTimeout thr s) := by
  dsimp only [execSyncTimeout]
  split
  exacts [.ite .next .next, .next]

theorem completes_execSyncMiss (bar : Nat) (s : State) : Completes (execSyncMiss bar s) := by
  unfold execSyncMiss
  split
  exacts [.next, .ite .next .next]

theorem completes_execBrdResolve (thr : Nat) (s : State) : Completes (execBrdResolve thr s) := by
  dsimp only [execBrdResolve]
  split
  exacts [.ite .next .next, .next]

theorem completes_execBrdLate (thr : Nat) (s : State) : Completes (execBrdLate thr s) := by
  dsimp only [execBrdLate]
  split
  exacts [.ite (.ite .next .next) .next, .next]

theorem completes_execTrigRelease (thr : Nat) (s : State) : Completes (execTrigRelease thr s) := by
  unfold execTrigRelease
  split
  exacts [.ite .next .next, .next]

theorem completes_execTrigTimeout (thr : Nat) (s : State) : Completes (execTrigTimeout thr s) := by
  dsimp only [execTrigTimeout]
  split
  exacts [.ite (.ite .next .next) .next, .next]

theorem completes_execWaitsRelease (thr : Nat) (s : State) : Completes (execWaitsRelease thr s) := by
  unfold execWaitsRelease
  split
  exacts [.ite .next .next, .next]

theorem completes_execWaitsTimeout (thr : Nat) (s : State) : Completes (execWaitsTimeout thr s) := by
  dsimp only [execWaitsTimeout]
  split
  exacts [.ite .next .next, .next]

theorem completes_execPeerStop (thr : Nat) (s : State) : Completes (execPeerStop thr s) := by
  unfold execPeerStop
  split
  exacts [.next, .next]

theorem completes_execBankReplaceDone (tile cluster : Nat) (store : StoreKind) (s : State) :
    Completes (execBankReplaceDone tile cluster store s) := by
  dsimp only [execBankReplaceDone]
  split
  exacts [.next, .next]

/-! ### DevMemory -/

theorem completes_execMemUncorrectable (addr dev : Nat) (owner : MemOwner) (s : State) :
    Completes (execMemUncorrectable addr dev owner s) := by
  dsimp only [execMemUncorrectable]
  refine .ite ?_ .next
  split
  · exact .next
  · split
    exacts [.next, .next, .next]

/-! ### HostIf -/

theorem completes_execConfigRequest (req : CfgReq) (s : State) : Completes (execConfigRequest req s) := by
  unfold execConfigRequest
  refine .ite .next (.ite .next ?_)
  split
  exacts [.next, .ite .next .next, .ite .next .next, .ite .next .next, .next, .next]

theorem completes_execCxlmemRequest (write : Bool) (hostAddr : Nat) (data : List Byte) (s : State) :
    Completes (execCxlmemRequest write hostAddr data s) := by
  dsimp only [execCxlmemRequest]
  refine .ite ?_ .next
  split
  exacts [.next, .ite .next (.ite .next (.ite .next .next))]

/-! ### Queues -/

theorem completes_execJobStart (job : Nat) (s : State) : Completes (execJobStart job s) := by
  dsimp only [execJobStart]
  split
  exacts [.ite .next .next, .next]

theorem completes_execShotStart (job : Nat) (s : State) : Completes (execShotStart job s) := by
  dsimp only [execShotStart]
  split
  exacts [.ite (.ite .next .next) .next, .next]

theorem completes_execShotRerun (job : Nat) (s : State) : Completes (execShotRerun job s) := by
  dsimp only [execShotRerun]
  split
  exacts [.ite .next .next, .ite .next .next, .next]

theorem completes_execShotComplete (job : Nat) (s : State) : Completes (execShotComplete job s) := by
  dsimp only [execShotComplete]
  split
  exacts [.ite .next .next, .ite (.ite .next (.ite .next .next)) .next]

theorem completes_execCompletionPost (qp : Nat) (s : State) : Completes (execCompletionPost qp s) := by
  unfold execCompletionPost
  split
  exacts [.next, .ite .next (.ite .next (.ite .next .next))]

/-! ### TdcUnit -/

theorem completes_execTdcFifoPop (s : State) : Completes (execTdcFifoPop s) := by
  unfold execTdcFifoPop
  split
  exacts [.next, .next]

theorem completes_execTdcFreqGateEnd (s : State) : Completes (execTdcFreqGateEnd s) := by
  dsimp only [execTdcFreqGateEnd]
  split
  exacts [.ite .next .next, .next]

/-! ### Thermal -/

theorem completes_execThermSample (sensor : Nat) (temp : Option Int) (s : State) :
    Completes (execThermSample sensor temp s) := by
  dsimp only [execThermSample]
  refine .ite .next ?_
  split
  exacts [.next, .next]

theorem completes_execThermShutdown (s : State) : Completes (execThermShutdown s) := by
  unfold execThermShutdown
  split
  exacts [.next, .next]

theorem completes_execThermRestart (s : State) : Completes (execThermRestart s) := by
  dsimp only [execThermRestart]
  split
  exacts [.ite .next .next, .next]

/-! ### Faults -/

theorem completes_execErrHoldExpire (s : State) : Completes (execErrHoldExpire s) := by
  unfold execErrHoldExpire
  split
  exacts [.ite .next .next, .next]

theorem completes_execStandbyRestartDone (ok : Bool) (s : State) : Completes (execStandbyRestartDone ok s) := by
  dsimp only [execStandbyRestartDone]
  split
  exacts [.ite .next .next, .next]

theorem completes_execLogWrite (s : State) : Completes (execLogWrite s) := by
  dsimp only [execLogWrite]
  split
  · exact .next
  · split
    exacts [.next, .next]

/-! ### Programs -/

theorem completes_execNanoSwapDone (tile cluster : Nat) (s : State) :
    Completes (execNanoSwapDone tile cluster s) := by
  dsimp only [execNanoSwapDone]
  split
  exacts [.ite .next .next, .next]

/-! ### Images -/

theorem completes_execPatchApplyDone (s : State) : Completes (execPatchApplyDone s) := by
  dsimp only [execPatchApplyDone]
  split
  · exact .ite .next .next
  · split
    exacts [.next, .next]

/-! ### RegWrite -/

theorem completes_execDecisionUpdate (replica : Nat) (s : State) : Completes (execDecisionUpdate replica s) := by
  dsimp only [execDecisionUpdate]
  split
  exacts [.ite .next (.ite .next .next), .next]

/-! ### Grid -/

theorem completes_execTxnApply (part : Nat) (s : State) : Completes (execTxnApply part s) := by
  unfold execTxnApply
  split
  exacts [.ite .next .next, .next]

theorem completes_execQualifyReturn (s : State) : Completes (execQualifyReturn s) := by
  unfold execQualifyReturn
  split
  exacts [.ite .next .next, .next]

theorem completes_execRefLock (s : State) : Completes (execRefLock s) := by
  unfold execRefLock
  split
  exacts [.ite .next .next, .next]

/-! ### All commands

Commands whose meaning has the same branches share a line; a meaning that branches by a match has its lemma above. -/

theorem completes_exec (c : Instr) (s : State) : Completes (exec c s) :=
  match c with
  | .tickBoundaryApply .. | .coupleTimeout .. | .timNowLoRead .. | .timRefCtrlWrite .. | .play .. | .frame ..
    | .setf .. | .wait .. | .sync .. | .meas .. | .brd .. | .jump .. | .call .. | .ret .. | .loop .. | .sweep ..
    | .mark .. | .trig .. | .pub .. | .custom .. | .flxEnable .. | .biaEnable .. | .decSwWrite ..
    | .ringRebuildDone .. | .capRearmEnd .. | .capTrigger .. | .intervalStartExpire .. | .linkOutage ..
    | .submitRun .. | .submitCapture .. | .submitCalibrate .. | .submitStreamOpen .. | .submitStreamClose ..
    | .submitScan .. | .getInfo .. | .resume .. | .safeEnter .. | .txnBegin .. | .txnSet .. | .txnCommit ..
    | .txnRollback .. | .txnStatus .. | .txnTimeout .. | .unitEnable .. | .unitDisable .. | .fence .. | .unfence ..
    | .programLoad .. | .patchStage .. | .userUcodeStage .. | .patchApply .. | .patchDiscard .. | .nanoLoad ..
    | .nanoSwap .. | .partCreate .. | .partDestroy .. | .partPolicy .. | .partAssign .. | .qpCreate ..
    | .qpDelete .. | .planLoad .. | .planDrop .. | .jobAbort .. | .decSlotAssign .. | .decExportSet ..
    | .decImportSet .. | .syndGroupSet .. | .syndDecoderSet .. | .syndRead .. | .timeConfig .. | .timeReinit ..
    | .calRun .. | .calStatus .. | .hostCopyIn .. | .hostCopyOut .. | .fwStage .. | .fwActivate ..
    | .mgmtHandover .. | .logRead .. | .memInfo .. | .memRetire .. | .thmCfgWrite .. | .fltInject .. | .maxClear ..
    | .perstAssert .. | .vauxLoss .. | .spineLaneRepairDone .. | .pcieRefclkLoss .. | .railReturn ..
    | .bootStart .. => .next
  | .regWrite .. | .refinEdgeSeen .. | .refLoss .. | .pllLock .. | .tileTickCheck .. | .pllUnlock ..
    | .mchkReloadDone .. | .nanoViewWrite .. | .envMemWrite .. | .weightWrite .. | .decodeTableWrite ..
    | .enableCheckDone .. | .segOpen .. | .segSeal .. | .strmJumpRequest .. | .commitPoint .. | .strmWpWrite ..
    | .streamFetch .. | .streamBlockArrive .. | .streamUnderrun .. | .genEnable .. | .genRestart ..
    | .scanEnable .. | .senseConversionDone .. | .snsInjGo .. | .snsInjTime .. | .senseRotate .. | .sliceRotate ..
    | .agcStep .. | .xtSwap .. | .slotAged .. | .tableReloadDone .. | .synBaseWrite .. | .decQueueSend ..
    | .spineLinkRetry .. | .capStop .. | .capForce .. | .capArmTimeReached .. | .capRecordDone .. | .tdcFreqGo ..
    | .laneTrainStep .. | .trainStepTimeout .. | .trainRetry .. | .deepPoll .. | .laneFail .. | .skipSend ..
    | .skipReceive .. | .ackSend .. | .bvnRetrain .. | .bvnWiden .. | .bvnInj .. | .announceSend ..
    | .announceTimeout .. | .delayReqSend .. | .tsHoldExpire .. | .syncOutPulse .. | .linkUp .. | .d3hotWrite ..
    | .d0Write .. | .viralReceive .. | .sqTailDoorbell .. | .cqHeadDoorbell .. | .jobDeadline ..
    | .mailboxDoorbell .. | .commandFinalResponse .. | .resumeComplete .. | .syncCal .. | .calRefDeclare ..
    | .patrolPassEnd .. | .devRetireThreshold .. | .memInitDone .. | .calDue .. | .bootCalDone ..
    | .thermStateEntry .. | .thermStateLeave .. | .thermRateEntry .. | .thermRateLeave .. | .tileLinkSilence ..
    | .fwAudit .. | .peakClr .. | .railSeqError .. | .perstDeassert .. | .fwReady .. | .trainingSignalLoss ..
    | .resultDelivery .. | .cacheSnoop .. => .ite .next .next
  | .qualifyEnd .. | .drvEnable .. | .capArm .. | .timedEventFire .. | .hdmCommit .. | .memReady ..
    | .faultRecord .. | .railDrop .. => .ite (.ite .next .next) .next
  | .tdcLineSwap .. | .rstReceive .. | .rplReceive .. | .decReceive .. | .ackReceive .. | .nakReceive ..
    | .announceReceive .. | .delayReq .. | .timeStep .. | .heartbeatMiss .. => .ite .next (.ite .next .next)
  | .bootImageCheck .. => .ite (.ite .next (.ite .next .next)) .next
  | .pktAnswerReceive .. | .pktManagementReceive .. => .ite .next (.ite (.ite .next .next) .next)
  | .thermSensorFail .. => .ite (.ite (.ite .next .next) (.ite .next .next)) .next
  | .tdcEdge .. => .ite (.ite .next (.ite .next (.ite (.ite .next (.ite .next .next)) (.ite .next .next)))) .next
  | .qualifyReturn => completes_execQualifyReturn s
  | .refLock => completes_execRefLock s
  | .shotStart job => completes_execShotStart job s
  | .waitRelease thr => completes_execWaitRelease thr s
  | .barrierRelease bar => completes_execBarrierRelease bar s
  | .syncTimeout thr => completes_execSyncTimeout thr s
  | .syncMiss bar => completes_execSyncMiss bar s
  | .brdResolve thr => completes_execBrdResolve thr s
  | .brdLate thr => completes_execBrdLate thr s
  | .trigRelease thr => completes_execTrigRelease thr s
  | .trigTimeout thr => completes_execTrigTimeout thr s
  | .waitsRelease thr => completes_execWaitsRelease thr s
  | .waitsTimeout thr => completes_execWaitsTimeout thr s
  | .peerStop thr => completes_execPeerStop thr s
  | .shotComplete job => completes_execShotComplete job s
  | .shotRerun job => completes_execShotRerun job s
  | .bankReplaceDone tile cluster store => completes_execBankReplaceDone tile cluster store s
  | .spareTakeoverDone tile group => completes_execSpareTakeoverDone tile group s
  | .spareHandback tile group => completes_execSpareHandback tile group s
  | .handbackForced tile group => completes_execHandbackForced tile group s
  | .calTakeover tile group => completes_execCalTakeover tile group s
  | .calOfflineDone tile group chan spare => completes_execCalOfflineDone tile group chan spare s
  | .passEnd tile strm => completes_execPassEnd tile strm s
  | .biasLatch tile chan => completes_execBiasLatch tile chan s
  | .spanChange kind tile chan span codeAfter => completes_execSpanChange kind tile chan span codeAfter s
  | .spanChangeEnd kind tile chan => completes_execSpanChangeEnd kind tile chan s
  | .senseSlotStart tile list => completes_execSenseSlotStart tile list s
  | .windowEnd tile line tone x => completes_execWindowEnd tile line tone x s
  | .sliceSpareInPlace tile line => completes_execSliceSpareInPlace tile line s
  | .decisionUpdate replica => completes_execDecisionUpdate replica s
  | .groupFire group => completes_execGroupFire group s
  | .decoderFire dec parityErr => completes_execDecoderFire dec parityErr s
  | .extDecoderFire dec => completes_execExtDecoderFire dec s
  | .tdcFifoPop => completes_execTdcFifoPop s
  | .tdcFreqGateEnd => completes_execTdcFreqGateEnd s
  | .msgError found => completes_execMsgError found s
  | .nakRepeat port => completes_execNakRepeat port s
  | .delayResp seq lane t2 t3 t4 => completes_execDelayResp seq lane t2 t3 t4 s
  | .synReceive port id event sent => completes_execSynReceive port id event sent s
  | .syncCalDone => completes_execSyncCalDone s
  | .cxlmemRequest write hostAddr data => completes_execCxlmemRequest write hostAddr data s
  | .jobStart job => completes_execJobStart job s
  | .completionPost qp => completes_execCompletionPost qp s
  | .txnApply part => completes_execTxnApply part s
  | .patchApplyDone => completes_execPatchApplyDone s
  | .nanoSwapDone tile cluster => completes_execNanoSwapDone tile cluster s
  | .memUncorrectable addr dev owner => completes_execMemUncorrectable addr dev owner s
  | .calStale unit => completes_execCalStale unit s
  | .gapCalStep unit disturbed => completes_execGapCalStep unit disturbed s
  | .calComplete unit obs => completes_execCalComplete unit obs s
  | .calHoldTimeout unit => completes_execCalHoldTimeout unit s
  | .calRecordWrite unit => completes_execCalRecordWrite unit s
  | .thermSample sensor temp => completes_execThermSample sensor temp s
  | .thermShutdown => completes_execThermShutdown s
  | .thermRestart => completes_execThermRestart s
  | .errHoldExpire => completes_execErrHoldExpire s
  | .standbyRestartDone ok => completes_execStandbyRestartDone ok s
  | .logWrite => completes_execLogWrite s
  | .spareFaultHandbackDone tile group => completes_execSpareFaultHandbackDone tile group s
  | .deskewWaitExpire port => completes_execDeskewWaitExpire port s
  | .syncMissing => completes_execSyncMissing s
  | .configRequest req => completes_execConfigRequest req s

/-! ## What a command and a step leave -/

theorem steady_of_exec {c : Instr} {s t : State} (h : exec c s = .next t) :
    Steady (mayStore c) (mayChangeMode c) s t := by
  have hs := steady_exec c s
  rwa [h] at hs

theorem exec_keeps_inv {c : Instr} {s t : State} (h : exec c s = .next t) (hs : s.Inv) : t.Inv := by
  obtain ⟨-, -, hinv, -, -⟩ := steady_of_exec h
  exact hinv hs

/-- No part of the invariant speaks of the queue. -/
theorem inv_withPending (s : State) (q : List Instr) : (s.withPending q).Inv ↔ s.Inv := Iff.rfl

/-- A step idles on an empty queue or runs the command at its front. -/
theorem step_cases {s t : State} (h : step s = .next t) :
    (s.pending = [] ∧ t = s) ∨ ∃ c rest, s.pending = c :: rest ∧ exec c (s.withPending rest) = .next t := by
  unfold step at h
  split at h
  · next hp => exact .inl ⟨hp, by cases h; rfl⟩
  · next c rest hp => exact .inr ⟨c, rest, hp, h⟩

/-! ## The obligations -/

/-- Settles O3: the register map and the memory of the reset state are empty, so the words of SPN_ID and SPN_MODE differ
in no bit from their reset words. -/
theorem resetMeetsInvariant : Obligations.ResetMeetsInvariant := by
  rw [Obligations.ResetMeetsInvariant, inv_iff]
  exact ⟨⟨.nil, nofun⟩, ⟨.nil, nofun⟩, rfl, Nat.zero_le 5⟩

/-- Settles O4: every command keeps the invariant (`Steady`), and the queue has no part in it. -/
theorem stepKeepsInvariant : Obligations.StepKeepsInvariant := by
  intro s t hs h
  obtain ⟨-, rfl⟩ | ⟨c, rest, -, hc⟩ := step_cases h
  · exact hs
  · exact exec_keeps_inv hc ((inv_withPending s rest).2 hs)

/-- Settles O5: every command ends in a next state, and no operation it is made of touches the queue or the variant. -/
theorem everyCommandCompletes : Obligations.EveryCommandCompletes := by
  intro c s
  obtain ⟨t, ht⟩ := completes_exec c s
  obtain ⟨hvar, hqueue, -, -, -⟩ := steady_of_exec ht
  exact ⟨t, ht, hqueue, hvar⟩

end Sys2Proof.Machine

/-! SUPPORT. The frame of MODE, and what the accepted commands of partitions, queue pairs, plans and jobs leave (obligations
O8, O52). -/

namespace Sys2Proof.Machine

/-! ## MODE -/

/-- Settles O8: MODE is the last part of what every command outside `mayChangeMode` keeps (`Steady`). -/
theorem modeFrame : Obligations.ModeFrame := by
  intro c s t hc h
  obtain ⟨-, -, -, -, hmode⟩ := steady_of_exec h
  exact hmode hc

/-! ## Accepted mailbox commands

`State.command_asked` leaves a command's own effect; the request's own checks then choose one of its branches. -/

/-- A request that passes the common checks is answered by the command's own effect, which reads its payload alone. -/
theorem next_command_of_asked {n op : Nat} {txn : Bool} {layout : List Byte → Bool} {p : List Byte} {s t : State}
    {body : State → MbxReq → State} (h : s.asked n op txn layout p) (hb : ∀ r : MbxReq, r.payload = p → body s r = t) :
    (Host.Outcome.next (s.command n op txn layout body) : Host.Outcome State Fault Refusal) = .next t := by
  have ⟨_, _, _, hpay⟩ := h
  rw [s.command_asked h, hb _ hpay]

section Accepted

variable {n q pol k : Nat} {s : State} {p : List Byte}

theorem exec_partCreate_accepted (h : s.asked n 0x40 false (bytesOk 6 []) p) (hq : q = leAt p 0 1) (hpol : pol = leAt p 1 1)
    (hk : k = leAt p 2 4) (hlt : q < 64) (hpol12 : pol = 1 ∨ pol = 2) (hfree : s.partValid q = false)
    (hroom : s.quotaSum + k ≤ s.rd F.QMG_STAGE_POOL_POOL []) :
    exec (.partCreate n) s = .next ((((s.wr F.QMG_PART_CFG_VALID [q] 1).wr F.QMG_PART_CFG_POLICY [q] (pol - 1)).wr
      F.QMG_PART_QUOTA_QUOTA [q] k).ok n []) := by
  refine next_command_of_asked h fun r hr => ?_
  have hargs : ¬ (63 < q ∨ pol = 0 ∨ 2 < pol ∨ s.partValid q = true) := by
    rw [hfree]
    simp only [Bool.false_eq_true, or_false]
    omega
  simp only [hr, ← hq, ← hpol, ← hk, if_neg hargs, if_neg (Nat.not_lt.2 hroom)]

theorem exec_partDestroy_accepted (h : s.asked n 0x41 false (bytesOk 1 []) p) (hq : q = leAt p 0 1)
    (hcreated : s.created q = true) (hidle : s.partBusy q = false) (hpairs : s.rd F.QMG_PART_CFG_QUEUES [q] = 0)
    (htxn : s.commTxn q = none) :
    exec (.partDestroy n) s =
      .next ((((s.releasePart q).setRegWord R.QMG_PART_CFG [q] 0 0).wr F.QMG_PART_QUOTA_QUOTA [q] 0).ok n []) := by
  refine next_command_of_asked h fun r hr => ?_
  have hunused : ¬ (s.partBusy q = true ∨ s.rd F.QMG_PART_CFG_QUEUES [q] ≠ 0 ∨ (s.commTxn q).isSome = true) := by
    simp [hidle, hpairs, htxn]
  simp only [hr, ← hq, hcreated, Bool.not_true, Bool.false_eq_true, if_false, if_neg hunused]

theorem exec_partPolicy_accepted (h : s.asked n 0x42 false (bytesOk 2 []) p) (hq : q = leAt p 0 1) (hpol : pol = leAt p 1 1)
    (hcreated : s.created q = true) (hpol12 : pol = 1 ∨ pol = 2) (hidle : s.partBusy q = false) :
    exec (.partPolicy n) s = .next (((s.wr F.QMG_PART_CFG_POLICY [q] (pol - 1)).streamPolicy q (pol - 1)).ok n []) := by
  refine next_command_of_asked h fun r hr => ?_
  have hargs : ¬ ((!s.created q) = true ∨ pol = 0 ∨ 2 < pol ∨ s.partBusy q = true) := by
    rw [hcreated, hidle]
    simp only [Bool.not_true, Bool.false_eq_true, false_or, or_false]
    omega
  simp only [hr, ← hq, ← hpol, if_neg hargs]

theorem exec_partAssign_accepted {kind op first cnt : Nat} {us : List Nat} (h : s.asked n 0x43 false (bytesOk 7 []) p)
    (hq : q = leAt p 0 1) (hkind : kind = leAt p 1 1) (hop : op = leAt p 2 1) (hfirst : first = leAt p 3 2)
    (hcnt : cnt = leAt p 5 2) (hus : us = (List.range cnt).map (fun i => first + i)) (hcreated : s.created q = true)
    (_ : assignCount kind ≠ 0) (hop1 : op ≤ 1) (hcnt0 : cnt ≠ 0) (hfit : first + cnt ≤ assignCount kind)
    (hidle : (s.partBusy q || us.any (fun i => s.ownerBusy (s.unitOwner kind i))) = false)
    (howned : ∀ i ∈ us, s.unitOwner kind i = none ∨ s.unitOwner kind i = some q)
    (hpresent : ∀ i ∈ us, i / (assignCount kind / 7) < s.variant.tiles) :
    exec (.partAssign n) s = .next ((s.setPart q ((s.part q).units kind (fun l =>
      if op = 0 then l.filter (fun i => !us.contains i) ++ us else l.filter (fun i => !us.contains i)))).ok n []) := by
  refine next_command_of_asked h fun r hr => ?_
  have hargs : ¬ ((!s.created q) = true ∨ assignCount kind = 0 ∨ 1 < op ∨ cnt = 0 ∨ assignCount kind < first + cnt) := by
    rw [hcreated]
    simp only [Bool.not_true, Bool.false_eq_true, false_or]
    omega
  have habsent : us.findIdx? (fun i => decide (s.variant.tiles ≤ i / (assignCount kind / 7))) = none := by
    simpa [List.findIdx?_eq_none_iff] using hpresent
  simp only [hr, ← hq, ← hkind, ← hop, ← hfirst, ← hcnt, ← hus, if_neg hargs, hidle, Bool.false_eq_true, if_false]
  rw [habsent, List.findIdx?_eq_none_iff.2 fun i hi => ?_]
  obtain hnone | hsome := howned i hi
  · rw [hnone]
  · simp [hsome]

theorem exec_qpCreate_accepted (h : s.asked n 0x44 false (bytesOk 25 []) p) (hq : q = leAt p 0 2) (hk : k = leAt p 2 1)
    (hlt : q < 4096) (hcreated : s.created k = true) (hfree : s.rdB F.QMG_QP_VALID [q] = false)
    (hsq : ringOk (leAt p 19 2) (leAt p 3 8) 64 = true) (hcq : ringOk (leAt p 21 2) (leAt p 11 8) 32 = true)
    (hvlo : 1024 ≤ leAt p 23 2) (hvhi : leAt p 23 2 ≤ 2047) :
    (let u := s.setQp q {
       sqAddr := leAt p 3 8
       cqAddr := leAt p 11 8
       sqLen := leAt p 19 2
       cqLen := leAt p 21 2
       sqTail := 0
       cqHead := 0
       done := [] };
     let v := (((u.wr F.QMG_QP_VALID [q] 1).pairStart q).wr F.QMG_QP_CFG_PART [q] k).wr F.QMG_QP_CFG_VECTOR [q] (leAt p 23 2);
     exec (.qpCreate n) s = .next ((v.wr F.QMG_PART_CFG_QUEUES [k] (v.rd F.QMG_PART_CFG_QUEUES [k] + 1)).ok n [])) := by
  refine next_command_of_asked h fun r hr => ?_
  have hnum : decide (4095 < q) = false := decide_eq_false (by omega)
  have hlow : decide (leAt p 23 2 < 1024) = false := decide_eq_false (by omega)
  have hhigh : decide (2047 < leAt p 23 2) = false := decide_eq_false (by omega)
  simp only [hr, ← hq, ← hk, hnum, hcreated, hfree, hsq, hcq, hlow, hhigh, Bool.not_true, Bool.or_false,
    Bool.false_eq_true, if_false]

theorem exec_qpDelete_accepted (h : s.asked n 0x45 false (bytesOk 2 []) p) (hq : q = leAt p 0 2)
    (hk : k = s.rd F.QMG_QP_CFG_PART [q]) (hlt : q < 4096) (hvalid : s.rdB F.QMG_QP_VALID [q] = true)
    (hjobs : s.qm.jobs.any (fun e => decide (e.2.qp = q)) = false) :
    (let u := (((s.setQp q .idle).wr F.QMG_QP_VALID [q] 0).pairStart q).setRegWord R.QMG_QP_CFG [q] 0 0;
     exec (.qpDelete n) s = .next ((u.wr F.QMG_PART_CFG_QUEUES [k] (u.rd F.QMG_PART_CFG_QUEUES [k] - 1)).ok n [])) := by
  refine next_command_of_asked h fun r hr => ?_
  have hnum : decide (4095 < q) = false := decide_eq_false (by omega)
  simp only [hr, ← hq, ← hk, hnum, hvalid, hjobs, Bool.not_true, Bool.or_false, Bool.false_eq_true, if_false]

theorem exec_planLoad_accepted {num part : Nat} {b : List Byte} (h : s.asked n 0x46 false (bytesOk 15 []) p)
    (hnum : num = leAt p 0 2) (hpart : part = leAt p 2 1) (hb : b = s.memRead (leAt p 3 8) (leAt p 11 4))
    (hle : num ≤ 1023) (hcreated : s.created part = true) (hsrc : s.srcOk (leAt p 3 8) (leAt p 11 4) = true)
    (hfree : s.planHeld num = false) (hok : planOk b (planOf part b) = true) (hreason : s.planReason (planOf part b) = none) :
    (let v := s.scanPlan (planOf part b);
     exec (.planLoad n) s = .next ((s.setPlan num v).ok n
       (leBytes 1 v.lines.length ++ leBytes 1 v.gens.length ++ leBytes 2 v.brdSlots.length))) := by
  refine next_command_of_asked h fun r hr => ?_
  have hargs : ¬ (1023 < num ∨ (!s.created part) = true) := by
    simp [hcreated, hle]
  simp only [hr, ← hnum, ← hpart, ← hb, if_neg hargs, hsrc, hfree, hok, hreason, Bool.not_true, Bool.false_eq_true, if_false]

theorem exec_planDrop_accepted {num : Nat} (h : s.asked n 0x47 false (bytesOk 2 []) p) (hnum : num = leAt p 0 2)
    (hle : num ≤ 1023) (hfree : s.planHeld num = false) :
    exec (.planDrop n) s = .next ((s.setPlan num .idle).ok n []) := by
  refine next_command_of_asked h fun r hr => ?_
  simp only [hr, ← hnum, if_neg (Nat.not_lt.2 hle), hfree, Bool.false_eq_true, if_false]

theorem exec_jobAbort_accepted {tag : Word} {js : List Nat} (h : s.asked n 0x48 false (bytesOk 6 []) p)
    (hq : q = leAt p 0 2) (htag : tag = BitVec.ofNat 32 (leAt p 2 4))
    (hjs : js = s.jobsWhere (fun _ b => decide (b.qp = q) && decide (b.tag = tag))) (hsome : js.isEmpty = false) :
    exec (.jobAbort n) s = .next ((js.foldl (fun (s : State) j =>
      (s.updJob j (fun b => { b with abort := true })).stage (.jobAbort j) false) s).ok n []) := by
  refine next_command_of_asked h fun r hr => ?_
  simp only [hr, ← hq, ← htag, ← hjs, hsome, Bool.false_eq_true, if_false]

end Accepted

/-- Settles O52: an accepted request passes every check of its command's own, so that its last branch is taken. -/
theorem partitionCommands : Obligations.PartitionCommands :=
  ⟨fun _ _ _ _ _ _ => exec_partCreate_accepted,
   fun _ _ _ _ => exec_partDestroy_accepted,
   fun _ _ _ _ _ => exec_partPolicy_accepted,
   fun _ _ _ _ _ _ _ _ _ => exec_partAssign_accepted,
   fun _ _ _ _ _ => exec_qpCreate_accepted,
   fun _ _ _ _ _ => exec_qpDelete_accepted,
   fun _ _ _ _ _ _ => exec_planLoad_accepted,
   fun _ _ _ _ => exec_planDrop_accepted,
   fun _ _ _ _ _ _ => exec_jobAbort_accepted⟩

end Sys2Proof.Machine

/-! SUPPORT. Grid time, the reference, the main PLL and the tick boundary (obligations O17 to O20). -/

namespace Sys2Proof.Machine

/-! ## Grid time -/

theorem State.gridAt_lt (s : State) (t : Nat) : s.gridAt t < 2 ^ 57 := by
  unfold State.gridAt
  split
  · omega
  · exact Nat.mod_lt _ (Nat.two_pow_pos 57)

theorem State.grid_lt (s : State) : s.grid < 2 ^ 57 := s.gridAt_lt s.now

theorem State.gridAt_valid {s : State} (h : s.clk.gridValid = true) (t : Nat) :
    (s.gridAt t : Int) = ((t : Int) + s.clk.off) % 2 ^ 57 := by
  rw [State.gridAt, if_pos h, Int.toNat_of_nonneg (Int.emod_nonneg _ (by decide))]
  rfl

/-- TICK_HI is 25 bits wide, so that it holds all of a 57-bit TICK above the low 32 bits. -/
theorem State.rd_tickHi_wr (s : State) {g : Nat} (hg : g < 2 ^ 57) :
    (s.wr F.TIM_NOW_HI_TICK_HI [] (g / 2 ^ 32)).rd F.TIM_NOW_HI_TICK_HI [] = g / 2 ^ 32 := by
  have hfits : g / 2 ^ 32 < 2 ^ 25 := Nat.div_lt_of_lt_mul hg
  rw [State.rd_wr_self s rfl (by decide)]
  exact Nat.mod_eq_of_lt hfits

/-- Settles O17: TIM_NOW_HI keeps the quotient by 2^32 of the TICK whose remainder is emitted, and no other word is
written. -/
theorem gridTimeReads : Obligations.GridTimeReads := by
  refine ⟨fun s => ⟨_, rfl, rfl, ?_, fun r ix w hother => ?_, rfl⟩, fun s hvalid => State.gridAt_valid hvalid s.now⟩
  · calc (s.wr F.TIM_NOW_HI_TICK_HI [] (s.grid / 2 ^ 32)).rd F.TIM_NOW_HI_TICK_HI [] * 2 ^ 32 + s.grid % 2 ^ 32
      _ = s.grid / 2 ^ 32 * 2 ^ 32 + s.grid % 2 ^ 32 := by rw [s.rd_tickHi_wr s.grid_lt]
      _ = s.grid := Nat.div_add_mod' _ _
  · exact State.regWord_setRegWord_other s hother

/-! ## The tick boundary

Ticks beyond the first boundary pass only up to the tick before the first one that is due. -/

/-- A minimum of a bound and the predecessors of some ticks. -/
theorem foldl_min_pred_le (l : List Nat) (m : Nat) :
    l.foldl (fun m t => min m (t - 1)) m ≤ m ∧ ∀ d ∈ l, l.foldl (fun m t => min m (t - 1)) m ≤ d - 1 := by
  induction l generalizing m with
  | nil => exact ⟨Nat.le_refl m, nofun⟩
  | cons t ts ih =>
    obtain ⟨hbound, hmem⟩ := ih (min m (t - 1))
    exact ⟨hbound.trans (Nat.min_le_left _ _),
      List.forall_mem_cons.2 ⟨hbound.trans (Nat.min_le_right _ _), hmem⟩⟩

theorem State.loopTick_now (s : State) : s.loopTick.now = s.now := by
  unfold State.loopTick
  dsimp only
  split
  · rfl
  · split
    · split <;> rfl
    · split <;> rfl

theorem State.latchBefore_now (s : State) (n : Nat) : (s.latchBefore n).now = s.now := rfl

theorem State.passTicks_now (s : State) (n : Nat) : (s.passTicks n).now = s.now + n := rfl

/-- What TICK_BOUNDARY_APPLY does past its first boundary: nothing, or ticks pass to one before the first due tick. -/
theorem State.skipTicks_cases (s : State) (n : Nat) :
    s.skipTicks n = s ∨ ∃ last, s.now < last ∧ last ≤ s.now + n ∧ (∀ d ∈ s.dueTicks, last ≤ d - 1) ∧
      s.skipTicks n = ((s.latchBefore (64 * last)).passTicks (last - s.now)).loopTick := by
  obtain ⟨hbound, hdue⟩ := foldl_min_pred_le s.dueTicks (s.now + n)
  unfold State.skipTicks
  dsimp only
  split
  · next h => exact .inr ⟨_, of_decide_eq_true (Bool.and_eq_true_iff.1 h).1, hbound, hdue, rfl⟩
  · exact .inl rfl

theorem State.skipTicks_zero (s : State) : s.skipTicks 0 = s := by
  obtain h | ⟨last, hlt, hle, -, -⟩ := s.skipTicks_cases 0
  · exact h
  · omega

theorem State.skipTicks_now (s : State) (n : Nat) : (s.skipTicks n).now ≤ s.now + n ∧ s.now ≤ (s.skipTicks n).now ∧
    ∀ d ∈ s.dueTicks, s.now < d → (s.skipTicks n).now < d := by
  obtain h | ⟨last, hlt, hle, hdue, h⟩ := s.skipTicks_cases n
  · rw [h]
    exact ⟨Nat.le_add_right _ _, Nat.le_refl _, fun _ _ hd => hd⟩
  · have hnow : (s.skipTicks n).now = last := by
      rw [h, State.loopTick_now, State.passTicks_now, State.latchBefore_now]
      omega
    rw [hnow]
    refine ⟨hle, hlt.le, fun d hmem hd => ?_⟩
    have := hdue d hmem
    omega

/-! ### Staged writes and transactions that are due -/

/-- A register write entered before the present tick leaves staging and is applied. -/
theorem State.applyStaged_word {s : State} {a e : Nat} {v m : Word} (hstaged : s.staged = [⟨.word a v m, e, false⟩])
    (hdue : e < s.now) : s.applyStaged = ({ s with staged := [] } : State).applyAtAddr a v m := by
  simp [State.applyStaged, hstaged, hdue, StagedAct.isInject, groupInj, State.applyAct]

theorem State.applyAtAddr_found {s : State} {a w : Nat} {v m : Word} {r : Reg} {ix : List Nat}
    (h : findReg a regTable = some (r, ix, w)) : s.applyAtAddr a v m = s.applySetting r ix w v m := by
  rw [State.applyAtAddr, h]

theorem State.dueTxns_eq_nil {s : State}
    (h : s.mb.committed.all (fun e => e.2.applied || decide (s.now < e.2.commit)) = true) : s.dueTxns = [] := by
  have hnone : s.mb.committed.filter (fun e => !e.2.applied && decide (e.2.commit ≤ s.now)) = [] := by
    simpa [List.filter_eq_nil_iff, or_iff_not_imp_left] using h
  simp only [State.dueTxns, hnone, List.foldl_nil]

theorem State.dueTxns_single {s : State} {p : Nat} {t : Txn} (hone : s.mb.committed = [(p, t)]) (hnew : t.applied = false)
    (hdue : t.commit ≤ s.now) : s.dueTxns = [(p, t)] := by
  simp [State.dueTxns, hone, hnew, hdue]

/-! ### Coupled pairs that wait too long -/

theorem State.expireCouple_aged {s : State} {addr bit unit : Nat} {c : Couple} {b : FltBlk} (hmem : c ∈ s.couples)
    (haddr : c.addr = addr) (hold : c.entry + 156250 ≤ s.now) (hfault : coupleFault addr = some (b, bit, unit)) :
    s.expireCouple addr = ((({ s with couples := s.couples.filter (fun d => decide (d.addr ≠ addr)) } : State).refuse
      addr 0x0301).note b bit unit) := by
  have hany : s.couples.any (fun c => decide (c.addr = addr) && decide (c.entry + 156250 ≤ s.now)) = true :=
    List.any_eq_true.2 ⟨c, hmem, by simp [haddr, hold]⟩
  rw [State.expireCouple, if_pos hany, hfault]

theorem State.expireCouple_young {s : State} {addr : Nat}
    (h : ∀ c ∈ s.couples, c.addr = addr → s.now < c.entry + 156250) : s.expireCouple addr = s := by
  have hnone : ¬ s.couples.any (fun c => decide (c.addr = addr) && decide (c.entry + 156250 ≤ s.now)) = true := by
    simpa using h
  rw [State.expireCouple, if_neg hnone]

theorem State.boundary_eq (s : State) : s.boundary =
    (s.endTick.passTicks 1).bringCorrections.swapLines.applyStaged.applyTxns.beginTick := by
  rw [State.boundary, State.comeIntoForce]

theorem execTickBoundaryApply_one (s : State) : execTickBoundaryApply 1 s = .next s.boundary := by
  rw [execTickBoundaryApply, Nat.sub_self, State.skipTicks_zero]

theorem execTxnApply_due {s : State} {part : Nat} {t : Txn} (hcomm : s.commTxn part = some t) (hnew : t.applied = false)
    (hdue : t.commit = s.now + 1) : execTxnApply part s = .next s.boundary := by
  simp [execTxnApply, hcomm, hnew, hdue]

/-- Settles O20: the boundary is the composition of R59's steps; what is due at it is found by `applyStaged` and
`dueTxns`, and `skipTicks` stops before the next due tick. -/
theorem boundaryAppliesStaged : Obligations.BoundaryAppliesStaged := by
  refine ⟨fun s => ?_, fun s part t hcomm hnew hdue => ?_, fun s a e v m r ix w hstaged hdue hreg => ?_, fun s hnone => ?_,
    fun s p t hone hnew hdue => ?_, fun s n => rfl, State.skipTicks_now, fun s addr c b bit unit hmem haddr hold hfault => ?_,
    fun s addr hyoung => ?_⟩
  · rw [← State.boundary_eq]
    exact execTickBoundaryApply_one s
  · rw [← State.boundary_eq]
    exact execTxnApply_due hcomm hnew hdue
  · rw [State.applyStaged_word hstaged hdue, State.applyAtAddr_found hreg]
  · rw [State.applyTxns, State.dueTxns_eq_nil hnone, List.foldl_nil]
  · rw [State.applyTxns, State.dueTxns_single hone hnew hdue, List.foldl_cons, List.foldl_nil]
    rfl
  · exact congrArg _ (State.expireCouple_aged hmem haddr hold hfault)
  · exact congrArg _ (State.expireCouple_young hyoung)

/-! ## The reference -/

theorem State.refHalf_pos (s : State) : 0 < s.refHalf := by
  unfold State.refHalf
  split <;> decide

/-- The phase against the nearest edge lies within half a period and differs from the given one by whole periods. -/
theorem State.nearestPhase_spec (s : State) (phase : Int) : -(s.refHalf : Int) ≤ s.nearestPhase phase ∧
    s.nearestPhase phase < s.refHalf ∧ (phase - s.nearestPhase phase) % (2 * s.refHalf : Nat) = 0 := by
  have hperiod : (0 : Int) < (2 * s.refHalf : Nat) := by
    have := s.refHalf_pos
    omega
  have hlow := Int.emod_nonneg (phase + s.refHalf) hperiod.ne'
  have hhigh := Int.emod_lt_of_pos (phase + s.refHalf) hperiod
  have hwhole : phase - s.nearestPhase phase = (phase + s.refHalf) - (phase + s.refHalf) % (2 * s.refHalf : Nat) := by
    rw [State.nearestPhase]
    ring
  refine ⟨?_, ?_, ?_⟩
  · rw [State.nearestPhase]
    omega
  · rw [State.nearestPhase]
    omega
  · rw [hwhole]
    exact Int.emod_eq_zero_of_dvd (Int.dvd_self_sub_emod)

/-- The range of a free value drawn between two bounds. -/
theorem add_mod_between {lo hi : Nat} (h : lo ≤ hi) (n : Nat) :
    lo ≤ lo + n % (hi - lo + 1) ∧ lo + n % (hi - lo + 1) ≤ hi := by
  have hn : n % (hi - lo + 1) < hi - lo + 1 := Nat.mod_lt n (Nat.succ_pos _)
  omega

/-- The phase error in PULL lies between the two bounds of log 43. -/
theorem pullPhase_natAbs (old entry : Int) (since now band draw : Nat) :
    (let hi := if band ≤ now then min old.natAbs 10 else old.natAbs;
     min hi (entry.natAbs - (now - since) / 6250) ≤ (pullPhase old entry since now band draw).natAbs ∧
       (pullPhase old entry since now band draw).natAbs ≤ hi) := by
  by_cases hneg : entry < 0
  · simp only [pullPhase, if_pos hneg, Int.natAbs_neg, Int.natAbs_natCast]
    exact add_mod_between (Nat.min_le_left _ _) draw
  · simp only [pullPhase, if_neg hneg, Int.natAbs_natCast]
    exact add_mod_between (Nat.min_le_left _ _) draw

theorem pullPhase_bounds (old entry : Int) (since now band draw : Nat) :
    (pullPhase old entry since now band draw).natAbs ≤ old.natAbs ∧
    (band ≤ now → (pullPhase old entry since now band draw).natAbs ≤ 10) ∧
    min (if band ≤ now then min old.natAbs 10 else old.natAbs) (entry.natAbs - (now - since) / 6250) ≤
      (pullPhase old entry since now band draw).natAbs := by
  obtain ⟨hlow, hhigh⟩ := pullPhase_natAbs old entry since now band draw
  refine ⟨?_, fun hband => ?_, hlow⟩
  · split at hhigh <;> omega
  · rw [if_pos hband] at hhigh
    omega

section Reference

variable {s : State} {t : Nat}

theorem execRefinEdgeSeen_open (hen : s.rdB F.TIM_REF_CTRL_REF_EN [] = true) (hst : s.refState = rFree ∨ s.refState = rHold) :
    execRefinEdgeSeen s = .next ({ s with clk := { s.clk with refFrom := s.refState } }.setRefState rQualify) :=
  if_pos ⟨hen, hst⟩

theorem execQualifyEnd_measured {freq : Nat} {phase : Int} (hst : s.refState = rQualify) (hok : s.clk.refFail = none)
    (htime : s.clk.refSince + 15625000 ≤ s.now) :
    execQualifyEnd freq phase s = if s.refInRange freq then .next (s.beginPull (s.nearestPhase phase)) else
      .next { s.wr F.TIM_REF_STATUS_OUT_OF_RANGE [] 1 with clk := { s.clk with refFail := some s.now } } :=
  if_pos ⟨hst, by rw [hok]; rfl, htime⟩

theorem execQualifyReturn_failed (hst : s.refState = rQualify) (hfail : s.clk.refFail = some t)
    (htime : t + 156250000 ≤ s.now) : execQualifyReturn s = .next (s.refOpen s.clk.refFrom) := by
  rw [execQualifyReturn, hfail]
  exact if_pos ⟨hst, htime⟩

theorem execRefLock_inBand (hst : s.refState = rPull) (hband : s.clk.refInBand = some t) (htime : t + 156250000 ≤ s.now) :
    execRefLock s = .next (s.setRefState rLocked) := by
  rw [execRefLock, hband]
  exact if_pos ⟨hst, htime⟩

end Reference

/-- Every value of TIM_REF_CTRL's fields is listed, and the fields are locked in modes other than RESET and SAFE only. -/
theorem State.refusesWrite_refCtrl {s : State} (hmode : s.mode = mSafe ∨ s.mode = mReset) (v : Nat) :
    s.refusesWrite R.TIM_REF_CTRL [] 0 v = false := by
  have haccepts : R.TIM_REF_CTRL.accepts 0 v = true := rfl
  have hfree : s.running R.TIM_REF_CTRL [] = false := by
    have : s.running R.TIM_REF_CTRL [] = !(decide (s.mode = mReset) || decide (s.mode = mSafe)) := rfl
    rw [this]
    obtain h | h := hmode <;> simp [h]
  simp [State.refusesWrite, haccepts, hfree]

theorem State.mode_setRefCtrl (s : State) (v : Word) : (s.setRegWord R.TIM_REF_CTRL [] 0 v).mode = s.mode := by
  simp only [State.mode, State.rd]
  rw [State.regWord_setRegWord_other s (by decide)]

theorem State.refCtrlWrite_restarts {s : State} {v : Word}
    (h : s.mode = mSafe ∨ s.mode = mReset ∧ (s.regWord R.TIM_REF_CTRL [] 0).toNat % 4 ≠ v.toNat % 4) :
    s.refCtrlWrite v = (s.setRegWord R.TIM_REF_CTRL [] 0 (v &&& 7)).refRestart := by
  have haccepted := State.refusesWrite_refCtrl (h.imp_right And.left) v.toNat
  rw [State.refCtrlWrite, haccepted, if_neg Bool.false_ne_true, State.setRefCtrl]
  refine if_pos ?_
  rw [State.mode_setRefCtrl]
  exact h.imp_right And.right

/-- Settles O18: each event is the first branch of its command, and the free values of PULL lie within their limits. -/
theorem referenceMachine : Obligations.ReferenceMachine := by
  refine ⟨fun s => execRefinEdgeSeen_open, fun s freq phase hst hok htime => ⟨fun hin => ?_, fun hout => ?_⟩,
    State.nearestPhase_spec, fun s p => rfl, pullPhase_bounds, fun s t => execQualifyReturn_failed, fun s t => execRefLock_inBand,
    fun s hst => if_pos hst, fun s v h => congrArg _ (State.refCtrlWrite_restarts h)⟩
  · exact (execQualifyEnd_measured hst hok htime).trans (if_pos (decide_eq_true hin))
  · refine (execQualifyEnd_measured hst hok htime).trans (if_neg ?_)
    rw [State.refInRange, decide_eq_true_iff]
    exact Nat.not_le.2 hout

/-! ## The main PLL -/

/-- With the offset of a lock grid time is 0 at the tick of the lock. -/
theorem State.grid_atLock (s : State) (strobe : Bool) :
    ({ s with clk := { s.clk with off := -(s.now : Int), gridValid := true, strobe := strobe } } : State).grid = 0 := by
  have hsum : ((s.now : Int) + -(s.now : Int)) % (2 ^ 57 : Nat) = 0 := by
    rw [Int.add_right_neg, Int.zero_emod]
  exact congrArg Int.toNat hsum

theorem execTileTickCheck_differs {s : State} {tile : Nat} {n : BitVec 16} (hpresent : tile < s.variant.tiles)
    (haligned : s.rdB F.TIM_PLL_STATUS_TILES_ALIGNED [] = true) (htick : s.grid % 1024 = 0)
    (hdiff : n.toNat ≠ s.grid % 65536) :
    execTileTickCheck tile n s = .next (State.fault (s.wr F.TIM_PLL_STATUS_TILE_TICK_ERR []
      (s.rd F.TIM_PLL_STATUS_TILE_TICK_ERR [] ||| 2 ^ tile)) (.tile tile 107) 1 0) :=
  if_pos ⟨hpresent, htick, haligned, hdiff⟩

theorem execTileTickCheck_agrees {s : State} {tile : Nat} {n : BitVec 16}
    (h : n.toNat = s.grid % 65536 ∨ s.grid % 1024 ≠ 0) : execTileTickCheck tile n s = .next s :=
  if_neg fun ⟨_, htick, _, hdiff⟩ => h.elim hdiff fun hother => hother htick

/-- Settles O19: each event is the first branch of its command. -/
theorem mainPll : Obligations.MainPll := by
  refine ⟨fun s hstarted hunlocked => ⟨if_pos ⟨hstarted, by rw [hunlocked]; rfl⟩, s.grid_atLock true⟩,
    fun s hlocked => if_pos hlocked, fun s tile n => execTileTickCheck_differs, fun s tile n => execTileTickCheck_agrees⟩

end Sys2Proof.Machine

/-! SUPPORT. How a gate-level instruction issues, and what FRAME, JUMP, CALL and RET leave when they do (obligations O22,
O23, O25). -/

namespace Sys2Proof.Machine

/-! ## Threads and their vectors -/

@[simp] theorem State.thr_setThr_self (s : State) (g : Nat) (t : Thread) : (s.setThr g t).thr g = t := SMap.get_put_self

theorem State.thr_setThr_other (s : State) {g h : Nat} (t : Thread) (hne : h ≠ g) : (s.setThr g t).thr h = s.thr h :=
  SMap.get_put_other hne

@[simp] theorem State.thr_updThr_self (s : State) (g : Nat) (f : Thread → Thread) : (s.updThr g f).thr g = f (s.thr g) :=
  s.thr_setThr_self g _

theorem State.thr_updThr_other (s : State) {g h : Nat} (f : Thread → Thread) (hne : h ≠ g) :
    (s.updThr g f).thr h = s.thr h :=
  s.thr_setThr_other _ hne

theorem State.thr_issued (s : State) (g n : Nat) : (s.issued g n).thr g = ((s.thr g).charge n).advance := by
  rw [State.issued, State.thr_updThr_self, State.thr_setThr_self]

theorem State.updThr_issued (s : State) (g n : Nat) (f : Thread → Thread) :
    (s.issued g n).updThr g f = (s.issued g n).setThr g (f ((s.thr g).charge n).advance) := by
  rw [State.updThr, State.thr_issued]

theorem State.thr_issued_other (s : State) {g h : Nat} (n : Nat) (hne : h ≠ g) : (s.issued g n).thr h = s.thr h := by
  rw [State.issued, State.thr_updThr_other _ _ hne, State.thr_setThr_other _ _ hne]

theorem vget_setIfInBounds_self {n i : Nat} (v : Vector Word n) (x : Word) (hi : i < n) :
    vget (v.setIfInBounds i x) i = x := by
  simp [vget, hi]

theorem vget_setIfInBounds_other {n i j : Nat} (v : Vector Word n) (x : Word) (hne : j ≠ i) :
    vget (v.setIfInBounds i x) j = vget v j := by
  simp [vget, Vector.getElem?_setIfInBounds_ne (Ne.symm hne)]

/-! ## PC and the region (R91) -/

theorem Thread.inRegion_iff {t : Thread} : t.inRegion = true ↔ t.base ≤ t.pc ∧ t.pc ≤ t.last := by
  rw [Thread.inRegion, Bool.and_eq_true, decide_eq_true_iff, decide_eq_true_iff]

theorem State.checkPc_inside {s : State} {g : Nat} (h : (s.thr g).inRegion = true) : s.checkPc g = s := by
  simp [State.checkPc, h]

theorem State.checkPc_outside {s : State} {g : Nat} (hst : (s.thr g).st = 1) (h : (s.thr g).inRegion = false) :
    s.checkPc g = s.endThread g stPcRange (s.thr g).issue := by
  simp [State.checkPc, hst, h]

/-! ## The branches of an issue (R65, R68, R91, R105) -/

section Issue

variable {s u : State} {g : Nat} {w : GateWord} {ok : GateWord → Bool} {cost : State → GateWord → Nat}
  {fetch : State → GateWord → State} {body : State → GateWord → Except Ending State}

theorem State.issueWord_idle (h : (s.thr g).issues s.now = false ∨ ok (s.gateAt (thrGc g) (s.thr g).pc) = false) :
    s.issueWord g ok cost fetch body = s := by
  refine if_neg ?_
  rw [Bool.and_eq_true, not_and_or, Bool.not_eq_true, Bool.not_eq_true]
  exact h

theorem State.issueWord_outside (hnow : (s.thr g).issues s.now = true) (hok : ok (s.gateAt (thrGc g) (s.thr g).pc) = true)
    (hout : (s.thr g).inRegion = false) :
    s.issueWord g ok cost fetch body = s.endThread g stPcRange (s.thr g).issue := by
  simp [State.issueWord, hnow, hok, hout]

theorem State.issueWord_slips (hnow : (s.thr g).issues s.now = true) (hok : ok (s.gateAt (thrGc g) (s.thr g).pc) = true)
    (hin : (s.thr g).inRegion = true) (hlate : 8 < (s.thr g).used + cost s (s.gateAt (thrGc g) (s.thr g).pc)) :
    s.issueWord g ok cost fetch body = s.slip g := by
  simp [State.issueWord, hnow, hok, hin, hlate]

variable (hnow : (s.thr g).issues s.now = true) (hw : s.gateAt (thrGc g) (s.thr g).pc = w) (hok : ok w = true)
  (hin : (s.thr g).inRegion = true) (hfit : (s.thr g).used + cost s w ≤ 8)
  (hfetch : fetch (s.charged g (cost s w)) w = u)
include hnow hw hok hin hfit hfetch

theorem State.issueWord_commits {t : State} (hbody : body u w = .ok t) :
    s.issueWord g ok cost fetch body = t.checkPc g := by
  subst hw hfetch
  simp [State.issueWord, hnow, hok, hin, Nat.not_lt.2 hfit, hbody]

theorem State.issueWord_ends {e : Ending} (hbody : body u w = .error e) :
    s.issueWord g ok cost fetch body = u.endBy g e := by
  subst hw hfetch
  simp [State.issueWord, hnow, hok, hin, Nat.not_lt.2 hfit, hbody]

end Issue

/-! ## Fetches (R118) -/

/-- A fetch that meets nothing in the micro-store has read the dispatch entry. -/
theorem State.dispatchFails_of_clean {s : State} {g : Nat} {ev : FetchEv} {w : GateWord} (h : s.fetchFails g ev w = none) :
    s.dispatchFails g ev w = false := by
  cases ev with
  | microParity a => cases h
  | ok | nanoCorr | nanoFatal => simpa [State.fetchFails] using h

/-- With clean fetches an instruction costs what its word says. -/
theorem State.cost_of_clean {s : State} {g n : Nat} {ev : FetchEv} {w : GateWord} (h : s.fetchFails g ev w = none) :
    (if s.dispatchFails g ev w then 0 else n) = n := by
  rw [State.dispatchFails_of_clean h, if_neg Bool.false_ne_true]

/-- An error of a nano-word is no error of the micro-store. -/
theorem State.dispatchFails_of_nanoCorr {s : State} {g : Nat} {w : GateWord} {e : Ending}
    (h : s.fetchFails g .nanoCorr w = some e) : s.dispatchFails g .nanoCorr w = true := by
  by_contra hclean
  simp [State.fetchFails, hclean] at h

/-! ## Instructions of a fixed opcode and cost -/

section IssueOp

variable {s : State} {g op n : Nat} {ev : FetchEv} {w : GateWord} {cost : GateWord → Nat}
  {body : State → GateWord → Except Nat State}

/-- An instruction that issues with clean fetches leaves what its body answers. -/
theorem State.issueOp_commits {t : State} (h : s.runs g ev op n w) (hcost : cost w = n)
    (hbody : body (s.issued g n) w = .ok t) :
    s.issueOp g ev op cost body = t.checkPc g := by
  obtain ⟨⟨hnow, hw, hop, hin, hfit⟩, hclean⟩ := h
  have hn : (if s.dispatchFails g ev w then 0 else cost w) = n := by
    rw [State.cost_of_clean hclean, hcost]
  refine State.issueWord_commits hnow hw (decide_eq_true hop) hin (by rwa [hn]) rfl ?_
  have hclean' : (s.charged g n).fetchFails g ev w = none := hclean
  rw [hn, hclean']
  exact congrArg (Except.mapError Ending.status) hbody

/-- An instruction that issues with clean fetches and is refused by its body ends its shot, its cost being charged. -/
theorem State.issueOp_ends {st : Nat} (h : s.runs g ev op n w) (hcost : cost w = n)
    (hbody : body (s.issued g n) w = .error st) :
    s.issueOp g ev op cost body = (s.charged g n).endThread g st (s.thr g).issue := by
  obtain ⟨⟨hnow, hw, hop, hin, hfit⟩, hclean⟩ := h
  have hn : (if s.dispatchFails g ev w then 0 else cost w) = n := by
    rw [State.cost_of_clean hclean, hcost]
  have hclean' : (s.charged g n).fetchFails g ev w = none := hclean
  have hend : (s.charged g n).endBy g (.status st) = (s.charged g n).endThread g st (s.thr g).issue := by
    rw [State.endBy, State.thr_setThr_self]
    rfl
  rw [← hend]
  refine State.issueWord_ends hnow hw (decide_eq_true hop) hin (by rwa [hn]) (by rw [hn]) ?_
  rw [hclean']
  exact congrArg (Except.mapError Ending.status) hbody

end IssueOp

/-! ## The fifteen rows -/

section Rows

variable {c : Instr} {g op : Nat} {ev : FetchEv} {cost : GateWord → Nat}

/-- A row does nothing with a word that the micro-store fails on. -/
abbrev EndsByFetch (g : Nat) (ev : FetchEv) (fetch : State → GateWord → State)
    (body : State → GateWord → Except Ending State) : Prop :=
  ∀ (u : State) (w : GateWord) (e : Ending), u.fetchFails g ev w = some e → fetch u w = u ∧ body u w = .error e

/-- Every row issues the next word of its thread where that word carries the row's opcode. -/
theorem exec_of_gateOf (h : gateOf c = some (g, ev, op, cost)) (s : State) :
    ∃ fetch body, EndsByFetch g ev fetch body ∧ exec c s = .next (s.issueWord g (fun w => decide (opcode w = op))
      (fun s w => if s.dispatchFails g ev w then 0 else cost w) fetch body) := by
  cases c with
  | play g ev =>
    cases h
    refine ⟨_, _, fun u w e he => ⟨if_neg fun hcorr => ?_, ?_⟩, rfl⟩
    · rw [Bool.and_eq_true, decide_eq_true_iff, Bool.not_eq_true'] at hcorr
      obtain ⟨rfl, hread⟩ := hcorr
      rw [State.dispatchFails_of_nanoCorr he] at hread
      cases hread
    · simp only [State.playFetch, he]
  | frame f | setf f | wait f | sync f | meas f | brd f | jump f | call f | ret f | loop f | sweep f | mark f | trig f
    | pub f =>
    cases h
    exact ⟨_, _, fun u w e he => ⟨rfl, by simp only [he]⟩, rfl⟩
  | _ => cases h

end Rows

/-- Settles O22: the branches of an issue, in the order in which it takes them. -/
theorem gateIssueRules : Obligations.GateIssueRules := by
  rintro c g op k ev cost s w hc rfl hk
  obtain ⟨fetch, body, hfails, hexec⟩ := exec_of_gateOf hc s
  rw [hexec]
  refine ⟨fun hidle => congrArg Host.Outcome.next (State.issueWord_idle (hidle.imp_right fun hop => decide_eq_false hop)),
    fun hnow hop hout => congrArg Host.Outcome.next (State.issueWord_outside hnow (decide_eq_true hop) hout),
    fun hnow hop hin hlate =>
      congrArg Host.Outcome.next (State.issueWord_slips hnow (decide_eq_true hop) hin (hk ▸ hlate)), ?_⟩
  rintro e ⟨hnow, hw, hop, hin, hfit⟩ he
  have he' : (s.charged g k).fetchFails g ev _ = some e := he
  obtain ⟨hfetch, hbody⟩ := hfails _ _ e he'
  subst hk
  exact congrArg Host.Outcome.next (State.issueWord_ends hnow hw (decide_eq_true hop) hin hfit hfetch hbody)

/-! ## FRAME (R80) -/

section Frame

variable {s : State} {g : Nat} {ev : FetchEv} {w : GateWord}

/-- The operand of FRAME: its immediate, or a register. -/
def frameOperand (t : Thread) (w : GateWord) : Word :=
  if opr w 53 2 < 2 then BitVec.ofNat 32 (opr w 17 32) else t.reg (opr w 49 4)

/-- What FRAME leaves in the frame it names: the sum, or the operand. -/
def frameResult (t : Thread) (w : GateWord) : Word :=
  if opr w 53 1 = 0 then t.frameAt (opr w 55 3) + frameOperand t w else frameOperand t w

theorem frameOperand_toNat (t : Thread) (w : GateWord) :
    (frameOperand t w).toNat = if opr w 53 2 < 2 then opr w 17 32 else (t.reg (opr w 49 4)).toNat := by
  have himm : (BitVec.ofNat 32 (opr w 17 32)).toNat = opr w 17 32 := by
    rw [BitVec.toNat_ofNat]
    exact Nat.mod_eq_of_lt (bits_lt ..)
  rw [frameOperand, apply_ite BitVec.toNat, himm]

/-- The state FRAME leaves. -/
abbrev State.framed (s : State) (g : Nat) (w : GateWord) : State :=
  (s.issued g 2).updThr g (fun t => t.setFrame (opr w 55 3) (frameResult (s.thr g) w))

theorem State.thr_framed (s : State) (g : Nat) (w : GateWord) :
    (s.framed g w).thr g = (((s.thr g).charge 2).advance).setFrame (opr w 55 3) (frameResult (s.thr g) w) := by
  rw [State.framed, State.thr_updThr_self, State.thr_issued]

/-- FRAME whose next address is in the region leaves its frame set and nothing else. -/
theorem exec_frame_inside (h : s.runs g ev 0x02 2 w) (hnext : (s.thr g).pc + 1 ≤ (s.thr g).last) :
    exec (.frame ⟨g, ev⟩) s = .next (s.framed g w) := by
  have hin : ((s.framed g w).thr g).inRegion = true := by
    obtain ⟨⟨-, -, -, hin, -⟩, -⟩ := h
    rw [State.thr_framed, Thread.inRegion_iff]
    exact ⟨Nat.le_succ_of_le (Thread.inRegion_iff.1 hin).1, hnext⟩
  calc exec (.frame ⟨g, ev⟩) s
    _ = .next ((s.framed g w).checkPc g) := by
      refine congrArg Host.Outcome.next (State.issueOp_commits h rfl (congrArg Except.ok ?_))
      rw [State.thr_issued, State.framed, State.updThr_issued]
      rfl
    _ = .next (s.framed g w) := by rw [State.checkPc_inside hin]

theorem State.framed_eq (s : State) (g : Nat) (w : GateWord) :
    s.framed g w = { s with threads := (s.framed g w).threads } := by
  simp only [State.updThr, State.setThr]

/-- What FRAME leaves of the threads. -/
theorem State.framed_frame (s : State) (g : Nat) (w : GateWord) :
    ((s.framed g w).thr g).frameAt (opr w 55 3) = frameResult (s.thr g) w ∧
    (∀ k, k ≠ opr w 55 3 → ((s.framed g w).thr g).frameAt k = (s.thr g).frameAt k) ∧
    (s.framed g w).thr g = { s.thr g with
      fr := ((s.framed g w).thr g).fr, pc := (s.thr g).pc + 1, used := (s.thr g).used + 2,
      peak := max (s.thr g).peak ((s.thr g).used + 2) } ∧
    ∀ h, h ≠ g → (s.framed g w).thr h = s.thr h := by
  have hnum : opr w 55 3 < 8 := bits_lt ..
  refine ⟨?_, fun k hk => ?_, ?_, fun h hh => ?_⟩
  · rw [State.thr_framed]
    exact vget_setIfInBounds_self _ _ hnum
  · rw [State.thr_framed]
    exact vget_setIfInBounds_other _ _ hk
  · rw [State.thr_framed]
    rfl
  · rw [State.framed, State.thr_updThr_other _ _ hh, State.thr_issued_other _ _ hh]

end Frame

/-- Settles O23: FRAME is one change of one thread, and a word of the sum is its value modulo 2^32. -/
theorem frameAdditions : Obligations.FrameAdditions := by
  refine ⟨fun g ev s w h hadd hnext => ?_, fun g ev s w h hset hnext => ?_⟩
  · obtain ⟨hvalue, hother, hthr, hrest⟩ := s.framed_frame g w
    refine ⟨s.framed g w, exec_frame_inside h hnext, ?_, hother, hthr, hrest, ?_, ?_, s.framed_eq g w⟩
    · rw [hvalue, frameResult, if_pos hadd, BitVec.toNat_add, frameOperand_toNat]
    · rw [State.framed, State.updThr_outs, State.updThr_outs, State.setThr_outs]
    · rw [State.framed, State.updThr_regs, State.updThr_regs, State.setThr_regs]
  · obtain ⟨hvalue, hother, hthr, hrest⟩ := s.framed_frame g w
    refine ⟨s.framed g w, exec_frame_inside h hnext, ?_, hother, hthr, hrest, s.framed_eq g w⟩
    rw [hvalue, frameResult, if_neg (by rw [hset]; exact Nat.one_ne_zero)]
    rfl

/-! ## JUMP, CALL and RET (R91) -/

theorem Thread.push_room {t : Thread} {a : Nat} (h : t.stack.length < 8) : t.push a = .ok { t with stack := a :: t.stack } :=
  if_neg (Nat.not_le.2 h)

theorem Thread.push_full {t : Thread} {a : Nat} (h : 8 ≤ t.stack.length) : t.push a = .error stStack := if_pos h

theorem Thread.pop_cons {t : Thread} {a : Nat} {rest : List Nat} (h : t.stack = a :: rest) :
    t.pop = some { t with pc := a, stack := rest } := by
  rw [Thread.pop, h]

theorem Thread.pop_nil {t : Thread} (h : t.stack = []) : t.pop = none := by
  rw [Thread.pop, h]

section Control

variable {s : State} {g : Nat} {ev : FetchEv} {w : GateWord}

theorem exec_jump (h : s.runs g ev 0x08 2 w) :
    exec (.jump ⟨g, ev⟩) s = .next ((if jumpTaken (opr w 55 3) ((s.thr g).reg (opr w 51 4)) then
      (s.issued g 2).updThr g (fun t => { t with pc := opr w 35 16 }) else s.issued g 2).checkPc g) := by
  refine congrArg Host.Outcome.next (State.issueOp_commits h rfl ?_)
  rw [State.thr_issued, State.updThr_issued]
  rfl

theorem exec_call (h : s.runs g ev 0x09 3 w) (hroom : (s.thr g).stack.length < 8) :
    exec (.call ⟨g, ev⟩) s = .next (((s.issued g 3).updThr g (fun t =>
      { t with stack := t.pc :: t.stack, pc := opr w 42 16 })).checkPc g) := by
  refine congrArg Host.Outcome.next (State.issueOp_commits h rfl ?_)
  have hstack : (((s.thr g).charge 3).advance).stack.length < 8 := hroom
  rw [State.thr_issued, State.updThr_issued]
  exact congrArg (Except.map _) (Thread.push_room hstack)

theorem exec_call_full (h : s.runs g ev 0x09 3 w) (hfull : 8 ≤ (s.thr g).stack.length) :
    exec (.call ⟨g, ev⟩) s = .next ((s.charged g 3).endThread g stStack (s.thr g).issue) := by
  refine congrArg Host.Outcome.next (State.issueOp_ends h rfl ?_)
  have hstack : 8 ≤ ((s.issued g 3).thr g).stack.length := by rwa [State.thr_issued]
  exact congrArg (Except.map _) (Thread.push_full hstack)

theorem exec_ret {a : Nat} {rest : List Nat} (h : s.runs g ev 0x0A 2 w) (hstack : (s.thr g).stack = a :: rest) :
    exec (.ret ⟨g, ev⟩) s = .next (((s.issued g 2).updThr g (fun t => { t with pc := a, stack := rest })).checkPc g) := by
  refine congrArg Host.Outcome.next (State.issueOp_commits h rfl (congrArg Except.ok ?_))
  have hstack' : ((s.issued g 2).thr g).stack = a :: rest := by rwa [State.thr_issued]
  rw [Thread.pop_cons hstack']
  rfl

theorem exec_ret_empty (h : s.runs g ev 0x0A 2 w) (hstack : (s.thr g).stack = []) :
    exec (.ret ⟨g, ev⟩) s = .next (((s.issued g 2).endThread g 0 (s.thr g).issue).checkPc g) := by
  refine congrArg Host.Outcome.next (State.issueOp_commits h rfl (congrArg Except.ok ?_))
  have hstack' : ((s.issued g 2).thr g).stack = [] := by rwa [State.thr_issued]
  rw [Thread.pop_nil hstack', State.thr_issued]
  rfl

end Control

theorem jumpTaken_spec (v : Word) : jumpTaken 0 v = true ∧ (jumpTaken 1 v = true ↔ v = 0) ∧ (jumpTaken 2 v = true ↔ v ≠ 0) ∧
    (jumpTaken 3 v = true ↔ v.toInt < 0) ∧ (jumpTaken 4 v = true ↔ 0 ≤ v.toInt) := by
  have hneg : v.msb = true ↔ v.toInt < 0 := by rw [BitVec.msb_eq_toInt, decide_eq_true_iff]
  refine ⟨rfl, decide_eq_true_iff, decide_eq_true_iff, hneg, ?_⟩
  rw [jumpTaken, Bool.not_eq_true', ← Bool.not_eq_true, hneg, Int.not_lt]
  all_goals nofun

/-- Settles O25: each instruction is its lemma above, and PC is checked against the region after it. -/
theorem controlFlow : Obligations.ControlFlow :=
  ⟨fun _ _ _ _ => exec_jump, fun _ _ _ _ => exec_call, fun _ _ _ _ => exec_call_full, fun _ _ _ _ _ _ => exec_ret,
   fun _ _ _ _ => exec_ret_empty, jumpTaken_spec, fun g n s => s.thr_issued g n, fun _ _ => State.checkPc_outside,
   fun _ _ => State.checkPc_inside⟩

end Sys2Proof.Machine

/-! SUPPORT. What the gate-level instructions beside FRAME, JUMP, CALL and RET leave when they issue (obligations O24 and
O26). -/

namespace Sys2Proof.Machine

/-! ## Slots, loops, sweeps, markers, publications and windows -/

section Effects

variable {s : State} {g j : Nat} {ev : FetchEv} {w : GateWord}

theorem exec_setf (h : s.runs g ev 0x03 2 w) :
    exec (.setf ⟨g, ev⟩) s = .next (((s.issued g 2).updThr g (fun t =>
      t.selectSlot (opr w 50 8) (opr w 49 1) (opr w 45 4))).checkPc g) :=
  congrArg Host.Outcome.next (State.issueOp_commits h rfl rfl)

/-- A counter's decrement: a flag at 0, an end when it reaches 0, else a branch to TGT. -/
def loopStep (t : Thread) (lc tgt : Nat) : Thread :=
  if t.counter lc = 0 then t.flag 3
  else if t.counter lc = 1 then t.setCounter lc 0
  else { t.setCounter lc (t.counter lc - 1) with pc := tgt }

theorem Thread.counter_setCounter {t : Thread} {i : Nat} (v : Word) (hi : i < 4) : (t.setCounter i v).counter i = v :=
  vget_setIfInBounds_self _ _ hi

/-- The counter has reached 0 after its decrement where it held 1. -/
theorem loopStep_eq {t : Thread} {lc tgt : Nat} (hlc : lc < 4) (hne : t.counter lc ≠ 0) :
    loopStep t lc tgt = (let u := t.setCounter lc (t.counter lc - 1);
      if u.counter lc = 0 then u else { u with pc := tgt }) := by
  dsimp only
  rw [loopStep, if_neg hne, Thread.counter_setCounter _ hlc]
  by_cases hone : t.counter lc = 1
  · simp [hone]
  · rw [if_neg hone, if_neg (mt sub_eq_zero.1 hone)]

/-- What LOOP does, by its mode (R92). -/
def State.loopBody (s : State) (g : Nat) (w : GateWord) : Except Nat State :=
  match opr w 54 2 with
  | 0 => .ok (s.updThr g (fun t => t.setCounter (opr w 56 2) (BitVec.ofNat 32 (opr w 2 32))))
  | 1 =>
    if (s.thr g).reg (opr w 50 4) = 0 then .error stOperand
    else .ok (s.updThr g (fun t => t.setCounter (opr w 56 2) (t.reg (opr w 50 4))))
  | _ => .ok (s.updThr g (fun t => loopStep t (opr w 56 2) (opr w 34 16)))

theorem execLoop_eq (f : Fetch) (s : State) :
    execLoop f s = .next (s.issueOp f.thr f.ev 0x0B (fun w => if opr w 54 2 = 2 then 3 else 2)
      (fun s w => s.loopBody f.thr w)) := by
  refine congrArg Host.Outcome.next (congrArg _ (funext₂ fun s w => ?_))
  dsimp only [State.loopBody]
  rcases opr w 54 2 with _ | _ | _
  · rfl
  · rfl
  · by_cases hzero : (s.thr f.thr).counter (opr w 56 2) = 0
    · simp only [State.updThr, loopStep, if_pos hzero]
    · simp only [State.updThr, loopStep_eq (bits_lt ..) hzero, if_neg hzero]

theorem exec_loop_count (h : s.runs g ev 0x0B 2 w) (hmode : opr w 54 2 = 0) :
    exec (.loop ⟨g, ev⟩) s = .next (((s.issued g 2).updThr g (fun t =>
      t.setCounter (opr w 56 2) (BitVec.ofNat 32 (opr w 2 32)))).checkPc g) := by
  refine (execLoop_eq _ _).trans (congrArg Host.Outcome.next (State.issueOp_commits h (if_neg (by omega)) ?_))
  simp only [State.loopBody, hmode]

theorem exec_loop_register (h : s.runs g ev 0x0B 2 w) (hmode : opr w 54 2 = 1) (hreg : (s.thr g).reg (opr w 50 4) ≠ 0) :
    exec (.loop ⟨g, ev⟩) s = .next (((s.issued g 2).updThr g (fun t =>
      t.setCounter (opr w 56 2) (t.reg (opr w 50 4)))).checkPc g) := by
  refine (execLoop_eq _ _).trans (congrArg Host.Outcome.next (State.issueOp_commits h (if_neg (by omega)) ?_))
  simp only [State.loopBody, hmode]
  exact if_neg (by rwa [State.thr_issued])

theorem exec_loop_decrement (h : s.runs g ev 0x0B 3 w) (hmode : opr w 54 2 = 2) :
    exec (.loop ⟨g, ev⟩) s =
      .next (((s.issued g 3).updThr g (fun t => loopStep t (opr w 56 2) (opr w 34 16))).checkPc g) := by
  refine (execLoop_eq _ _).trans (congrArg Host.Outcome.next (State.issueOp_commits h (if_pos hmode) ?_))
  simp only [State.loopBody, hmode]

theorem State.advanceGen_enabled {gen : Nat} (hgen : gen < 32) (hen : s.rdB F.TIL_GEN_CTRL_EN [thrTile g, gen] = true) :
    s.advanceGen g gen = .ok (s.genAdvance (thrTile g) gen) :=
  if_pos ⟨hgen, hen⟩

theorem exec_sweep (h : s.runs g ev 0x0C 3 w) (hgen : opr w 53 5 < 32) (hdest : opr w 52 1 = 0)
    (hen : s.rdB F.TIL_GEN_CTRL_EN [thrTile g, opr w 53 5] = true) :
    exec (.sweep ⟨g, ev⟩) s = .next ((((s.issued g 3).genAdvance (thrTile g) (opr w 53 5)).2.updThr g (fun t =>
      t.setReg (opr w 48 4) ((s.issued g 3).genAdvance (thrTile g) (opr w 53 5)).1)).checkPc g) := by
  refine congrArg Host.Outcome.next (State.issueOp_commits h rfl ?_)
  have hen' : (s.issued g 3).rdB F.TIL_GEN_CTRL_EN [thrTile g, opr w 53 5] = true := hen
  simp only [State.advanceGen_enabled hgen hen', hdest]
  rfl

theorem exec_mark (h : s.runs g ev 0x0D 2 w) :
    exec (.mark ⟨g, ev⟩) s =
      .next (((s.issued g 2).markEdges g (opr w 50 8) (opr w 46 4) (opr w 42 4) (opr w 35 7)).checkPc g) :=
  congrArg Host.Outcome.next (State.issueOp_commits h rfl rfl)

/-- The owner of a PUB slot publishes a class to it. -/
theorem State.pubSlot_owner {p cls : Nat} (hjob : (s.thr g).job = some j) (howner : s.slotUser (960 + p) = .pub j g)
    (hcls : cls < 3) :
    s.pubSlot g p cls = .ok (s.publish (thrTile g) (writeOf (960 + p) cls srcPub false false
      (s.gridAt (s.thr g).issue) (s.gridAt (s.thr g).issue))) := by
  simp [State.pubSlot, hjob, howner, hcls.ne]

theorem exec_pub (h : s.runs g ev 0x0F 2 w) (hjob : (s.thr g).job = some j)
    (howner : s.slotUser (960 + opr w 52 6) = .pub j g) (hsrc : opr w 51 1 = 0) (hcls : opr w 49 2 < 3) :
    exec (.pub ⟨g, ev⟩) s = .next (((s.issued g 2).publish (thrTile g) (writeOf (960 + opr w 52 6) (opr w 49 2) srcPub
      false false (s.gridAt (s.thr g).issue) (s.gridAt (s.thr g).issue))).checkPc g) := by
  refine congrArg Host.Outcome.next (State.issueOp_commits h rfl ?_)
  have hjob' : ((s.issued g 2).thr g).job = some j := by rwa [State.thr_issued]
  have howner' : (s.issued g 2).slotUser (960 + opr w 52 6) = .pub j g := howner
  simp only [if_pos hsrc, State.pubSlot_owner hjob' howner' hcls]
  rw [State.thr_issued]
  rfl

theorem exec_meas (h : s.runs g ev 0x06 4 w) :
    exec (.meas ⟨g, ev⟩) s = .next (((s.issued g 4).openWindows g (opr w 55 3) (opr w 39 16) (opr w 38 1) (opr w 32 6)
      (decide (opr w 31 1 = 1)) (decide (opr w 30 1 = 1))).checkPc g) :=
  congrArg Host.Outcome.next (State.issueOp_commits h rfl rfl)

end Effects

/-! ## PLAY (R78) -/

section Play

variable {s : State} {g k : Nat} {w : GateWord} {n : Nano}

/-- A valid nano-word in reach with an envelope in memory places its pulses. -/
theorem State.emitPulse_envelope (hvalid : n.valid = true) (hoff : n.off ≤ 254) (hreach : n.reaches (thrCluster g) = true)
    (hkind : n.tkind ≠ 3) (hstream : n.stream = false) :
    s.emitPulse g n = .ok ((s.pulsesOf g n (128 * (s.thr g).issue + n.off)).foldl State.placePulse
      (s.envRead (thrTile g) n.base n.len)) := by
  simp [State.emitPulse, hvalid, Nat.not_lt.2 hoff, hreach, hkind, hstream]

theorem exec_play (h : s.runs g .ok 0x01 k w) (hk : k = 3 + opr w 38 1 + opr w 37 1)
    (hword : s.poisoned (thrGc g) .nano (s.nBank g) (opr w 46 12) = false)
    (hn : n = playNano (s.thr g) w (decodeNano (s.nanoAt (thrGc g) (s.nBank g) (opr w 46 12))))
    (hvalid : n.valid = true) (hoff : n.off ≤ 254) (hreach : n.reaches (thrCluster g) = true) (hkind : n.tkind ≠ 3)
    (hstream : n.stream = false) :
    exec (.play g .ok) s = .next ((((s.issued g k).pulsesOf g n (128 * (s.thr g).issue + n.off)).foldl State.placePulse
      ((s.issued g k).envRead (thrTile g) n.base n.len)).checkPc g) := by
  obtain ⟨⟨hnow, hw, hop, hin, hfit⟩, hclean⟩ := h
  have hcost : (if s.dispatchFails g .ok w then 0 else 3 + opr w 38 1 + opr w 37 1) = k := by
    rw [State.cost_of_clean hclean, hk]
  refine congrArg Host.Outcome.next (State.issueWord_commits (u := s.charged g k) hnow hw (decide_eq_true hop) hin
    (by rwa [hcost]) (by rw [hcost]; rfl) ?_)
  have hfetch : (s.charged g k).playFetch g w .ok = none := by
    have hclean' : (s.charged g k).fetchFails g .ok w = none := hclean
    have hword' : (s.charged g k).poisoned (thrGc g) .nano ((s.charged g k).nBank g) (opr w 46 12) = false := hword
    simp [State.playFetch, hclean', hword']
  have hnano : playNano ((s.charged g k).thr g) w
      (decodeNano ((s.charged g k).nanoAt (thrGc g) ((s.charged g k).nBank g) (opr w 46 12))) = n := by
    rw [State.thr_setThr_self, hn]
    rfl
  rw [hfetch]
  simp only [hnano]
  rw [State.emitPulse_envelope hvalid hoff hreach hkind hstream, State.thr_issued]
  rfl

end Play

/-- Settles O24: each instruction is its lemma above. -/
theorem gateInstructionResults : Obligations.GateInstructionResults :=
  ⟨fun _ _ _ _ => exec_setf, fun _ _ _ _ => exec_loop_count, fun _ _ _ _ => exec_loop_register,
   fun _ _ _ _ => exec_loop_decrement, fun _ _ _ _ => exec_sweep, fun _ _ _ _ => exec_mark, fun _ _ _ _ _ => exec_pub,
   fun _ _ _ _ _ => exec_play, fun _ _ _ _ => exec_meas⟩

/-! ## Waits -/

section Waits

variable {s : State} {g j n target : Nat} {ev : FetchEv} {w : GateWord}

/-- What WAIT does, by its mode (R82). -/
def State.waitBody (s : State) (g : Nat) (w : GateWord) : Except Nat State :=
  match opr w 56 2 with
  | 0 => s.waitFor g (opr w 20 32) false
  | 1 => s.waitFor g ((s.thr g).reg (opr w 52 4)).toNat false
  | 2 => .ok (s.waitUntil g (short (s.gridAt (s.thr g).start + opr w 20 32)) false)
  | _ => .ok (s.waitUntil g ((s.thr g).reg (opr w 52 4)).toNat false)

theorem execWait_eq (f : Fetch) (s : State) :
    execWait f s = .next (s.issueOp f.thr f.ev 0x04 (fun _ => 2) (fun s w => s.waitBody f.thr w)) := rfl

theorem State.waitBody_relative (hmode : opr w 56 2 ≤ 1)
    (hn : n = if opr w 56 2 = 0 then opr w 20 32 else ((s.thr g).reg (opr w 52 4)).toNat) :
    (s.issued g 2).waitBody g w = (s.issued g 2).waitFor g n false := by
  have hcases : opr w 56 2 = 0 ∨ opr w 56 2 = 1 := by omega
  rw [State.waitBody, State.thr_issued, hn]
  obtain h | h := hcases <;> rw [h] <;> rfl

theorem State.waitBody_until (hmode : 2 ≤ opr w 56 2)
    (ht : target = if opr w 56 2 = 2 then short (s.gridAt (s.thr g).start + opr w 20 32)
      else ((s.thr g).reg (opr w 52 4)).toNat) :
    (s.issued g 2).waitBody g w = .ok ((s.issued g 2).waitUntil g target false) := by
  have hlt : opr w 56 2 < 4 := bits_lt ..
  have hcases : opr w 56 2 = 2 ∨ opr w 56 2 = 3 := by omega
  rw [State.waitBody, State.thr_issued, ht]
  obtain h | h := hcases <;> rw [h] <;> rfl

theorem exec_wait_relative (h : s.runs g ev 0x04 2 w) (hmode : opr w 56 2 ≤ 1)
    (hn : n = if opr w 56 2 = 0 then opr w 20 32 else ((s.thr g).reg (opr w 52 4)).toNat) (hpos : 0 < n)
    (hlt : n < 2 ^ 31) :
    exec (.wait ⟨g, ev⟩) s = .next (((s.issued g 2).updThr g (fun t =>
      { t with st := 2, wait := .until ((s.thr g).issue + n) false })).checkPc g) := by
  refine congrArg Host.Outcome.next (State.issueOp_commits (body := fun s w => s.waitBody g w) h rfl ?_)
  have hrange : ¬ (n = 0 ∨ 2 ^ 31 ≤ n) := by omega
  rw [State.waitBody_relative hmode hn, State.waitFor, if_neg hrange, State.updThr_issued, State.updThr_issued]
  rfl

theorem exec_wait_outside (h : s.runs g ev 0x04 2 w) (hmode : opr w 56 2 ≤ 1)
    (hn : n = if opr w 56 2 = 0 then opr w 20 32 else ((s.thr g).reg (opr w 52 4)).toNat) (hrange : n = 0 ∨ 2 ^ 31 ≤ n) :
    exec (.wait ⟨g, ev⟩) s = .next ((s.charged g 2).endThread g stOperand (s.thr g).issue) := by
  refine congrArg Host.Outcome.next (State.issueOp_ends (body := fun s w => s.waitBody g w) h rfl ?_)
  rw [State.waitBody_relative hmode hn, State.waitFor, if_pos hrange]

/-- A wait for a target as one change of the thread. -/
theorem State.waitUntil_eq (s : State) (g target : Nat) :
    s.waitUntil g target false = s.updThr g (fun t =>
      if reached target (short (s.gridAt t.issue)) then
        { { t with waitLate := min 65535 (t.waitLate + 1) }.flag 0 with st := 2, wait := .until (t.issue + 1) false }
      else { t with
        st := 2, wait := .until (t.issue + (shortDiff target (short (s.gridAt t.issue))).toNat) false }) := by
  dsimp only [State.waitUntil, State.updThr]
  split
  · rfl
  · rfl

theorem exec_wait_until (h : s.runs g ev 0x04 2 w) (hmode : 2 ≤ opr w 56 2)
    (ht : target = if opr w 56 2 = 2 then short (s.gridAt (s.thr g).start + opr w 20 32)
      else ((s.thr g).reg (opr w 52 4)).toNat) :
    exec (.wait ⟨g, ev⟩) s = .next (((s.issued g 2).updThr g (fun t =>
      if reached target (short (s.gridAt t.issue)) then
        { { t with waitLate := min 65535 (t.waitLate + 1) }.flag 0 with st := 2, wait := .until (t.issue + 1) false }
      else { t with
        st := 2, wait := .until (t.issue + (shortDiff target (short (s.gridAt t.issue))).toNat) false })).checkPc g) := by
  refine congrArg Host.Outcome.next (State.issueOp_commits (body := fun s w => s.waitBody g w) h rfl ?_)
  exact (State.waitBody_until hmode ht).trans (congrArg Except.ok (State.waitUntil_eq _ g target))

theorem exec_sync_member (h : s.runs g ev 0x05 3 w) (hjob : (s.thr g).job = some j)
    (hbar : (s.bar (opr w 53 5)).job = some j) (hmem : g ∈ (s.bar (opr w 53 5)).members)
    (hround : (s.bar (opr w 53 5)).failed = none) :
    exec (.sync ⟨g, ev⟩) s = .next ((((s.issued g 3).updThr g (fun t => { t with
      st := 3, wait := .barrier (opr w 53 5) (decide (opr w 52 1 = 1)) (opr w 20 32) t.issue false })).barWaiting
        (opr w 53 5) [thrTile g] true).checkPc g) := by
  refine congrArg Host.Outcome.next (State.issueOp_commits h rfl ?_)
  have hjob' : ((s.issued g 3).thr g).job = some j := by rwa [State.thr_issued]
  have hbar' : (s.issued g 3).bar (opr w 53 5) = s.bar (opr w 53 5) := rfl
  simp only [State.arrive, hbar', hjob', hbar, hround, List.contains_iff_mem.2 hmem]
  rfl

theorem exec_sync_stranger (h : s.runs g ev 0x05 3 w) (hmem : g ∉ (s.bar (opr w 53 5)).members) :
    exec (.sync ⟨g, ev⟩) s = .next ((s.charged g 3).endThread g stReach (s.thr g).issue) := by
  refine congrArg Host.Outcome.next (State.issueOp_ends h rfl ?_)
  have hmem' : g ∉ ((s.issued g 3).bar (opr w 53 5)).members := hmem
  simp [State.arrive, hmem']

theorem exec_brd (h : s.runs g ev 0x07 6 w) :
    exec (.brd ⟨g, ev⟩) s = .next (((s.issued g 6).updThr g (fun t => { t with
      st := 4, wait := .brd (opr w 48 10) (opr w 46 2) (BitVec.ofNat 16 (opr w 30 16)) (BitVec.ofNat 16 (opr w 14 16))
        (opr w 6 8) (opr w 4 2) t.issue false (s.brdGot (thrTile g) (opr w 48 10) (opr w 46 2) (s.thr g).issue) })).checkPc
          g) := by
  refine congrArg Host.Outcome.next (State.issueOp_commits h rfl (congrArg Except.ok ?_))
  rw [State.awaitBrd, State.updThr_issued, State.updThr_issued, State.thr_issued]
  rfl

theorem exec_trig (h : s.runs g ev 0x0E 3 w) :
    exec (.trig ⟨g, ev⟩) s = .next (((s.issued g 3).updThr g (fun t => { t with
      st := 5, wait := .trig (opr w 54 4) (opr w 30 24) (opr w 28 2) (BitVec.ofNat 16 (opr w 12 16)) t.issue
        ((SMap.get .idle s.tdc.ins (opr w 54 4)).lastBin.bind (fun b => if b / 5120 = t.issue then some t.issue else none))
        false })).checkPc g) := by
  refine congrArg Host.Outcome.next (State.issueOp_commits h rfl (congrArg Except.ok ?_))
  rw [State.awaitTrig, State.updThr_issued, State.thr_issued]
  have hedges : (s.issued g 3).tdc = s.tdc := rfl
  rw [hedges]
  cases (SMap.get .idle s.tdc.ins (opr w 54 4)).lastBin with
  | none => rfl
  | some b => rfl

end Waits

/-- Settles O26: each instruction is its lemma above. -/
theorem gateInstructionWaits : Obligations.GateInstructionWaits :=
  ⟨fun _ _ _ _ _ => exec_wait_relative, fun _ _ _ _ _ => exec_wait_outside, fun _ _ _ _ _ => exec_wait_until,
   fun _ _ _ _ _ => exec_sync_member, fun _ _ _ _ => exec_sync_stranger, fun _ _ _ _ => exec_brd,
   fun _ _ _ _ => exec_trig⟩

end Sys2Proof.Machine

/-! SUPPORT. How waiting threads go on and what ends their shots from outside (obligation O27). -/

namespace Sys2Proof.Machine

section GoOn

variable {s : State} {g b slot num tick a key e d k src tmo tact dl lact issue val arr t0 tr : Nat} {take tgt : BitVec 16}
  {c : Bool}

theorem exec_waitRelease (hwait : (s.thr g).wait = .until tick c) (hnow : tick ≤ s.now) :
    exec (.waitRelease g) s = .next (s.resumeThread g tick) := by
  show execWaitRelease g s = _
  simp only [execWaitRelease, hwait, if_pos hnow]

theorem exec_barrierRelease (htick : s.releaseTick b = some tr) (hnow : tr ≤ s.now) (hround : (s.bar b).failed = none) :
    exec (.barrierRelease b) s = .next (((s.bar b).members.foldl (fun s g => s.resumeThread g tr) s).barWaiting b
      ((s.bar b).members.map thrTile) false) := by
  show execBarrierRelease b s = _
  have hgo : tr ≤ s.now ∧ (s.bar b).failed.isNone = true := ⟨hnow, by rw [hround]; rfl⟩
  simp only [execBarrierRelease, htick, if_pos hgo]

/-- A thread whose slots have become valid in time notes the tick and the key. -/
theorem State.watchBrd_notes {t : Nat} (hmem : (g, s.thr g) ∈ s.threads)
    (hwait : (s.thr g).wait = .brd slot num take tgt dl lact issue c none) (htile : thrTile g = t) (hfrom : issue ≤ s.now)
    (hto : s.now ≤ issue + dl) (hvalid : (brdSlots slot num).all (s.slotValid t) = true) :
    ∃ e ∈ (s.watchBrd t).threads, e.1 = g ∧
      e.2.wait = .brd slot num take tgt dl lact issue c (some (s.now, s.brdKey t slot num)) := by
  refine ⟨_, List.mem_map_of_mem hmem, ?_⟩
  have hgot : s.brdGot t slot num s.now = some (s.now, s.brdKey t slot num) := if_pos hvalid
  simp only [hwait, if_pos (And.intro htile (And.intro hfrom hto)), hgot, and_self]

theorem exec_brdResolve (hwait : (s.thr g).wait = .brd slot num take tgt dl lact issue c (some (a, key)))
    (hnow : a ≤ s.now) :
    exec (.brdResolve g) s = .next (State.resumeThread (if bit take.toNat key then
      s.updThr g (fun t => { t with pc := tgt.toNat }) else s) g (a + 1)) := by
  show execBrdResolve g s = _
  simp only [execBrdResolve, hwait, if_pos hnow]

theorem exec_brdLate (hwait : (s.thr g).wait = .brd slot num take tgt dl lact issue c none)
    (hnow : issue + dl + 1 ≤ s.now) :
    (let u := s.updThr g (fun t => { t with decLate := min 65535 (t.decLate + 1) }.flag 1);
     exec (.brdLate g) s = .next (if lact = 2 then u.endThread g stBrdLate (issue + dl + 1)
       else (if lact = 1 then u.updThr g (fun t => { t with pc := tgt.toNat }) else u).resumeThread g (issue + dl + 1))) := by
  show execBrdLate g s = _
  simp only [execBrdLate, hwait, if_pos hnow, apply_ite Host.Outcome.next]

theorem exec_trigRelease (hwait : (s.thr g).wait = .trig src tmo tact tgt issue (some e) c) (hnow : e + 8 ≤ s.now) :
    exec (.trigRelease g) s = .next (s.resumeThread g (e + 8)) := by
  show execTrigRelease g s = _
  simp only [execTrigRelease, hwait, if_pos hnow]

theorem exec_trigTimeout (hwait : (s.thr g).wait = .trig src tmo tact tgt issue none c) (hnow : issue + tmo + 8 ≤ s.now) :
    exec (.trigTimeout g) s = .next (if tact = 2 then s.endThread g stTrigTimeout (issue + tmo + 8)
      else (if tact = 1 then s.updThr g (fun t => { t with pc := tgt.toNat }) else s).resumeThread g (issue + tmo + 8)) := by
  show execTrigTimeout g s = _
  simp only [execTrigTimeout, hwait, if_pos hnow, apply_ite Host.Outcome.next]

theorem exec_syncTimeout (hwait : (s.thr g).wait = .barrier b false val arr c) (hnow : arr + val ≤ s.now)
    (hheld : s.releaseTick b = none) (hfirst : ∀ t, s.missTick b = some t → arr + val < t) :
    exec (.syncTimeout g) s = .next (s.endThread g stSyncTimeout (arr + val)) := by
  show execSyncTimeout g s = _
  cases hmiss : s.missTick b with
  | none => simp [execSyncTimeout, hwait, hnow, hheld, hmiss]
  | some t => simp [execSyncTimeout, hwait, hnow, hheld, hmiss, hfirst t hmiss]

theorem exec_syncMiss (hmiss : s.missTick b = some t0) (hnow : t0 ≤ s.now) (hheld : s.releaseTick b = none) :
    exec (.syncMiss b) s = .next ((s.arrived b).foldl (fun s w => s.endThread w.1 stSyncMiss (max t0 w.2.2.2)) s) := by
  show execSyncMiss b s = _
  simp only [execSyncMiss, hmiss, if_pos (And.intro hnow hheld)]

theorem exec_waitsRelease (hwait : (s.thr g).wait = .stream k tmo issue) (hready : s.strmReady (thrTile g) k = true)
    (hfrom : issue ≤ s.now) (hto : s.now ≤ issue + tmo) :
    exec (.waitsRelease g) s = .next (s.resumeThread g (s.now + 1)) := by
  show execWaitsRelease g s = _
  simp only [execWaitsRelease, hwait, if_pos (And.intro hready (And.intro hfrom hto))]

theorem exec_waitsTimeout (hwait : (s.thr g).wait = .stream k tmo issue) (hready : s.strmReady (thrTile g) k = false)
    (hnow : issue + tmo ≤ s.now) :
    exec (.waitsTimeout g) s =
      .next ((s.endThread g stUnderrun (issue + tmo)).underrunShot (thrTile g) k g (s.thr g).start) := by
  show execWaitsTimeout g s = _
  simp [execWaitsTimeout, hwait, hready, Nat.lt_succ_of_le hnow]

theorem exec_peerStop (hpeer : (s.thr g).peerEnd = some d) :
    exec (.peerStop g) s = .next (s.endThread g stPeer (min s.now d)) := by
  show execPeerStop g s = _
  rw [execPeerStop, hpeer]

end GoOn

/-- Settles O27: a thread's wait chooses the branch of the command that ends it. -/
theorem threadsGoOn : Obligations.ThreadsGoOn :=
  ⟨fun _ _ _ _ => exec_waitRelease, fun _ _ _ => exec_barrierRelease,
   fun _ _ _ _ _ _ _ _ _ _ _ => State.watchBrd_notes, fun _ _ _ _ _ _ _ _ _ _ _ _ => exec_brdResolve,
   fun _ _ _ _ _ _ _ _ _ _ => exec_brdLate, fun _ _ _ _ _ _ _ _ _ => exec_trigRelease,
   fun _ _ _ _ _ _ _ _ => exec_trigTimeout, fun _ _ _ _ _ _ => exec_syncTimeout, fun _ _ _ => exec_syncMiss,
   fun _ _ _ _ _ => exec_waitsRelease, fun _ _ _ _ _ => exec_waitsTimeout, fun _ _ _ => exec_peerStop⟩

end Sys2Proof.Machine

/-! SUPPORT. CUSTOM, and the repair, the replacement and the direct writes of the stores (obligation O28). -/

namespace Sys2Proof.Machine

/-! ## CUSTOM (04 R98) -/

section Custom

variable {s u : State} {g n : Nat} {w : GateWord}

/-- CUSTOM with a clean fetch commits what its engine leaves. -/
theorem exec_custom (hlo : 0x30 ≤ opcode w) (h : s.issuing g (opcode w) n w) (hhi : opcode w ≤ 0x37)
    (hn : n = mfld (s.entry g w) 14 3) (hvalid : bit (s.entry g w).toNat 18 = true) (hread : s.dispatchFails g .ok w = false)
    (hrun : ((s.charged g n).customRun g .ok w).2 = .ok u) : exec (.custom g .ok) s = .next (u.checkPc g) := by
  obtain ⟨hnow, hw, -, hin, hfit⟩ := h
  have hcost : (if bit (s.entry g w).toNat 18 && !s.dispatchFails g .ok w then mfld (s.entry g w) 14 3 else 0) = n := by
    rw [hvalid, hread, hn]
    rfl
  have hok : (decide (0x30 ≤ opcode w) && decide (opcode w ≤ 0x37)) = true := by
    rw [decide_eq_true hlo, decide_eq_true hhi]
    rfl
  exact congrArg Host.Outcome.next (State.issueWord_commits (u := s.charged g n) hnow hw hok hin (by rwa [hcost])
    (by rw [hcost]; exact if_neg nofun) hrun)

end Custom

/-! ## Store words (04 R117, R118, R120) -/

section Stores

variable {s : State} {t c a thr off : Nat} {k : StoreKind} {b : Bool} {v : Word}

/-- The word of a store at an address of a bank of a cluster. -/
abbrev isWord (gc : Nat) (k : StoreKind) (b : Bool) (a : Nat) (w : BadWord) : Bool :=
  decide (w.cluster = gc) && decide (w.store = k) && decide (w.bank = b) && decide (w.addr = a)

/-- A word that is listed as bad is poisoned. -/
theorem State.poisoned_of_find {gc : Nat} {x : BadWord} (h : s.stores.poison.find? (isWord gc k b a) = some x) :
    s.poisoned gc k b a = true :=
  List.any_eq_true.2 ⟨x, List.mem_of_find?_eq_some h, List.find?_some (p := isWord gc k b a) h⟩

theorem exec_mchkReloadDone {mine : BadWord → Bool} (hmine : mine = isWord (9 * t + c) k b a)
    (hfound : (s.stores.poison.find? mine).map (fun w => w.thr) = some thr) :
    (let u : State := { s with
       stores := { s.stores with
         poison := s.stores.poison.filter (fun w => !mine w),
         reloaded := s.stores.reloaded.filter (fun w => !mine w) ++ [⟨9 * t + c, k, b, a, s.now, thr, 0⟩] } };
     exec (.mchkReloadDone t c k b a) s = .next ((if s.rd F.CLU_MCHK_ADDR [t, c] = a ∧ s.rdB F.CLU_MCHK_BANK [t, c] = b ∧
       s.rd F.CLU_MCHK_CAUSE [t, c] = storeCause k then u.wr F.CLU_MCHK_RELOADING [t, c] 0 else u).note
       (.tile t (80 + c)) 3 (thrIndex thr))) := by
  subst hmine
  obtain ⟨x, hx, rfl⟩ := Option.map_eq_some_iff.1 hfound
  show execMchkReloadDone t c k b a s = _
  simp only [execMchkReloadDone, if_pos (State.poisoned_of_find hx), hx, Option.map_some, Option.getD_some]
  refine congrArg (fun u : State => Host.Outcome.next (u.note (.tile t (80 + c)) 3 (thrIndex x.thr))) (if_congr ?_ rfl rfl)
  simp only [Bool.and_eq_true, decide_eq_true_iff, and_assoc]
  rfl

theorem exec_bankReplaceDone {r : BankRepl}
    (hfound : s.stores.bankRepl.find? (fun r => decide (r.cluster = 9 * t + c) && decide (r.store = k) && !r.filled) = some r) :
    exec (.bankReplaceDone t c k) s =
      .next (((s.fillBank (9 * t + c) k r.bank).markFilled r).moveReplaced r (fun _ => false)) := by
  show execBankReplaceDone t c k s = _
  simp only [execBankReplaceDone, hfound]

/-- The bank of a view by its offset. -/
theorem decide_viewBank (hlo : 0x500000 ≤ off) : decide (0x20000 ≤ off - 0x500000) = decide (0x520000 ≤ off) :=
  decide_eq_decide.2 (by omega)

theorem State.nanoView_writes (htile : t < s.variant.tiles) (hlo : 0x500000 ≤ off) (hc : c = s.rd F.TIL_MEMWIN_SEL_CLUSTER [t])
    (hcl : c ≤ 8) (hfree : s.nanoRead (9 * t + c) (decide (0x520000 ≤ off)) = false)
    (hswap : s.swapping (9 * t + c) = false) :
    s.nanoView t off v = { s with stores := { s.stores with
      nano := SMap.put 0 s.stores.nano
        (4096 * bankKey (9 * t + c) (decide (0x520000 ≤ off)) + (off - 0x500000) % 0x20000 / 32)
        (BitVec.ofNat 256 (setBits (s.nanoAt (9 * t + c) (decide (0x520000 ≤ off)) ((off - 0x500000) % 0x20000 / 32)).toNat
          (32 * ((off - 0x500000) % 32 / 4)) 32 v.toNat)) } } := by
  subst hc
  have hthere : ¬ (s.variant.tiles ≤ t ∨ 8 < s.rd F.TIL_MEMWIN_SEL_CLUSTER [t]) := by omega
  simp only [State.nanoView, if_neg hthere, decide_viewBank hlo, hfree, hswap, Bool.or_self, Bool.false_eq_true, if_false]

theorem State.nanoView_refused (htile : t < s.variant.tiles) (hlo : 0x500000 ≤ off)
    (hc : c = s.rd F.TIL_MEMWIN_SEL_CLUSTER [t]) (hcl : c ≤ 8)
    (hread : s.nanoRead (9 * t + c) (decide (0x520000 ≤ off)) = true) :
    s.nanoView t off v = s.wr F.CLU_UCODE_STATUS_WR_REFUSED [t, c] 1 := by
  subst hc
  have hthere : ¬ (s.variant.tiles ≤ t ∨ 8 < s.rd F.TIL_MEMWIN_SEL_CLUSTER [t]) := by omega
  simp only [State.nanoView, if_neg hthere, decide_viewBank hlo, hread, Bool.true_or, if_true]

theorem exec_nanoViewWrite (hlo : 0x500000 ≤ off) (hhi : off < 0x540000) (halign : off % 4 = 0) :
    exec (.nanoViewWrite t off v) s = .next (s.nanoView t off v) :=
  if_pos ⟨hlo, hhi, halign⟩

end Stores

/-- Settles O28: each command takes the branch that its premises name. -/
theorem customAndStores : Obligations.CustomAndStores :=
  ⟨fun _ _ _ _ _ _ => exec_custom, fun _ _ _ _ _ _ _ _ => exec_mchkReloadDone, fun _ _ _ _ _ => exec_bankReplaceDone,
   fun _ _ _ _ _ htile hlo hhi halign hc hcl hfree hswap =>
     (exec_nanoViewWrite hlo hhi halign).trans (congrArg Host.Outcome.next (State.nanoView_writes htile hlo hc hcl hfree hswap)),
   fun _ _ _ _ _ htile hlo hhi halign hc hcl hread =>
     (exec_nanoViewWrite hlo hhi halign).trans (congrArg Host.Outcome.next (State.nanoView_refused htile hlo hc hcl hread))⟩

end Sys2Proof.Machine

/-! SUPPORT. What the accepted commands of programs, nano-words and microcode images leave (obligation O51). -/

namespace Sys2Proof.Machine

/-! ## PROGRAM_LOAD (17 R384) -/

section Programs

variable {n : Nat} {s : State} {p : List Byte}

theorem State.progWords_length (s : State) (a : ProgAsk) : (s.progWords a).length = progLen a := by
  rw [State.progWords, wordsOf, List.length_map, List.length_range]

/-- Instruction `i` of a program, read from device memory. -/
theorem State.progWords_getElem {a : ProgAsk} {i : Nat} (hi : i < progLen a) :
    (s.progWords a)[i]'(by rwa [State.progWords_length]) = leAt (s.memRead a.src (8 * progLen a)) (8 * i) 8 := by
  simp only [State.progWords, wordsOf, List.getElem_map, List.getElem_range]

/-- What a loaded program leaves in the program memories. -/
theorem State.writeProgram_sram (s : State) (a : ProgAsk) :
    (s.writeProgram a).stores.sram = SMap.putList 0 s.stores.sram (65536 * (9 * a.tile + a.cluster) + a.base)
      ((s.progWords a).map (fun w => BitVec.ofNat 64 w)) := rfl

theorem State.writeProgram_inside {a : ProgAsk} {i : Nat} (hi : i < progLen a) :
    SMap.get 0 (s.writeProgram a).stores.sram (65536 * (9 * a.tile + a.cluster) + a.base + i) =
      BitVec.ofNat 64 (leAt (s.memRead a.src (8 * progLen a)) (8 * i) 8) := by
  have hlen : i < ((s.progWords a).map (fun w => (BitVec.ofNat 64 w : GateWord))).length := by
    rwa [List.length_map, State.progWords_length]
  rw [State.writeProgram_sram, SMap.get_putList_self hlen, List.getElem_map, State.progWords_getElem hi]

theorem State.writeProgram_outside {a : ProgAsk} {k : Nat} (hk : k < 65536 * (9 * a.tile + a.cluster) + a.base ∨
    65536 * (9 * a.tile + a.cluster) + a.base + progLen a ≤ k) :
    SMap.get 0 (s.writeProgram a).stores.sram k = SMap.get 0 s.stores.sram k := by
  rw [State.writeProgram_sram, SMap.get_putList_other]
  rwa [List.length_map, State.progWords_length]

theorem exec_programLoad_long {a : ProgAsk} (h : s.asked n 0x30 false (bytesOk 16 []) p) (ha : a = progAsk p)
    (hok : s.progReason a = none) (hlong : 8192 < progLen a) : exec (.programLoad n) s = .next (s.progress n) := by
  refine next_command_of_asked h fun r hr => ?_
  simp only [hr, ← ha, hok, if_pos hlong]

theorem exec_programLoad {a : ProgAsk} (h : s.asked n 0x30 false (bytesOk 16 []) p) (ha : a = progAsk p)
    (hok : s.progReason a = none) (hfit : progLen a ≤ 8192) :
    exec (.programLoad n) s = .next ((s.writeProgram a).ok n []) := by
  refine next_command_of_asked h fun r hr => ?_
  simp only [hr, ← ha, hok, if_neg (Nat.not_lt.2 hfit), State.loadProgram]

/-! ## NANO_LOAD and NANO_SWAP (04 R115, R116) -/

theorem exec_nanoLoad {t c first cnt src : Nat} {b : Bool} {ws : List NanoWord}
    (h : s.asked n 0x35 false (bytesOk 14 []) p) (ht : t = leAt p 0 1) (hc : c = leAt p 1 1) (hfirst : first = leAt p 2 2)
    (hcnt : cnt = leAt p 4 2) (hsrc : src = leAt p 6 8)
    (hws : ws = (wordsOf (s.memRead src (32 * cnt)) 32 cnt).map (fun w => BitVec.ofNat 256 w))
    (hcluster : s.clusterReason t c = 0) (hpos : 0 < cnt) (hfit : first + cnt ≤ 4096)
    (hbank : s.inactiveNano (9 * t + c) = some b) (hswap : s.swapping (9 * t + c) = false)
    (hmem : s.srcOk src (32 * cnt) = true) (hok : firstReason (nanoReason c) 0 ws = none) :
    exec (.nanoLoad n) s = .next (State.ok { s with stores := { s.stores with
      nano := SMap.putList 0 s.stores.nano (4096 * bankKey (9 * t + c) b + first) ws } } n []) := by
  refine next_command_of_asked h fun r hr => ?_
  have hrange : ¬ (cnt = 0 ∨ 4096 < first + cnt) := by omega
  simp only [hr, ← ht, ← hc, ← hfirst, ← hcnt, ← hsrc, ← hws, hcluster, ne_eq, not_true_eq_false, if_false, if_neg hrange,
    hbank, hswap, hmem, Bool.not_true, Bool.false_eq_true, hok]

theorem exec_nanoSwap {t c : Nat} (h : s.asked n 0x36 false (bytesOk 2 []) p) (ht : t = leAt p 0 1) (hc : c = leAt p 1 1)
    (hok : s.swapReason t c = none) :
    exec (.nanoSwap n) s =
      .next ((s.beginSwap (9 * t + c) ((s.inactiveNano (9 * t + c)).getD false) 0 (some n)).progress n) := by
  refine next_command_of_asked h fun r hr => ?_
  simp only [hr, ← ht, ← hc, hok]

theorem exec_nanoSwapDone {t c g k : Nat} {b : Bool} {u : State}
    (hswap : s.stores.nanoSwap.find? (fun w => decide (w.1 = 9 * t + c)) = some (g, b, k, some n))
    (hold : s.nanoRead (9 * t + c) (!b) = false)
    (hu : u = { s with stores := { s.stores with
      nanoSwap := s.stores.nanoSwap.filter (fun w => decide (w.1 ≠ 9 * t + c)) } })
    (hwork : u.working n 0x36 = true) :
    exec (.nanoSwapDone t c) s = .next (u.ok n [if b then 1 else 0]).settleTxns := by
  show execNanoSwapDone t c s = _
  simp only [execNanoSwapDone, hswap, hold, Bool.false_eq_true, if_false, ← hu, hwork, if_true]

/-! ## Images (04 R121-R124) -/

theorem exec_patchStage {a l : Nat} (h : s.asked n 0x31 false (bytesOk 12 []) p) (ha : a = leAt p 0 8) (hl : l = leAt p 8 4)
    (hok : s.stageReason n true 0x7F a l = none) :
    exec (.patchStage n) s = .next ((s.wr F.SPN_MCODE_STAGE_STATE [] 1).progress n) := by
  refine next_command_of_asked h fun r hr => ?_
  simp only [hr, State.beginStage, stageAsk, if_true, ← ha, ← hl, hok]
  rfl

theorem exec_userUcodeStage {t a l : Nat} (h : s.asked n 0x32 false (bytesOk 13 []) p) (ht : t = leAt p 0 1)
    (ha : a = leAt p 1 8) (hl : l = leAt p 9 4) (hlt : t < 0x80) (hok : s.stageReason n false t a l = none) :
    exec (.userUcodeStage n) s = .next ((s.wr F.SPN_MCODE_STAGE_STATE [] 1).progress n) := by
  refine next_command_of_asked h fun r hr => ?_
  simp only [hr, State.beginStage, stageAsk, Bool.false_eq_true, if_false, ← ht, ← ha, ← hl, hok, if_neg (Nat.not_le.2 hlt)]

theorem exec_patchApply (h : s.asked n 0x33 false (bytesOk 0 []) p) :
    (s.applyReason n = 0 → exec (.patchApply n) s = .next ((s.beginApply 0 (some n)).progress n)) ∧
    (s.applyReason n ≠ 0 → exec (.patchApply n) s = .next (s.deny n (s.applyReason n) whole)) :=
  ⟨fun hok => next_command_of_asked h fun _ _ => if_pos hok, fun hbad => next_command_of_asked h fun _ _ => if_neg hbad⟩

theorem exec_patchApplyDone {u : UStage} (hstage : s.stores.ustage = some u) (happly : u.applying = true)
    (hdone : s.applied u = true) (hmbx : u.mbx = some n) (hwork : (s.endApply u).working n 0x33 = true) :
    exec .patchApplyDone s = .next (((s.endApply u).ok n (wordBytes [((s.endApply u).regWord R.SPN_MCODE_VER [] 0).toNat,
      ((s.endApply u).regWord R.SPN_MCODE_ID [] 0).toNat])).settleTxns) := by
  show execPatchApplyDone s = _
  simp only [execPatchApplyDone, hstage, if_pos (And.intro happly hdone), hmbx, hwork, if_true]

theorem exec_patchDiscard {u : UStage} (h : s.asked n 0x34 false (bytesOk 0 []) p) (hstage : s.stores.ustage = some u) :
    (u.applying = false → exec (.patchDiscard n) s =
      .next ((State.showStage { s with stores := { s.stores with ustage := none } }).ok n [])) ∧
    (u.applying = true → exec (.patchDiscard n) s = .next (s.deny n 0x0906 whole)) := by
  refine ⟨fun hidle => next_command_of_asked h fun r _ => ?_, fun hbusy => next_command_of_asked h fun r _ => ?_⟩
  · simp only [hstage, hidle, Bool.false_eq_true, if_false]
  · simp only [hstage, hbusy, if_true]

end Programs

/-- Settles O51: an accepted request passes every check of its command's own; a program is read back as it was written. -/
theorem programsAndImages : Obligations.ProgramsAndImages :=
  ⟨fun _ _ _ _ h ha hok => ⟨exec_programLoad_long h ha hok, fun hfit => ⟨_, exec_programLoad h ha hok hfit, rfl,
     fun _ => State.writeProgram_inside, fun _ => State.writeProgram_outside⟩⟩,
   fun _ _ _ _ _ _ _ _ _ _ => exec_nanoLoad, fun _ _ _ _ _ => exec_nanoSwap, fun _ _ _ _ _ _ _ _ => exec_nanoSwapDone,
   fun _ _ _ _ _ => exec_patchStage, fun _ _ _ _ _ _ => exec_userUcodeStage, fun _ _ _ => exec_patchApply,
   fun _ _ _ => exec_patchApplyDone, fun _ _ _ _ => exec_patchDiscard⟩

end Sys2Proof.Machine

/-! SUPPORT. Faults detected in one cycle, injections, ERR_N, the management cores and the log (obligation O58). -/

namespace Sys2Proof.Machine

/-! ## Detection and injection (21 R448, R449, R452) -/

section Faults

variable {s u : State} {b : FltBlk} {fs : List FaultEv} {v : Word}

/-- Only the bit of a lane failure changes where no spare lane is left. -/
theorem real_of_mem_laneBits {used usedUp : Nat} (hreal : ∀ f ∈ fs, f.real = true) :
    ∀ f ∈ laneBits used usedUp fs, f.real = true := by
  induction fs generalizing used usedUp with
  | nil => exact hreal
  | cons f fs ih =>
    obtain ⟨hf, hfs⟩ := List.forall_mem_cons.1 hreal
    have hhead : ∀ k, (if 2 ≤ k then { f with bit := 0 } else f).real = true := fun k => by split <;> exact hf
    rw [laneBits]
    split
    · exact List.forall_mem_cons.2 ⟨hf, ih hfs⟩
    · split
      · exact List.forall_mem_cons.2 ⟨hhead used, ih hfs⟩
      · exact List.forall_mem_cons.2 ⟨hhead usedUp, ih hfs⟩

theorem State.real_of_mem_laneFaults (hreal : ∀ f ∈ fs, f.real = true) : ∀ f ∈ s.laneFaults b fs, f.real = true := by
  unfold State.laneFaults
  split
  · exact real_of_mem_laneBits hreal
  · exact hreal

/-- Real faults of a live block are recorded together, and each takes its reaction. -/
theorem exec_faultRecord_real (hlive : b.live s.variant = true)
    (hfs : ∀ f ∈ fs, (s.faultSev b f.bit).isSome = true ∧ unitOk b f.bit f.unit = true ∧ f.real = true ∧ f.inj = false ∧
      clipBit b f.bit = false ∧ (b = .spine 0 → f.bit = 1 → s.hif.viralEn = true)) :
    exec (.faultRecord b fs) s = .next (s.faultEvents b ((s.laneFaults b fs).map (fun f => (f, true)))) := by
  have hreal : ∀ f ∈ fs, f.real = true := fun f hf => by
    obtain ⟨-, -, hreal, -, -, -⟩ := hfs f hf
    exact hreal
  have hinj : fs.filter (fun f => f.inj) = [] := List.filter_eq_nil_iff.2 fun f hf => by
    obtain ⟨-, -, -, hinj, -, -⟩ := hfs f hf
    simp [hinj]
  have hmap : (s.laneFaults b fs).map (fun f => (f, f.real || s.injectsFull b f)) =
      (s.laneFaults b fs).map (fun f => (f, true)) :=
    List.map_congr_left fun f hf => by rw [State.real_of_mem_laneFaults hreal f hf, Bool.true_or]
  show execFaultRecord b fs s = _
  dsimp only [execFaultRecord]
  rw [hinj, hmap]
  refine if_pos ⟨hlive, List.all_eq_true.2 fun f hf => ?_⟩
  obtain ⟨hsev, hunit, hr, hi, hclip, hviral⟩ := hfs f hf
  have hspine : (!true || decide (b ≠ .spine 0) || decide (f.bit ≠ 1) || s.hif.viralEn) = true := by
    by_cases hb : b = .spine 0
    · by_cases hbit : f.bit = 1
      · rw [hviral hb hbit, Bool.or_true]
      · simp [hbit]
    · simp [hb]
  simp only [hsev, hunit, hr, hi, hclip, hspine, Bool.or_false, Bool.not_false, Bool.and_self, Bool.and_false, Bool.true_or]

theorem exec_fltInject (hlive : b.live s.variant = true) (hgo : injGo v = true) :
    (s.rdB F.SPN_FLT_CTRL_INJ_EN [] = true ∧ (s.faultSev b (injBit v)).isSome = true ∧ unitOk b (injBit v) (injUnit v) = true →
      exec (.fltInject b v) s = .next { s with staged := s.staged ++ [⟨.fltInject b v, s.now, false⟩] }) ∧
    (s.rdB F.SPN_FLT_CTRL_INJ_EN [] = false ∨ s.faultSev b (injBit v) = none ∨ unitOk b (injBit v) (injUnit v) = false →
      exec (.fltInject b v) s = .next (b.wr s F.FLT_COUNT_INJ_REFUSED F.TFLT_COUNT_INJ_REFUSED 1)) := by
  have hgoes : ¬ ((!injGo v || !b.live s.variant) = true) := by simp [hgo, hlive]
  constructor
  · rintro ⟨hen, hsev, hunit⟩
    refine congrArg Host.Outcome.next ((if_neg hgoes).trans (if_pos ?_))
    rw [hen, hsev, hunit]
    rfl
  · intro hbad
    refine congrArg Host.Outcome.next ((if_neg hgoes).trans (if_neg ?_))
    obtain h | h | h := hbad <;> simp [h]

/-! ## ERR_N, spine links (21 R459, R463) -/

theorem exec_errHoldExpire {t : Nat} (hhold : s.flt.errHold = some t) (hnow : t ≤ s.now) :
    exec .errHoldExpire s = .next (State.errPolicy { s with flt := { s.flt with errHold := none } }) := by
  show execErrHoldExpire s = _
  simp only [execErrHoldExpire, hhold, if_pos hnow]

/-- A bias output of tile `n` at an entry to a safe state. -/
theorem State.safeBias_tile {n : Nat} {e : Nat × BiasRun} (he : e.1 / 64 = n) :
    s.safeBias e = (e.1, { e.2 with
      code := 0
      waiting := []
      safeAt := if (SMap.get .idle s.outs.en (outKey .bias n (e.1 % 64))).hadValue = true then some s.now
        else e.2.safeAt }) := by
  subst he
  rfl

theorem exec_tileLinkSilence {n t : Nat} (ht : t = SMap.get 0 s.flt.silent n) (hsilent : t ≠ 0) (hnow : t + 63 ≤ s.now) :
    exec (.tileLinkSilence n) s = .next { s with outs := { s.outs with
      en := s.outs.en.map (fun e => if decide (e.1 / 100 % 10 = n) = true then (e.1, { e.2 with hadValue := false }) else e)
      bias := s.outs.bias.map (fun e => if e.1 / 64 = n then (e.1, { e.2 with
        code := 0
        waiting := []
        safeAt := if (SMap.get .idle s.outs.en (outKey .bias n (e.1 % 64))).hadValue = true then some s.now
          else e.2.safeAt }) else e) } } := by
  subst ht
  have hbias : s.outs.bias.map (fun e => if e.1 / 64 = n then s.safeBias e else e) =
      s.outs.bias.map (fun e => if e.1 / 64 = n then (e.1, { e.2 with
        code := 0
        waiting := []
        safeAt := if (SMap.get .idle s.outs.en (outKey .bias n (e.1 % 64))).hadValue = true then some s.now
          else e.2.safeAt }) else e) :=
    List.map_congr_left fun e _ => ite_congr rfl (fun he => State.safeBias_tile he) fun _ => rfl
  rw [← hbias]
  exact if_pos ⟨hsilent, hnow⟩

/-! ## Management cores (21 R460-R462) -/

theorem State.fwRuns_of (hready : s.rdB F.MBX_GLOBAL_FW_READY [] = true) (hlost : s.flt.lost = false) : s.fwRuns = true := by
  rw [State.fwRuns, hready, hlost]
  rfl

theorem exec_heartbeatMiss_standby {c : Nat} (hc : c = s.rd F.MBX_GLOBAL_ACTIVE_CORE []) (hruns : s.fwRuns = true)
    (hstandby : s.rdB F.MBX_GLOBAL_STANDBY_READY [] = true)
    (hu : u = ((s.fault (.spine 12) 1 c).handover).wr F.MBX_GLOBAL_STANDBY_READY [] 0) :
    exec .heartbeatMiss s = .next { u with flt := { u.flt with restart := some u.now } } := by
  subst hc hu
  show execHeartbeatMiss s = _
  simp only [execHeartbeatMiss, hruns, hstandby, Bool.not_true, Bool.false_eq_true, if_false, if_true]

theorem exec_heartbeatMiss_alone {c : Nat} (hc : c = s.rd F.MBX_GLOBAL_ACTIVE_CORE []) (hruns : s.fwRuns = true)
    (hstandby : s.rdB F.MBX_GLOBAL_STANDBY_READY [] = false) (hu : u = s.fault (.spine 12) 0 c) :
    exec .heartbeatMiss s = .next u.firmwareLost := by
  subst hc hu
  show execHeartbeatMiss s = _
  simp only [execHeartbeatMiss, hruns, hstandby, Bool.not_true, Bool.false_eq_true, if_false]

theorem exec_standbyRestartDone_ready {t : Nat} {ok : Bool} (hrestart : s.flt.restart = some t) (hok : ok = true)
    (hnow : s.now ≤ t + 312500000) :
    exec (.standbyRestartDone ok) s = .next (State.wr { s with flt := { s.flt with
      restart := none
      standbyLost := false } } F.MBX_GLOBAL_STANDBY_READY [] 1) := by
  show execStandbyRestartDone ok s = _
  simp only [execStandbyRestartDone, hrestart]
  exact if_pos ⟨hok, hnow⟩

theorem exec_standbyRestartDone_lost {t : Nat} {ok : Bool} (hrestart : s.flt.restart = some t)
    (hlate : ok = false ∨ t + 312500000 < s.now)
    (hu : u = { s with flt := { s.flt with
      restart := none
      standbyLost := true } }) :
    exec (.standbyRestartDone ok) s =
      .next ((u.fault (.spine 12) 2 (1 - u.rd F.MBX_GLOBAL_ACTIVE_CORE [])).advise) := by
  subst hu
  show execStandbyRestartDone ok s = _
  simp only [execStandbyRestartDone, hrestart]
  refine if_neg fun ⟨hok, hnow⟩ => ?_
  obtain h | h := hlate
  · exact Bool.false_ne_true (h.symm.trans hok)
  · exact Nat.lt_irrefl _ (Nat.lt_of_lt_of_le h hnow)

theorem exec_fwAudit {us : List UnitDesc} (hruns : s.fwRuns = true)
    (hus : ∀ u ∈ us, u.valid = true ∧ u.present s.variant = true) :
    exec (.fwAudit us) s = .next (us.foldl State.adopt s) := by
  have hall : us.filter (fun u => u.valid && u.present s.variant) = us :=
    List.filter_eq_self.2 fun u hu => Bool.and_eq_true_iff.2 (hus u hu)
  show execFwAudit us s = _
  rw [execFwAudit, if_pos hruns, hall]

/-! ## The log (21 R465) -/

theorem exec_logWrite {r : LogRec} {l : List LogRec} (hbuf : s.flt.logBuf = r :: l) (hshut : s.shutdown = false) :
    exec .logWrite s = .next { s with flt := { s.flt with
      logBuf := l
      log := (s.flt.log ++ [r]).drop (s.flt.log.length + 1 - 16384) } } := by
  show execLogWrite s = _
  simp [execLogWrite, hbuf, hshut]

end Faults

/-- Settles O58: each event takes the branch that its premises name, and real faults stay real where a lane has no spare. -/
theorem faultEvents : Obligations.FaultEvents := by
  refine ⟨fun _ _ _ => exec_faultRecord_real, fun _ _ _ => exec_fltInject, fun _ _ => exec_errHoldExpire, fun _ _ => rfl,
    fun _ _ _ => exec_tileLinkSilence, fun _ _ _ hc hready hlost => ?_, fun _ _ _ _ hrestart => ?_,
    fun _ _ hready hlost hus => exec_fwAudit (State.fwRuns_of hready hlost) hus, fun _ _ _ => exec_logWrite,
    fun _ _ hn => if_pos hn⟩
  · have hruns := State.fwRuns_of hready hlost
    exact ⟨exec_heartbeatMiss_standby hc hruns, exec_heartbeatMiss_alone hc hruns⟩
  · exact ⟨exec_standbyRestartDone_ready hrestart, exec_standbyRestartDone_lost hrestart⟩

end Sys2Proof.Machine

/-! SUPPORT. The spare of a drive group: takeover, handback and offline calibration (obligation O30). -/

namespace Sys2Proof.Machine

/-! ## The spare of a drive group (05 R148-R152, 19 R413, R414)

Each command is chosen by the spare's work; the other premises pass that branch's own check. -/

section SpareDacs

variable {s : State} {t g c f : Nat}

theorem State.evicted_eq (s : State) (t g b : Nat) :
    s.evicted t g b =
      if ∃ x ∈ s.drvFences t g, x.chan = b then s.setSpare t g (.takeover b s.now) else s.spareIdle t g := by
  simp only [State.evicted, List.any_eq_true, decide_eq_true_eq]

theorem State.bring_of_pass (s : State) (u : UnitDesc) {o : CalObs} (hpass : o.pass = true) :
    s.bring u o = { s with cal := { s.cal with coming := s.cal.coming ++ [(u, o)] } } := if_pos hpass

theorem exec_spareTakeoverDone (h : s.spare t g = .takeover c f) :
    exec (.spareTakeoverDone t g) s = .next (s.setSpare t g (.serve c false)) := by
  show execSpareTakeoverDone t g s = _
  rw [execSpareTakeoverDone, h]

theorem exec_spareHandback_serve (h : s.spare t g = .serve c true) (hquiet : s.quiet .drive t c 32 = true) :
    exec (.spareHandback t g) s = .next (s.spareIdle t g) := by
  show execSpareHandback t g s = _
  simp only [execSpareHandback, h, hquiet, if_true]

theorem exec_spareHandback_calRun {o : CalObs} (h : s.spare t g = .calRun c f true)
    (hquiet : s.quietFrom .drive t c (s.now + 1) 32 = true) (hcoming : s.isComing ⟨1, t, c⟩ = false)
    (hresult : (s.calU ⟨1, t, c⟩).result = some o) :
    exec (.spareHandback t g) s = .next (s.bring ⟨1, t, c⟩ o) := by
  show execSpareHandback t g s = _
  simp only [execSpareHandback, h, hquiet, hcoming, hresult, Bool.not_false, Bool.and_self, if_true]

theorem exec_spareHandback_evict {a b : Nat} (h : s.spare t g = .evict a b f) (hquiet : s.quiet .drive t a 32 = true)
    (hnow : s.now ≤ f + 625) : exec (.spareHandback t g) s = .next (s.evicted t g b) := by
  show execSpareHandback t g s = _
  simp only [execSpareHandback, h, hquiet, hnow, decide_true, Bool.and_self, if_true]

theorem exec_handbackForced {a b : Nat} (h : s.spare t g = .evict a b f) (hnow : f + 625 ≤ s.now) :
    exec (.handbackForced t g) s = .next ((s.wr F.DRV_STATUS_HANDBACK_FORCED [t, a] 1).evicted t g b) := by
  show execHandbackForced t g s = _
  simp only [execHandbackForced, h, if_pos hnow]

theorem exec_calTakeover (htile : t < s.variant.tiles) (hgroup : g < 8) (h : s.spare t g = .none)
    (hdue : s.nextDue t g = some c) (hfence : s.spareFenced t g = false) (hquiet : s.quiet .drive t c 32 = true) :
    exec (.calTakeover t g) s = .next ((s.startCal ⟨1, t, c⟩ .takeover).setSpare t g (.calRun c s.now false)) := by
  show execCalTakeover t g s = _
  simp only [execCalTakeover, h, hdue]
  exact if_pos ⟨htile, hgroup, by rw [hfence, Bool.not_false], hquiet⟩

theorem exec_calOfflineDone_pass {o p : CalObs} {u : State} (h : s.spare t g = .calRun c f false) (hpass : o.pass = true)
    (hu : u = s.updCalU ⟨1, t, c⟩ (fun k => { k with result := some o })) :
    exec (.calOfflineDone t g o p) s = .next (State.setSpare { u with outs := { u.outs with
      pathsNew := SMap.put calRest u.outs.pathsNew (64 * t + c) p } } t g (.calRun c f true)) := by
  subst hu
  show execCalOfflineDone t g o p s = _
  simp only [execCalOfflineDone, h, if_pos hpass]

theorem exec_calOfflineDone_fail {o p : CalObs} {u : State} (h : s.spare t g = .calRun c f false) (hpass : o.pass = false)
    (hu : u = (s.fault (.spine 11) 1 t).noteCal ⟨1, t, c⟩ false 0x0602) :
    exec (.calOfflineDone t g o p) s = .next (u.setSpare t g (.calRun c u.now (u.calValid ⟨1, t, c⟩))) := by
  subst hu
  show execCalOfflineDone t g o p s = _
  simp only [execCalOfflineDone, h, hpass, Bool.false_eq_true, if_false]

theorem exec_spareFaultHandbackDone (h : s.spare t g = .faultBack c f) :
    exec (.spareFaultHandbackDone t g) s = .next (s.setSpare t g .none) := by
  show execSpareFaultHandbackDone t g s = _
  rw [execSpareFaultHandbackDone, h]

end SpareDacs

/-- Settles O30: each command takes the branch that the spare's work and its premises name, and a channel that loses the
spare leaves it to the one that waits (`State.evicted_eq`). -/
theorem spareDacs : Obligations.SpareDacs := by
  refine ⟨fun _ _ _ _ _ => exec_spareTakeoverDone, fun _ _ _ _ => exec_spareHandback_serve,
    fun _ _ _ _ _ _ h hquiet hcoming hresult hpass => ?_,
    fun _ _ _ _ _ _ h hquiet hnow => ?_, fun _ _ _ _ _ _ h hnow => ?_, fun _ _ _ _ => exec_calTakeover,
    fun _ _ _ _ _ _ _ h hpass => exec_calOfflineDone_pass h hpass rfl,
    fun _ _ _ _ _ _ _ h hpass => exec_calOfflineDone_fail h hpass rfl, fun _ _ _ _ _ => exec_spareFaultHandbackDone⟩
  · rw [exec_spareHandback_calRun h hquiet hcoming hresult, State.bring_of_pass _ _ hpass]
  · rw [exec_spareHandback_evict h hquiet hnow, State.evicted_eq]
  · dsimp only
    rw [exec_handbackForced h hnow, State.evicted_eq]

end Sys2Proof.Machine

/-! SUPPORT. The sweep generators, segments, streams and their passes (obligations O34, O32 and O33). -/

namespace Sys2Proof.Machine

/-! ## The sequences of the generators (06 R177, R178, R180) -/

section Generators

theorem toNat_add_mul_ofNat (a b : Word) (n : Nat) :
    (a + b * BitVec.ofNat 32 n).toNat = (a.toNat + b.toNat * n) % 2 ^ 32 := by
  simp only [BitVec.toNat_add, BitVec.toNat_mul, BitVec.toNat_ofNat, Nat.mul_mod_mod, Nat.add_mod_mod]

theorem genValue_linear (start step limit : Word) (i : Nat) :
    (genValue 0 start step limit i).toNat = (start.toNat + step.toNat * (i % limit.toNat)) % 2 ^ 32 :=
  toNat_add_mul_ofNat _ _ _

theorem genValue_march {start step limit : Word} {i n k : Nat} (hle : start.toNat ≤ limit.toNat)
    (hn : n = (limit.toNat - start.toNat) / step.toNat + 1) (hk : k = i % (2 * n)) :
    (genValue 1 start step limit i).toNat =
      (start.toNat + step.toNat * (if k < n then k else 2 * n - 1 - k)) % 2 ^ 32 := by
  rw [← BitVec.toNat_sub_of_le (BitVec.le_def.2 hle)] at hn
  subst hn hk
  exact toNat_add_mul_ofNat _ _ _

theorem genValue_gray {start step limit : Word} {i : Nat} {j : Word} (hw : step.toNat < 32)
    (hj : j = BitVec.ofNat 32 (i % 2 ^ step.toNat)) : genValue 2 start step limit i = start + (j ^^^ (j >>> 1)) := by
  rw [← Nat.mod_eq_of_lt hw] at hj
  subst hj
  rfl

/-- A scaled state is below RANGE, so the high word of the product is the quotient itself. -/
theorem lfsrValue_toNat (range s : Word) :
    (lfsrValue range s).toNat = if range = 0 then s.toNat else s.toNat * range.toNat / 2 ^ 32 := by
  have hlt : s.toNat * range.toNat / 2 ^ 32 < 2 ^ 32 :=
    Nat.div_lt_of_lt_mul (Nat.mul_lt_mul'' s.isLt range.isLt)
  rw [lfsrValue]
  split
  · rfl
  · rw [BitVec.toNat_ofNat, Nat.mod_eq_of_lt hlt]

variable (s : State) (t g : Nat)

@[simp] theorem State.gen_setGen_self (r : GenRun) : (s.setGen t g r).gen t g = r := SMap.get_put_self

@[simp] theorem State.gen_wr (f : Fld) (ix : List Nat) (v : Nat) : (s.wr f ix v).gen t g = s.gen t g := rfl

@[simp] theorem State.gen_count (f : Fld) (ix : List Nat) (n : Nat) : (s.count f ix n).gen t g = s.gen t g := rfl

theorem State.gen_genAdvance : (s.genAdvance t g).2.gen t g =
    { i := (s.gen t g).i + 1
      s := if s.rd F.TIL_GEN_CTRL_MODE [t, g] = 3 then
          lfsrNext (BitVec.ofNat 32 (s.rd F.TIL_GEN_STEP_STEP [t, g])) (s.gen t g).s
        else (s.gen t g).s } := by
  simp only [State.genAdvance, State.gen_count, State.gen_wr, State.gen_setGen_self]

variable {s t g}

theorem State.genAdvance_value (h : s.rd F.TIL_GEN_CTRL_MODE [t, g] ≠ 3) :
    (s.genAdvance t g).1 = genValue (s.rd F.TIL_GEN_CTRL_MODE [t, g]) (BitVec.ofNat 32 (s.rd F.TIL_GEN_START_START [t, g]))
      (BitVec.ofNat 32 (s.rd F.TIL_GEN_STEP_STEP [t, g])) (BitVec.ofNat 32 (s.rd F.TIL_GEN_LIMIT_LIMIT [t, g]))
      (s.gen t g).i := if_neg h

theorem State.genAdvance_value_lfsr (h : s.rd F.TIL_GEN_CTRL_MODE [t, g] = 3) :
    (s.genAdvance t g).1 = lfsrValue (BitVec.ofNat 32 (s.rd F.TIL_GEN_LIMIT_LIMIT [t, g]))
      ((s.genAdvance t g).2.gen t g).s := by
  rw [State.gen_genAdvance]
  exact if_pos h

theorem State.gen_genReset : (s.genReset t g).gen t g =
    { i := 0
      s := if s.rd F.TIL_GEN_CTRL_MODE [t, g] = 3 then BitVec.ofNat 32 (s.rd F.TIL_GEN_START_START [t, g])
        else (s.gen t g).s } := by
  simp only [State.genReset, State.gen_wr, State.gen_setGen_self]

end Generators

/-- Settles O34: below mode 3 an advance hands out `genValue`, whose three forms are the lemmas above; in mode 3 the shift
register moves first and its new state is scaled. -/
theorem generatorSequences : Obligations.GeneratorSequences := by
  intro s t g f hf
  obtain rfl : f = fun x => BitVec.ofNat 32 (s.rd x [t, g]) := funext hf
  refine ⟨?count, fun linear => ?linear, fun march hle n k hn hk => ?march, fun gray hw j hj => ?gray, fun lfsr => ?lfsr,
    ?restart, fun lfsr => ?seed⟩
  case count => rw [State.gen_genAdvance]
  case linear =>
    rw [State.genAdvance_value (by omega), linear]
    exact genValue_linear _ _ _ _
  case march =>
    rw [State.genAdvance_value (by omega), march]
    exact genValue_march hle hn hk
  case gray =>
    rw [State.genAdvance_value (by omega), gray]
    exact genValue_gray hw hj
  case lfsr =>
    refine ⟨?_, ?_⟩
    · rw [State.gen_genAdvance, if_pos lfsr]
      rfl
    · rw [State.genAdvance_value_lfsr lfsr]
      exact lfsrValue_toNat _ _
  case restart => rw [State.gen_genReset]
  case seed => rw [State.gen_genReset, if_pos lfsr]

/-! ## Segments and envelope memory (06 R158, R160, R161) -/

section Segments

variable {s : State} {t g : Nat}

theorem exec_segOpen (htile : t < s.variant.tiles) (hseg : g < 256) :
    exec (.segOpen t g) s = .next (s.stage (.word (R.TIL_SEG.addr [t, g] 0) 0 4) false) := if_pos ⟨htile, hseg⟩

theorem exec_segSeal (htile : t < s.variant.tiles) (hseg : g < 256) :
    exec (.segSeal t g) s = .next (s.stage (.word (R.TIL_SEG.addr [t, g] 0) 4 4) false) := if_pos ⟨htile, hseg⟩

theorem State.envWrite_open {n : Nat} (v : Word) (hopen : s.pageOpen t (n / 1024) = true)
    (hsealed : s.pageSealed t (n / 1024) = false) :
    s.envWrite t n v = { s with stores := { s.stores with env := SMap.put 0 s.stores.env (2 ^ 20 * t + n) v } } := by
  simp only [State.envWrite, hopen, hsealed, Bool.not_false, Bool.and_self, if_true]

theorem State.envWrite_refused {n : Nat} (v : Word)
    (h : s.pageOpen t (n / 1024) = false ∨ s.pageSealed t (n / 1024) = true) :
    s.envWrite t n v = (s.wr F.TIL_ENV_STATUS_WR_REFUSED [t] 1).wr F.TIL_ENV_STATUS_WR_PAGE [t] (n / 1024) := by
  rcases h with h | h <;>
    simp only [State.envWrite, h, Bool.not_true, Bool.false_and, Bool.and_false, Bool.false_eq_true, if_false]

theorem exec_envMemWrite {n : Nat} {v : Word} (htile : t < s.variant.tiles) (hn : n < 2 ^ 20) :
    exec (.envMemWrite t n v) s = .next (s.envWrite t n v) := if_pos ⟨htile, hn⟩

theorem exec_genEnable (htile : t < s.variant.tiles) (hgen : g < 32) :
    exec (.genEnable t g) s = .next (s.stage (.word (R.TIL_GEN_CTRL.addr [t, g] 0) 1 1) false) := if_pos ⟨htile, hgen⟩

theorem exec_genRestart (htile : t < s.variant.tiles) (hgen : g < 32) :
    exec (.genRestart t g) s = .next (s.stage (.genRestart t g) false) := if_pos ⟨htile, hgen⟩

end Segments

/-! ## Rings, fetches and arrivals (06 R165, R169-R171, R174) -/

section Rings

variable {s : State} {t k : Nat}

theorem exec_strmJumpRequest {g : Nat} (htile : t < s.variant.tiles) (hstrm : k < 64) (hseg : g < 256) :
    exec (.strmJumpRequest t k g) s =
      .next (s.stage (.word (R.TIL_STRM_JUMP.addr [t, k] 0) (BitVec.ofNat 32 g) 0xFF) false) :=
  if_pos ⟨htile, hstrm, hseg⟩

/-- WP is taken where it lies from the WP in force to the ring's size beyond CP, both distances taken from CP (R169). -/
theorem State.wpWrite_eq {v cp wp : Word} (hcp : cp = BitVec.ofNat 32 (s.strmCp t k))
    (hwp : wp = BitVec.ofNat 32 (s.rd F.QMG_STRM_WP_WP [t, k])) :
    s.wpWrite t k v = if (v - cp).toNat ≤ s.ringSize t k ∧ (wp - cp).toNat ≤ (v - cp).toNat then
      s.wr F.QMG_STRM_WP_WP [t, k] v.toNat else s.wr F.QMG_STRM_STATUS_RING_ERR [t, k] 1 := by
  subst hcp hwp
  simp only [State.wpWrite, ← Nat.not_le, ← not_and_or, ite_not]

theorem exec_strmWpWrite {v : Word} (htile : t < 7) (hstrm : k < 64) :
    exec (.strmWpWrite t k v) s = .next (s.wpWrite t k v) := if_pos ⟨htile, hstrm⟩

theorem exec_streamFetch {n : Nat} {r : StreamRun} (hr : r = s.strm t k)
    (hstate : s.strmState t k = kOpen ∨ s.strmState t k = kPlaying)
    (hn : n = min ((BitVec.ofNat 32 (s.rd F.QMG_STRM_WP_WP [t, k]) : Word) - BitVec.ofNat 32 r.fetched).toNat
      (64 - r.fetched % 64))
    (hpos : 0 < n) (hup : s.shutdown = false) (hrate : s.rateOk t k n = true)
    (hcredit : r.fetched % 64 ≠ 0 ∨ r.fetched + 64 ≤ s.strmReleased t k / 64 * 64 + s.strmWin t k) :
    exec (.streamFetch t k) s = .next ((s.setStrm t k { r with
      fetched := r.fetched + n, buf := s.ringWords t k r.fetched r.buf n,
      gone := if s.memPoisoned (s.ringBase t k + 4 * (r.fetched % s.ringSize t k)) (4 * n) then
        r.gone ++ [(r.fetched, r.fetched + n)] else r.gone,
      rate := r.rate.filter (fun e => decide (s.now < e.1 + s.strmWin t k / 8)) ++ [(s.now, n)] }).wr
        F.QMG_STRM_FP_FP [t, k] (short (r.fetched + n))) := by
  have hrun : (!s.shutdown) = true := by rw [hup, Bool.not_false]
  subst hr hn
  exact if_pos ⟨hstate, hpos, hrun, hrate, hcredit⟩

theorem exec_streamBlockArrive {u : State} {r : StreamRun} {late : Nat} (h : (s.strm t k).arrived < (s.strm t k).fetched)
    (hu : u = s.noteUnderrun t k) (hr : r = u.strm t k)
    (hlate : late = min (min r.fetched (64 * (r.arrived / 64 + 1))) (u.playedRing t k)) :
    exec (.streamBlockArrive t k) s = .next (u.setStrm t k { r with
      arrived := max r.arrived (min r.fetched (64 * (r.arrived / 64 + 1))),
      gone := if r.arrived < late then r.gone ++ [(r.arrived, late)] else r.gone }) := by
  subst hu hr hlate
  exact if_pos h

theorem exec_streamUnderrun (htile : t < s.variant.tiles) (hstrm : k < 64) :
    exec (.streamUnderrun t k) s = .next (s.noteUnderrun t k) := if_pos ⟨htile, hstrm⟩

end Rings

/-- Settles O32: each command takes the branch that its premises name; an accepted sample is one entry of the envelope
memory. -/
theorem segmentsAndStreams : Obligations.SegmentsAndStreams := by
  refine ⟨fun _ _ _ htile hseg => ⟨exec_segOpen htile hseg, exec_segSeal htile hseg⟩,
    fun _ _ _ v htile hn hopen hsealed => ⟨_, (exec_envMemWrite htile hn).trans
      (congrArg _ (State.envWrite_open v hopen hsealed)), SMap.get_put_self, fun _ => SMap.get_put_other, rfl⟩,
    fun _ _ _ v htile hn h => (exec_envMemWrite htile hn).trans (congrArg _ (State.envWrite_refused v h)),
    fun _ _ _ _ => exec_strmJumpRequest,
    fun _ _ _ _ _ _ htile hstrm hcp hwp => (exec_strmWpWrite htile hstrm).trans (congrArg _ (State.wpWrite_eq hcp hwp)),
    fun _ _ _ _ _ => exec_streamFetch, fun _ _ _ _ _ _ => exec_streamBlockArrive, fun _ _ _ => exec_streamUnderrun,
    fun _ _ _ htile hgen => ⟨exec_genEnable htile hgen, exec_genRestart htile hgen⟩⟩

/-! ## Commit points and passes (06 R164, R165, R167, R168) -/

section Passes

variable {s : State} {t k f : Nat}

/-- The jump request is consumed where the successor is its target (R165). -/
def State.takeJump (s : State) (t k : Nat) (jump : Bool) : State :=
  if jump then s.wr F.TIL_STRM_NEXT_PENDING [t, k] 0 else s

/-- The successor is fixed and checked, and logged at the checkpoints (R165, R167). -/
def State.fixSuccessor (s : State) (t k f : Nat) (r : StreamRun) : State :=
  s.setStrm t k { r with
    fixedK := some f, replay := r.replay.tail, failed := decide (f < 512) && s.succBad t k (f % 256),
    checks := r.checks.map (fun c => { c with log := c.log ++ [f] }) }

/-- The pass in progress ends at a stream sample and the next one begins there (R164, R168). -/
def State.turnPass (s : State) (t k g f stop : Nat) : State :=
  let r := s.strm t k
  let u := s.wr F.TIL_STRM_NEXT_FIXED [t, k] 0
  u.setStrm t k { r with
    passStart := stop, ringAt := if s.segType t g = 2 ∧ f ≥ 256 then r.ringAt + s.segLen t g else r.ringAt,
    fixedK := none, failed := false, prev := some (u.curPass t k), hold := some (u.heldSample t k stop),
    buf := r.buf.filter (fun e => decide (r.ringAt ≤ e.1)), gone := r.gone.filter (fun e => decide (r.ringAt < e.2)) }

/-- The stream becomes ENDED; a pulse that taps beyond its end is noted (R164). -/
def State.endStream (s : State) (t k pass stop : Nat) : State :=
  let e := (s.wr F.TIL_STRM_STATUS_STATE [t, k] kEnded).wr F.TIL_STRM_PASS_PASS [t, k] (pass + 1)
  if e.outs.pulses.any (fun p => p.taps t k && decide (stop < (e.tapped p).2)) then
    e.wr F.TIL_STRM_STATUS_TAP_ENDED [t, k] 1 else e

theorem exec_commitPoint {j : Bool} (hstate : s.strmState t k = kPlaying) (hfixed : (s.strm t k).fixedK = none)
    (hrewound : (s.strm t k).rewound = false) (hnow : s.commitSample t k < 128 * (s.now + 1))
    (hsucc : s.successor t k = (f, j)) :
    exec (.commitPoint t k) s = .next (if f < 512 then
      (((s.takeJump t k j).fixSuccessor t k f (s.strm t k)).wr F.TIL_STRM_NEXT_SUCC [t, k] (f % 256)).wr
        F.TIL_STRM_NEXT_FIXED [t, k] 1
      else (s.takeJump t k j).fixSuccessor t k f (s.strm t k)) := by
  have hgo : (!(s.strm t k).rewound) = true := by rw [hrewound, Bool.not_false]
  show execCommitPoint t k s = _
  rw [execCommitPoint, hsucc]
  exact if_pos ⟨hstate, hfixed, hgo, hnow⟩

/-- Nothing but the successor's check and kind decides among the four ends of a pass once its missing samples are counted. -/
theorem exec_passEnd {u v : State} {stop pass : Nat} (hfixed : (s.strm t k).fixedK = some f)
    (hstate : s.strmState t k = kPlaying) (hrewound : (s.strm t k).rewound = false)
    (hnow : s.passStop t k < 128 * (s.now + 1)) (hstop : stop = (s.strm t k).passStart + s.segLen t (s.strmCur t k))
    (hu : u = s.countMissing t k stop) (hgo : (u.strm t k).rewound = false)
    (hpass : pass = u.rd F.TIL_STRM_PASS_PASS [t, k]) (hv : v = u.turnPass t k (s.strmCur t k) f stop) :
    exec (.passEnd t k) s =
      if (u.strm t k).failed then .next (v.wr F.TIL_STRM_STATUS_STATE [t, k] kBroken)
      else if f ≥ 512 then .next (v.endStream t k pass stop)
      else if f < 256 then .next (v.wr F.TIL_STRM_PASS_PASS [t, k] (pass + 1))
      else .next ((v.wr F.TIL_STRM_STATUS_CUR [t, k] (f % 256)).wr F.TIL_STRM_PASS_PASS [t, k] 0) := by
  have hplays : (!(s.strm t k).rewound) = true := by rw [hrewound, Bool.not_false]
  subst hv hpass hu hstop
  show execPassEnd t k s = _
  rw [execPassEnd, hfixed]
  exact (if_pos ⟨hstate, hplays, hnow⟩).trans (if_neg (ne_true_of_eq_false hgo))

end Passes

/-- Settles O33: the fixed successor and its check choose the branch of the pass's end (`exec_passEnd`). -/
theorem streamPasses : Obligations.StreamPasses := by
  refine ⟨fun s t k f j r hr hstate hfixed hrewound hnow hsucc => ?commit,
    fun s t k f r hfixed hstate hrewound hnow hr hgo => ?pass⟩
  case commit =>
    subst hr
    exact exec_commitPoint hstate hfixed hrewound hnow hsucc
  case pass =>
    subst hr
    have hend := exec_passEnd hfixed hstate hrewound hnow rfl rfl hgo rfl rfl
    refine ⟨fun broken => ?_, fun sound ended => ?_, fun sound again => ?_, fun sound moves seg => ?_⟩
    · exact hend.trans (if_pos broken)
    · exact hend.trans ((if_neg (ne_true_of_eq_false sound)).trans (if_pos ended))
    · rw [if_neg (ne_true_of_eq_false sound), if_neg (by omega), if_pos again] at hend
      exact hend
    · rw [if_neg (ne_true_of_eq_false sound), if_neg (by omega), if_neg (by omega)] at hend
      exact hend

end Sys2Proof.Machine

/-! SUPPORT. Scans, conversions, injected requests and the rotation of the bias sense front end (obligation O37). -/

namespace Sys2Proof.Machine

section SenseFrontEnd

variable {s u v : State} {t k a p : Nat} {o : SenseObs}

/-! ## Scans (08 R197, R198) -/

theorem exec_scanEnable {on : Bool} (htile : t < s.variant.tiles) :
    exec (.scanEnable t on) s = .next (s.stage (.word (R.SNS_CTRL.addr [t] 0) (if on then 1 else 0) 1) false) :=
  if_pos htile

/-- The scan's end comes before the slot: the slot's own premises are of the state after it. -/
theorem exec_senseSlotStart (hlist : k < 4) (hruns : (s.senseTile t).running = true)
    (hfree : (s.senseList t k).using_ = .idle) (hv : v = s.takeLists t)
    (hu : u = if v.scanOver t then v.endScan t else v) (hadc : u.adcOf t k = some a)
    (hstill : (u.senseTile t).running = true) (hleft : (u.senseList t k).begun < u.scanSlots t)
    (hdue : u.slotAt t k ≤ 32 * u.now) :
    exec (.senseSlotStart t k) s = .next (u.beginSlot t k a) := by
  subst hu hv
  refine (if_pos ⟨hlist, hruns, hfree⟩).trans ?_
  rw [hadc]
  exact if_pos ⟨hstill, hleft, hdue⟩

/-! ## Conversions (08 R199, R202-R204, R208, R211, R216) -/

/-- A list is free again after its conversion. -/
def State.freeList (s : State) (t k : Nat) : State :=
  s.setSenseList t k { s.senseList t k with using_ := .idle }

/-- What a scan conversion of a pair leaves: flags, the current check unless settling, the record and the range rules. -/
def State.scanResult (s : State) (t a p start : Nat) (o : SenseObs) : State :=
  let c := s.senseCheck t a p start o
  let v := s.senseFlags t p c
  let w := if c.settling then v else v.currentCheck t p o.imon
  (w.deliverSense t p (w.senseRecord t a p o c false)).rangeRule t p c.v

/-- What an injected conversion leaves: flags, the record, BUSY and DONE, and the signal with IRQ 1. -/
def State.injectedResult (s : State) (t k a p start : Nat) (o : SenseObs) : State :=
  let c := s.senseCheck t a p start o
  let v := s.senseFlags t p c
  let w := v.putRecord R.SNS_INJ_RESULT [t, k] (v.senseRecord t a p o c true)
  let x := (w.wr F.SNS_INJ_STATUS_BUSY [t, k] (if (w.senseList t k).inj then 1 else 0)).wr F.SNS_INJ_STATUS_DONE [t, k] 1
  if x.rdB F.SNS_INJ_CTRL_IRQ [t, k] then x.signal (128 + 128 * t + 120) else x

theorem State.endSlot_scan {start : Nat} (h : (s.senseList t k).using_ = .pair p false false) :
    s.endSlot t k a start o = s.scanResult t a p start o := by
  unfold State.endSlot
  rw [h]
  rfl

theorem State.endSlot_injected {start : Nat} (h : (s.senseList t k).using_ = .injected p) :
    s.endSlot t k a start o = s.injectedResult t k a p start o := by
  unfold State.endSlot
  rw [h]
  rfl

/-- The first conversion after a range change leaves the sticky flags only. -/
theorem State.endSlot_discarded {start : Nat} {test : Bool} (h : (s.senseList t k).using_ = .pair p test true) :
    s.endSlot t k a start o = s.senseSticky t p o.clamp o.overload := by
  unfold State.endSlot
  rw [h]
  exact if_pos rfl

theorem exec_senseConversionDone (hbusy : (s.senseList t k).using_ ≠ .idle) (hend : s.slotAt t k ≤ 32 * s.now)
    (hu : u = s.endSlot t k (s.senseList t k).adc (s.slotAt t k - s.tConv t) o) :
    exec (.senseConversionDone t k o) s = .next (u.freeList t k) := by
  subst hu
  exact if_pos ⟨hbusy, hend⟩

/-! ## Injected requests (08 R210) -/

theorem exec_snsInjGo (htile : t < s.variant.tiles) (hlist : k < 4) :
    exec (.snsInjGo t k) s = .next (s.stage (.snsInj t k) false) :=
  if_pos ⟨htile, hlist⟩

theorem exec_snsInjTime (hsrc : s.rd F.SNS_INJ_CTRL_SRC [t, k] = 0xA) (hdone : (s.senseList t k).timeDone = false)
    (hreached : reached (s.rd F.SNS_INJ_TIME_TICK [t, k]) (short s.grid) = true) :
    exec (.snsInjTime t k) s =
      .next ((s.setSenseList t k { s.senseList t k with timeDone := true }).raiseInj t k) := by
  have hfirst : (!(s.senseList t k).timeDone) = true := by rw [hdone, Bool.not_false]
  exact if_pos ⟨hsrc, hfirst, hreached⟩

theorem State.raiseInj_busy (h : s.rdB F.SNS_INJ_STATUS_BUSY [t, k] = true) :
    s.raiseInj t k = s.count F.SNS_INJ_STATUS_IGNORED [t, k] 1 := if_pos h

theorem State.raiseInj_free (h : s.rdB F.SNS_INJ_STATUS_BUSY [t, k] = false) :
    s.raiseInj t k = (s.setSenseList t k { s.senseList t k with inj := true }).wr F.SNS_INJ_STATUS_BUSY [t, k] 1 :=
  if_neg (ne_true_of_eq_false h)

/-! ## Rotation (08 R213) -/

/-- The calibration unit of the ADC that the spare stands in for in a phase; its own in phase 4. -/
def rotatedAdc (t phase : Nat) : UnitDesc := ⟨6, t, if phase < 4 then phase else 4⟩

/-- An ADC that has a calibration result comes back with it. -/
theorem exec_senseRotate {ph : Nat} (hph : ph = (s.senseTile t).cycle / 32) (hruns : (s.senseTile t).running = true)
    (hrotates : s.rotates t = true) (hover : s.scanOver t = true) (hscans : ((s.senseTile t).cycle + 1) % 32 = 0)
    (hspare : s.rd F.SNS_ADC_LIST [t, 4] = if ph < 4 then ph else noList) :
    exec (.senseRotate t) s =
      .next (((s.calU (rotatedAdc t ph)).result.elim s (s.bring (rotatedAdc t ph))).rotate t ((ph + 1) % 5)) := by
  subst hph
  refine (if_pos ⟨hruns, hrotates, hover, hscans, hspare⟩).trans ?_
  unfold rotatedAdc
  cases (s.calU ⟨6, t, _⟩).result <;> rfl

end SenseFrontEnd

/-- Settles O37: each event takes the branch that its premises name, and a conversion's end is told by what its list was
converting (`endSlot_scan`, `endSlot_injected`, `endSlot_discarded`). -/
theorem senseScan : Obligations.SenseScan := by
  refine ⟨fun _ _ _ => exec_scanEnable, fun _ _ _ _ _ _ => exec_senseSlotStart,
    fun _ _ _ _ _ _ _ hscan ha hend hu => ?scan, fun _ _ _ _ _ _ _ hinj ha hend hu => ?injected,
    fun _ _ _ _ _ _ _ hfirst hend hu => ?discarded, fun _ _ _ => exec_snsInjGo,
    fun _ _ _ _ hsrc hdone hreached hu => ?time,
    fun _ _ _ hph hruns hrotates hover hscans hspare => ?rotate⟩
  case scan =>
    subst ha
    exact ⟨exec_senseConversionDone (by simp [hscan]) hend hu, hu.trans (State.endSlot_scan hscan)⟩
  case injected =>
    subst ha
    exact ⟨exec_senseConversionDone (by simp [hinj]) hend hu, hu.trans (State.endSlot_injected hinj)⟩
  case discarded =>
    exact exec_senseConversionDone (by simp [hfirst]) hend (hu.trans (State.endSlot_discarded hfirst).symm)
  case time =>
    have hraise := exec_snsInjTime hsrc hdone hreached
    rw [← hu] at hraise
    exact ⟨fun busy => hraise.trans (congrArg _ (State.raiseInj_busy busy)),
      fun free => hraise.trans (congrArg _ (State.raiseInj_free free))⟩
  case rotate =>
    have hmoves := exec_senseRotate hph hruns hrotates hover hscans hspare
    refine ⟨fun _ back => ?_, fun stays => ?_⟩
    · rw [rotatedAdc, back] at hmoves
      exact hmoves
    · rw [rotatedAdc, stays] at hmoves
      exact hmoves

end Sys2Proof.Machine

/-! SUPPORT. What the accepted commands of decision slots, ports, groups and decoders, of the time service and of calibration
leave (obligation O53). -/

namespace Sys2Proof.Machine

/-! ## Accepted commands of decisions (10 R265)

As for O52, `next_command_of_asked` leaves a command's own effect, and each of its checks is passed by a premise. -/

section AcceptedDecisions

variable {n slot kind q port g fl : Nat} {s : State} {p : List Byte} {l : List Nat}

/-- KIND 2 gives the slot to a port's imports, KIND 3 to software. -/
theorem exec_decSlotAssign_given (h : s.asked n 0x50 false (bytesOk 5 []) p) (hslot : slot = leAt p 0 2)
    (hkind : kind = leAt p 2 1) (hq : q = leAt p 3 1) (hport : port = leAt p 4 1) (hlo : 960 ≤ slot) (hhi : slot ≤ 1023)
    (hport3 : port ≤ 3) (hkind23 : kind = 2 ∨ kind = 3) (hcreated : s.created q = true) (hidle : s.partBusy q = false)
    (hfree : s.slotUser slot = .none) :
    exec (.decSlotAssign n) s =
      .next ((s.setSlotUser slot (if kind = 2 then .imp port q else .software q)).ok n []) := by
  refine next_command_of_asked h fun r hr => ?_
  have hknown : (decide (kind = 0) || ((decide (kind = 2) || decide (kind = 3)) && s.created q)) = true := by
    simp [hkind23, hcreated]
  have hargs : ¬ (slot < 960 ∨ 1023 < slot ∨
      (!(decide (kind = 0) || ((decide (kind = 2) || decide (kind = 3)) && s.created q))) = true ∨ 3 < port) := by
    simp only [hknown, Bool.not_true, Bool.false_eq_true, false_or]
    omega
  have hkeeps : kind ≠ 0 := by omega
  simp only [hr, ← hslot, ← hkind, ← hq, ← hport, if_neg hargs, if_neg hkeeps, hidle, hfree, ne_eq, not_true_eq_false,
    Bool.false_eq_true, if_false]

/-- KIND 0 releases a slot that no publication holds. -/
theorem exec_decSlotAssign_released {j t : Nat} (h : s.asked n 0x50 false (bytesOk 5 []) p) (hslot : slot = leAt p 0 2)
    (hkind : kind = leAt p 2 1) (hport : port = leAt p 4 1) (hlo : 960 ≤ slot) (hhi : slot ≤ 1023) (hport3 : port ≤ 3)
    (hkind0 : kind = 0) (huser : s.slotUser slot = .imp j t ∨ s.slotUser slot = .software t) :
    exec (.decSlotAssign n) s = .next ((s.releaseSlot slot).ok n []) := by
  refine next_command_of_asked h fun r hr => ?_
  have hargs : ¬ (slot < 960 ∨ 1023 < slot ∨
      (!(decide (kind = 0) || ((decide (kind = 2) || decide (kind = 3)) && s.created (leAt p 3 1)))) = true ∨ 3 < port) := by
    simp only [hkind0, decide_true, Bool.true_or, Bool.not_true, Bool.false_eq_true, false_or]
    omega
  simp only [hr, ← hslot, ← hkind, ← hport, if_neg hargs, if_pos hkind0]
  obtain himp | hsoft := huser
  · rw [himp]
  · rw [hsoft]

theorem exec_decExportSet_accepted (h : s.asked n 0x51 false (listOk 2) p) (hport : port = leAt p 0 1)
    (hl : l = slotList p 2 (leAt p 1 1)) (hport3 : port ≤ 3) (hlen : l.length ≤ 64)
    (hslots : l.any (fun i => decide (1023 < i)) = false) (hpresent : l.findIdx? s.slotAbsent = none)
    (hidle : s.concerned ((SMap.get [] s.dec.exports port ++ l).map s.slotOwner) = false) :
    exec (.decExportSet n) s = .next ((State.wr { s with dec := { s.dec with exports := SMap.put [] s.dec.exports port l.dedup } }
      F.SPN_DEC_PORT_EXPORTS [port] l.dedup.length).ok n []) := by
  refine next_command_of_asked h fun r hr => ?_
  have hargs : ¬ (3 < port ∨ 64 < l.length ∨ l.any (fun i => decide (1023 < i)) = true) := by
    simp only [hslots, Bool.false_eq_true, or_false]
    omega
  simp only [hr, ← hport, ← hl, if_neg hargs, hpresent, hidle, Bool.false_eq_true, if_false]

theorem exec_decImportSet_accepted {es : List (Nat × Nat)} (h : s.asked n 0x52 false (listOk 4) p) (hport : port = leAt p 0 1)
    (hes : es = (List.range (leAt p 1 1)).map (fun i => (leAt p (2 + 4 * i) 2, leAt p (4 + 4 * i) 2))) (hport3 : port ≤ 3)
    (hlen : es.length ≤ 64)
    (hslots : es.any (fun (e : Nat × Nat) => decide (1023 < e.1) || decide (e.2 < 960) || decide (1023 < e.2)) = false)
    (hidle : s.concerned ((SMap.get [] s.dec.imports port ++ es).map (fun e => s.userPart e.2)) = false)
    (himports : es.findIdx? (fun e => !s.importOf port e.2) = none) (hdomain : s.sameDomain port = true) :
    exec (.decImportSet n) s = .next ((State.wr { s with dec := { s.dec with imports := SMap.put [] s.dec.imports port es } }
      F.SPN_DEC_PORT_IMPORTS [port] es.length).ok n (leBytes 1 es.length)) := by
  refine next_command_of_asked h fun r hr => ?_
  have hargs : ¬ (3 < port ∨ 64 < es.length ∨
      es.any (fun (e : Nat × Nat) => decide (1023 < e.1) || decide (e.2 < 960) || decide (1023 < e.2)) = true) := by
    simp only [hslots, Bool.false_eq_true, or_false]
    omega
  simp only [hr, ← hport, ← hes, if_neg hargs, hidle, himports, hdomain, Bool.not_true, Bool.false_eq_true, if_false]

theorem exec_syndGroupSet_accepted {ps : List (Option Nat)}
    (h : s.asked n 0x53 false (fun b => decide (3 ≤ b.length) && decide (b.length = 3 + 2 * leAt b 2 1)) p)
    (hg : g = leAt p 0 1) (hfl : fl = leAt p 1 1) (hl : l = slotList p 3 (leAt p 2 1))
    (hps : ps = (s.groupUsers g).map (fun d => some (s.rd F.SPN_SYN_DEC_CFG_PART [d])))
    (hsome : l.isEmpty = false) (hlen : l.length ≤ 64) (hfl3 : fl ≤ 3)
    (hslots : l.findIdx? (fun i => decide (1023 < i) || (decide (896 ≤ i) && decide (i < 960))) = none)
    (hpresent : l.findIdx? s.slotAbsent = none)
    (hidle : s.concerned (((s.group g).members ++ l).map s.slotOwner ++ ps) = false)
    (howned : l.findIdx? (fun i => ps.any (fun x => decide (s.slotOwner i ≠ x))) = none) :
    (let u := s.putGroup g { Group.idle with
       members := l.dedup
       map := bit fl 0
       inv := bit fl 1 };
     let v := (u.wr F.SPN_SYN_GRP_CFG_COUNT [g] l.dedup.length).wrB F.SPN_SYN_GRP_CFG_MAP [g] (bit fl 0);
     exec (.syndGroupSet n) s = .next ((v.wrB F.SPN_SYN_GRP_CFG_INV [g] (bit fl 1)).ok n [])) := by
  refine next_command_of_asked h fun r hr => ?_
  have hargs : ¬ (l.isEmpty = true ∨ 64 < l.length ∨ 3 < fl) := by
    simp only [hsome, Bool.false_eq_true, false_or]
    omega
  simp only [hr, ← hg, ← hfl, ← hl, ← hps, if_neg hargs, hslots, hpresent, hidle, howned, Bool.false_eq_true, if_false]

theorem exec_syndDecoderSet_accepted {a : DecAsk} (h : s.asked n 0x54 false (bytesOk 61 []) p) (ha : a = decAsk p)
    (hfields : a.fieldsOk = true) (hcreated : s.created a.part = true)
    (hidle : s.concerned [some a.part,
      if (s.decoder a.dec).owned then some (s.rd F.SPN_SYN_DEC_CFG_PART [a.dec]) else none] = false)
    (howned : s.decForeign a = false) :
    exec (.syndDecoderSet n) s = .next ((s.putDecoder a).ok n []) := by
  refine next_command_of_asked h fun r hr => ?_
  have hargs : ¬ ((!a.fieldsOk) = true ∨ (!s.created a.part) = true) := by
    simp [hfields, hcreated]
  simp only [hr, ← ha, if_neg hargs, hidle, howned, Bool.false_eq_true, if_false]

end AcceptedDecisions

/-! ## Accepted commands of the time service and of calibration (14 R312, R323, R327; 19 R422, R425, R430) -/

section AcceptedTime

variable {n v : Nat} {s : State} {p : List Byte} {a : TimeAsk}

/-- A service that has stepped goes on: the request changes neither its role, its domain nor its epoch. -/
theorem exec_timeConfig_stepped (h : s.asked n 0x60 false (bytesOk 21 []) p) (ha : a = timeAsk p) (hreason : s.timeReason a = 0)
    (hstepped : s.rdB F.TIM_TS_STATUS_STEPPED [] = true) :
    exec (.timeConfig n) s = .next ((s.writeTime a).syncInDomain.ok n []) := by
  refine next_command_of_asked h fun r hr => ?_
  simp only [hr, ← ha, hreason, hstepped, ne_eq, not_true_eq_false, if_false, if_true]

/-- A service that has not stepped starts anew. -/
theorem exec_timeConfig_restarts (h : s.asked n 0x60 false (bytesOk 21 []) p) (ha : a = timeAsk p)
    (hreason : s.timeReason a = 0) (hstepped : s.rdB F.TIM_TS_STATUS_STEPPED [] = false) :
    exec (.timeConfig n) s = .next ((((s.writeTime a).wr F.TIM_TS_STATUS_HOPS [] 0).tsRestart a.epoch).ok n []) := by
  refine next_command_of_asked h fun r hr => ?_
  simp only [hr, ← ha, hreason, hstepped, ne_eq, not_true_eq_false, Bool.false_eq_true, if_false]

theorem exec_timeReinit_idle (h : s.asked n 0x61 false (bytesOk 8 []) p) (hmode : s.mode = mIdle) :
    exec (.timeReinit n) s = .next ((s.tsRestart (leAt p 0 8)).ok n []) :=
  next_command_of_asked h fun r hr => by rw [if_neg (not_not.2 hmode), hr]

theorem exec_timeReinit_refused (h : s.asked n 0x61 false (bytesOk 8 []) p) (hmode : s.mode ≠ mIdle) :
    exec (.timeReinit n) s = .next (s.deny n 0x0502 whole) :=
  next_command_of_asked h fun _ _ => if_pos hmode

/-- SYNC_CAL begins at once where none averages (17 R376). -/
theorem exec_syncCal_accepted (h : s.asked n 0x62 false (bytesOk 0 []) p) (hnone : s.ts.cal = none)
    (hfilter : s.rd F.TDC_IN_CFG_FILT [8] = 0) (hlocked : s.tsState = tsLocked) (hpair : s.pairFresh = true) :
    exec (.syncCal n) s = .next ((s.setTs { s.ts with cal := some (n, 0, 0, s.lowLane s.tsUp) }).progress n) := by
  have hfree : ¬ s.ts.cal.isSome = true := by simp [hnone]
  refine (if_neg hfree).trans (next_command_of_asked h fun _ _ => ?_)
  have hready : ¬ (decide (s.tsState ≠ tsLocked) || !s.pairFresh) = true := by simp [hlocked, hpair]
  rw [if_neg (Nat.not_lt.2 hfilter.le), if_neg hready]

theorem exec_calRun_accepted (h : s.asked n 0x70 false (fun p => bytesOk 44 (3 :: (List.range 34).map (· + 10)) p &&
      decide (leAt p 1 1 < 8) && decide (leAt p 2 1 < 2)) p) (hreason : s.calRefusal (calAsk p 0) false = 0) :
    exec (.calRun n) s = .next ((s.beginCal (calAsk p 0) (some n) none).progress n) :=
  next_command_of_asked h fun r hr => by simp only [hr, if_neg (not_not.2 hreason)]

/-- A value in range is declared by an idle device in IDLE or SAFE. -/
theorem State.refReason_eq_zero (hlo : 1000000 ≤ v) (hhi : v ≤ 5000000) (hidle : s.allIdle = true)
    (hmode : s.mode = mIdle ∨ s.mode = mSafe) : s.refReason v = 0 := by
  have hrange : ¬ (v < 1000000 ∨ 5000000 < v) := by omega
  have hmodes : ¬ (s.mode ≠ mIdle ∧ s.mode ≠ mSafe) := by
    rwa [not_and_or, not_not, not_not]
  simp only [State.refReason, if_neg hrange, hidle, Bool.not_true, Bool.false_eq_true, if_false, if_neg hmodes]

/-- CAL_REF_DECLARE begins at once where none measures (17 R376). -/
theorem exec_calRefDeclare_accepted (h : s.asked n 0x71 false (bytesOk 8 []) p) (hnone : s.cal.refReq = none)
    (hv : v = leAt p 0 4) (hlo : 1000000 ≤ v) (hhi : v ≤ 5000000) (hidle : s.allIdle = true)
    (hmode : s.mode = mIdle ∨ s.mode = mSafe) :
    exec (.calRefDeclare n) s =
      .next (State.progress { s with cal := { s.cal with refReq := some (n, v, leAt p 4 4) } } n) := by
  have hfree : ¬ s.cal.refReq.isSome = true := by simp [hnone]
  refine (if_neg hfree).trans (next_command_of_asked h fun r hr => ?_)
  simp only [hr, ← hv, if_neg (not_not.2 (State.refReason_eq_zero hlo hhi hidle hmode))]

end AcceptedTime

/-- Settles O53: an accepted request passes every check of its command's own; KIND, STEPPED and MODE choose between a
command's two effects. -/
theorem decisionAndTimeCommands : Obligations.DecisionAndTimeCommands :=
  ⟨fun _ _ _ _ _ _ _ h hslot hkind hq hport hlo hhi hport3 =>
     ⟨exec_decSlotAssign_given h hslot hkind hq hport hlo hhi hport3,
      fun _ _ => exec_decSlotAssign_released h hslot hkind hport hlo hhi hport3⟩,
   fun _ _ _ _ _ => exec_decExportSet_accepted,
   fun _ _ _ _ _ => exec_decImportSet_accepted,
   fun _ _ _ _ _ _ _ => exec_syndGroupSet_accepted,
   fun _ _ _ _ => exec_syndDecoderSet_accepted,
   fun _ _ _ _ h ha hreason => ⟨exec_timeConfig_stepped h ha hreason, exec_timeConfig_restarts h ha hreason⟩,
   fun _ _ _ h => ⟨exec_timeReinit_idle h, exec_timeReinit_refused h⟩,
   fun _ _ _ => exec_syncCal_accepted,
   fun _ _ _ => exec_calRun_accepted,
   fun _ _ _ _ => exec_calRefDeclare_accepted⟩

end Sys2Proof.Machine

/-! SUPPORT. The capture engine: its control bits, its states, the samples it takes and the finished record (obligation
O35). -/

namespace Sys2Proof.Machine

section CaptureEngine

variable {s : State} {t : Nat}

/-! ## Control bits (11 R269, R272, R279) -/

theorem State.capControl_free {act : StagedAct} (hfree : s.rdB F.CAP_STATUS_HELD [t] = false) :
    s.capControl t act =
      { s with staged := s.staged.filter (fun e => decide (e.act ≠ act)) ++ [⟨act, s.now, false⟩] } :=
  if_neg (ne_true_of_eq_false hfree)

theorem State.capControl_held {act : StagedAct} (hheld : s.rdB F.CAP_STATUS_HELD [t] = true) :
    s.capControl t act = s.wr F.CAP_STATUS_ARM_REFUSED [t] 1 := if_pos hheld

theorem exec_capArm (htile : t < s.variant.tiles) :
    exec (.capArm t) s = .next (if s.capState t = cIdle ∨ s.capState t = cDone then s.capControl t (.capArm t)
      else s.wr F.CAP_STATUS_ARM_REFUSED [t] 1) := by
  refine (if_pos htile).trans ?_
  simp only [Bool.or_eq_true, decide_eq_true_eq]
  exact (apply_ite _ _ _ _).symm

theorem exec_capStop (htile : t < s.variant.tiles) :
    exec (.capStop t) s = .next (s.capControl t (.capStop t)) := if_pos htile

theorem exec_capForce (htile : t < s.variant.tiles) :
    exec (.capForce t) s = .next (s.capControl t (.capForce t)) := if_pos htile

/-- A held engine refuses ARM whether its state would accept it or not. -/
theorem exec_capArm_held (htile : t < s.variant.tiles) (hheld : s.rdB F.CAP_STATUS_HELD [t] = true) :
    exec (.capArm t) s = .next (s.wr F.CAP_STATUS_ARM_REFUSED [t] 1) := by
  rw [exec_capArm htile, State.capControl_held hheld, ite_self]

/-! ## WAIT_TIME and REARM (11 R269) -/

theorem exec_capArmTimeReached {b : Nat} (hwait : s.capState t = cWait) (hwake : (s.cap t).wake = some b)
    (hdue : b ≤ s.now) :
    exec (.capArmTimeReached t) s =
      .next ((s.setCap t { s.cap t with since := s.now, wake := none }).wr F.CAP_STATUS_STATE [t] cRearm) := by
  show execCapArmTimeReached t s = _
  simp only [execCapArmTimeReached, hwait, hwake, hdue, decide_true, Bool.and_self, if_true]

theorem exec_capRearmEnd (hrearm : s.capState t = cRearm) (hend : (s.cap t).since + 8 ≤ s.now) :
    exec (.capRearmEnd t) s =
      .next ((s.setCap t { s.cap t with since := (s.cap t).since + 8, armTick := (s.cap t).since + 8 }).wr
        F.CAP_STATUS_STATE [t] cArmed) := by
  show Host.Outcome.next (s.rearmEnd t) = _
  simp only [State.rearmEnd, hrearm, hend, decide_true, Bool.and_self, if_true]

/-! ## Samples through the engine (11 R270-R274) -/

theorem exec_capTrigger {first : Nat} {codes : List Int} (htile : t < s.variant.tiles) (hline : (s.cap t).set.kind < 2)
    (hlegal : ∀ c ∈ codes, -2048 ≤ c ∧ c ≤ 2047)
    (hpast : s.tapIndex 0 first + codes.length ≤ 64 * (if s.capState t = cWait then s.now else s.now + 1)) :
    exec (.capTrigger t first codes) s = .next (s.capFeed t (s.tapInput t (s.tapIndex 0 first) codes).1
      (s.tapInput t (s.tapIndex 0 first) codes).2) := by
  have hcodes : codes.all (fun c => decide (-2048 ≤ c) && decide (c ≤ 2047)) = true := by simpa using hlegal
  exact congrArg Host.Outcome.next (if_pos ⟨htile, hline, hcodes, hpast⟩)

/-- The engine past a sample that its evaluators have taken, wherever the sample lies. -/
def CapRun.pass (r : CapRun) (e : CapEval) (x : Int × Int) : CapRun :=
  { r with next := r.next + 1, ev := e, past := (x :: r.past).take 64 }

section Take

variable {r : CapRun} {e : CapEval} {x : Int × Int} {k causes : Nat} {first : Bool} (hr : r = s.cap t)
  (hfirst : first = decide (r.place (s.capState t) r.next = .armed ∧ r.next = tapBoundary r.set.kind r.since))
  (hstep : capStep (s.capCfg t) r.ev x first = (e, k))
  (hcauses : causes = k + (if capSlew (s.capCfg t) r.past x then 8 else 0)) (hmet : causes ≠ 0)

include hr hfirst hstep hcauses hmet

/-- A met condition counts as missed in REARM. -/
theorem State.capTake_rearm (hplace : r.place (s.capState t) r.next = .rearm) :
    s.capTake t x = (s.setCap t (r.pass e x)).count F.CAP_MISSED_TRIG_MISSED [t] 1 := by
  subst hr hfirst hcauses
  rw [Bool.decide_and] at hstep
  simp only [State.capTake, hstep]
  simp only [hplace, if_neg hmet, CapRun.pass]

/-- A met condition triggers the engine in ARMED. -/
theorem State.capTake_armed (hplace : r.place (s.capState t) r.next = .armed) (hforce : r.forced r.next = false) :
    s.capTake t x = (s.setCap t { r.pass e x with
      force := none
      kept := r.kept ++ [x]
      trig := some (r.next, causes, capPrimary causes, r.kept.length, s.rd F.CAP_MISSED_TRIG_MISSED [t]) }).wr
      F.CAP_STATUS_STATE [t] cTriggered := by
  subst hr hfirst hcauses
  rw [Bool.decide_and] at hstep
  simp only [State.capTake, hstep]
  simp only [hplace, hforce, Bool.false_eq_true, if_false, Nat.add_zero, if_neg hmet, CapRun.pass]

end Take

/-! ## The finished record (11 R269, R271, R275, R277) -/

@[simp] theorem State.cap_setCap (r : CapRun) : (s.setCap t r).cap t = r := SMap.get_put_self

theorem State.cap_of_caps {u : State} (h : u.caps = s.caps) : u.cap t = s.cap t := by
  simp only [State.cap, h]

@[simp] theorem State.signal_caps (v : Nat) : (s.signal v).caps = s.caps := by rw [State.signal_eq]

/-- The engine that DONE leaves: one more record counted, no FORCE pending. -/
theorem State.cap_capDone (last cause : Nat) :
    (s.capDone t last cause).cap t = { s.cap t with recno := (s.cap t).recno + 1, force := none } := by
  simp only [State.capDone]
  split
  · rw [State.cap_of_caps (State.signal_caps _), State.cap_of_caps (State.wr_caps ..), State.cap_setCap]
  · rw [State.cap_of_caps (State.wr_caps ..), State.cap_setCap]

theorem State.capDeliver_host (hjob : (s.cap t).job = none) : s.capDeliver t = s := by
  simp only [State.capDeliver, hjob]

/-- In short mode the samples stand in capture memory from the tile's base on. -/
theorem State.capStore_capMem (hshort : (s.cap t).set.long = false) :
    (s.capStore t).stores.capMem = SMap.putList 0 s.stores.capMem (2 ^ 21 * t)
      (recordBytes s.freeCtr (s.cap t).set.kind (s.cap t).set.pre ((s.cap t).trig.getD (0, 0, 0, 0, 0)).2.2.2.1
        (s.cap t).lastIndex (s.cap t).gaps (s.cap t).kept) := by
  simp only [State.capStore, hshort, Bool.false_eq_true, if_false]
  rfl

theorem State.cap_capStore (hshort : (s.cap t).set.long = false) :
    (s.capStore t).cap t = { s.cap t with scratch := false } := by
  simp only [State.capStore, hshort, Bool.false_eq_true, if_false]
  exact State.cap_setCap _

/-- A whole record of the host's in short mode: stored, and the engine DONE with its header. -/
theorem State.capFinish_short (hshort : (s.cap t).set.long = false) (hwhole : (s.cap t).aborted = none)
    (hjob : (s.cap t).job = none) :
    s.capFinish t = (s.capStore t).capDone t ((s.capStore t).cap t).lastIndex 0 := by
  have hstored := State.cap_capStore hshort
  have hkept : ((s.capStore t).cap t).aborted = none := by rw [hstored, hwhole]
  simp only [State.capFinish, hkept]
  exact State.capDeliver_host (by rw [State.cap_capDone, hstored, hjob])

theorem CapRun.lastIndex_whole {r : CapRun} (hwhole : r.aborted = none) : r.lastIndex = r.set.len - 1 := by
  simp only [CapRun.lastIndex, hwhole]

theorem CapRun.allIn_iff {r : CapRun} {n : Nat} {rest : Nat × Nat × Nat × Nat} (htrig : r.trig = some (n, rest))
    (hwhole : r.aborted = none) : r.allIn = true ↔ n + (r.set.len - 1) < r.next + r.set.pre := by
  simp only [CapRun.allIn, htrig, CapRun.lastIndex_whole hwhole, decide_eq_true_eq]

theorem CapRun.gapsOk_nil {r : CapRun} (hgaps : r.gaps = []) : r.gapsOk [] = true := by
  simp [CapRun.gapsOk, hgaps]

/-- Samples without gaps are fed to the engine, whose record is finished with its last sample. -/
theorem exec_capRecordDone {first : Nat} {codes : List Int} {u : State} {r : CapRun} (hu : u = s.tapCodes t first codes)
    (hr : r = u.cap t) (htriggered : u.capState t = cTriggered) (hgaps : r.gaps = []) :
    exec (.capRecordDone t ⟨first, codes⟩ []) s =
      .next (if r.allIn then (u.setCap t r).capFinish t else u.setCap t r) := by
  subst hu hr
  refine (if_pos ⟨.inl htriggered, CapRun.gapsOk_nil hgaps⟩).trans ?_
  simp only [List.foldl_nil, List.append_nil, State.cap_setCap]

end CaptureEngine

/-- Settles O35: a control bit is refused by a held engine or by its state, an engine's event takes the branch of its state, a
sample's place chooses between MISSED and the trigger, and a record is finished once its last sample is in
(`CapRun.allIn_iff`). -/
theorem captureEngine : Obligations.CaptureEngine := by
  refine ⟨fun s t htile hfree hstate => ?arm, fun s t htile hfree => ?stopForce, fun s t htile hheld => ?held,
    fun s t htile hidle hdone => ?refused, fun _ _ _ => exec_capArmTimeReached,
    fun _ _ _ hr hrearm hend => ?rearmEnd, fun _ _ _ _ => exec_capTrigger,
    fun _ _ _ _ _ _ _ _ hr hfirst hstep hcauses hmet =>
      ⟨State.capTake_rearm hr hfirst hstep hcauses hmet, State.capTake_armed hr hfirst hstep hcauses hmet⟩,
    fun s u t first n c p valid m codes r hu hr htriggered htrig hwhole hgaps hshort => ?record⟩
  case arm => rw [exec_capArm htile, if_pos hstate, State.capControl_free hfree]
  case stopForce =>
    rw [exec_capStop htile, exec_capForce htile, State.capControl_free hfree, State.capControl_free hfree]
    exact ⟨rfl, rfl⟩
  case held =>
    rw [exec_capArm_held htile hheld, exec_capStop htile, exec_capForce htile, State.capControl_held hheld,
      State.capControl_held hheld]
    exact ⟨rfl, rfl, rfl⟩
  case refused => rw [exec_capArm htile, if_neg (not_or.2 ⟨hidle, hdone⟩)]
  case rearmEnd =>
    subst hr
    exact exec_capRearmEnd hrearm hend
  case record =>
    have hexec := exec_capRecordDone hu hr htriggered hgaps
    have hcap : (u.setCap t r).cap t = r := State.cap_setCap r
    refine ⟨fun hmore => ?_, fun hlast hjob => ?_, ?_⟩
    · rw [hexec, if_neg (mt (CapRun.allIn_iff htrig hwhole).1 (Nat.not_lt.2 hmore))]
    · rw [hexec, if_pos ((CapRun.allIn_iff htrig hwhole).2 hlast),
        State.capFinish_short (by rw [hcap, hshort]) (by rw [hcap, hwhole]) (by rw [hcap, hjob])]
    · rw [State.capStore_capMem (by rw [hcap, hshort]), hcap, htrig, hgaps, CapRun.lastIndex_whole hwhole]
      rfl

end Sys2Proof.Machine

/-! SUPPORT. The timing inputs: edges, the timestamp log, interval units, the frequency measurement and line swaps
(obligation O36). -/

namespace Sys2Proof.Machine

section TimingUnit

variable {s : State} {i : Nat}

/-! ## Edges (12 R282, R285) -/

/-- The dead time of the last stamped edge covers a bin. -/
def TdcIn.deadAt (v : TdcIn) (bin : Nat) : Bool :=
  match v.lastBin with
  | some l => decide (l ≤ bin) && decide (bin < l + deadBins)
  | none => false

theorem TdcIn.deadAt_eq_true {v : TdcIn} {bin l : Nat} (hlast : v.lastBin = some l) (hafter : l ≤ bin)
    (hsoon : bin < l + 1280) : v.deadAt bin = true := by
  simp only [TdcIn.deadAt, hlast, deadBins, hafter, hsoon, decide_true, Bool.and_self]

theorem TdcIn.deadAt_eq_false {v : TdcIn} {bin : Nat} (hpast : ∀ l, v.lastBin = some l → bin < l ∨ l + 1280 ≤ bin) :
    v.deadAt bin = false := by
  cases hlast : v.lastBin with
  | none => simp only [TdcIn.deadAt, hlast]
  | some l =>
    have hout : ¬ (l ≤ bin ∧ bin < l + 1280) := by
      have := hpast l hlast
      omega
    rw [TdcIn.deadAt, hlast]
    exact (Bool.decide_and ..).symm.trans (decide_eq_false hout)

/-- An enabled, unfenced input takes its edges. -/
theorem State.input_taken {lost : Bool} (hon : s.rdB F.TDC_IN_CFG_EN [i] = true)
    (hfree : s.fenced ⟨13, 0xFF, i⟩ = false) :
    ¬ (!s.rdB F.TDC_IN_CFG_EN [i] || (s.fenced ⟨13, 0xFF, i⟩ && !lost)) = true := by
  simp only [hon, hfree, Bool.not_true, Bool.false_and, Bool.or_self, Bool.false_eq_true, not_false_eq_true]

section Edge

variable {u : State} {bin held b : Nat} {rise e : Bool} (hb : b = s.binIn bin)
  (he : e = (rise != s.rdB F.TDC_IN_CFG_INV [i]))
  (hu : u = s.wrB F.TDC_IN_STATUS_LEVEL [i] (e != decide (held < s.rd F.TDC_IN_CFG_FILT [i])))
  (hinput : i < 10) (hpast : b / 5120 ≤ s.now) (hon : u.rdB F.TDC_IN_CFG_EN [i] = true)
  (hfree : u.fenced ⟨13, 0xFF, i⟩ = false)

include hb he hu hinput hpast hon hfree

/-- An enabled, unfenced input tells a glitch by its filter alone. -/
theorem exec_tdcEdge_glitch (hshort : held < s.rd F.TDC_IN_CFG_FILT [i]) :
    exec (.tdcEdge i bin rise held) s = .next ((u.count F.TDC_IN_STATUS_GLITCH [i] 1).note (.spine 3) 4 i) := by
  have hglitch : decide (held < s.rd F.TDC_IN_CFG_FILT [i]) = true := decide_eq_true hshort
  subst hb he hu
  exact (if_pos ⟨hinput, hpast⟩).trans ((if_neg (State.input_taken hon hfree)).trans (if_pos hglitch))

/-- For an edge of a selected polarity, outside the tick after a swap, the dead time alone decides. -/
theorem exec_tdcEdge_selected (hlong : s.rd F.TDC_IN_CFG_FILT [i] ≤ held)
    (hselected : selects (u.rd F.TDC_IN_CFG_POL [i]) e = true) (hswap : (u.tdcIn i).swapAt ≠ b / 5120 + 1) :
    exec (.tdcEdge i bin rise held) s =
      .next (if (u.tdcIn i).deadAt b then u.loseEdge i true else (u.stampEdge i b bin e).freqEdge i b e) := by
  have hclean : ¬ decide (held < s.rd F.TDC_IN_CFG_FILT [i]) = true := by simpa using hlong
  subst hb he hu
  refine (if_pos ⟨hinput, hpast⟩).trans ((if_neg (State.input_taken hon hfree)).trans ((if_neg hclean).trans
    ((if_pos hselected).trans ?_)))
  rw [apply_ite Host.Outcome.next]
  exact congrArg _ (if_neg (mt of_decide_eq_true hswap))

end Edge

/-! ## The timestamp log (12 R287) -/

theorem State.logStamp_room {bin : Nat} {rise lost : Bool} {seq : Word} (hroom : s.tdc.log.length < 1024) :
    ∃ r, (s.logStamp i bin rise lost seq).tdc.log = s.tdc.log ++ [r] ∧ r.getD 3 0 = seq ∧
      r.getD 0 0 = BitVec.ofNat 32 (bin / 5120) ∧ (s.logStamp i bin rise lost seq).regs = s.regs := by
  rw [State.logStamp, if_neg (Nat.not_le.2 hroom)]
  exact ⟨_, rfl, rfl, rfl, rfl⟩

theorem State.logStamp_full {bin : Nat} {rise lost : Bool} {seq : Word} (hfull : 1024 ≤ s.tdc.log.length) :
    s.logStamp i bin rise lost seq =
      ((s.wr F.TDC_FIFO_STATUS_OVF [] 1).count F.TDC_FIFO_STATUS_DROPPED [] 1).note (.spine 3) 2 i := if_pos hfull

theorem exec_tdcFifoPop_cons {r : List Word} {rest : List (List Word)} (hlog : s.tdc.log = r :: rest) :
    exec .tdcFifoPop s = .next ({ s with tdc := { s.tdc with log := rest } }.emit (.regData [r.getD 3 0])) := by
  show execTdcFifoPop s = _
  rw [execTdcFifoPop, hlog]

theorem exec_tdcFifoPop_nil (hlog : s.tdc.log = []) : exec .tdcFifoPop s = .next (s.emit (.regData [0])) := by
  show execTdcFifoPop s = _
  rw [execTdcFifoPop, hlog]

/-! ## Interval units (12 R288) -/

@[simp] theorem State.ivStart_setIvStart (k : Nat) (v : Option (Nat × Nat)) : (s.setIvStart k v).ivStart k = v :=
  SMap.get_put_self

theorem exec_intervalStartExpire {k b tk : Nat} (hstart : s.ivStart k = some (b, tk)) (hold : tk + 2 ^ 30 < s.now) :
    exec (.intervalStartExpire k) s = .next ((s.setIvStart k none).count F.TDC_IV_COUNT_EXPIRED [k] 1) := by
  show Host.Outcome.next (s.ivExpire k s.now) = _
  simp only [State.ivExpire, hstart, if_pos hold]

/-! ## The frequency measurement (12 R289) -/

/-- What the gate's end leaves of a measurement: edges, span and frequency, BUSY 0, DONE, NO_SIGNAL for fewer than two edges,
and the signal with IRQ 1. -/
def State.freqResult (s : State) (n span f : Nat) : State :=
  let v := ({ s with tdc := { s.tdc with freq := none } }.wr F.TDC_FREQ_EDGES_N [] n).wr F.TDC_FREQ_SPAN_LO_SPAN_LO [] span
  let w := (v.wr F.TDC_FREQ_SPAN_HI_SPAN_HI [] (span / 2 ^ 32)).wr F.TDC_FREQ_MHZ_LO_F_LO [] f
  let x := (w.wr F.TDC_FREQ_MHZ_HI_F_HI [] (f / 2 ^ 32)).wr F.TDC_FREQ_STATUS_BUSY [] 0
  let y := (if n < 2 then x.wr F.TDC_FREQ_STATUS_NO_SIGNAL [] 1 else x).wr F.TDC_FREQ_STATUS_DONE [] 1
  if y.rdB F.TDC_FREQ_CFG_IRQ [] then y.signal 96 else y

theorem exec_tdcFreqGo (hfree : s.rdB F.TDC_FREQ_STATUS_BUSY [] = false) :
    exec .tdcFreqGo s = .next (s.stage .freqGo false) := if_neg (ne_true_of_eq_false hfree)

theorem exec_tdcFreqGateEnd {r : FreqRun} {f span : Nat} (hfreq : s.tdc.freq = some r)
    (hend : r.start + s.rd F.TDC_FREQ_GATE_GATE [] ≤ s.now) (hspan : span = r.last - r.first)
    (hf : f = if r.n < 2 ∨ span = 0 then 0 else (roundDiv (((r.n - 1) * 8 * 10 ^ 14 : Nat) : Int) span).toNat) :
    exec .tdcFreqGateEnd s = .next (s.freqResult r.n span f) := by
  subst hf hspan
  show execTdcFreqGateEnd s = _
  rw [execTdcFreqGateEnd, hfreq]
  exact if_pos hend

/-! ## Line swaps (12 R286) -/

theorem exec_tdcLineSwap_calibrated (hinput : i < 10) (hfree : s.fenced ⟨13, 0xFF, i⟩ = false) :
    exec (.tdcLineSwap i false) s = .next (s.setTdcIn i { s.tdcIn i with dllBad := false, swap := true }) :=
  if_neg (not_or.2 ⟨Nat.not_le.2 hinput, ne_true_of_eq_false hfree⟩)

/-- On lost lock the other line takes over, where it is not bad itself. -/
theorem exec_tdcLineSwap_lost (hinput : i < 10) (hfree : s.fenced ⟨13, 0xFF, i⟩ = false) {t : State}
    (ht : t = s.setTdcIn i { s.tdcIn i with swapAt := s.now + 1, dllBad := true, swap := !(s.tdcIn i).dllBad }) :
    exec (.tdcLineSwap i true) s = .next (if (s.tdcIn i).dllBad then t.fault (.spine 3) 0 i else t.note (.spine 3) 1 i) := by
  subst ht
  exact if_neg (not_or.2 ⟨Nat.not_le.2 hinput, ne_true_of_eq_false hfree⟩)

end TimingUnit

/-- Settles O36: an edge is a glitch by its filter and else lost or stamped by the dead time (`exec_tdcEdge_selected`), a
stamp enters the log while it has room, and each other event takes the branch that its premises name. -/
theorem timingInputs : Obligations.TimingInputs := by
  refine ⟨fun s u i bin held b rise e hb he hu hinput hpast hon hfree => ?edge,
    fun _ _ _ _ _ _ => ⟨State.logStamp_room, State.logStamp_full⟩,
    fun _ _ _ => exec_tdcFifoPop_cons, fun _ => exec_tdcFifoPop_nil,
    fun _ _ _ _ hstart hold => ⟨exec_intervalStartExpire hstart hold, State.ivStart_setIvStart _ _⟩,
    fun _ => exec_tdcFreqGo, fun _ _ _ _ => exec_tdcFreqGateEnd, fun s i hinput hfree => ?swap⟩
  case edge =>
    refine ⟨exec_tdcEdge_glitch hb he hu hinput hpast hon hfree, fun hlong hselected hswap => ?_⟩
    rw [exec_tdcEdge_selected hb he hu hinput hpast hon hfree hlong hselected hswap]
    refine ⟨fun hclear => ?_, fun l hlast hafter hsoon => ?_⟩
    · rw [TdcIn.deadAt_eq_false hclear, if_neg Bool.false_ne_true]
    · rw [TdcIn.deadAt_eq_true hlast hafter hsoon, if_pos rfl]
  case swap =>
    refine ⟨exec_tdcLineSwap_calibrated hinput hfree, fun hgood => ?_, fun hbad => ?_⟩
    · rw [exec_tdcLineSwap_lost hinput hfree rfl, hgood]
      rfl
    · rw [exec_tdcLineSwap_lost hinput hfree rfl, hbad]
      rfl

end Sys2Proof.Machine

/-! SUPPORT. The training of Borvon lanes: what each step leaves, failed attempts, waits, polls, losses and the deskew
(obligation O42). -/

namespace Sys2Proof.Machine

section LaneTraining

variable {s : State} {p l : Nat} {o : TrainObs}

/-! ## One step of a lane (13 R303, R304, R306) -/

theorem State.setFails_iff : s.setFails p l o = true ↔
    (s.laneState p l = lComma ∨ s.laneState p l = lParam) ∧ o.chk ≠ goodChk o := by
  simp only [State.setFails, Bool.and_eq_true, Bool.or_eq_true, decide_eq_true_eq]

theorem State.setFails_of_good (hgood : o.chk = goodChk o) : ¬ s.setFails p l o = true :=
  fun hfails => (State.setFails_iff.1 hfails).2 hgood

theorem State.trainStep_detect (hstate : s.laneState p l = lDetect) (hpolls : (s.lane p l).polls = false) :
    s.trainStep p l o =
      (let u := (s.putLane p l lBitLock).wr F.BVN_LANE_STATUS_ABSENT_CAUSE [p, l] 0;
       if u.portState p = pDown then u.setPortState p pTraining else u) := by
  unfold State.trainStep
  rw [hstate, hpolls]
  rfl

/-- What BIT_LOCK notes: the figure of merit and the equaliser's settings. -/
def State.noteEqualiser (s : State) (p l : Nat) (o : TrainObs) : State :=
  let u := (s.wr F.BVN_LANE_STATUS_FOM [p, l] o.fom).wr F.BVN_LANE_EQ_CTLE [p, l] o.ctle
  ((u.wrI F.BVN_LANE_EQ_DFE1 [p, l] o.dfe1).wrI F.BVN_LANE_EQ_DFE2 [p, l] o.dfe2).wrI F.BVN_LANE_EQ_DFE3 [p, l] o.dfe3

theorem State.trainStep_bitLock (hstate : s.laneState p l = lBitLock) :
    s.trainStep p l o = (let w := s.noteEqualiser p l o;
      if w.rd F.BVN_FOM_MIN [] ≤ o.fom then w.putLane p l lComma else w) := by
  unfold State.trainStep
  rw [hstate]
  rfl

/-- The lane is ready in COMMA; the first one of its port starts the wait for the others. -/
def State.commaReady (s : State) (p l : Nat) (o : TrainObs) : State :=
  let u := (s.wrB F.BVN_LANE_STATUS_POL_INV [p, l] o.polInv).setLane p l { s.lane p l with commaOk := true }
  if (u.port p).commaAt.isNone then u.setPort p { u.port p with commaAt := some u.now } else u

theorem State.trainStep_comma (hstate : s.laneState p l = lComma) (hfresh : (s.lane p l).commaOk = false) :
    s.trainStep p l o =
      if o.laneSeen = l then (s.commaReady p l o).tryDeskew p else (s.failAttempt p l 6).tryDeskew p := by
  unfold State.trainStep
  rw [hstate]
  exact if_neg (ne_true_of_eq_false hfresh)

theorem State.trainStep_deskew (hstate : s.laneState p l = lDeskew) :
    s.trainStep p l o = if o.skew ≤ 16 then s.enterParam p else s := by
  unfold State.trainStep
  rw [hstate]
  rfl

theorem State.trainStep_param (hstate : s.laneState p l = lParam) :
    s.trainStep p l o =
      if o.second then ((s.lanesIn p lParam).foldl (fun s k => s.sendTs p k true) s).enterActive p o else s := by
  unfold State.trainStep
  rw [hstate]
  rfl

section Due

variable (hport : p < 4) (hlane : l < 4) (hwait : (s.lane p l).wait = 0)
  (hsince : (s.lane p l).since + (if s.laneState p l = lDetect then 15625 else 0) ≤ s.now)

include hport hlane hwait hsince

theorem exec_laneTrainStep :
    exec (.laneTrainStep p l o) s = .next (if s.setFails p l o then s.count F.BVN_LANE_ERR_CODE_ERR [p, l] 1
      else s.trainStep p l o) := by
  have hdue : s.stepDue p l = true := Bool.and_eq_true_iff.2 ⟨decide_eq_true hwait, decide_eq_true hsince⟩
  exact if_pos ⟨hport, hlane, hdue⟩

theorem exec_laneTrainStep_fails (hfails : s.setFails p l o = true) :
    exec (.laneTrainStep p l o) s = .next (s.count F.BVN_LANE_ERR_CODE_ERR [p, l] 1) := by
  rw [exec_laneTrainStep hport hlane hwait hsince, if_pos hfails]

theorem exec_laneTrainStep_steps (hgood : ¬ s.setFails p l o = true) :
    exec (.laneTrainStep p l o) s = .next (s.trainStep p l o) := by
  rw [exec_laneTrainStep hport hlane hwait hsince, if_neg hgood]

/-- Only COMMA and PARAM end by training sets. -/
theorem exec_laneTrainStep_noSet {st : Nat} (hstate : s.laneState p l = st) (hcomma : st ≠ lComma) (hparam : st ≠ lParam) :
    exec (.laneTrainStep p l o) s = .next (s.trainStep p l o) := by
  subst hstate
  exact exec_laneTrainStep_steps hport hlane hwait hsince
    fun hfails => (State.setFails_iff.1 hfails).1.elim hcomma hparam

end Due

/-! ## Failed attempts, waits and losses (13 R305) -/

theorem State.failAttempt_eq {c k : Nat} (hk : k = s.rd F.BVN_LANE_STATUS_ATTEMPTS [p, l] + 1) :
    s.failAttempt p l c =
      (let u := (s.wr F.BVN_LANE_STATUS_FAIL_STEP [p, l] c).wr F.BVN_LANE_STATUS_ATTEMPTS [p, l] (min k 8);
       if 8 ≤ k then u.absentLane p l 1 else
         u.setLane p l { LaneRun.idle with
           since := u.now
           wait := u.now + 156250 * 2 ^ (k - 1) }) := by
  subst hk
  rfl

/-- DESKEW and PARAM fail every lane in them, the other steps the lane alone. -/
theorem exec_trainStepTimeout {st : Nat} (hport : p < 4) (hlane : l < 4) (hst : st = s.laneState p l)
    (hwait : (s.lane p l).wait = 0) (hlate : (s.lane p l).since + 1562500 ≤ s.now) (hpolls : (s.lane p l).polls = false)
    (hfirst : 1 ≤ st) (hlast : st ≤ 5) (hopen : st = 3 → (s.lane p l).commaOk = false) :
    exec (.trainStepTimeout p l) s = .next (((if st = 4 ∨ st = 5 then
      (s.lanesIn p st).foldl (fun s l => s.failAttempt p l st) s else s.failAttempt p l st).tryDeskew p).checkDown p) := by
  subst hst
  have hunready : (!(decide (s.laneState p l = 3) && (s.lane p l).commaOk)) = true := by
    simpa using imp_iff_not_or.1 hopen
  refine (if_pos ⟨hport, hlane, hfirst, hlast, hwait, hlate, hunready⟩).trans ?_
  rw [if_neg (ne_true_of_eq_false hpolls)]

theorem exec_trainRetry (hport : p < 4) (hlane : l < 4) (hwaits : (s.lane p l).wait ≠ 0) (hover : (s.lane p l).wait ≤ s.now) :
    exec (.trainRetry p l) s = .next (s.startLane p l) := if_pos ⟨hport, hlane, hwaits, hover⟩

theorem exec_deepPoll (hport : p < 4) (hlane : l < 4) (habsent : s.laneState p l = lAbsent)
    (hdue : (s.lane p l).since + 15625000 ≤ s.now) :
    exec (.deepPoll p l) s = .next (((s.wr F.BVN_LANE_STATUS_TSTATE [p, l] lDetect).setLane p l { LaneRun.idle with
      since := s.now + 312500
      polls := true }).sendTs p l false) := if_pos ⟨hport, hlane, habsent, hdue⟩

theorem exec_trainingSignalLoss (hport : p < 4) (hlane : l < 4) (hfirst : 2 ≤ s.laneState p l)
    (hlast : s.laneState p l ≤ 5) :
    exec (.trainingSignalLoss p l) s = .next (((s.absentLane p l 2).tryDeskew p).checkDown p) :=
  if_pos ⟨hport, hlane, hfirst, hlast⟩

/-! ## The port's lanes together (13 R304, R307) -/

theorem exec_deskewWaitExpire {t : Nat} (hport : p < 4) (hcomma : (s.port p).commaAt = some t)
    (hover : t + 1562500 ≤ s.now) (htrains : s.portState p = pTraining) :
    exec (.deskewWaitExpire p) s = .next (s.enterDeskew p) := by
  show execDeskewWaitExpire p s = _
  rw [execDeskewWaitExpire, hcomma]
  exact if_pos ⟨hport, hover, htrains⟩

theorem State.retrain_enabled (hon : s.rdB F.BVN_PORT_CTRL_EN [p] = true) (htest : s.rdB F.BVN_PORT_CTRL_TEST [p] = false) :
    s.retrain p = (s.trainable p).foldl (fun s l => s.detectLane p l) (s.portTrains p) := by
  rw [State.retrain, hon, htest]
  rfl

theorem exec_bvnRetrain (hport : p < 4) : exec (.bvnRetrain p) s = .next (s.retrain p) := if_pos hport

end LaneTraining

/-- Settles O42: a step takes the branch of its lane's state (the lemmas `trainStep_…`) unless the step ends by a training
set that fails its CHK (`setFails_iff`), and each other event takes the branch that its premises name. -/
theorem laneTraining : Obligations.LaneTraining := by
  refine ⟨fun s p l o hport hlane hwait hsince => ?step, fun _ _ _ _ _ hk => State.failAttempt_eq hk,
    fun s p l st hport hlane hst hwait hlate hpolls => ?timeout, fun _ _ _ => exec_trainRetry, fun _ _ _ => exec_deepPoll,
    fun _ _ _ => exec_trainingSignalLoss, fun _ _ _ => exec_deskewWaitExpire,
    fun _ _ hport hon htest => (exec_bvnRetrain hport).trans (congrArg _ (State.retrain_enabled hon htest))⟩
  case step =>
    have steps (hgood : o.chk = goodChk o) : exec (.laneTrainStep p l o) s = .next (s.trainStep p l o) :=
      exec_laneTrainStep_steps hport hlane hwait hsince (State.setFails_of_good hgood)
    have stepsOutside {st : Nat} (hstate : s.laneState p l = st) (hcomma : st ≠ lComma) (hparam : st ≠ lParam) :
        exec (.laneTrainStep p l o) s = .next (s.trainStep p l o) :=
      exec_laneTrainStep_noSet hport hlane hwait hsince hstate hcomma hparam
    refine ⟨fun hset hbad => ?bad, fun hstate hpolls _ => ?detect, fun hstate => ?bitLock, fun hstate hgood hfresh hown => ?own,
      fun hstate hgood hfresh hother => ?other, fun hstate hskew => ?deskew, fun hstate hgood hsecond => ?param⟩
    case bad => exact exec_laneTrainStep_fails hport hlane hwait hsince (State.setFails_iff.2 ⟨hset, hbad⟩)
    case detect => rw [stepsOutside hstate (by decide) (by decide), State.trainStep_detect hstate hpolls]
    case bitLock =>
      rw [stepsOutside hstate (by decide) (by decide), State.trainStep_bitLock hstate]
      rfl
    case own =>
      rw [steps hgood, State.trainStep_comma hstate hfresh, if_pos hown]
      rfl
    case other => rw [steps hgood, State.trainStep_comma hstate hfresh, if_neg hother]
    case deskew =>
      rw [stepsOutside hstate (by decide) (by decide), State.trainStep_deskew hstate, if_pos hskew]
      rfl
    case param => rw [steps hgood, State.trainStep_param hstate, if_pos hsecond]
  case timeout =>
    have fails := exec_trainStepTimeout hport hlane hst hwait hlate hpolls
    refine ⟨fun halone => ?_, fun htogether => ?_⟩
    · have hopen (hcomma : st = 3) : (s.lane p l).commaOk = false :=
        ((halone.resolve_left (by omega)).resolve_left (by omega)).2
      rw [fails (by omega) (by omega) hopen, if_neg (by omega)]
    · rw [fails (by omega) (by omega) (fun hcomma => by omega), if_pos htogether]

end Sys2Proof.Machine

/-! SUPPORT. The messages of Borvon ports: lane failures, SKIP, re-striping, acknowledgement and replay, message errors,
decisions and packets (obligation O43). -/

namespace Sys2Proof.Machine

section PortMessages

variable {s : State} {p l : Nat}

theorem State.portCarries_of_active (hactive : s.portState p = pActive) : s.portCarries p = true :=
  Bool.or_eq_true_iff.2 (.inl (decide_eq_true hactive))

/-! ## Lane failures (13 R306-R308) -/

theorem exec_laneFail {ls : BitVec 4} {lost : Bool} {bad use : Nat} (hport : p < 4)
    (huse : use = s.rd F.BVN_PORT_STATUS_IN_USE [p]) (hbad : bad = ls.toNat &&& use) (hsome : bad ≠ 0)
    (hcarries : s.portCarries p = true) :
    exec (.laneFail p ⟨ls, lost⟩) s =
      .next (if lost = true ∧ bad = use then s.removal p else s.failLanes p bad) := by
  subst hbad huse
  exact if_pos ⟨hport, hsome, hcarries⟩

/-! ## SKIP (13 R293) -/

theorem exec_skipSend (hport : p < 4) (hcarries : s.portCarries p = true) (hdue : (s.port p).skipAt ≤ 2 * s.now + 1) :
    exec (.skipSend p) s = .next ((s.setPort p { s.port p with
      skips := (s.port p).skips + 1
      skipAt := (s.port p).skipAt + 125 }).transmit p (.skip p)) := if_pos ⟨hport, hcarries, hdue⟩

theorem State.refill_above {fill : Nat} (habove : 16 < fill) :
    s.refill p fill = (s.lanesTrained p).foldl (fun s l => s.count F.BVN_LANE_SKIP_DELETED [p, l] 1)
      (s.setPort p { s.port p with fill := fill - 1 }) := if_pos habove

theorem State.refill_below {fill : Nat} (hbelow : fill < 16) :
    s.refill p fill = (s.lanesTrained p).foldl (fun s l => s.count F.BVN_LANE_SKIP_INSERTED [p, l] 1)
      (s.setPort p { s.port p with fill := fill + 1 }) := (if_neg (by omega)).trans (if_pos hbelow)

section SkipReceive

variable {d f : Int} (hport : p < 4) (hcarries : s.portCarries p = true) (hf : f = (s.port p).fill + d)

include hport hcarries hf

theorem exec_skipReceive_within (hlow : 0 ≤ f) (hhigh : f ≤ 32) :
    exec (.skipReceive p d) s = .next (s.refill p f.toNat) := by
  subst hf
  exact (if_pos ⟨hport, hcarries⟩).trans (congrArg _ (if_neg (by omega)))

/-- An overflow or underflow leaves the buffers at half fill. -/
theorem exec_skipReceive_outside (hout : f < 0 ∨ 32 < f) :
    exec (.skipReceive p d) s = .next ((s.lanesTrained p).foldl (fun s l => s.lineError p l false)
      (s.setPort p { s.port p with fill := 16 })) := by
  subst hf
  exact (if_pos ⟨hport, hcarries⟩).trans (congrArg _ (if_pos hout))

end SkipReceive

/-! ## Ordered sets and messages that fail their check (13 R294, R302) -/

section Checks

variable {d q : Word} {c : Byte} (hport : p < 4) (hcarries : s.portCarries p = true)

include hport hcarries

theorem exec_rstReceive_fails {m : BitVec 4} (hbad : c ≠ xorBytes (rstBody m d q)) :
    exec (.rstReceive p m d ⟨q, c⟩) s = .next (s.badSet p) := if_pos ⟨hport, hcarries, hbad⟩

theorem exec_rplReceive_fails (hbad : c ≠ xorBytes (rplBody d q)) :
    exec (.rplReceive p d ⟨q, c⟩) s = .next (s.badSet p) := if_pos ⟨hport, hcarries, hbad⟩

theorem exec_ackReceive_fails (hbad : c ≠ crc8 (countBody d q)) :
    exec (.ackReceive p d ⟨q, c⟩) s = .next (s.msgFails p) := if_pos ⟨hport, hcarries, hbad⟩

/-! ## Acknowledgement and replay (13 R301, R302) -/

theorem exec_rplReceive_matches (hd : d = (s.port p).dCount) (hq : q = (s.port p).pCount) :
    exec (.rplReceive p d ⟨q, xorBytes (rplBody d q)⟩) s = .next (s.setPort p { s.port p with nakAt := none }) :=
  (if_neg fun h => h.2.2 rfl).trans (if_pos ⟨hport, hcarries, hd, hq⟩)

theorem exec_ackReceive_good :
    exec (.ackReceive p d ⟨q, crc8 (countBody d q)⟩) s =
      .next ((s.setPort p ((s.port p).ack d q)).flushPort p) :=
  (if_neg fun h => h.2.2 rfl).trans (if_pos ⟨hport, hcarries⟩)

theorem exec_nakRepeat {t : Nat} (hopen : (s.port p).nakAt = some t) (hdue : t + 157 ≤ s.now) :
    exec (.nakRepeat p) s = .next ((s.setPort p { s.port p with nakAt := some s.now }).transmit p
      (.nak p (s.port p).dCount (s.port p).pCount)) := by
  show execNakRepeat p s = _
  rw [execNakRepeat, hopen]
  exact if_pos ⟨hport, hcarries, hdue⟩

/-! ## A re-stripe of the partner or the answer to our own (13 R308) -/

/-- This end began the re-stripe that the port is in. -/
def PortRun.restripeMine (r : PortRun) : Bool := match r.restripe with | some (_, _, b) => b | none => false

/-- A port's transmitter as a re-stripe leaves it: what it was sending is lost, and of what waits the ordered sets. -/
def PortRun.stopSending (r : PortRun) : PortRun :=
  { r with cur := [], os := [], tx := r.tx.filter (fun e => decide (e.rank ≠ 0)) }

/-- What an RST with a mask leaves; one that answers our own request (`mine`) is not answered. -/
def State.takeRst (s : State) (p : Nat) (m : BitVec 4) (d q : Word) (mine : Bool) : State :=
  let u := if laneCount m.toNat < s.rd F.BVN_PORT_STATUS_WIDTH [p] ∧ mine = false then
    s.count F.BVN_PORT_COUNT2_WIDTH_DROPS [p] 1 else s
  let v := (u.applyMask p m.toNat).setPort p { (s.port p).stopSending with restripe := none, nakAt := none }
  let w := if mine then v else v.transmit p (.rst p m (s.port p).dCount (s.port p).pCount)
  (w.setPortState p pActive).replay p d q

theorem exec_rstReceive_good {m : BitVec 4} (hmask : m ≠ 0) :
    exec (.rstReceive p m d ⟨q, xorBytes (rstBody m d q)⟩) s =
      .next (s.takeRst p m d q (s.port p).restripeMine) := by
  have hnarrow : (decide (laneCount m.toNat < s.rd F.BVN_PORT_STATUS_WIDTH [p]) && !(s.port p).restripeMine) = true ↔
      laneCount m.toNat < s.rd F.BVN_PORT_STATUS_WIDTH [p] ∧ (s.port p).restripeMine = false := by
    simp only [Bool.and_eq_true, decide_eq_true_eq, Bool.not_eq_true']
  refine (if_neg fun h => h.2.2 rfl).trans ((if_pos ⟨hport, hcarries, hmask⟩).trans ?_)
  unfold State.takeRst
  rw [← if_congr hnarrow rfl rfl]
  rfl

end Checks

/-! ## NAK, ACK and errors of an ACTIVE port (13 R292, R300, R302) -/

theorem State.msgFails_open (hopen : (s.port p).nakAt ≠ none) : s.msgFails p = s := if_neg fun h => hopen h.2

/-- Outside a message, a line error is that of the lane alone. -/
theorem State.lineErrorIn_outside {disp : Bool} : s.lineErrorIn p l disp false = s.lineError p l disp := by
  unfold State.lineErrorIn
  exact if_neg Bool.false_ne_true

section Active

variable {d q : Word} (hport : p < 4) (hactive : s.portState p = pActive)

include hactive

theorem State.msgFails_first (hclosed : (s.port p).nakAt = none) :
    s.msgFails p = (s.setPort p { s.port p with nakAt := some s.now }).transmit p
      (.nak p (s.port p).dCount (s.port p).pCount) := if_pos ⟨hactive, hclosed⟩

include hport

theorem exec_nakReceive :
    exec (.nakReceive p d ⟨q, crc8 (countBody d q)⟩) s =
      .next (((s.count F.BVN_PORT_COUNT_REPLAYS [p] 1).note (.spine (4 + p)) 3 0).replay p d q) :=
  (if_neg fun h => h.2.2 rfl).trans (if_pos ⟨hport, hactive⟩)

theorem exec_ackSend (hdue : (s.port p).ackDue = true) :
    exec (.ackSend p) s = .next ((s.setPort p { s.port p with
      ackDue := false
      ackAt := s.now }).transmit p (.ack p (s.port p).dCount (s.port p).pCount)) := if_pos ⟨hport, hactive, hdue⟩

theorem exec_msgError_crc : exec (.msgError ⟨p, .crc⟩) s = .next (s.msgFails p) :=
  if_pos ⟨hport, State.portCarries_of_active hactive⟩

theorem exec_msgError_control {x y : Nat} {inside : Bool} (hunknown : controlKnown x y = false) :
    exec (.msgError ⟨p, .control l x y inside⟩) s = .next (s.lineErrorIn p l false inside) :=
  (if_pos ⟨hport, State.portCarries_of_active hactive⟩).trans (if_neg (ne_true_of_eq_false hunknown))

theorem exec_msgError_code {inside : Bool} :
    exec (.msgError ⟨p, .code l inside⟩) s = .next (s.lineErrorIn p l false inside) :=
  if_pos ⟨hport, State.portCarries_of_active hactive⟩

theorem exec_msgError_disparity {inside : Bool} :
    exec (.msgError ⟨p, .disparity l inside⟩) s = .next (s.lineErrorIn p l true inside) :=
  if_pos ⟨hport, State.portCarries_of_active hactive⟩

end Active

/-! ## Decisions and packets in order (13 R296, R297, R300) -/

section Takes

variable (htakes : s.portTakes p = true)

include htakes

theorem exec_decReceive {m : DecMsg} :
    exec (.decReceive p ⟨m, crc8 (decBody m)⟩) s = .next ((s.setPort p { s.port p with
      dCount := (s.port p).dCount + 1
      ackDue := true }).importDec p m) :=
  (if_neg fun h => h.2 rfl).trans (if_pos htakes)

theorem exec_pktAnswerReceive {d : Nat} {r : BitVec 16} {c : Word} {e : BitVec 32}
    (hcheck : e = crc32 (pktBody 2 (answerPayload d r c))) :
    exec (.pktAnswerReceive p d r ⟨c, e⟩) s =
      if d < 4 ∧ (s.countP p).decMode d = 3 ∧ (s.countP p).rd F.SPN_SYN_DEC_CFG_PORT [d] = p then
        .next ((s.countP p).extAnswer d r c) else .next ((s.countP p).badMsg p) :=
  (if_neg fun h => h.2 hcheck).trans (if_pos htakes)

theorem exec_pktManagementReceive {bs : List Byte} :
    exec (.pktManagementReceive p ⟨bs, crc32 (pktBody 0x10 bs)⟩) s =
      if 1 ≤ bs.length ∧ bs.length ≤ 512 then .next ((s.countP p).emit (.mgmt p bs))
        else .next ((s.countP p).badMsg p) :=
  (if_neg fun h => h.2 rfl).trans (if_pos htakes)

end Takes

/-! ## WIDEN and INJ (13 R308, R309) -/

theorem State.widen_wider {w good : Nat}
    (hgood : good = ((List.range 4).filter (fun l => bit (s.rd F.BVN_PORT_STATUS_GOOD [p]) l &&
      (decide (s.laneState p l = lActive) || decide (s.laneState p l = lStandby)))).foldl (fun m l => m + 2 ^ l) 0)
    (hw : w = widthFor (min (laneCount good) (s.rd F.BVN_PORT_CTRL_WIDTH_MAX [p]))) (hactive : s.portState p = pActive)
    (hwider : s.rd F.BVN_PORT_STATUS_WIDTH [p] < w) : s.widen p = s.startRestripe p (lowLanes good w) := by
  subst hw hgood
  exact if_pos ⟨hactive, hwider⟩

theorem exec_bvnWiden (hport : p < 4) : exec (.bvnWiden p) s = .next (s.widen p) := if_pos hport

theorem exec_bvnInj (hport : p < 4) (hlane : l < 4) : exec (.bvnInj p l) s = .next (s.laneInject p l) :=
  if_pos ⟨hport, hlane⟩

theorem State.laneInject_test (htest : s.portState p = pTest) : s.laneInject p l = s.emit (.inverted p l) := if_pos htest

theorem State.laneInject_active (hactive : s.portState p = pActive) (hlane : s.laneState p l = lActive) :
    s.laneInject p l = s.setLane p l { s.lane p l with inject := true } := by
  have htest : s.portState p ≠ pTest := by
    rw [hactive]
    decide
  exact (if_neg htest).trans (if_pos ⟨hactive, hlane⟩)

end PortMessages

/-- Settles O43: each event takes the branch that its premises name, a check value that agrees passes the first test of a
receive, and an ACTIVE port carries traffic (`portCarries_of_active`). -/
theorem portMessages : Obligations.PortMessages := by
  refine ⟨fun s p bad use ls lost hport huse hbad hsome hcarries => ?fail, fun s p r hport hcarries hr hdue => ?skipSend,
    fun s p d f ls hport hcarries hf hls => ?skipReceive, fun s p m d q r mine hport hcarries hmask hr hmine => ?rst,
    fun s p m d q c hport hcarries => ⟨exec_rstReceive_fails hport hcarries, exec_rplReceive_fails hport hcarries,
      exec_rplReceive_matches hport hcarries, exec_ackReceive_good hport hcarries, exec_ackReceive_fails hport hcarries⟩,
    fun _ _ _ _ => exec_nakReceive, fun s p l x y hport hactive => ?error,
    fun _ _ _ hport hcarries => exec_nakRepeat hport hcarries, fun _ _ => exec_ackSend,
    fun _ _ _ htakes => exec_decReceive htakes, fun s u p d r c e htakes hu hcheck => ?answer,
    fun s p bs htakes => ?management,
    fun _ _ _ _ hport hgood hw hactive hwider =>
      (exec_bvnWiden hport).trans (congrArg _ (State.widen_wider hgood hw hactive hwider)),
    fun s p l hport hlane => ?inject⟩
  case fail =>
    have fails := exec_laneFail (lost := lost) hport huse hbad hsome hcarries
    refine ⟨fun hall hlost => ?_, fun hless => ?_⟩
    · rw [fails, if_pos ⟨hlost, hall⟩]
    · have hkept : ¬ (lost = true ∧ bad = use) := fun ⟨hlost, hall⟩ =>
        hless.elim (· hall) fun hseen => ne_true_of_eq_false hseen hlost
      rw [fails, if_neg hkept]
      rfl
  case skipSend =>
    subst hr
    exact exec_skipSend hport hcarries hdue
  case skipReceive =>
    subst hls
    have refills := exec_skipReceive_within hport hcarries hf
    refine ⟨fun habove hhigh => ?_, fun hlow hbelow => ?_, exec_skipReceive_outside hport hcarries hf⟩
    · rw [refills (by omega) hhigh, State.refill_above (by omega)]
      rfl
    · rw [refills hlow (by omega), State.refill_below (by omega)]
      rfl
  case rst =>
    have hown : mine = (s.port p).restripeMine := by
      refine hmine.trans ?_
      unfold PortRun.restripeMine
      cases (s.port p).restripe <;> rfl
    subst hr hown
    exact exec_rstReceive_good hport hcarries hmask
  case error =>
    have fails := exec_msgError_crc hport hactive
    exact ⟨fun hclosed => fails.trans (congrArg _ (State.msgFails_first hactive hclosed)),
      fun hopen => fails.trans (congrArg _ (State.msgFails_open hopen)),
      fun hunknown => (exec_msgError_control hport hactive hunknown).trans (congrArg _ State.lineErrorIn_outside),
      (exec_msgError_code hport hactive).trans (congrArg _ State.lineErrorIn_outside),
      (exec_msgError_disparity hport hactive).trans (congrArg _ State.lineErrorIn_outside)⟩
  case answer =>
    subst hu
    rw [exec_pktAnswerReceive htakes hcheck]
    refine ⟨fun hdec hmode hofPort => if_pos ⟨hdec, hmode, hofPort⟩, fun hother => if_neg ?_⟩
    rintro ⟨hdec, hmode, hofPort⟩
    exact hother.elim (by omega) (Or.elim · (· hmode) (· hofPort))
  case management =>
    rw [exec_pktManagementReceive htakes]
    exact ⟨fun hfirst hlast => if_pos ⟨hfirst, hlast⟩, fun hout => if_neg (by omega)⟩
  case inject =>
    rw [exec_bvnInj hport hlane]
    exact ⟨fun htest => congrArg _ (State.laneInject_test htest),
      fun hactive hused => congrArg _ (State.laneInject_active hactive hused)⟩

end Sys2Proof.Machine

/-! SUPPORT. The queue, the frame of device memory, and what the mailbox protocol leaves (obligations O1, O2, O6, O7, O9 to
O12). -/

namespace Sys2Proof.Machine

/-! ## The queue -/

theorem step_of_pending {c : Instr} {rest : List Instr} {s : State} (h : s.pending = c :: rest) :
    step s = exec c (s.withPending rest) := by
  rw [step, h]

theorem step_of_empty {s : State} (h : s.pending = []) : step s = .next s := by
  rw [step, h]

/-- Settles O1: the front of the queue selects the second branch of `step`. -/
theorem frontCommandRuns : Obligations.FrontCommandRuns := fun _ _ _ => step_of_pending

/-- Settles O2: an empty queue selects the first branch of `step`. -/
theorem emptyQueueIdles : Obligations.EmptyQueueIdles := fun _ => step_of_empty

/-- A step takes the front command off the queue, and nothing that it runs adds one (`everyCommandCompletes`). -/
theorem step_pops {c : Instr} {rest : List Instr} {s : State} (h : s.pending = c :: rest) :
    ∃ t, step s = .next t ∧ t.pending = rest := by
  obtain ⟨t, ht, hqueue, -⟩ := everyCommandCompletes c (s.withPending rest)
  exact ⟨t, (step_of_pending h).trans ht, hqueue⟩

/-- Settles O6, by induction on the queue. -/
theorem queueDrains : Obligations.QueueDrains := by
  have drains : ∀ (q : List Instr) (s : State), s.pending = q →
      ∃ t, Host.Core.run Sys2Proof.core q.length s = .next t ∧ t.pending = [] := by
    intro q
    induction q with
    | nil => exact fun s hempty => ⟨s, rfl, hempty⟩
    | cons c rest ih =>
      intro s hs
      obtain ⟨t, ht, hrest⟩ := step_pops hs
      obtain ⟨u, hu, hdone⟩ := ih t hrest
      refine ⟨u, ?_, hdone⟩
      have hstep : Sys2Proof.core.step s = .next t := ht
      simpa only [List.length_cons, Host.Core.run, hstep] using hu
  exact fun s => drains s.pending s rfl

/-! ## Device memory -/

/-- Settles O7: device memory is a part of what every command outside `mayStore` keeps (`Steady`). -/
theorem deviceMemoryFrame : Obligations.DeviceMemoryFrame := by
  intro c s t hc h a
  obtain ⟨-, -, -, hmem, -⟩ := steady_of_exec h
  rw [State.byteAt, State.byteAt, hmem hc]

/-! ## Mailbox commands without their request or with a bad header (17 R371, R378) -/

/-- Every row of R378's table is a `State.command` of its mailbox and opcode; SYNC_CAL and CAL_REF_DECLARE wait while
another of their kind is at work. -/
theorem exec_of_mailboxOf {c : Instr} {n op : Nat} {txn : Bool} (s : State) (h : mailboxOf c = some (n, op, txn)) :
    ((s.ts.cal.isSome = true ∨ s.cal.refReq.isSome = true) ∧ exec c s = .next s) ∨
      ∃ layout body, exec c s = .next (s.command n op txn layout body) := by
  cases c
  case syncCal =>
    cases h
    exact (em (s.ts.cal.isSome = true)).imp (fun busy => ⟨.inl busy, if_pos busy⟩) fun free => ⟨_, _, if_neg free⟩
  case calRefDeclare =>
    cases h
    exact (em (s.cal.refReq.isSome = true)).imp (fun busy => ⟨.inr busy, if_pos busy⟩) fun free => ⟨_, _, if_neg free⟩
  all_goals cases h
  all_goals exact .inr ⟨_, _, rfl⟩

/-- Settles O9: the header is the first check of `State.command`. -/
theorem badHeaderIsRefused : Obligations.BadHeaderIsRefused := by
  intro c n op txn s hc hasks hheader hcal href
  obtain ⟨busy | busy, -⟩ | ⟨layout, body, hexec⟩ := exec_of_mailboxOf s hc
  · simp [hcal] at busy
  · simp [href] at busy
  · exact hexec.trans (congrArg _ (s.command_badHeader hasks hheader))

/-- Settles O10: `State.command` does nothing without its request. -/
theorem unaskedCommandDoesNothing : Obligations.UnaskedCommandDoesNothing := by
  intro c n op txn s hc hasks
  obtain ⟨-, hexec⟩ | ⟨layout, body, hexec⟩ := exec_of_mailboxOf s hc
  · exact hexec
  · exact hexec.trans (congrArg _ (s.command_idle hasks))

/-! ## Responses (17 R371-R375) -/

section Responses

/-- The response that mailbox `n` is given: it echoes OPCODE and CMD_ID and carries the short time (17 R371). -/
abbrev State.answer (s : State) (n status reason detail : Nat) (txn : Word) (p : List Byte) : MbxResp :=
  { opcode := (s.mbx n).req.opcode, status := status, cmdId := (s.mbx n).req.cmdId, txnId := txn, reason := reason,
    detail := BitVec.ofNat 32 detail, tick := BitVec.ofNat 32 s.grid, payload := p }

/-- The mailbox that has answered: its record holds the response (17 R375). -/
abbrev State.answered (s : State) (n : Nat) (r : MbxResp) : Mbx :=
  { s.mbx n with resp := r, inProg := false, record := some ((s.mbx n).req.opcode, (s.mbx n).req.cmdId, r) }

variable (s : State) (n reason detail : Nat) (txn : Word) (p : List Byte) {status : Nat}

/-- A final response writes the mailbox and STATE; its vector changes the pending bits and what is sent alone. -/
theorem State.respond_final (h : status ≠ stProgress) : ∃ hif em, s.respond n status reason detail txn p =
    { (s.setMbx n (s.answered n (s.answer n status reason detail txn p))).wr F.MBX_STATUS_STATE [n] 2 with
      hif := hif
      emitted := em } := by
  rw [State.respond, if_neg h]
  split
  · exact ⟨_, _, State.signal_eq _ n⟩
  · exact ⟨_, _, rfl⟩

theorem State.respond_progress : s.respond n stProgress reason detail txn p =
    s.setMbx n { s.mbx n with
      resp := s.answer n stProgress reason detail txn p
      inProg := true } := by
  rw [State.respond, if_pos rfl]

theorem State.mbx_respond_self (h : status ≠ stProgress) :
    (s.respond n status reason detail txn p).mbx n = s.answered n (s.answer n status reason detail txn p) := by
  obtain ⟨hif, em, hresp⟩ := s.respond_final n reason detail txn p h
  rw [hresp]
  exact s.mbx_setMbx_self

theorem State.mbx_respond_other {k : Nat} (h : status ≠ stProgress) (hk : k ≠ n) :
    (s.respond n status reason detail txn p).mbx k = s.mbx k := by
  obtain ⟨hif, em, hresp⟩ := s.respond_final n reason detail txn p h
  rw [hresp]
  exact s.mbx_setMbx_other hk

theorem State.mbxState_respond (h : status ≠ stProgress) (hn : n < 64) (k : Nat) :
    (s.respond n status reason detail txn p).mbxState k = if k = n then mDone else s.mbxState k := by
  obtain ⟨hif, em, hresp⟩ := s.respond_final n reason detail txn p h
  rw [hresp]
  exact State.mbxState_wr (s.setMbx n (s.answered n (s.answer n status reason detail txn p))) hn 2

end Responses

/-- Settles O11: a response writes its own mailbox and STATE (`respond_final`), IN_PROGRESS its mailbox alone. -/
theorem finalResponseLeavesDone : Obligations.FinalResponseLeavesDone := by
  refine ⟨fun s n status reason detail txn p hn hfinal => ?_, fun s n => ?_⟩
  · have hself := s.mbx_respond_self n reason detail txn p hfinal
    have hstate := s.mbxState_respond n reason detail txn p hfinal hn
    refine ⟨(hstate n).trans (if_pos rfl), ?_, ?_, ?_,
      fun k hk => ⟨(hstate k).trans (if_neg hk), s.mbx_respond_other n reason detail txn p hfinal hk⟩, ?_⟩
    · rw [hself]
    · rw [hself]
    · rw [hself]
    · obtain ⟨hif, em, hresp⟩ := s.respond_final n reason detail txn p hfinal
      rw [hresp]
      exact ⟨fun _ => rfl, rfl, rfl, rfl, rfl, rfl⟩
  · rw [State.progress, State.respond_progress]
    exact ⟨rfl, by rw [State.mbx_setMbx_self], by rw [State.mbx_setMbx_self]⟩

/-! ## The doorbell (17 R369, R372, R374) -/

section Doorbell

variable {n : Nat} {req : MbxReq} {s u : State}

theorem exec_mailboxDoorbell (hn : n < 64) :
    exec (.mailboxDoorbell n req) s = .next ((s.regionWrite n 0 (reqBytes req)).ring n) := if_pos hn

/-- A mailbox that is not BUSY takes the bytes; STATE stays. -/
theorem State.regionWrite_open (hbusy : s.mbxState n ≠ mBusy) (off : Nat) (bytes : List Byte) :
    s.regionWrite n off bytes = s.setMbx n { s.mbx n with region := SMap.putList 0 (s.mbx n).region off bytes } :=
  if_neg hbusy

theorem State.mbxState_regionWrite_open (hbusy : s.mbxState n ≠ mBusy) (off : Nat) (bytes : List Byte) :
    (s.regionWrite n off bytes).mbxState n = s.mbxState n := by
  rw [State.regionWrite_open hbusy]
  rfl

theorem State.ring_closed (h : s.mbxState n = mBusy ∨ s.mbxState n = mOffline) :
    s.ring n = s.wr F.MBX_STATUS_DB_ERR [n] 1 := if_pos h

/-- DB_ERR stands beside STATE in one word. -/
theorem State.mbxState_dbErr : (s.wr F.MBX_STATUS_DB_ERR [n] 1).mbxState n = s.mbxState n :=
  State.rd_wr_beside s rfl rfl (by decide) (by decide)

/-- A request that the record does not answer waits BUSY for firmware. -/
theorem State.ring_new (hbusy : u.mbxState n ≠ mBusy) (hoffline : u.mbxState n ≠ mOffline)
    (hnew : ∀ r, (u.mbx n).record = some r → ¬(r.1 = (u.mbx n).request.opcode ∧ r.2.1 = (u.mbx n).request.cmdId))
    (hop : (u.mbx n).request.opcode ∈ opcodes) :
    u.ring n = (((u.takes n).wr F.MBX_STATUS_REISSUE [n] 0).wr F.MBX_STATUS_STATE [n] mBusy).count F.MBX_STATUS_COMMANDS [n] 1 := by
  have hknown : opcodes.contains (u.mbx n).request.opcode = true := List.contains_iff_mem.2 hop
  rw [State.ring, if_neg (not_or.2 ⟨hbusy, hoffline⟩)]
  cases hrec : (u.mbx n).record with
  | none => simp only [State.takes, hrec, hknown, if_true]
  | some r => simp only [State.takes, hrec, if_neg (hnew r hrec), hknown, if_true]

/-- A re-issued request is answered from the record. -/
theorem State.ring_reissued {r : MbxResp} (hbusy : u.mbxState n ≠ mBusy) (hoffline : u.mbxState n ≠ mOffline)
    (hrec : (u.mbx n).record = some ((u.mbx n).request.opcode, (u.mbx n).request.cmdId, r))
    (hirq : (u.mbx n).request.flags.getLsbD 0 = false) :
    u.ring n = (((u.takes n).setMbx n { (u.takes n).mbx n with resp := r }).wr
      F.MBX_STATUS_REISSUE [n] 1).wr F.MBX_STATUS_STATE [n] mDone := by
  rw [State.ring, if_neg (not_or.2 ⟨hbusy, hoffline⟩)]
  simp only [State.takes, hrec, hirq, and_self, if_true, Bool.false_eq_true, if_false]

end Doorbell

/-- Settles O12: the write into the region leaves STATE, which then chooses the branch of the doorbell. -/
theorem doorbellTakesRequest : Obligations.DoorbellTakesRequest := by
  refine ⟨fun n req s u hn hbusy hoffline hu hnew hop => ?_, fun n req s u r hn hbusy hoffline hu hrec hirq => ?_,
    fun n req s hn hbusy => ?_, fun n req s hn hoffline => ?_⟩
  · have hstate : u.mbxState n = s.mbxState n := hu ▸ State.mbxState_regionWrite_open hbusy 0 (reqBytes req)
    rw [exec_mailboxDoorbell hn, ← hu, State.ring_new (hstate ▸ hbusy) (hstate ▸ hoffline) hnew hop]
  · have hstate : u.mbxState n = s.mbxState n := hu ▸ State.mbxState_regionWrite_open hbusy 0 (reqBytes req)
    rw [exec_mailboxDoorbell hn, ← hu, State.ring_reissued (hstate ▸ hbusy) (hstate ▸ hoffline) hrec hirq]
  · have hdiscarded : s.regionWrite n 0 (reqBytes req) = s.wr F.MBX_STATUS_DB_ERR [n] 1 := if_pos hbusy
    rw [exec_mailboxDoorbell hn, hdiscarded, State.ring_closed (.inl (State.mbxState_dbErr.trans hbusy))]
  · have hopen : s.mbxState n ≠ mBusy := by
      rw [hoffline]
      decide
    rw [exec_mailboxDoorbell hn, State.ring_closed (.inr ((State.mbxState_regionWrite_open hopen _ _).trans hoffline))]

end Sys2Proof.Machine

/-! SUPPORT. What the accepted commands of information, of the mode, of firmware and of copies leave (obligations O13 to
O16). -/

namespace Sys2Proof.Machine

/-! ## Commands that only read (17 R379, R387; 18 R407; 21 R467) -/

section Information

variable {n : Nat} {s : State} {p : List Byte}

theorem exec_getInfo (h : s.asked n 0x01 false (bytesOk 0 []) p) :
    exec (.getInfo n) s = .next (s.ok n (leBytes 4 (s.regWord R.SPN_FW_VER [] 0).toNat ++
      leBytes 1 (s.rd F.MBX_GLOBAL_FW_IMAGE []) ++ leBytes 1 (s.rd F.MBX_GLOBAL_ACTIVE_CORE []) ++
      leBytes 1 (s.rd F.MBX_GLOBAL_STANDBY_READY []) ++ leBytes 1 0 ++ leBytes 4 (s.regWord R.SPN_ID [] 0).toNat ++
      leBytes 4 s.mcodeVer ++ leBytes 4 (s.regWord R.SPN_MCODE_ID [] 0).toNat ++ leBytes 8 Config.serial ++
      leBytes 2 2016 ++ leBytes 1 64 ++ leBytes 1 0)) :=
  next_command_of_asked h fun _ _ => rfl

/-- A FIRST that is a SEQ begins at it; 0xFFFFFFFF would begin at the oldest record. -/
theorem exec_logRead (h : s.asked n 0x93 false (bytesOk 8 [5, 6, 7]) p) (hsome : 1 ≤ leAt p 4 1) (hmost : leAt p 4 1 ≤ 31)
    (hfirst : leAt p 0 4 ≠ 0xFFFFFFFF) :
    exec (.logRead n) s = .next (s.ok n
      (leBytes 4 ((s.flt.log.head?.map LogRec.seq).getD s.flt.logSeq) ++ leBytes 4 s.flt.logSeq ++
        leBytes 1 ((s.flt.log.filter (fun x => decide (leAt p 0 4 ≤ x.seq))).take (leAt p 4 1)).length ++ leBytes 3 0 ++
        ((s.flt.log.filter (fun x => decide (leAt p 0 4 ≤ x.seq))).take (leAt p 4 1)).flatMap LogRec.bytes)) := by
  refine next_command_of_asked h fun r hr => ?_
  have hcount : ¬ (leAt p 4 1 = 0 ∨ 31 < leAt p 4 1) := by omega
  simp only [hr, if_neg hcount, if_neg hfirst]

theorem exec_memInfo (h : s.asked n 0xA0 false (bytesOk 0 []) p) :
    exec (.memInfo n) s = .next (s.ok n (leBytes 2 (s.rd F.MEM_CFG_CAPACITY []) ++ leBytes 1 (s.rd F.MEM_CFG_RANKS [] + 1) ++
      leBytes 1 (16 + 8 * s.rd F.MEM_CFG_DENSITY []) ++ leBytes 8 s.hostSize ++ leBytes 8 (s.hostSize / 2) ++
      leBytes 8 (s.hostSize - s.hostSize / 2) ++ leBytes 8 (s.memCap / 16) ++
      leBytes 10 ((List.range 80).foldl (fun m d => if s.rdB F.MEM_DEV_ERR_RETIRED [d] then m + 2 ^ d else m) 0) ++
      leBytes 1 (s.rd F.MEM_STATUS_INIT_DONE []) ++ leBytes 1 0)) :=
  next_command_of_asked h fun _ _ => rfl

theorem exec_txnStatus (h : s.asked n 0x14 false (bytesOk 4 [1, 2, 3]) p) (hpart : s.txnPartOk (leAt p 0 1) = true)
    (htime : s.txnInTime (leAt p 0 1)) : exec (.txnStatus n) s = .next (s.ok n (s.txnStatus (leAt p 0 1))) := by
  refine next_command_of_asked h fun r hr => ?_
  simp only [hr, s.lapseTxn_inTime htime, hpart, if_true]

theorem exec_syndRead (h : s.asked n 0x55 false (bytesOk 1 []) p) (hdec : leAt p 0 1 ≤ 3) :
    exec (.syndRead n) s =
      .next (s.ok n (s.decBytes (leAt p 0 1) ++ (s.decGroups (leAt p 0 1)).dedup.flatMap s.groupBytes)) := by
  refine next_command_of_asked h fun r hr => ?_
  simp only [hr, if_neg (Nat.not_lt.2 hdec)]

theorem State.unitReason_eq_zero {v : UnitDesc} (hvalid : v.valid = true) (hpresent : v.present s.variant = true) :
    s.unitReason v = 0 := by
  simp only [State.unitReason, hvalid, hpresent, Bool.not_true, Bool.false_eq_true, if_false]

theorem exec_calStatus {v : UnitDesc} (h : s.asked n 0x72 false (bytesOk 4 []) p) (hv : v = unitOfWord (leAt p 0 4))
    (hkind : converterKind v.kind = true) (hvalid : v.valid = true) (hpresent : v.present s.variant = true) :
    exec (.calStatus n) s = .next (s.ok n
      (leBytes 1 (if s.calValid v || decide (v.kind = 13) then 1 else 0) ++ leBytes 1 (if (s.calU v).due.isSome then 1 else 0) ++
        leBytes 1 (if (s.calU v).stale then 1 else 0) ++ leBytes 1 (s.calU v).source ++
        leBytes 4 (s.opSec - (s.calU v).opsec) ++ leBytes 2 (unsigned 16 (s.calU v).temp) ++ leBytes 2 0)) := by
  refine next_command_of_asked h fun r hr => ?_
  simp only [hr, ← hv, hkind, if_true, State.unitReason_eq_zero hvalid hpresent, ne_eq, not_true_eq_false, if_false]

end Information

/-- Settles O13: each answer is the command's own effect, which reads the state alone. -/
theorem informationCommandsAnswer : Obligations.InformationCommandsAnswer :=
  ⟨fun _ _ _ => exec_getInfo, fun _ _ _ => exec_logRead, fun _ _ _ => exec_memInfo, fun _ _ _ => exec_txnStatus,
   fun _ _ _ => exec_syndRead, fun _ _ _ h => exec_calStatus h rfl⟩

/-! ## SAFE_ENTER and RESUME (17 R380, R381; 22 R482-R484) -/

section Modes

variable {s t : State}

/-- MODE is a part of what a steady change keeps. -/
theorem Steady.mode_eq {μ : Bool} (h : Steady μ false s t) : t.mode = s.mode := by
  obtain ⟨-, -, -, -, hmode⟩ := h
  exact hmode rfl

theorem State.mode_setMode (s : State) (cause : Nat) {m : Nat} (hm : m ≤ 5) : (s.setMode m cause).mode = m := by
  have hcause : (s.wr F.SPN_MODE_SAFE_CAUSE [] cause).mode = s.mode :=
    State.rd_wr_beside s rfl rfl (by decide) (by decide)
  rw [State.setMode]
  refine (Steady.mode_eq (μ := true) (steady_logEvent _ _ _ _ _ _ _ _ _ (.refl _))).trans ?_
  split
  next hsame => exact hcause.trans hsame
  next =>
    have htick := fun u : State => Steady.mode_eq (μ := true) (s := u)
      (steady_wr u F.SPN_MODE_TIME_TICK [] (short (u.grid)) (.refl u) (by decide))
    refine (htick _).trans ((State.rd_wr_self _ rfl (by decide)).trans (Nat.mod_eq_of_lt ?_))
    exact Nat.lt_of_le_of_lt hm (by decide)

/-- CHANGING stands beside MODE in its word. -/
theorem State.mode_wr_changing (s : State) (v : Nat) : (s.wr F.SPN_MODE_CHANGING [] v).mode = s.mode :=
  State.rd_wr_beside s rfl rfl (by decide) (by decide)

/-- SAFE_ENTER ends in SAFE: MODE is written first, and none of the operations after it writes it. -/
theorem State.mode_enterSafe (h : s.mode ≠ mReset) : (s.enterSafe 4).mode = mSafe := by
  rw [State.enterSafe, if_neg h]
  split
  next hsafe =>
    simpa only [if_true, or_true] using hsafe
  next =>
    have hentered : ((s.setMode mSafe 4).wr F.SPN_MODE_CHANGING [] 0).mode = mSafe :=
      (State.mode_wr_changing _ 0).trans (s.mode_setMode 4 (by decide))
    refine (Steady.mode_eq (μ := true) ?_).trans hentered
    refine steady_syncParts _ (steady_abandonCal _ (steady_safeOutputs _ ?_))
    refine Steady.foldl (fun x a hx => steady_setBar _ _ _ hx) (Steady.foldl (fun x a hx => steady_capSafe _ _ hx) ?_)
    refine Steady.foldl (fun x a hx => steady_endThread _ _ _ _ hx) (Steady.foldl (fun x a hx => steady_endJob _ _ _ _ hx) ?_)
    exact Steady.mk_ (.refl _)

theorem State.mode_ok (s : State) (n : Nat) (b : List Byte) : (s.ok n b).mode = s.mode :=
  Steady.mode_eq (μ := true) (steady_ok s n b (.refl s))

theorem exec_safeEnter {n : Nat} {p : List Byte} (h : s.asked n 0x03 false (bytesOk 0 []) p) (hmode : s.mode ≠ mReset) :
    ∃ t, exec (.safeEnter n) s = .next t ∧ t = (s.enterSafe 4).ok n [] ∧ t.mode = mSafe :=
  ⟨_, next_command_of_asked h fun _ _ => if_neg hmode, rfl, (State.mode_ok _ n []).trans (State.mode_enterSafe hmode)⟩

theorem State.resumeReason_eq_zero (hmode : s.mode = mSafe) (hviral : s.viral = false) (hshut : s.shutdown = false)
    (hdwell : s.rdB F.THM_STATUS_DWELL [] = false) (hwarm : s.anyWarm = false)
    (hready : s.rdB F.MBX_GLOBAL_IDLE_READY [] = true)
    (href : s.rdB F.TIM_REF_CTRL_REQUIRE_REF [] = true → s.rd F.TIM_REF_STATUS_STATE [] = 4) : s.resumeReason = 0 := by
  have hlocked : ¬ (s.rdB F.TIM_REF_CTRL_REQUIRE_REF [] && decide (s.rd F.TIM_REF_STATUS_STATE [] ≠ 4)) = true := by
    simpa using href
  simp only [State.resumeReason, hmode, hviral, hshut, hdwell, hwarm, hready, if_neg hlocked, ne_eq, not_true_eq_false,
    Bool.or_self, Bool.not_true, Bool.false_eq_true, if_false]

theorem exec_resume {n : Nat} {p : List Byte} (h : s.asked n 0x02 false (bytesOk 0 []) p) (hreason : s.resumeReason = 0)
    (hmode : s.mode = mSafe) :
    ∃ t, exec (.resume n) s = .next t ∧ t.mode = mSafe ∧
      t = (({ s with boot := { s.boot with resuming := some (s.boot.resuming.getD s.now) } }).wr
        F.SPN_MODE_CHANGING [] 1).progress n := by
  refine ⟨_, next_command_of_asked h fun _ _ => if_neg (not_not.2 hreason), ?_, rfl⟩
  refine (Steady.mode_eq (μ := true) (steady_progress _ n (.refl _))).trans ((State.mode_wr_changing _ 1).trans hmode)

@[simp] theorem State.logEvent_boot (s : State) (kind sev bit : Nat) (flags : BitVec 8) (block : BitVec 16) (unit : Nat)
    (desc : Word) (data : List Byte) : (s.logEvent kind sev bit flags block unit desc data).boot = s.boot := by
  simp only [State.logEvent, apply_ite State.boot, ite_self]

@[simp] theorem State.setMode_boot (s : State) (m cause : Nat) : (s.setMode m cause).boot = s.boot := by
  simp only [State.setMode, State.logEvent_boot, apply_ite State.boot, State.wr_boot, ite_self]

@[simp] theorem State.ok_boot (s : State) (n : Nat) (b : List Byte) : (s.ok n b).boot = s.boot := by
  obtain ⟨hif, em, hresp⟩ := s.respond_final n 0 0 0 b (status := stOk) (by decide)
  rw [State.ok, hresp]
  rfl

theorem exec_resumeComplete (hresuming : s.boot.resuming.isSome = true) (hmode : s.mode = mSafe) :
    ∃ t, exec .resumeComplete s = .next t ∧ t.mode = mIdle ∧ t.boot.resuming = none ∧
      t = s.resumers.foldl (fun (u : State) n => u.ok n (leBytes 1 mIdle)) ((({ s with
        boot := { s.boot with resuming := none },
        outs := { s.outs with bias := s.outs.bias.map (fun (e : Nat × BiasRun) => (e.1, { e.2 with safeAt := none })) } } :
          State).setMode mIdle (s.rd F.SPN_MODE_SAFE_CAUSE [])).wr F.SPN_MODE_CHANGING [] 0) := by
  refine ⟨_, if_pos ⟨hresuming, hmode⟩, ?_, ?_, rfl⟩
  · refine (Steady.mode_eq (μ := true) (Steady.foldl (fun x n hx => steady_ok x n _ hx) (.refl _))).trans ?_
    exact (State.mode_wr_changing _ 0).trans (State.mode_setMode _ _ (by decide))
  · refine List.foldlRecOn (motive := fun u : State => u.boot.resuming = none) _ _ ?_ fun u hu n _ => ?_
    · rw [State.wr_boot, State.setMode_boot]
    · rw [State.ok_boot]
      exact hu

end Modes

/-- Settles O14: MODE is written once by each change, and what follows it is steady. -/
theorem safeModeCommands : Obligations.SafeModeCommands := by
  refine ⟨fun n s p h hreset _ => exec_safeEnter h hreset, fun n s p h hsafe => exec_safeEnter h ?_,
    fun n s p h hmode hviral hshut hdwell hwarm hready href =>
      exec_resume h (State.resumeReason_eq_zero hmode hviral hshut hdwell hwarm hready href) hmode,
    fun s => exec_resumeComplete⟩
  rw [hsafe]
  decide

/-! ## Firmware images (17 R373; 21 R461; 22 R486, R487) -/

section Firmware

variable {n : Nat} {s : State} {p : List Byte}

theorem exec_fwStage (h : s.asked n 0x90 false (bytesOk 12 []) p) (hreason : s.fwReason (leAt p 0 8) (leAt p 8 4) = 0) :
    exec (.fwStage n) s = .next (State.progress { ((s.setFlash (!s.runsB)
      (some { fwHeader (s.memRead (leAt p 0 8) (leAt p 8 4)) with readOk := false })).wr F.SPN_BOOT_STATUS_STAGED [] 0) with
        boot := { ((s.setFlash (!s.runsB)
          (some { fwHeader (s.memRead (leAt p 0 8) (leAt p 8 4)) with readOk := false })).wr F.SPN_BOOT_STATUS_STAGED [] 0).boot with
          staging := some n } } n) := by
  refine next_command_of_asked h fun r hr => ?_
  simp only [hr, if_neg (not_not.2 hreason)]

theorem exec_fwActivate (h : s.asked n 0x91 false (bytesOk 4 [1, 2, 3]) p) (hflags : leAt p 0 1 ≤ 1)
    (hstaged : s.rdB F.SPN_BOOT_STATUS_STAGED [] = true) (hstandby : s.rdB F.MBX_GLOBAL_STANDBY_READY [] = true)
    (hfree : s.boot.staging = none) :
    exec (.fwActivate n) s = .next ((State.wr { s with
      boot := { s.boot with activating := some (n, bit (leAt p 0 1) 0) } } F.MBX_GLOBAL_STANDBY_READY [] 0).progress n) := by
  refine next_command_of_asked h fun r hr => ?_
  simp only [hr, if_neg (Nat.not_lt.2 hflags), hstaged, hstandby, hfree, Option.isSome_none, Bool.not_true,
    Bool.false_eq_true, if_false]

theorem exec_mgmtHandover (h : s.asked n 0x92 false (bytesOk 0 []) p)
    (hstandby : s.rdB F.MBX_GLOBAL_STANDBY_READY [] = true) :
    exec (.mgmtHandover n) s =
      .next (s.handover.ok n (leBytes 1 (s.handover.rd F.MBX_GLOBAL_ACTIVE_CORE []) ++ leBytes 3 0)) := by
  refine next_command_of_asked h fun _ _ => ?_
  simp only [hstandby, Bool.not_true, Bool.false_eq_true, if_false]

end Firmware

/-- Settles O15: an accepted request passes every check of its command's own. -/
theorem firmwareCommands : Obligations.FirmwareCommands :=
  ⟨fun _ _ _ => exec_fwStage, fun _ _ _ => exec_fwActivate, fun _ _ _ => exec_mgmtHandover⟩

/-! ## Copies (15 R347, 17 R373) -/

section Copies

variable {n : Nat} {s : State} {p : List Byte} {a : CopyAsk} {o : FinalObs}

theorem State.copyReason_eq_zero_iff : s.copyReason a = 0 ↔
    (s.inHost a.dev a.len = true ∧ a.host % 64 = 0 ∧ a.dev % 64 = 0 ∧ 64 ≤ a.len ∧ a.len ≤ 2 ^ 26 ∧ a.len % 64 = 0 ∧
      s.viral = false) := by
  unfold State.copyReason
  split
  next hout =>
    refine ⟨fun e => absurd e (by decide), fun ⟨hin, _⟩ => ?_⟩
    simp [hin] at hout
  next hin =>
    rw [Bool.not_eq_true, Bool.not_eq_false'] at hin
    split
    next hbad => exact ⟨fun e => absurd e (by decide), fun h => absurd hbad (by omega)⟩
    next hgood =>
      split
      next hviral => exact ⟨fun e => absurd e (by decide), fun h => absurd hviral (by simp [h])⟩
      next hcalm => exact ⟨fun _ => ⟨hin, by omega, by omega, by omega, by omega, by omega, Bool.not_eq_true _ ▸ hcalm⟩, fun _ => rfl⟩

theorem State.beginCopy_accepted (hreason : s.copyReason a = 0) : s.beginCopy n a = s.progress n :=
  if_neg (not_not.2 hreason)

theorem exec_hostCopyIn (h : s.asked n 0x80 false (bytesOk 20 []) p) (hreason : s.copyReason (copyAsk true p) = 0) :
    exec (.hostCopyIn n) s = .next (s.progress n) := by
  refine next_command_of_asked h fun r hr => ?_
  rw [hr, State.beginCopy_accepted hreason]

theorem exec_hostCopyOut (h : s.asked n 0x81 false (bytesOk 20 []) p) (hreason : s.copyReason (copyAsk false p) = 0) :
    exec (.hostCopyOut n) s = .next (s.progress n) := by
  refine next_command_of_asked h fun r hr => ?_
  rw [hr, State.beginCopy_accepted hreason]

/-- The final response of a command at work is what `finish` gives its opcode. -/
theorem exec_commandFinalResponse (hn : n < 64) (hbusy : s.mbxState n = mBusy) (hwork : (s.mbx n).inProg = true) :
    exec (.commandFinalResponse n o) s = .next (s.finish n o) := if_pos ⟨hn, hbusy, hwork⟩

theorem State.finish_copyIn (hop : (s.mbx n).req.opcode = 0x80) :
    s.finish n o = s.endCopy n true (copyAsk true (s.mbx n).req.payload) o := by
  simp only [State.finish, hop]

theorem State.finish_copyOut (hop : (s.mbx n).req.opcode = 0x81) :
    s.finish n o = s.endCopy n false (copyAsk false (s.mbx n).req.payload) o := by
  simp only [State.finish, hop]

/-- A copy inward that ends whole writes the bytes that it names. -/
theorem State.endCopy_in (hok : o.ok = true) (hdata : a.len ≤ o.data.length) :
    s.endCopy n true a o = (s.memWrite a.dev (o.data.take a.len)).ok n (leBytes 4 a.len) := by
  simp only [State.endCopy, hok, if_true, true_and, if_neg (Nat.not_lt.2 hdata)]

/-- A copy outward that ends whole sends the bytes that it names, with their poisoned lines. -/
theorem State.endCopy_out (hok : o.ok = true) (hlen : 0 < a.len) :
    s.endCopy n false a o = (s.emit (.hostWrite a.host (s.memRead a.dev a.len)
      (((List.range ((a.len + 63) / 64)).filter (fun i => s.memPoisoned (a.dev + 64 * i) 64)).map (fun i =>
        a.host / 64 + i)))).ok n (leBytes 4 a.len) := by
  simp only [State.endCopy, hok, if_true, Bool.false_eq_true, false_and, if_false, if_neg hlen.ne']

@[simp] theorem State.byteAt_ok (s : State) (n : Nat) (b : List Byte) (x : Nat) : (s.ok n b).byteAt x = s.byteAt x := by
  obtain ⟨hif, em, hresp⟩ := s.respond_final n 0 0 0 b (status := stOk) (by decide)
  rw [State.ok, hresp]
  rfl

end Copies

/-- Settles O16: the bytes of a copy inward are one `memWrite`, which is read back and leaves every other byte. -/
theorem hostCopiesMoveBytes : Obligations.HostCopiesMoveBytes := by
  refine ⟨fun _ _ _ => exec_hostCopyIn, fun _ _ _ => exec_hostCopyOut, fun _ _ => State.copyReason_eq_zero_iff,
    fun n s o hn hbusy hwork hop hok hdata => ?inward, fun n s o hn hbusy hwork hop hok hlen => ?outward⟩
  case inward =>
    have htake : (o.data.take (copyAsk true (s.mbx n).req.payload).len).length = (copyAsk true (s.mbx n).req.payload).len :=
      List.length_take_of_le hdata
    refine ⟨_, (exec_commandFinalResponse hn hbusy hwork).trans
      (congrArg _ ((State.finish_copyIn hop).trans (State.endCopy_in hok hdata))), fun k hk hlt => ?_, fun x hx => ?_, rfl⟩
    · rw [State.byteAt_ok, State.byteAt_memWrite_self s (htake.symm ▸ hlt), List.getElem_take]
    · rw [State.byteAt_ok, State.byteAt_memWrite_other s (htake.symm ▸ hx)]
  case outward =>
    rw [exec_commandFinalResponse hn hbusy hwork, State.finish_copyOut hop, State.endCopy_out hok hlen]

end Sys2Proof.Machine

/-! SUPPORT. What transactions and the commands of units leave (obligations O49, O50). -/

namespace Sys2Proof.Machine

/-! ## Transactions (17 R385-R390) -/

section Transactions

variable {n q : Nat} {s u : State} {p : List Byte} {t : Txn}

theorem State.txnInTime_of_none (hnone : s.openTxn q = none) : s.txnInTime q := by
  intro t ht
  rw [hnone] at ht
  cases ht

/-- An OPEN transaction ends 10 s after its TXN_BEGIN (17 R386). -/
theorem State.lapseTxn_late (hopen : s.openTxn q = some t) (hlate : t.begin_ + 1562500000 ≤ s.now) (hu : u = s.setOpen q none) :
    s.lapseTxn q = State.wr { u with mb := { u.mb with timedOut := u.mb.timedOut ++ [t.id] } } F.SPN_TXN_TIMEOUT [q] 1 := by
  subst hu
  simp only [State.lapseTxn, hopen, if_pos hlate]

theorem exec_txnBegin (h : s.asked n 0x10 false (bytesOk 4 [1, 2, 3]) p) (hpart : s.txnPartOk (leAt p 0 1) = true)
    (hnone : s.openTxn (leAt p 0 1) = none) : exec (.txnBegin n) s = .next (s.beginTxn n (leAt p 0 1)) := by
  refine next_command_of_asked h fun r hr => ?_
  simp only [hr, s.lapseTxn_inTime (State.txnInTime_of_none hnone), hpart, hnone, Option.isSome_none, Bool.not_true,
    Bool.false_eq_true, if_false]

/-- Entries that may be staged and fit are put in the transaction. -/
theorem State.setTxn_accepted {es l : List TxnEntry} (hok : firstReason (s.stageEntryReason q) 0 es = none)
    (hl : l = es.foldl putEntry t.entries) (hmost : l.length ≤ 4096)
    (htotal : s.txnTotal - t.entries.length + l.length ≤ 16384) :
    s.setTxn n q t es = (s.setOpen q (some { t with entries := l })).respond n stOk 0 0 t.id (leBytes 2 l.length) := by
  subst hl
  simp only [State.setTxn, hok, if_neg (not_or.2 ⟨Nat.not_lt.2 hmost, Nat.not_lt.2 htotal⟩)]

/-- A transaction command meets its OPEN transaction in time: the request's own TXN_ID names it. -/
theorem exec_txnSet {es : List TxnEntry} (h : s.asked n 0x11 true txnSetLayout p)
    (hnamed : s.named (s.mbx n).req.txnId = some (q, t)) (htime : s.txnInTime ((s.mbx n).req.txnId.toNat % 256))
    (hes : es = txnEntries p) (hsome : es.length ≠ 0) (hmost : es.length ≤ 125) :
    exec (.txnSet n) s = .next (s.setTxn n q t es) := by
  have ⟨_, _, _, hpay⟩ := h
  refine congrArg Host.Outcome.next ((s.command_asked h).trans ?_)
  simp only [s.lapseTxn_inTime htime, hnamed, hpay, ← hes, if_neg (not_or.2 ⟨hsome, Nat.not_lt.2 hmost⟩)]

theorem exec_txnCommit (h : s.asked n 0x12 true (bytesOk 8 []) p) (hnamed : s.named (s.mbx n).req.txnId = some (q, t))
    (htime : s.txnInTime ((s.mbx n).req.txnId.toNat % 256)) :
    exec (.txnCommit n) s = .next (s.settleTxns.commitTxn n q t (leAt p 0 8)) := by
  have ⟨_, _, _, hpay⟩ := h
  refine congrArg Host.Outcome.next ((s.command_asked h).trans ?_)
  simp only [s.lapseTxn_inTime htime, hnamed, hpay]

theorem State.commitTxn_accepted {tick c : Nat} (hc : c = if tick = 0 then u.now + 1563 else u.fromGrid (tick / 128))
    (hnone : u.commTxn q = none) (hgrid : tick % 128 = 0)
    (hok : firstReason (u.checkEntry n c t.entries) 0 t.entries = none) (hlo : u.now + 1563 ≤ c)
    (hhi : c ≤ u.now + 1562500000) : u.commitTxn n q t tick = u.acceptTxn n q t c := by
  simp only [State.commitTxn, hnone, Option.isSome_none, Bool.false_eq_true, if_false, if_neg (not_not.2 hgrid), ← hc, hok,
    if_neg (not_or.2 ⟨Nat.not_lt.2 hlo, Nat.not_lt.2 hhi⟩)]

theorem exec_txnRollback_open (h : s.asked n 0x13 true (bytesOk 0 []) p)
    (hnamed : s.named (s.mbx n).req.txnId = some (q, t)) (htime : s.txnInTime ((s.mbx n).req.txnId.toNat % 256)) :
    exec (.txnRollback n) s = .next ((s.setOpen q none).respond n stOk 0 0 t.id []) := by
  refine congrArg Host.Outcome.next ((s.command_asked h).trans ?_)
  simp only [s.lapseTxn_inTime htime, hnamed]

/-- A committed transaction is not rolled back (17 R394). -/
theorem exec_txnRollback_committed (h : s.asked n 0x13 true (bytesOk 0 []) p)
    (hnamed : s.named (s.mbx n).req.txnId = none) (htime : s.txnInTime ((s.mbx n).req.txnId.toNat % 256))
    (hcommitted : s.commTxn ((s.mbx n).req.txnId.toNat % 256) = some t) (hid : t.id = (s.mbx n).req.txnId) :
    exec (.txnRollback n) s = .next (s.respond n stRefused 0x0906 whole (s.mbx n).req.txnId []) := by
  refine congrArg Host.Outcome.next ((s.command_asked h).trans ?_)
  simp only [s.lapseTxn_inTime htime, hnamed, hcommitted, hid, decide_true, if_true]

end Transactions

/-- Settles O49: a transaction in time does not lapse, and an accepted command passes every check of its own. -/
theorem transactions : Obligations.Transactions :=
  ⟨fun _ _ _ => exec_txnBegin,
   fun _ _ _ _ _ _ _ h hnamed htime hes hsome hmost hok hl hlen htotal =>
     (exec_txnSet h hnamed htime hes hsome hmost).trans (congrArg _ (State.setTxn_accepted hok hl hlen htotal)),
   fun _ _ tick c s u _ _ h hnamed htime hu htick hc hnone hgrid hok hlo hhi => by
     rw [exec_txnCommit h hnamed htime, ← hu, ← htick, State.commitTxn_accepted hc hnone hgrid hok hlo hhi],
   fun _ _ _ _ _ => exec_txnRollback_open, fun _ _ _ _ => exec_txnRollback_committed,
   fun _ _ _ _ hopen hlate hu => congrArg Host.Outcome.next (State.lapseTxn_late hopen hlate hu)⟩

/-! ## Commands of units (17 R382, R383; 18 R398-R400; 21 R454-R457) -/

section UnitRanges

variable {n t : Nat} {s : State} {p : List Byte} {k : OutKind} {cs : List Nat}

theorem exec_unitEnable {u : State} {rs : List Nat} (h : s.asked n 0x20 false (bytesOk 8 [5, 6, 7]) p)
    (hrange : s.enRange p = .ok (k, t, cs))
    (hu : u = cs.foldl (fun (s : State) c => (s.enableOn k t c).enableDone k t c) s)
    (hrs : rs = cs.map (fun c => u.rd (fEnReason k) [t, c])) :
    exec (.unitEnable n) s = .next (if rs.all (fun x => decide (x ≠ 0)) then u.deny n (rs.headD 0) 0
      else u.ok n (rs.flatMap (fun x => leBytes 2 (if x = 0 then 1 else 0) ++ leBytes 2 x))) := by
  refine next_command_of_asked h fun r hr => ?_
  simp only [hr, hrange, ← hu, ← hrs]

theorem exec_unitDisable (h : s.asked n 0x21 false (bytesOk 8 [5, 6, 7]) p) (hrange : s.enRange p = .ok (k, t, cs)) :
    exec (.unitDisable n) s = .next ((cs.foldl (fun s c => s.enableOff k t c) s).ok n []) := by
  refine next_command_of_asked h fun r hr => ?_
  simp only [hr, hrange]

end UnitRanges

section Fences

variable {n : Nat} {s : State} {p : List Byte} {v : UnitDesc} {o : FinalObs}

theorem exec_fence (h : s.asked n 0x22 false (bytesOk 4 []) p) (hv : v = unitOfWord (leAt p 0 4)) :
    exec (.fence n) s = .next (s.fenceBy n v) :=
  next_command_of_asked h fun r hr => by rw [hr, hv]

theorem State.fenceBy_accepted (hreason : s.fenceReason v = 0) : s.fenceBy n v = (s.fenceUnit v true).ok n [] :=
  if_neg (not_not.2 hreason)

theorem State.fenceBy_refused (hreason : s.fenceReason v ≠ 0) : s.fenceBy n v = s.deny n (s.fenceReason v) whole :=
  if_pos hreason

theorem exec_memRetire_device (h : s.asked n 0xA1 false (bytesOk 4 []) p) (hv : v = unitOfWord (leAt p 0 4)) (hkind : v.kind = 14) :
    exec (.memRetire n) s = .next (s.fenceBy n v) :=
  next_command_of_asked h fun r hr => by simp only [hr, ← hv, if_pos hkind]

theorem exec_memRetire_other (h : s.asked n 0xA1 false (bytesOk 4 []) p) (hv : v = unitOfWord (leAt p 0 4)) (hkind : v.kind ≠ 14) :
    exec (.memRetire n) s = .next (s.deny n 0x0501 whole) :=
  next_command_of_asked h fun r hr => by simp only [hr, ← hv, if_neg hkind]

theorem exec_unfence (h : s.asked n 0x23 false (bytesOk 4 []) p) (hv : v = unitOfWord (leAt p 0 4))
    (hreason : s.unfenceReason v = 0) :
    exec (.unfence n) s = .next (if s.ownFence v then s.progress n else s.ok n []) :=
  next_command_of_asked h fun r hr => by simp only [hr, ← hv, if_neg (not_not.2 hreason)]

theorem State.finish_unfence (hop : (s.mbx n).req.opcode = 0x23) (hv : v = unitOfWord (leAt (s.mbx n).req.payload 0 4)) :
    s.finish n o = s.endUnfence n v o.ok := by
  simp only [State.finish, hop, hv]

theorem State.endUnfence_ok :
    s.endUnfence n v true = (((s.unfenceUnit v).logUnit 3 4 v (leBytes 2 0)).advise).ok n [] := rfl

theorem State.endUnfence_failed : s.endUnfence n v false = (s.logUnit 3 4 v (leBytes 2 0x0402)).fail n 0x0402 := rfl

theorem State.fenceReason_absent (hvalid : v.valid = true) (habsent : v.present s.variant = false) :
    s.fenceReason v = 0x0102 := by
  simp [State.fenceReason, State.unitReason, hvalid, habsent]

theorem State.fenceReason_tdcInput9 (hvalid : v.valid = true) (hpresent : v.present s.variant = true) (hkind : v.kind = 13)
    (hindex : v.index = 9) : s.fenceReason v = 0x0501 := by
  simp [State.fenceReason, State.unitReason_eq_zero hvalid hpresent, hkind, hindex]

theorem State.fenceReason_secondDevice (hvalid : v.valid = true) (hpresent : v.present s.variant = true) (hkind : v.kind = 14)
    (hfitted : s.rdB F.MEM_DEV_ERR_FITTED [v.index] = true) (hfree : s.ownFence v = false)
    (hgroup : s.groupRetired v.index = true) : s.fenceReason v = 0x0B03 := by
  simp [State.fenceReason, State.unitReason_eq_zero hvalid hpresent, hkind, hfitted, hfree, hgroup]

end Fences

/-- Settles O50: a request passes the checks that its premises name; the reasons and `ok` choose the answer. -/
theorem unitCommands : Obligations.UnitCommands := by
  refine ⟨fun n t s u p k cs rs h hrange hu hrs => ?enable, fun _ _ _ _ _ _ => exec_unitDisable, fun n s p v h hv => ?fence,
    fun n s p v h hv => ?retire, fun n s p v h hv hreason => ?unfence, fun n s o v hn hbusy hwork hop hv => ?final,
    fun s v => ⟨State.fenceReason_absent, State.fenceReason_tdcInput9, State.fenceReason_secondDevice⟩⟩
  case enable =>
    have henables := exec_unitEnable h hrange hu hrs
    exact ⟨fun hsome => henables.trans (congrArg _ (if_neg (ne_true_of_eq_false hsome))),
      fun hnone => henables.trans (congrArg _ (if_pos hnone))⟩
  case fence =>
    have hfences := exec_fence h hv
    exact ⟨fun hok => hfences.trans (congrArg _ (State.fenceBy_accepted hok)),
      fun hbad => hfences.trans (congrArg _ (State.fenceBy_refused hbad))⟩
  case retire =>
    exact ⟨fun hkind hok => (exec_memRetire_device h hv hkind).trans (congrArg _ (State.fenceBy_accepted hok)),
      exec_memRetire_other h hv⟩
  case unfence =>
    have hunfences := exec_unfence h hv hreason
    exact ⟨fun hfenced => hunfences.trans (congrArg _ (if_pos hfenced)),
      fun hfree => hunfences.trans (congrArg _ (if_neg (ne_true_of_eq_false hfree)))⟩
  case final =>
    have hends := (exec_commandFinalResponse (o := o) hn hbusy hwork).trans (congrArg _ (State.finish_unfence hop hv))
    refine ⟨fun hok => ?_, fun hfailed => ?_⟩
    · rw [hends, hok, State.endUnfence_ok]
    · rw [hends, hfailed, State.endUnfence_failed]

end Sys2Proof.Machine

/-! SUPPORT. What device memory and its errors leave (obligation O48). -/

namespace Sys2Proof.Machine

section DeviceMemory

variable {s u : State}

/-! ## MEM_READY (18 R395-R398, R401, R403) -/

/-- What MEM_READY makes of the devices that Sinter retires and of the boot test's bad devices, before it decides. -/
theorem exec_memReady {o : MemObs} {old bad : List Nat} (haccepted : s.boot.accepted = true)
    (hactive : s.rdB F.SPN_HIF_STATUS_MEM_ACTIVE [] = false) (hfail : s.rdB F.SPN_HIF_STATUS_MEM_FAIL [] = false)
    (hold : old = (s.msvc.sinterRetired.filter (fun d => !o.changed.contains (d / 40))).filter (deviceFitted o.ranks))
    (hbad : bad = o.badDevs.filter (fun d => deviceFitted o.ranks d && !old.contains d)) :
    (let z := { s with msvc := { s.msvc with
       sinterRetired := s.msvc.sinterRetired.filter (fun d => !o.changed.contains (d / 40)) } };
     let a := (z.wr F.MEM_CFG_CAPACITY [] o.capacity).wr F.MEM_CFG_RANKS [] (o.ranks - 1);
     let b := (a.wr F.MEM_CFG_DENSITY [] ((o.density - 16) / 8)).wrB F.MEM_CFG_DOWN [] o.down;
     let c := b.wrB F.MEM_STATUS_TRAINED [] o.trained;
     let d := ((List.range 80).filter (deviceFitted o.ranks)).foldl (fun s d => s.wr F.MEM_DEV_ERR_FITTED [d] 1) c;
     let e := bad.foldl (fun s d => s.retire d 3) ((old.foldl State.reRetire d).wr F.MEM_STATUS_RETIRED [] old.length);
     let f := (e.wr F.MEM_STATUS_TESTED [] 1).wr F.MEM_HOST_SIZE_H [] (4 * o.capacity - o.capacity / 4 - 16);
     let g := f.wr F.QMG_STAGE_POOL_POOL [] (64 * o.capacity);
     let h := { g with msvc := { g.msvc with
       initBlocks := []
       allInit := false } };
     exec (.memReady o) s = if memSupported o && o.trained && o.testOk && groupsOk (old ++ bad) then
         .next (h.wr F.SPN_HIF_STATUS_MEM_ACTIVE [] 1).advise
       else .next ((c.wr F.MEM_STATUS_MEM_FAIL [] 1).wr F.SPN_HIF_STATUS_MEM_FAIL [] 1)) := by
  subst hbad hold
  exact if_pos ⟨haccepted, by rw [hactive]; rfl, by rw [hfail]; rfl⟩

/-! ## Patrol, thresholds and initialisation (18 R399, R400, R404, R405) -/

section Active

variable (hactive : s.rdB F.SPN_HIF_STATUS_MEM_ACTIVE [] = true)

include hactive

theorem exec_patrolPassEnd (hu : u = (List.range 80).foldl (fun s d =>
      (s.wr F.MEM_DEV_ERR_LAST_PASS [d] (min 4095 (s.rd F.MEM_DEV_ERR_CE_COUNT [d]))).wr F.MEM_DEV_ERR_CE_COUNT [d] 0) s) :
    exec .patrolPassEnd s = .next ((u.count F.MEM_PATROL_PASSES [] 1).wr F.MEM_PATROL_PROGRESS [] 0) := by
  subst hu
  exact if_pos hactive

theorem exec_devRetireThreshold {d k : Nat} (hfitted : s.rdB F.MEM_DEV_ERR_FITTED [d] = true)
    (hretired : s.rdB F.MEM_DEV_ERR_RETIRED [d] = false)
    (hk : k = s.rd F.MEM_RETIRE_THR_THR [] - s.rd F.MEM_DEV_ERR_CE_COUNT [d])
    (hu : u = ((((s.count F.MEM_DEV_ERR_CE_COUNT [d] k).count F.MEM_CE_TOTAL_COUNT [] k).wr F.MEM_LAST_ERR_DEVICE [] d).wr
      F.MEM_LAST_ERR_UE [] 0).note (.spine 10) 5 d) :
    exec (.devRetireThreshold d) s = .next (if u.groupRetired d then u.note (.spine 10) 2 d else (u.retire d 2).advise) := by
  subst hu hk
  exact if_pos ⟨hactive, hfitted, by rw [hretired]; rfl⟩

theorem exec_memInitDone : exec .memInitDone s = .next { s.wr F.MEM_STATUS_INIT_DONE [] 1 with msvc := { s.msvc with
      initBlocks := []
      allInit := true } } := if_pos hactive

end Active

/-! ## Uncorrectable errors (18 R402) -/

/-- The firmware region keeps two copies: whether both are bad, for what its firmware reads or patrol finds there. -/
def State.badCopies (u : State) (a : Nat) : MemOwner → Option Bool
  | .firmware both => some both
  | .patrol => if u.memCap - 2 ^ 32 ≤ a then some false else none
  | _ => none

theorem State.badCopies_patrol {a : Nat} (habove : u.memCap - 2 ^ 32 > a) : u.badCopies a .patrol = none := by
  simp only [State.badCopies, if_neg (Nat.not_le.2 habove)]

/-- What the owner of a poisoned line loses: ring samples, or a staged result line. -/
def State.losesLine (v : State) (a : Nat) : MemOwner → State
  | .ring t k => v.ringLoss t k a
  | .staging j l => v.updJob j (fun b => { b with bad := b.bad ++ [l] })
  | _ => v

section Uncorrectable

variable {a d : Nat} {w : MemOwner}

/-- In the firmware region the fault is all; elsewhere the line is poisoned and recorded, and its owner then loses what it
held there. -/
theorem exec_memUncorrectable {v : State} (hactive : s.rdB F.SPN_HIF_STATUS_MEM_ACTIVE [] = true) (ha : a < s.memCap)
    (hd : d < 80 ∨ d = 0x7F)
    (hu : u = (((((s.count F.MEM_UE_TOTAL_COUNT [] 1).wr F.MEM_LAST_ERR_DEVICE [] d).wr F.MEM_LAST_ERR_UE [] 1).wr
      F.MEM_LAST_ERR_OWNER [] (ownerCode w)).wr F.MEM_LAST_ERR_LO_ADDR_LO [] (64 * (a / 64))).wr
      F.MEM_LAST_ERR_HI_ADDR_HI [] (64 * (a / 64) / 2 ^ 32))
    (hv : v = (if u.msvc.poison.contains (a / 64) then u else
      { u with msvc := { u.msvc with poison := u.msvc.poison ++ [a / 64] } }).note (.spine 10) 3 d) :
    exec (.memUncorrectable a d w) s =
      .next ((u.badCopies a w).elim (v.losesLine a w) (fun both => u.fault (.spine 10) (if both then 0 else 4) d)) := by
  show execMemUncorrectable a d w s = _
  unfold execMemUncorrectable
  rw [if_pos ⟨hactive, ha, hd⟩]
  lift_lets
  intro counted owned noted copies svc poisoned lost
  have hnoted : noted = u := hu.symm
  have hlost : lost = v := hv.symm ▸ hnoted ▸ rfl
  have hcopies : copies = u.badCopies a w := by
    rw [← hnoted]
    cases w <;> rfl
  clear_value copies lost
  rw [hcopies, hlost, hnoted]
  cases u.badCopies a w with
  | some both => rfl
  | none => cases w <;> rfl

end Uncorrectable

end DeviceMemory

/-- Settles O48: each event takes the branch that its premises name. -/
theorem deviceMemory : Obligations.DeviceMemory := by
  refine ⟨fun s o old bad haccepted hactive hfail hold hbad => ?ready, fun _ _ hactive => exec_patrolPassEnd hactive,
    fun _ _ _ _ hactive => exec_devRetireThreshold hactive, fun s u a d w hactive ha hd hu => ?uncorrectable,
    fun _ => exec_memInitDone⟩
  case ready =>
    have hdecides := exec_memReady haccepted hactive hfail hold hbad
    exact ⟨fun hgood => hdecides.trans (if_pos hgood), fun hbad => hdecides.trans (if_neg (ne_true_of_eq_false hbad))⟩
  case uncorrectable =>
    refine ⟨fun both hw => ?_, fun v hv => ?_⟩
    · subst hw
      exact exec_memUncorrectable hactive ha hd hu rfl
    · have hevent := exec_memUncorrectable hactive ha hd hu hv
      refine ⟨fun hkind => ?_, fun t k hw => ?_, fun j l hw => ?_⟩
      · obtain hw | hw | ⟨hw, habove⟩ := hkind
        · subst hw
          exact hevent
        · subst hw
          exact hevent
        · subst hw
          rwa [State.badCopies_patrol habove] at hevent
      · subst hw
        exact hevent
      · subst hw
        exact hevent

end Sys2Proof.Machine

/-! SUPPORT. The host link, its memory requests and the delivery of results (obligations O46, O47). -/

namespace Sys2Proof.Machine

/-! ## The link (02 R54; 15 R330, R341-R345) -/

section Link

variable {s : State}

theorem widthCode_ne_zero {w : Nat} (h : w = 1 ∨ w = 2 ∨ w = 4 ∨ w = 8) : widthCode w ≠ 0 := by
  obtain rfl | rfl | rfl | rfl := h <;> decide

/-- A link that comes up: MODE fixed, its width and speed shown, low ones being DEGRADED. -/
theorem exec_linkUp {cxl : Bool} {w v want : Nat} (hwant : want = if cxl then 1 else 2) (hperst : s.boot.perstN = true)
    (hhold : s.boot.seqHold = false) (hdown : s.linkUp = false)
    (hmode : s.rd F.SPN_HIF_STATUS_MODE [] = 0 ∨ s.rd F.SPN_HIF_STATUS_MODE [] = want)
    (hwidth : w = 1 ∨ w = 2 ∨ w = 4 ∨ w = 8) (hlo : 1 ≤ v) (hhi : v ≤ 5) (hcxl : cxl = true → 3 ≤ v) :
    (let a := (s.wr F.SPN_HIF_STATUS_MODE [] want).wr F.SPN_HIF_STATUS_LINK_UP [] 1;
     let b := (a.wr F.SPN_HIF_STATUS_WIDTH [] (widthCode w)).wr F.SPN_HIF_STATUS_SPEED [] v;
     let c := b.wrB F.SPN_HIF_STATUS_DEGRADED [] (decide (w < 8) || decide (v < 5));
     let d := c.setHif { c.hif with
       refclk := true
       cxlDown := false };
     exec (.linkUp cxl w v) s =
       .next (State.outageEnd (if decide (w < 8) || decide (v < 5) then d.note (.spine 0) 2 0 else d))) := by
  subst hwant
  have hspeed : (!cxl) = true ∨ 3 ≤ v := by
    cases cxl
    · exact .inl rfl
    · exact .inr (hcxl rfl)
  exact if_pos ⟨hperst, by rw [hhold]; rfl, by rw [hdown]; rfl, hmode, widthCode_ne_zero hwidth, hlo, hhi, hspeed⟩

theorem State.linkOutage_up (hup : s.linkUp = true) :
    s.linkOutage = (s.outageEnd.portReset.outageBegin).note (.spine 0) 3 0 := if_pos hup

theorem exec_d3hotWrite (hup : s.linkUp = true) (hd0 : s.d3hot = false) :
    exec .d3hotWrite s = .next ((s.wr F.SPN_HIF_STATUS_D3HOT [] 1).outageBegin) :=
  if_pos ⟨hup, by rw [hd0]; rfl⟩

theorem exec_d0Write (hd3 : s.d3hot = true) :
    exec .d0Write s = .next ((s.wr F.SPN_HIF_STATUS_D3HOT [] 0).outageEnd).flushMsix := if_pos hd3

theorem exec_viralReceive (hcxl : s.cxlMode = true) (hup : s.linkUp = true) (hviral : s.hif.viralEn = true) :
    exec .viralReceive s = .next (s.fault (.spine 0) 1 0) := if_pos ⟨hcxl, hup, hviral⟩

theorem exec_cacheSnoop {a : Nat} (hcxl : s.cxlMode = true) (hlink : s.linkCarries = true) :
    exec (.cacheSnoop a) s = .next (s.emit (.snoopMiss a)) := if_pos ⟨hcxl, hlink⟩

/-! ## Configuration space (15 R331, R332, R338, R342, R343) -/

/-- Before configuration space is ready every request is to be tried again. -/
theorem exec_configRequest_retry {r : CfgReq} (hup : s.linkUp = true) (hready : s.hif.cfgReady = false) :
    exec (.configRequest r) s = .next (s.emit .retry) :=
  (if_neg (by simp [hup])).trans (if_pos (by simp [hready]))

section Ready

variable (hup : s.linkUp = true) (hready : s.hif.cfgReady = true)

include hup hready

theorem exec_configRequest_read {off : Nat} :
    exec (.configRequest (.read off)) s = .next (s.emit (.regData [s.cfgRead off])) :=
  (if_neg (by simp [hup])).trans (if_neg (by simp [hready]))

theorem exec_configRequest_msixEnable {b : Bool} :
    exec (.configRequest (.msixEnable b)) s = .next (s.setHif { s.hif with msixEn := b }).flushMsix :=
  (if_neg (by simp [hup])).trans (if_neg (by simp [hready]))

theorem exec_configRequest_other {off : Nat} {v : Word} : exec (.configRequest (.other off v)) s =
    .next (s.setHif { s.hif with cfg := SMap.put 0 s.hif.cfg off v }) :=
  (if_neg (by simp [hup])).trans (if_neg (by simp [hready]))

/-- The CXL controls are written in CXL mode. -/
theorem exec_configRequest_cxl {b : Bool} (hcxl : s.cxlMode = true) :
    exec (.configRequest (.cacheEnable b)) s = .next ((s.setHif { s.hif with cacheEn := b }).wrB F.SPN_HIF_STATUS_CACHE_ON [] b) ∧
      exec (.configRequest (.memEnable b)) s = .next (s.setHif { s.hif with memEn := b }) ∧
      exec (.configRequest (.viralEnable b)) s = .next (s.setHif { s.hif with viralEn := b }) := by
  refine ⟨?_, ?_, ?_⟩
  all_goals exact (if_neg (by simp [hup])).trans ((if_neg (by simp [hready])).trans (if_pos hcxl))

/-- In PCIe mode they are written without effect. -/
theorem exec_configRequest_pcie {b : Bool} (hpcie : s.cxlMode = false) :
    exec (.configRequest (.cacheEnable b)) s = .next s ∧ exec (.configRequest (.memEnable b)) s = .next s ∧
      exec (.configRequest (.viralEnable b)) s = .next s := by
  refine ⟨?_, ?_, ?_⟩
  all_goals exact (if_neg (by simp [hup])).trans ((if_neg (by simp [hready])).trans (if_neg (ne_true_of_eq_false hpcie)))

end Ready

end Link

/-- Settles O46: each event takes the branch that its premises name. -/
theorem hostLink : Obligations.HostLink :=
  ⟨fun _ _ _ _ _ => exec_linkUp, fun _ hup => congrArg Host.Outcome.next (State.linkOutage_up hup),
   fun s hup => congrArg Host.Outcome.next
     (State.linkOutage_up (s := s.setHif { s.hif with refclk := false, cxlDown := true }) hup),
   fun _ => exec_d3hotWrite, fun _ => exec_d0Write, fun _ _ => exec_configRequest_retry,
   fun _ hup hready => ⟨fun _ => exec_configRequest_read hup hready, rfl, fun _ => exec_configRequest_msixEnable hup hready,
     fun _ _ => exec_configRequest_other hup hready, fun _ => exec_configRequest_cxl hup hready,
     fun _ => exec_configRequest_pcie hup hready⟩,
   fun _ => exec_viralReceive, fun _ _ => exec_cacheSnoop⟩

/-! ## HDM decoders and CXL.mem (15 R336, R337, R342) -/

section HostMemory

variable {s : State}

/-- An unlocked decoder takes one way and at most its half of the host region; else it shows its error. -/
theorem exec_hdmCommit {d b z w : Nat} {l : Bool} (hd : d < 2) (hup : s.linkUp = true) (hready : s.hif.cfgReady = true)
    (hfree : (s.hdm d).locked = false) :
    exec (.hdmCommit d b z w l) s = if w = 1 ∧ z ≤ s.rangeSize d then
        .next (s.setHdm d { base := b, size := z, committed := true, locked := l, err := false })
      else .next (s.setHdm d { base := b, size := z, committed := false, locked := false, err := true }) :=
  if_pos ⟨hd, hup, hready, by rw [hfree]; rfl⟩

theorem State.hdmMap_first {h : Nat} (hcommitted : s.hif.hdm0.committed = true) (hlo : s.hif.hdm0.base ≤ h)
    (hhi : h < s.hif.hdm0.base + s.hif.hdm0.size) : s.hdmMap h = some (h - s.hif.hdm0.base) :=
  if_pos ⟨hcommitted, hlo, hhi⟩

section Request

variable {h a : Nat} {data : List Byte} (hcxl : s.cxlMode = true) (hup : s.linkUp = true) (hd0 : s.d3hot = false)
  (hdata : data.length ≤ 64)

include hcxl hup hd0 hdata

theorem exec_cxlmemRequest_unmapped (hmap : s.hdmMap h = none) :
    exec (.cxlmemRequest false h data) s = .next (s.emit (.readData (List.replicate 64 0xFF) false)) ∧
      exec (.cxlmemRequest true h data) s = .next (s.emit .masterAbort) := by
  have houtside : (if s.rdB F.SPN_HIF_STATUS_MEM_ACTIVE [] = true ∧ s.hif.memEn = true then s.hdmMap h else none) = none := by
    rw [hmap, ite_self]
  refine ⟨?_, ?_⟩
  · show execCxlmemRequest false h data s = _
    simp only [execCxlmemRequest, hcxl, hup, hd0, hdata, houtside, Bool.not_false, and_self, if_true, Bool.false_eq_true, if_false]
  · show execCxlmemRequest true h data s = _
    simp only [execCxlmemRequest, hcxl, hup, hd0, hdata, houtside, Bool.not_false, and_self, if_true]

section Mapped

variable (hviral : s.viral = false) (hactive : s.rdB F.SPN_HIF_STATUS_MEM_ACTIVE [] = true) (hmem : s.hif.memEn = true)
  (hmap : s.hdmMap h = some a)

include hviral hactive hmem hmap

theorem exec_cxlmemRequest_write :
    exec (.cxlmemRequest true h data) s = .next ((s.memWrite a data).emit .writeDone) := by
  have hinside : (if s.rdB F.SPN_HIF_STATUS_MEM_ACTIVE [] = true ∧ s.hif.memEn = true then s.hdmMap h else none) = some a :=
    (if_pos ⟨hactive, hmem⟩).trans hmap
  show execCxlmemRequest true h data s = _
  simp only [execCxlmemRequest, hcxl, hup, hd0, hdata, hinside, hviral, Bool.not_false, and_self, if_true,
    Bool.false_eq_true, if_false]

theorem exec_cxlmemRequest_read :
    exec (.cxlmemRequest false h data) s = .next (if s.memPoisoned a 64 then
      ((s.emit (.readData (s.memRead a 64) true)).setHif { s.hif with ras := s.hif.ras + 1 }).note (.spine 0) 4 0
      else s.emit (.readData (s.memRead a 64) false)) := by
  have hinside : (if s.rdB F.SPN_HIF_STATUS_MEM_ACTIVE [] = true ∧ s.hif.memEn = true then s.hdmMap h else none) = some a :=
    (if_pos ⟨hactive, hmem⟩).trans hmap
  show execCxlmemRequest false h data s = _
  simp only [execCxlmemRequest, hcxl, hup, hd0, hdata, hinside, hviral, Bool.not_false, and_self, if_true,
    Bool.false_eq_true, if_false]
  cases s.memPoisoned a 64 <;> rfl

end Mapped

end Request

/-! ## The delivery of results (15 R338, R339; 16 R366) -/

@[simp] theorem State.job_setJob_self (s : State) (j : Nat) (b : Job) : (s.setJob j b).job j = b := SMap.get_put_self

theorem State.job_setJob_other (s : State) {j k : Nat} (b : Job) (h : k ≠ j) : (s.setJob j b).job k = s.job k :=
  SMap.get_put_other h

@[simp] theorem State.part_setPart_self (s : State) (p : Nat) (v : Part) : (s.setPart p v).part p = v := SMap.get_put_self

theorem State.part_setPart_other (s : State) {p q : Nat} (v : Part) (h : q ≠ p) : (s.setPart p v).part q = s.part q :=
  SMap.get_put_other h

/-- The writes into host memory that deliver a job's staged bytes, each with the poison of its lines. -/
abbrev Job.hostWrites (b : Job) : List Emit :=
  b.staged.map (fun p => .hostWrite p.1 p.2
    (b.bad.filter (fun l => decide (p.1 < 64 * l + 64) && decide (64 * l < p.1 + p.2.length))))

/-- Staged bytes of a job, in the use of a partition. -/
abbrev Job.stagedIn (b : Job) (q : Nat) : Nat := if b.part = q then (b.staged.map (fun p => p.2.length)).sum else 0

/-- What RESULT_DELIVERY does for one job. -/
def State.deliver (s : State) (e : Nat × Job) : State :=
  let s := e.2.staged.foldl (fun s p =>
    s.emit (.hostWrite p.1 p.2 (e.2.bad.filter (fun l => decide (p.1 < 64 * l + 64) && decide (64 * l < p.1 + p.2.length))))) s
  let n := (e.2.staged.map (fun p => p.2.length)).sum
  let p := s.part e.2.part
  (s.updJob e.1 (fun b => { b with staged := [], bad := [] })).setPart e.2.part { p with inUse := p.inUse - n }

theorem exec_resultDelivery (hlink : s.linkCarries = true) (hviral : s.viral = false) :
    exec .resultDelivery s = .next (s.qm.jobs.foldl State.deliver s) := if_pos ⟨hlink, by rw [hviral]; rfl⟩

theorem State.foldl_emit {α : Type} (f : α → Emit) (l : List α) (s : State) :
    l.foldl (fun s x => s.emit (f x)) s = { s with emitted := s.emitted ++ l.map f } := by
  induction l generalizing s with
  | nil => simp
  | cons x l ih =>
    rw [List.foldl_cons, ih, State.emit_emitted, List.append_assoc]
    rfl

/-- A job without what it has staged. -/
abbrev Job.delivered (b : Job) : Job := { b with staged := [], bad := [] }

theorem State.deliver_eq (e : Nat × Job) :
    s.deliver e = (State.updJob { s with emitted := s.emitted ++ e.2.hostWrites } e.1 Job.delivered).setPart e.2.part
      { s.part e.2.part with inUse := (s.part e.2.part).inUse - (e.2.staged.map (fun p => p.2.length)).sum } := by
  rw [State.deliver, State.foldl_emit]
  rfl

theorem State.job_deliver_self (e : Nat × Job) : (s.deliver e).job e.1 = (s.job e.1).delivered := by
  rw [State.deliver_eq]
  exact State.job_setJob_self _ _ _

theorem State.job_deliver_other {e : Nat × Job} {j : Nat} (h : j ≠ e.1) : (s.deliver e).job j = s.job j := by
  rw [State.deliver_eq]
  exact State.job_setJob_other _ _ h

theorem State.part_deliver (e : Nat × Job) (q : Nat) :
    (s.deliver e).part q = { s.part q with inUse := (s.part q).inUse - e.2.stagedIn q } := by
  rw [State.deliver_eq]
  by_cases h : e.2.part = q
  · subst h
    rw [State.part_setPart_self, Job.stagedIn, if_pos rfl]
  · rw [State.part_setPart_other _ _ (Ne.symm h), Job.stagedIn, if_neg h]
    rfl

/-- The jobs of the list lose what they have staged, and every other job stays. -/
theorem State.job_foldl_deliver {l : List (Nat × Job)} {j : Nat} : (l.foldl State.deliver s).job j =
    if j ∈ l.map Prod.fst then (s.job j).delivered else s.job j := by
  induction l generalizing s with
  | nil => rfl
  | cons e l ih =>
    rw [List.foldl_cons, ih]
    by_cases he : j = e.1
    · subst he
      simp [State.job_deliver_self]
    · have hlisted : j ∈ (e :: l).map Prod.fst ↔ j ∈ l.map Prod.fst := by
        rw [List.map_cons, List.mem_cons, or_iff_right he]
      rw [State.job_deliver_other he]
      exact (if_congr hlisted rfl rfl).symm

theorem State.part_foldl_deliver {l : List (Nat × Job)} (q : Nat) : (l.foldl State.deliver s).part q =
    { s.part q with inUse := (s.part q).inUse - (l.map (fun e => e.2.stagedIn q)).sum } := by
  induction l generalizing s with
  | nil => rfl
  | cons e l ih =>
    rw [List.foldl_cons, ih, State.part_deliver, List.map_cons, List.sum_cons, Nat.sub_sub]

theorem State.emitted_foldl_deliver {l : List (Nat × Job)} :
    (l.foldl State.deliver s).emitted = s.emitted ++ l.flatMap (fun e => e.2.hostWrites) := by
  induction l generalizing s with
  | nil => simp
  | cons e l ih =>
    have hstep : (s.deliver e).emitted = s.emitted ++ e.2.hostWrites := by
      rw [State.deliver_eq]
      rfl
    rw [List.foldl_cons, ih, hstep, List.flatMap_cons, List.append_assoc]

theorem State.frame_foldl_deliver {l : List (Nat × Job)} :
    (l.foldl State.deliver s).mem = s.mem ∧ (l.foldl State.deliver s).regs = s.regs := by
  induction l generalizing s with
  | nil => exact ⟨rfl, rfl⟩
  | cons e l ih =>
    have hstep : (s.deliver e).mem = s.mem ∧ (s.deliver e).regs = s.regs := by
      rw [State.deliver_eq]
      exact ⟨rfl, rfl⟩
    exact ⟨ih.1.trans hstep.1, ih.2.trans hstep.2⟩

/-- A job that is not listed is at rest, and has staged nothing. -/
theorem State.job_delivered_of_unlisted {j : Nat} (h : j ∉ s.qm.jobs.map Prod.fst) : s.job j = (s.job j).delivered := by
  have hidle : s.job j = .idle := SMap.get_none fun e he heq => h (heq ▸ List.mem_map_of_mem he)
  rw [hidle]
  rfl

end HostMemory

/-- Settles O47: a mapped write is one `memWrite`; the delivery is an induction on the jobs. -/
theorem hostMemoryRequests : Obligations.HostMemoryRequests := by
  refine ⟨fun s d b z l hd hup hready hfree hsize => (exec_hdmCommit hd hup hready hfree).trans (if_pos ⟨rfl, hsize⟩),
    fun s d b z w l hd hup hready hfree hwrong => (exec_hdmCommit hd hup hready hfree).trans (if_neg fun ⟨hone, hsize⟩ =>
      hwrong.elim (· hone) (Nat.not_lt.2 hsize)),
    fun s h a data hcxl hup hd0 hviral hactive hmem hmap hdata =>
      ⟨exec_cxlmemRequest_write hcxl hup hd0 hdata hviral hactive hmem hmap, fun k hk => State.byteAt_memWrite_self s hk,
        fun x hx => State.byteAt_memWrite_other s hx, exec_cxlmemRequest_read hcxl hup hd0 hdata hviral hactive hmem hmap⟩,
    fun s h data hcxl hup hd0 hdata hmap => exec_cxlmemRequest_unmapped hcxl hup hd0 hdata hmap,
    fun s h _ hcommitted hlo hhi => State.hdmMap_first hcommitted hlo hhi,
    fun s hlink hviral => ⟨_, exec_resultDelivery hlink hviral, State.emitted_foldl_deliver, fun j => ?job,
      State.part_foldl_deliver, State.frame_foldl_deliver⟩⟩
  case job =>
    rw [State.job_foldl_deliver]
    split
    next => rfl
    next hunlisted => exact State.job_delivered_of_unlisted hunlisted

end Sys2Proof.Machine

/-! SUPPORT. The time service: ANNOUNCE, the delay exchange, the single step, SYNC and timed events (obligations O44, O45). -/

namespace Sys2Proof.Machine

section TimeService

variable {s u v : State} {p : Nat}

/-! ## ANNOUNCE (13 R295; 14 R311, R313, R315) -/

theorem State.lowLane_setTs (s : State) (x : TimeSvc) (q : Nat) : (s.setTs x).lowLane q = s.lowLane q := rfl

theorem exec_announceSend {n t : Nat} (hport : p < 4) (hactive : s.portState p = pActive)
    (hdue : SMap.get 0 s.ts.annAt p ≤ s.now) (hdraw : s.draw = (n, u)) (hbin : u.binNow = (t, v)) :
    exec (.announceSend p) s = .next ((v.setTs { v.ts with annAt := SMap.put 0 v.ts.annAt p (v.now + 156250) }).transmit p
      (.announce p (Config.freeNat n % 65536) (v.lowLane p) t {
        domain := BitVec.ofNat 32 (v.rd F.TIM_TS_DOMAIN_DOMAIN [])
        masterId := BitVec.ofNat 32 (v.rd F.TIM_TS_MASTER_MASTER_ID [])
        hops := v.rd F.TIM_TS_STATUS_HOPS []
        freqTraced := v.freqTraced
        inDomain := v.selfInDomain
        holdover := decide (v.tsState = tsHoldoverSt)
        subtree := if v.tsRole = roleSlave ∧ v.tsUp = p then v.subtree else 0 })) := by
  show execAnnounceSend p s = _
  rw [execAnnounceSend, if_pos ⟨hport, hactive, hdue⟩, hdraw]
  dsimp only
  rw [hbin]
  dsimp only
  rw [State.lowLane_setTs]

section Receive

variable {q l t : Nat} {a : Announce} {c : BitVec 16} (hport : p < 4) (hcarries : s.portCarries p = true)

include hport hcarries

theorem exec_announceReceive_good
    (hu : u = s.setTs { s.ts with heard := s.ts.heard.filter (fun e => decide (e.1 ≠ p)) ++ [(p, ⟨a, s.now⟩)] })
    (hc : c = crc16 (annBody q l t a)) : exec (.announceReceive p ⟨q, l, t, a, c⟩) s =
      .next (if u.tsRole = roleSlave ∧ u.tsUp = p ∧ u.upstreamIds = some true then (u.hearHops a).syncInDomain
        else u.syncInDomain) := by
  subst hu hc
  refine ((if_neg fun h => h.2.2 rfl).trans (if_pos ⟨hport, hcarries⟩)).trans (congrArg Host.Outcome.next ?_)
  exact apply_ite State.syncInDomain _ _ _

theorem exec_announceReceive_bad (hc : c ≠ crc16 (annBody q l t a)) :
    exec (.announceReceive p ⟨q, l, t, a, c⟩) s = .next (s.badMsg p) := if_pos ⟨hport, hcarries, hc⟩

end Receive

theorem State.hearHops_below {a : Announce} (h : a.hops < 31) : u.hearHops a = u.wr F.TIM_TS_STATUS_HOPS [] (a.hops + 1) :=
  if_neg (Nat.not_le.2 h)

/-- An ANNOUNCE lasts 3 ms. -/
theorem exec_announceTimeout {h : Heard} (hport : p < 4) (hheard : s.heard p = some h) (hlate : h.tick + 468750 < s.now) :
    exec (.announceTimeout p) s = .next s.syncDomains.syncSize := by
  have hstale : s.heardFresh p = false := by
    rw [State.heardFresh, hheard]
    exact decide_eq_false (Nat.not_le.2 hlate)
  exact if_pos ⟨hport, by rw [hheard]; rfl, by rw [hstale]; rfl⟩

/-! ## The delay exchange (14 R315, R316, R318, R325) -/

/-- The request of a slave: an earlier one that is unanswered is lost first. -/
theorem exec_delayReqSend {t1 : Nat} (hp : p = s.tsUp) (hrole : s.tsRole = roleSlave) (hactive : s.portState p = pActive)
    (hdue : s.ts.reqAt ≤ s.now) (hu : u = if s.ts.req.isSome then s.exchLost else s) (hbin : u.binNow = (t1, v)) :
    (let seq := (v.ts.seq + 1) % 65536;
     let w := v.setTs { v.ts with
       seq := seq
       req := some (seq, t1, v.lowLane p, v.now)
       reqAt := v.now + 2 ^ v.rd F.TIM_TS_CFG_PERIOD [] };
     exec .delayReqSend s = .next (w.transmit p (.delayReq p seq (v.lowLane p) t1
       (BitVec.ofNat 32 (w.rd F.TIM_TS_DOMAIN_DOMAIN []))))) := by
  subst hp
  show execDelayReqSend s = _
  rw [execDelayReqSend, if_pos ⟨hrole, hactive, hdue⟩]
  dsimp only
  rw [← hu, hbin]

theorem exec_delayReq {q l t1 t2 t3 : Nat} {d : Word} (hdown : s.tsDown.contains p = true) (hactive : s.portState p = pActive)
    (hrole : s.tsRole = roleMaster ∨ (s.tsRole = roleSlave ∧ s.selfInDomain = true))
    (hdomain : d.toNat = s.rd F.TIM_TS_DOMAIN_DOMAIN []) (hbin : s.binNow = (t3, u)) :
    exec (.delayReq p q l ⟨(t1, d), crc16 (reqBody q l t1 d)⟩ t2) s = .next (u.transmit p (.delayResp p q l t2 t3)) := by
  refine ((if_neg fun h => h.2.2 rfl).trans (if_pos ⟨hdown, hactive, hrole, hdomain⟩)).trans ?_
  rw [hbin]

section Response

variable {q l k t1 t2 t3 t4 a : Nat} (hreq : s.ts.req = some (q, t1, l, a)) (hrole : s.tsRole = roleSlave)

include hreq hrole

theorem exec_delayResp_foreign (hforeign : s.upstreamIds = some false) :
    exec (.delayResp q k t2 ⟨t3, crc16 (respBody q k t2 t3)⟩ t4) s =
      .next (let u := (s.setTs { s.ts with req := none }).wr F.TIM_TS_STATUS_FOREIGN [] 1;
        if s.rdB F.TIM_TS_STATUS_FOREIGN [] then u else u.note (.spine 8) 3 0) := by
  refine (if_neg fun h => h.2 rfl).trans ?_
  rw [hreq]
  exact (if_pos ⟨hrole, rfl⟩).trans (if_pos hforeign)

/-- The answer to the pending request is a valid exchange where it is in time, on its lane and near the median. -/
theorem exec_delayResp_own {theta d : Int} (hown : s.upstreamIds ≠ some false)
    (hd : d = ((t4 : Int) - t3) + ((t2 : Int) - t1))
    (htheta : theta = ((t4 : Int) - t3) - ((t2 : Int) - t1) - 2 * s.rdI F.TIM_TS_ASYM_ASYM [k]) :
    exec (.delayResp q k t2 ⟨t3, crc16 (respBody q k t2 t3)⟩ t4) s =
      if k = l ∧ s.now ≤ a + 2 ^ s.rd F.TIM_TS_CFG_PERIOD [] ∧
          (s.ts.exch.isEmpty || decide (|2 * d - median2 (s.ts.exch.map Prod.snd)| ≤ 320)) = true then
        .next (let u := s.setTs { s.ts with
            req := none
            invalid := 0
            exch := (theta, d) :: s.ts.exch.take 15 };
          (((u.count F.TIM_TS_COUNT_EXCH [] 1).showExch.lockStep theta).steer.syncInDomain))
      else .next s.exchLost := by
  subst hd htheta
  refine (if_neg fun h => h.2 rfl).trans ?_
  rw [hreq]
  exact (if_pos ⟨hrole, rfl⟩).trans (if_neg hown)

end Response

/-! ## The single step and holdover (14 R319, R325) -/

theorem exec_timeStep_master (hrole : s.tsRole = roleMaster) (hdue : s.ts.epochDue = true) :
    (let u := { s with clk := { s.clk with off := (s.ts.epoch : Int) - s.now } };
     exec .timeStep s = .next ((u.setTs { u.ts with epochDue := false }).setTsState tsMaster).afterStep) :=
  if_pos ⟨hrole, hdue⟩

/-- With the offset of its EPOCH, TICK is the EPOCH. -/
theorem State.grid_of_epoch {e : Nat} (hvalid : s.clk.gridValid = true) (hoff : s.clk.off = (e : Int) - s.now)
    (he : e < 2 ^ 57) : s.grid = e := by
  have hgrid : (s.grid : Int) = ((s.now : Int) + s.clk.off) % 2 ^ 57 := State.gridAt_valid hvalid s.now
  rw [hoff, add_sub_cancel] at hgrid
  omega

theorem exec_timeStep_slave {n : Int} (hrole : s.tsRole = roleSlave) (hstate : s.tsState = tsStepWait)
    (hmode : s.mode = mIdle ∨ s.mode = mSafe) (hexch : s.ts.exch ≠ [])
    (hn : n = roundDiv s.ts.thetaSum (10240 * s.ts.exch.length)) :
    (let u := { s with clk := { s.clk with off := s.clk.off - n } };
     let v := u.setTs { u.ts with
       exch := u.ts.exch.map (fun e => (e.1 - 10240 * n, e.2))
       inWin := 0
       outWin := 0
       req := u.ts.req.map (fun r => (r.1, ((r.2.1 : Int) - 5120 * n).toNat, r.2.2.1, r.2.2.2)) };
     exec .timeStep s = .next ((v.setTsState tsFine).showExch.afterStep)) := by
  subst hn
  have hmaster : ¬ (s.tsRole = roleMaster ∧ s.ts.epochDue = true) := by
    rw [hrole]
    exact fun h => absurd h.1 (by decide)
  show execTimeStep s = _
  rw [execTimeStep, if_neg hmaster, if_pos ⟨hrole, hstate, hmode, by simpa using hexch⟩]

theorem exec_tsHoldExpire {h : Nat} (hstate : s.tsState = tsHoldoverSt) (hhold : s.ts.holdAt = some h)
    (hover : h + 156250 * s.rd F.TIM_TS_HOLD_HOLD [] ≤ s.now) : exec .tsHoldExpire s = .next s.syncInDomain := by
  have hlong : s.holdShort = false := by
    rw [State.holdShort, hhold]
    exact decide_eq_false (Nat.not_lt.2 hover)
  exact if_pos ⟨hstate, by rw [hlong]; rfl⟩

/-! ## SYNC (14 R322, R323) -/

theorem exec_syncOutPulse {n : Nat} (hrole : s.tsRole = roleMaster) (hout : s.rdB F.TIM_TS_CFG_SYNC_OUT [] = true)
    (hperiod : s.grid % s.rd F.TIM_SYNC_CFG_PERIOD [] = 0) (hdue : s.ts.synAt ≤ s.now) (hdraw : s.draw = (n, u)) :
    (let v := u.setTs { u.ts with synAt := u.now + 1 };
     exec .syncOutPulse s = .next ((v.emit (.syncOut (v.grid + 8))).sendSyn (Config.freeNat n % 256) (BitVec.ofNat 32 v.grid))) := by
  cases hdraw
  exact if_pos ⟨hrole, hout, hperiod, hdue⟩

section Syn

variable {id l x : Nat} {e : Word} (hrole : s.tsRole = roleSlave) (hp : p = s.tsUp) (hcarries : s.portCarries p = true)
  (hu : u = if s.selfInDomain then s.sendSyn id e else s) (hin : u.rdB F.TIM_SYNC_CFG_IN_EN [] = true)

include hrole hp hcarries hu hin

/-- The EVENT is forwarded first, and pairs with the oldest stamp within 2 ms. -/
theorem exec_synReceive_pairs {t : Nat × Nat} (hstamp : u.ts.stamps.find? (fun t => near2ms t.2 u.now) = some t) :
    exec (.synReceive p id e ⟨(l, x), crc16 (synBody id e l x)⟩) s =
      .next ((u.setTs { u.ts with stamps := u.ts.stamps.erase t }).syncPair t.1 e) := by
  refine ((if_neg fun h => h.2.2 rfl).trans (if_pos ⟨hrole, hp, hcarries⟩)).trans ?_
  rw [← hu, if_pos hin, hstamp]

theorem exec_synReceive_waits (hstamp : u.ts.stamps.find? (fun t => near2ms t.2 u.now) = none) :
    exec (.synReceive p id e ⟨(l, x), crc16 (synBody id e l x)⟩) s =
      .next (u.setTs { u.ts with events := u.ts.events ++ [(e, u.now)] }) := by
  refine ((if_neg fun h => h.2.2 rfl).trans (if_pos ⟨hrole, hp, hcarries⟩)).trans ?_
  rw [← hu, if_pos hin, hstamp]

end Syn

theorem exec_syncMissing {t : Nat × Nat} {rest : List (Nat × Nat)} (hstamps : s.ts.stamps = t :: rest)
    (hlate : t.2 + 312500 < s.now) :
    exec .syncMissing s = .next ((s.setTs { s.ts with stamps := rest }).note (.spine 8) 5 0) := by
  show execSyncMissing s = _
  rw [execSyncMissing, hstamps]
  exact if_pos hlate

theorem exec_syncCalDone {n k l : Nat} {sum w : Int} (hcal : s.ts.cal = some (n, k, sum, l)) (hpairs : 4096 ≤ k)
    (hw : w = clamp32 (s.rdI F.TIM_TS_ASYM_ASYM [l] + roundDiv sum 8192)) :
    exec .syncCalDone s = .next (((s.setTs { s.ts with cal := none }).wrI F.TIM_TS_ASYM_ASYM [l] w).ok n
      (leBytes 1 l ++ leBytes 4 (unsigned 32 w))) := by
  subst hw
  show execSyncCalDone s = _
  rw [execSyncCalDone, hcal]
  exact if_pos hpairs

/-! ## Timed events (14 R326) -/

theorem exec_timedEventFire {k : Nat} (hk : k < 8) (hen : s.rdB F.TIM_EVT_CTRL_EN [k] = true)
    (hreached : reached (s.rd F.TIM_EVT_TARGET_TICK [k]) (short s.grid) = true)
    (hu : u = (s.eventAction k).wr F.TIM_EVT_CTRL_FIRED [k] 1) :
    exec (.timedEventFire k) s = if u.rd F.TIM_EVT_PERIOD_PERIOD [k] = 0 then .next (u.wr F.TIM_EVT_CTRL_EN [k] 0)
      else .next (u.wr F.TIM_EVT_TARGET_TICK [k]
        ((u.rd F.TIM_EVT_TARGET_TICK [k] + u.rd F.TIM_EVT_PERIOD_PERIOD [k]) % 2 ^ 32)) := by
  subst hu
  exact if_pos ⟨hk, hen, hreached⟩

end TimeService

/-- Settles O44: each event takes the branch that its premises name; an exchange is valid or lost by three tests. -/
theorem domainsAndExchanges : Obligations.DomainsAndExchanges := by
  refine ⟨fun _ _ _ _ _ _ => exec_announceSend, fun s u p q l t a c hport hcarries hu =>
      ⟨exec_announceReceive_good hport hcarries hu, exec_announceReceive_bad hport hcarries, State.hearHops_below⟩,
    fun _ _ _ => exec_announceTimeout, fun _ _ _ _ _ => exec_delayReqSend, fun _ _ _ _ _ _ _ _ _ => exec_delayReq,
    fun s q l k t1 t2 t3 t4 a c hreq hrole hc => ?response⟩
  case response =>
    subst hc
    refine ⟨exec_delayResp_foreign hreq hrole, fun hown theta d hd htheta => ?_⟩
    have hends := exec_delayResp_own hreq hrole hown hd htheta
    refine ⟨fun hlane htime hnear => hends.trans (if_pos ⟨hlane, htime, ?_⟩),
      fun hbad => hends.trans (if_neg fun ⟨hlane, htime, hnear⟩ => ?_)⟩
    · simpa using hnear
    · obtain hother | hlate | ⟨hsome, hfar⟩ := hbad
      · exact hother hlane
      · exact Nat.not_le.2 hlate htime
      · rw [Bool.or_eq_true, List.isEmpty_iff, decide_eq_true_eq] at hnear
        exact hnear.elim hsome (not_le.2 hfar)

/-- Settles O45: each event takes the branch that its premises name; the master's offset makes TICK its EPOCH. -/
theorem stepsAndEvents : Obligations.StepsAndEvents := by
  refine ⟨fun s hrole hdue => ⟨exec_timeStep_master hrole hdue, fun hvalid he => State.grid_of_epoch hvalid rfl he⟩,
    fun _ _ => exec_timeStep_slave, fun _ _ => exec_tsHoldExpire, fun _ _ _ => exec_syncOutPulse,
    fun s u p id l x e c hc hrole hp hcarries hu hin => ?syn, fun _ _ _ => exec_syncMissing,
    fun _ _ _ _ _ _ => exec_syncCalDone, fun s u k hk hen hreached hu => ?event⟩
  case syn =>
    subst hc
    exact ⟨fun _ => exec_synReceive_pairs hrole hp hcarries hu hin, exec_synReceive_waits hrole hp hcarries hu hin⟩
  case event =>
    have hfires := exec_timedEventFire hk hen hreached hu
    exact ⟨fun once => hfires.trans (if_pos once), fun again => hfires.trans (if_neg again)⟩

end Sys2Proof.Machine

/-! SUPPORT. Doorbells of queue pairs and the submission of entries (obligation O54). -/

namespace Sys2Proof.Machine

section Doorbells

variable {s : State} {q v : Nat}

/-! ## Doorbells (16 R352) -/

theorem exec_sqTailDoorbell_moves (hq : q < 4096) (hvalid : s.rdB F.QMG_QP_VALID [q] = true) (hv : v < (s.qp q).sqLen)
    (hforward : ((s.qp q).sqTail + (s.qp q).sqLen - s.rd F.QMG_QP_SQ_HEAD [q]) % (s.qp q).sqLen ≤
      (v + (s.qp q).sqLen - s.rd F.QMG_QP_SQ_HEAD [q]) % (s.qp q).sqLen) :
    exec (.sqTailDoorbell q v) s = .next (s.setQp q { s.qp q with sqTail := v }) := by
  refine (if_pos hq).trans (congrArg Host.Outcome.next (if_neg ?_))
  simpa [hvalid, hv] using hforward

theorem exec_sqTailDoorbell_refused (hq : q < 4096) (hbad : s.rdB F.QMG_QP_VALID [q] = false ∨ (s.qp q).sqLen ≤ v ∨
      (v + (s.qp q).sqLen - s.rd F.QMG_QP_SQ_HEAD [q]) % (s.qp q).sqLen <
        ((s.qp q).sqTail + (s.qp q).sqLen - s.rd F.QMG_QP_SQ_HEAD [q]) % (s.qp q).sqLen) :
    exec (.sqTailDoorbell q v) s = .next (s.wr F.QMG_QP_DB_ERR [q] 1) := by
  refine (if_pos hq).trans (congrArg Host.Outcome.next (if_pos ?_))
  simpa [or_assoc] using hbad

theorem exec_cqHeadDoorbell_moves (hq : q < 4096) (hvalid : s.rdB F.QMG_QP_VALID [q] = true) (hv : v < (s.qp q).cqLen)
    (hforward : (v + (s.qp q).cqLen - (s.qp q).cqHead) % (s.qp q).cqLen ≤
      (s.rd F.QMG_QP_CQ_TAIL [q] + (s.qp q).cqLen - (s.qp q).cqHead) % (s.qp q).cqLen) :
    exec (.cqHeadDoorbell q v) s = .next (if (s.setQp q { s.qp q with cqHead := v }).cqFree q then
      (s.setQp q { s.qp q with cqHead := v }).wr F.QMG_QP_CQ_FULL [q] 0 else s.setQp q { s.qp q with cqHead := v }) := by
  refine (if_pos hq).trans (congrArg Host.Outcome.next (if_neg ?_))
  simpa [hvalid, hv] using hforward

theorem exec_cqHeadDoorbell_refused (hq : q < 4096) (hbad : s.rdB F.QMG_QP_VALID [q] = false ∨ (s.qp q).cqLen ≤ v ∨
      (s.rd F.QMG_QP_CQ_TAIL [q] + (s.qp q).cqLen - (s.qp q).cqHead) % (s.qp q).cqLen <
        (v + (s.qp q).cqLen - (s.qp q).cqHead) % (s.qp q).cqLen) :
    exec (.cqHeadDoorbell q v) s = .next (s.wr F.QMG_QP_DB_ERR [q] 1) := by
  refine (if_pos hq).trans (congrArg Host.Outcome.next (if_pos ?_))
  simpa [or_assoc] using hbad

end Doorbells

section Submission

variable {s u v : State} {q h r : Nat} {e : List Byte} {a b : Job}

/-! ## Entries (16 R353, R359-R361) -/

theorem submitKind_taken {ok : Nat → Bool} (hq : q < 4096) (hlen : e.length = 64) (hpaused : s.fetchPaused = false)
    (hread : s.entriesRead = true) (hturn : s.qpTurn q = true) (hkind : ok (leAt e 0 1) = true) :
    s.submitKind q e ok = s.submit q e :=
  if_pos ⟨hq, hlen, by rw [hpaused]; rfl, hread, hturn, hkind⟩

/-- Each row takes the entries of its own kinds. -/
theorem exec_submit_taken {c : Instr} {k : Nat} (hk : k = leAt e 0 1)
    (hc : (c = .submitRun q e ∧ (k ≤ 1 ∨ 7 ≤ k)) ∨ (c = .submitCapture q e ∧ k = 2) ∨ (c = .submitCalibrate q e ∧ k = 3) ∨
      (c = .submitStreamOpen q e ∧ k = 4) ∨ (c = .submitStreamClose q e ∧ k = 5) ∨ (c = .submitScan q e ∧ k = 6))
    (hq : q < 4096) (hlen : e.length = 64) (hpaused : s.fetchPaused = false) (hread : s.entriesRead = true)
    (hturn : s.qpTurn q = true) : exec c s = .next (s.submit q e) := by
  have htaken {ok : Nat → Bool} (hkind : ok (leAt e 0 1) = true) :
      Host.Outcome.next (s.submitKind q e ok) = (.next (s.submit q e) : Host.Outcome State Fault Refusal) :=
    congrArg _ (submitKind_taken hq hlen hpaused hread hturn hkind)
  subst hk
  obtain ⟨rfl, hkind⟩ | ⟨rfl, hkind⟩ | ⟨rfl, hkind⟩ | ⟨rfl, hkind⟩ | ⟨rfl, hkind⟩ | ⟨rfl, hkind⟩ := hc
  · exact htaken (by simpa using hkind)
  all_goals exact htaken (decide_eq_true hkind)

/-- The three groups of checks in their order: the first that fails gives the reason. -/
theorem reason_in_order (admission timing : Nat) (timed locked : Bool) :
    (if (if admission = 0 ∧ timed = true then timing else admission) = 0 ∧ locked = true then 0x0908
      else if admission = 0 ∧ timed = true then timing else admission) =
    if admission ≠ 0 then admission else if timed = true ∧ timing ≠ 0 then timing else if locked = true then 0x0908 else 0 := by
  by_cases hadmission : admission = 0
  · subst hadmission
    by_cases htiming : timing = 0
    · cases timed <;> simp [htiming]
    · cases timed <;> simp [htiming]
  · simp [hadmission]

/-- A fetched entry is admitted, or completes at once with the first reason. -/
theorem State.submit_eq (hh : h = (s.rd F.QMG_QP_SQ_HEAD [q] + 1) % (s.qp q).sqLen)
    (hu : u = { s.wr F.QMG_QP_SQ_HEAD [q] h with qm := { s.qm with rr := q } })
    (ha : a = jobOf e q (u.rd F.QMG_QP_CFG_PART [q]) u.now h)
    (hv : v = if a.kind = 1 ∧ u.planLoaded a.plan then u.setPlan a.plan (u.scanPlan (u.plan a.plan)) else u)
    (hb : b = if v.continuity a.part then a else { a with startAt := v.fixedStart a })
    (hr : r = if v.admitReason e b ≠ 0 then v.admitReason e b
      else if v.continuity a.part = false ∧ v.timingReason b ≠ 0 then v.timingReason b
      else if v.txnLocks b = true then 0x0908 else 0) :
    s.submit q e = if r = 0 then v.acceptJob b
      else v.setQp q { v.qp q with done := (v.qp q).done ++ [⟨none, b.tag, r, h⟩] } := by
  have hstart : b = if (!v.continuity a.part) = true then { a with startAt := v.fixedStart a } else a := by
    rw [hb]; cases v.continuity a.part <;> rfl
  have hreason : r = if (if v.admitReason e b = 0 ∧ (!v.continuity a.part) = true then v.timingReason b
        else v.admitReason e b) = 0 ∧ v.txnLocks b = true then 0x0908
      else if v.admitReason e b = 0 ∧ (!v.continuity a.part) = true then v.timingReason b else v.admitReason e b := by
    rw [reason_in_order, hr]
    simp only [Bool.not_eq_true']
  clear hr hb
  subst hh hu ha hv hstart hreason
  rfl

end Submission

/-- Settles O54: the doorbells compare distances round the ring; every submission row comes to the same admission, whose
reasons are tried in order. -/
theorem queueEntries : Obligations.QueueEntries := by
  refine ⟨fun q v h l s hq hh hl => ?sqTail, fun q v t h l s hq ht hh hl => ?cqHead,
    fun c q k h r e s u v a b hk hc hq hlen hpaused hread hturn hh hu ha hv hb hr => ?submit⟩
  case sqTail =>
    subst hh hl
    exact ⟨exec_sqTailDoorbell_moves hq, exec_sqTailDoorbell_refused hq⟩
  case cqHead =>
    subst ht hh hl
    exact ⟨exec_cqHeadDoorbell_moves hq, exec_cqHeadDoorbell_refused hq⟩
  case submit =>
    have htaken := (exec_submit_taken hk hc hq hlen hpaused hread hturn).trans
      (congrArg Host.Outcome.next (State.submit_eq hh hu ha hv hb hr))
    exact ⟨fun hnone => htaken.trans (congrArg Host.Outcome.next (if_pos hnone)),
      fun hsome => htaken.trans (congrArg Host.Outcome.next (if_neg hsome))⟩

end Sys2Proof.Machine

/-! SUPPORT. The start of jobs, their shots and re-runs, and completions (obligation O55). -/

namespace Sys2Proof.Machine

section Jobs

variable {s u v w : State} {j : Nat} {b : Job}

/-! ## Starts (16 R361, R362) -/

theorem exec_jobStart_due {t : Nat} {late : Bool} (hstart : s.startOf j = some (t, late)) (hopen : (s.job j).open_ = true)
    (hbegun : (s.job j).begun = false) (ht : t ≤ s.now)
    (hu : u = s.setJob j { s.job j with
      startAt := some t
      begun := true
      nextAt := none }) :
    exec (.jobStart j) s = .next ((if late = true then u.jobFlag j 5 else u).beginJob j t) := by
  subst hu
  show execJobStart j s = _
  rw [execJobStart, hstart]
  exact if_pos ⟨hopen, by rw [hbegun]; rfl, ht⟩

section Shot

variable {t : Nat} (hb : b = s.job j) (hnext : b.nextAt = some t) (hopen : b.open_ = true) (hkind : b.kind = 1)
  (hbegun : b.begun = true) (ht : t ≤ s.now) (hrerun : b.rerun = []) (hredo : b.redo = []) (hshots : b.shotsRun < b.shots)

include hb hnext hopen hkind hbegun ht hrerun hredo hshots

theorem exec_shotStart_waits (hfull : s.noRoom j = true) :
    exec (.shotStart j) s = .next (s.setJob j { b with held := true }) := by
  subst hb
  show execShotStart j s = _
  rw [execShotStart, hnext]
  exact (if_pos ⟨hopen, hkind, hbegun, ht, hrerun, hredo, hshots⟩).trans (if_pos hfull)

/-- The tick of a shot's begin, and the job as its next shot begins. -/
theorem exec_shotStart_begins {a : Nat} (hroom : s.noRoom j = false) (ha : a = if b.held = true then s.now else t) :
    exec (.shotStart j) s = .next ((((s.cutThreads j a).parkShot j true).updJob j (fun c =>
        let c := if c.held then c.addLatency (a - t) else c
        { c with
          held := false
          no := c.shotsRun
          shotsRun := c.shotsRun + 1
          pendTrig := none
          nextAt := if c.trigEach || decide (c.shots ≤ c.shotsRun + 1) then none else some (a + c.period) })).beginShot j a) := by
  subst hb ha
  show execShotStart j s = _
  rw [execShotStart, hnext]
  exact (if_pos ⟨hopen, hkind, hbegun, ht, hrerun, hredo, hshots⟩).trans (if_neg (ne_true_of_eq_false hroom))

end Shot

/-! ## A parked shot -/

theorem State.job_updJob_self (s : State) (j : Nat) (f : Job → Job) : (s.updJob j f).job j = f (s.job j) :=
  s.job_setJob_self j _

theorem State.job_freeStreams (s : State) (j shot k : Nat) : (s.freeStreams j shot).job k = s.job k := by
  rw [State.freeStreams]
  exact List.foldlRecOn _ _ (motive := fun w : State => w.job k = s.job k) rfl fun _ hw _ _ => hw

/-- A completed shot leaves its job's partition and the tick of its last shot as they are. -/
theorem State.job_tallyShot (s : State) (j start : Nat) (status : BitVec 8) (counts : Bool) :
    ((s.tallyShot j start status counts).job j).part = (s.job j).part ∧
      ((s.tallyShot j start status counts).job j).shotAt = (s.job j).shotAt := by
  have hjob (w : State) : (if counts = true then w.freeStreams j start else w).job j = w.job j := by
    cases counts
    · rfl
    · exact w.job_freeStreams j start j
  rw [State.tallyShot, State.job_updJob_self, hjob]
  change _ = (s.job j).part ∧ _
  split_ifs <;> exact ⟨rfl, rfl⟩

theorem State.job_parkShot (s : State) (j : Nat) (counts : Bool) :
    ((s.parkShot j counts).job j).part = (s.job j).part ∧ ((s.parkShot j counts).job j).shotAt = (s.job j).shotAt := by
  rw [State.parkShot]
  split_ifs
  · rw [State.job_setJob_self]
    exact ⟨rfl, rfl⟩
  · exact s.job_tallyShot j _ _ _
  · exact ⟨rfl, rfl⟩

/-! ## Re-runs (01 R27, R511) -/

theorem State.rerun_ne_nil_of_ready (hready : s.rerunReady j = true) : (s.job j).rerun ≠ [] := by
  intro hnil
  rw [State.rerunReady, hnil] at hready
  exact Bool.false_ne_true hready

theorem exec_shotRerun_struck {r d : Nat} (hb : b = s.job j) (hrec : b.recAt = some r) (hready : s.rerunReady j = true)
    (hr : r < s.now) (hat : b.shotAt ≤ r) (hd : d = r + 1 - b.shotAt) (hw : w = s.parkShot j false)
    (hu : u = (w.partStrms b.part).foldl (fun s e =>
      if (s.strm e.1 e.2).rewound then s.resumeStream e.1 e.2 j b.shotAt (r + 1) else s) w) :
    exec (.shotRerun j) s = .next (State.beginShot (u.updJob j (fun c =>
      { c.addLatency d with
        no := b.no
        nextAt := if c.trigEach then c.pendTrig.map (fun e => max (e + 8) (r + 1 + c.period)) else c.nextAt.map (· + d) }))
      j (r + 1)) := by
  subst hb hd hw hu
  obtain ⟨a, as, hrerun⟩ := List.exists_cons_of_ne_nil (State.rerun_ne_nil_of_ready hready)
  show execShotRerun j s = _
  simp only [execShotRerun, hrerun, hrec]
  obtain ⟨hpart, hshot⟩ := s.job_parkShot j false
  rw [if_pos ⟨hready, hr, hat⟩, State.rerunShot]
  dsimp only
  rw [hpart, hshot]

theorem State.redoShot_recovered {x : Redo} {rest : List Redo} (hcame : s.recovered j x.start x.aw = true)
    (hstrm : ∀ t k, x.aw ≠ .stream t k) :
    s.redoShot j x rest = ((s.parkShot j true).updJob j (fun c => { c with redo := rest })).rerunShot j x.start x.no s.now := by
  rw [State.redoShot]
  split
  case h_1 t k haw => exact absurd haw (hstrm t k)
  case h_2 => exact if_pos hcame

theorem exec_shotRerun_earlier {x : Redo} {rest : List Redo} (hb : b = s.job j) (hrerun : b.rerun = [])
    (hredo : b.redo = x :: rest) (hopen : b.open_ = true) (hbegun : b.begun = true) (hat : b.shotAt < s.now)
    (hthreads : (s.liveThreads j).isEmpty = true) (hcame : s.recovered j x.start x.aw = true)
    (hstrm : ∀ t k, x.aw ≠ .stream t k) : exec (.shotRerun j) s =
      .next (((s.parkShot j true).updJob j (fun c => { c with redo := rest })).rerunShot j x.start x.no s.now) := by
  subst hb
  show execShotRerun j s = _
  simp only [execShotRerun, hrerun, hredo]
  rw [if_pos ⟨hopen, hbegun, hat, hthreads⟩, State.redoShot_recovered hcame hstrm]

/-! ## Ends (16 R364, R365; 03 R71) -/

theorem exec_shotComplete_earlier {t : ShotTail} {rest : List ShotTail} (hb : b = s.job j) (htails : b.tails = t :: rest)
    (hclosed : s.shotWindows j t.start = false) :
    exec (.shotComplete j) s = .next ((s.setJob j { b with tails := rest }).tallyShot j t.start t.status t.counts) := by
  subst hb
  show execShotComplete j s = _
  rw [execShotComplete, htails]
  exact if_neg (ne_true_of_eq_false hclosed)

theorem exec_shotComplete_last (hb : b = s.job j) (htails : b.tails = []) (hpresent : b.present = true) (hkind : b.kind = 1)
    (hrunning : b.running = true) (hrerun : b.rerun = []) (hthreads : (s.liveThreads j).isEmpty = true)
    (hclosed : s.shotWindows j b.shotAt = false)
    (hu : u = (s.tallyShot j b.shotAt b.shotStatus true).updJob j (fun c => { c with running := false })) :
    exec (.shotComplete j) s = .next (if b.ended.isSome then u.settleJob j
      else if b.shots ≤ b.shotsRun ∧ b.redo = [] then u.endJob j 0 0 else u) := by
  subst hb hu
  show execShotComplete j s = _
  rw [execShotComplete, htails]
  refine (if_pos ⟨hpresent, hkind, hrunning, hrerun, hthreads, by rw [hclosed]; rfl⟩).trans ?_
  dsimp only
  rw [apply_ite Host.Outcome.next, apply_ite Host.Outcome.next]

theorem exec_jobDeadline_passed (hb : b = s.job j) (hpresent : b.present = true) (hdeadline : b.deadline ≠ 0)
    (hpassed : b.admitAt + b.deadline ≤ s.now) : exec (.jobDeadline j) s =
      .next ((if b.open_ = true then s.cutJob j 3 else s).cutThreads j (b.admitAt + b.deadline)) := by
  subst hb
  exact if_pos ⟨hpresent, hdeadline, hpassed⟩

end Jobs

section Completions

variable {s u v : State} {q tail phase st r : Nat} {d : Done} {rest : List Done} {b : Job}

/-! ## Completions (16 R339, R354, R365-R367) -/

section Post

variable (hdone : (s.qp q).done = d :: rest) (hfree : s.cqFree q = true) (hlink : s.linkCarries = true)
  (hviral : s.viral = false) (htail : tail = s.rd F.QMG_QP_CQ_TAIL [q]) (hphase : phase = s.rd F.QMG_QP_PHASE [q])
  (hu : u = s.emit (.completion q tail (completionWords b st r phase)))
  (hv : v = (State.setQp ((u.wr F.QMG_QP_CQ_TAIL [q] ((tail + 1) % (s.qp q).cqLen)).wr F.QMG_QP_PHASE [q]
      (if (tail + 1) % (s.qp q).cqLen = 0 then 1 - phase else phase)) q { s.qp q with done := rest }).wr F.QMG_QP_CQ_FULL [q] 0)

include hdone hfree hlink hviral htail hphase hu hv

theorem exec_completionPost_refused (hjob : d.job = none) (hst : st = 1) (hr : r = d.reason)
    (hb : b = { Job.idle with
        tag := d.tag
        sqHead := d.sqHead }) :
    exec (.completionPost q) s = .next (v.signal (v.rd F.QMG_QP_CFG_VECTOR [q])) := by
  subst hst hr hb hv hu htail hphase
  show execCompletionPost q s = _
  simp only [execCompletionPost, hdone, hjob, hfree, hlink, hviral, State.postCompletion]
  exact congrArg Host.Outcome.next (if_pos (Or.inr trivial))

theorem exec_completionPost_job {j : Nat} (hjob : d.job = some j) (hout : s.resultsOut j = true) (hb : b = s.job j)
    (hend : (st, r) = b.ended.getD (0, 0)) : exec (.completionPost q) s =
      .next ((if b.irq = true ∨ st = 1 then v.signal (v.rd F.QMG_QP_CFG_VECTOR [q]) else v).freeJob j) := by
  subst hb hv hu htail hphase
  show execCompletionPost q s = _
  simp only [execCompletionPost, hdone, hjob, hfree, hlink, hviral, hout, State.postCompletion, ← hend]
  rfl

end Post

end Completions

/-- Settles O55: each event takes the branch that its premises name; parking a shot keeps the tick from which a re-run
counts its delay. -/
theorem jobsAndShots : Obligations.JobsAndShots := by
  refine ⟨fun _ _ _ _ _ => exec_jobStart_due, fun j t s b hb hnext hopen hkind hbegun ht hrerun hredo hshots => ?start,
    fun _ _ _ _ _ _ _ => exec_shotRerun_struck, fun _ _ _ _ _ => exec_shotRerun_earlier,
    fun j s u b hb => ⟨fun _ _ => exec_shotComplete_earlier hb, exec_shotComplete_last hb⟩,
    fun _ _ _ => exec_jobDeadline_passed,
    fun q tail phase st r s u v d rest b hdone hfree hlink hviral htail hphase hu hv => ?post⟩
  case start =>
    exact ⟨exec_shotStart_waits hb hnext hopen hkind hbegun ht hrerun hredo hshots,
      fun hroom _ => exec_shotStart_begins hb hnext hopen hkind hbegun ht hrerun hredo hshots hroom⟩
  case post =>
    exact ⟨exec_completionPost_refused hdone hfree hlink hviral htail hphase hu hv,
      fun _ => exec_completionPost_job hdone hfree hlink hviral htail hphase hu hv⟩

end Sys2Proof.Machine

/-! SUPPORT. Due and stale units, gap steps, completed calibrations, records and boot calibration (obligation O56). -/

namespace Sys2Proof.Machine

section Calibration

variable {s v w : State} {u : UnitDesc} {k : CalUnit} {o : CalObs}

/-! ## Due and stale (19 R411, R412) -/

theorem State.aged_of_auto (hauto : s.rdB F.SPN_CAL_CFG2_AUTO [] = true)
    (hold : s.drifted u (s.calU u).temp = true ∨ (s.calU u).opsec + 60 * s.rd F.SPN_CAL_CFG_MAXAGE [] ≤ s.opSec) :
    s.aged u = true := by
  simpa [State.aged, hauto] using hold

theorem exec_calDue_aged (hvalid : u.valid = true) (hpresent : u.present s.variant = true)
    (hkind : converterKind u.kind = true) (hrot : s.rotating u = false) (hmode : s.mode ≠ mReset) (haged : s.aged u = true) :
    exec (.calDue u) s = .next (s.makeDue u) :=
  if_pos ⟨hvalid, hpresent, hkind, by rw [hrot]; rfl, hmode, haged⟩

theorem exec_calStale_late {d : Nat} (hk : k = s.calU u) (hdue : k.due = some d)
    (hlate : d + 156250000 * s.rd F.SPN_CAL_CFG2_GRACE [] ≤ s.now) (hstale : k.stale = false)
    (hkind : converterKind u.kind = true) : exec (.calStale u) s =
      .next ((((s.setCalU u { k with stale := true }).setCalValid u false).syncStale).fault (.spine 11) 0 (calTile u)) := by
  subst hk
  show execCalStale u s = _
  rw [execCalStale, hdue]
  exact if_pos ⟨hlate, by rw [hstale]; rfl, hkind⟩

/-! ## Gap steps (19 R416-R418) -/

section GapStep

variable (hv : v = s.settleStep u false) (hk : k = v.calU u) (hdue : k.due.isSome = true) (hfenced : v.fenced u = false)
  (htotal : (v.gapTotal u).isSome = true) (hgap : v.inGap u = true) (hturn : v.calTurn u = true) (hidle : k.stepFrom = none)

include hv hk hdue hfenced htotal hgap hturn hidle

theorem exec_gapCalStep_first {d : Bool} (hwork : k.work = .none) : exec (.gapCalStep u d) s =
    .next ((v.startCal u (.gap 0)).updCalU u (fun k => { k with stepFrom := if d = true then none else some v.now })) := by
  subst hv hk
  refine (if_pos ⟨hdue, by rw [hfenced]; rfl, htotal, hgap, hturn, by rw [hidle]; rfl⟩).trans ?_
  rw [hwork]

theorem exec_gapCalStep_next {d : Bool} {n : Nat} (hwork : k.work = .gap n) : exec (.gapCalStep u d) s =
    .next (v.setCalU u { k with stepFrom := if d = true then none else some v.now }) := by
  subst hv hk
  refine (if_pos ⟨hdue, by rw [hfenced]; rfl, htotal, hgap, hturn, by rw [hidle]; rfl⟩).trans ?_
  rw [hwork]

end GapStep

section StepEnd

variable {n t : Nat} (hk : k = s.calU u) (hwork : k.work = .gap n) (hfrom : k.stepFrom = some t)

include hk hwork hfrom

theorem State.settleStep_counts (b : Bool) (hpassed : t + stepTicks u n ≤ s.now) : s.settleStep u b = s.setCalU u { k with
    work := .gap (n + 1)
    stepFrom := none } := by
  subst hk
  rw [State.settleStep, hwork, hfrom]
  exact if_pos hpassed

theorem State.commitOn_discards (hbefore : s.now < t + stepTicks u n) :
    s.commitOn u = s.setCalU u { k with stepFrom := none } := by
  subst hk
  rw [State.commitOn, State.settleStep, hwork, hfrom]
  exact (if_neg (Nat.not_le.2 hbefore)).trans (if_pos rfl)

end StepEnd

/-! ## Completed calibrations (19 R419, R423; 08 R213, R215) -/

section Complete

variable (hvalid : u.valid = true) (hpresent : u.present s.variant = true) (hfenced : s.fenced u = false)
  (hheld : s.isHeld u = false) (hcoming : s.isComing u = false)

include hvalid hpresent hfenced hheld hcoming

theorem exec_calComplete_converter (hready : s.calReady u = true)
    (hw : w = if (s.calU u).work = .none ∧ s.foreground u = false then s.startCal u .none else s) :
    exec (.calComplete u o) s = .next (if o.pass = true then
      { w with cal := { w.cal with coming := w.cal.coming ++ [(u, o)] } } else (w.completeCal u o).rehold u) := by
  have hstart : w = if (s.calU u).work = .none ∧ (!s.foreground u) = true then s.startCal u .none else s := by
    simpa only [Bool.not_eq_true'] using hw
  refine (if_pos ⟨hvalid, hpresent, by rw [hfenced]; rfl, by rw [hheld]; rfl, by rw [hcoming]; rfl⟩).trans ?_
  refine (if_pos hready).trans ?_
  dsimp only
  rw [← hstart]
  cases hpass : o.pass
  · rfl
  · rw [State.bring, if_pos hpass]

theorem exec_calComplete_lead (hready : s.calReady u = false) (hkind : u.kind ≠ 6) (hwanted : s.stepWanted u = some 1)
    (hlead : s.leadReady u = true) (hw : w = s.leadBack u) : exec (.calComplete u o) s =
      .next (State.rehold (if o.pass = true ∧ leadOhms o ≤ 32000 then
        ((w.wr F.SNS_LEAD_R_LEAD [u.tile, u.index] (leadOhms o).toNat).wr F.SNS_LEAD_LEAD_VALID [u.tile, u.index] 1).noteStep
          u 1 true 0
       else (w.fault (.spine 11) 1 (calTile u)).noteStep u 1 false 0x0602) u) := by
  subst hw
  refine (if_pos ⟨hvalid, hpresent, by rw [hfenced]; rfl, by rw [hheld]; rfl, by rw [hcoming]; rfl⟩).trans ?_
  refine (if_neg (ne_true_of_eq_false hready)).trans ((if_neg fun h => hkind h.1).trans ?_)
  rw [hwanted]
  refine (if_pos hlead).trans ?_
  simp only [State.leadStep, Bool.and_eq_true, decide_eq_true_eq]

theorem exec_calComplete_fit (hready : s.calReady u = false) (hwanted : s.stepWanted u = some 2) :
    exec (.calComplete u o) s = .next (State.rehold
      (if o.pass = true then (s.updCalU u (fun k => { k with fits := k.fits + 1 })).noteStep u 2 true 0
       else (s.fault (.spine 11) 1 (calTile u)).noteStep u 2 false 0x0602) u) := by
  refine (if_pos ⟨hvalid, hpresent, by rw [hfenced]; rfl, by rw [hheld]; rfl, by rw [hcoming]; rfl⟩).trans ?_
  refine (if_neg (ne_true_of_eq_false hready)).trans ((if_neg fun h => h.2.2.2 hwanted).trans ?_)
  rw [hwanted]
  rfl

end Complete

theorem exec_calHoldTimeout_passed {t : Nat} (hwork : (s.calU u).work = .held t) (hpassed : t + 9375000000 ≤ s.now) :
    exec (.calHoldTimeout u) s = .next ((s.updCalU u (fun k => { k with work := .none })).failCal u 0x0602) := by
  show execCalHoldTimeout u s = _
  rw [execCalHoldTimeout, hwork]
  exact if_pos hpassed

/-! ## Records (19 R426, R427) -/

/-- The sum of a record does not cover its CRC field. -/
theorem newRec_eq {r : CalRec} {c : CalObs} (hcrc : r.crc = r.sum)
    (hr : r = { (⟨u.word, max (recSeq k.recA) (recSeq k.recB) + 1, k.opsec, k.temp, 0x21, 0, c⟩ : CalRec) with crc := r.crc }) :
    newRec u k c = r := by
  have hsum : r.sum = CalRec.sum ⟨u.word, max (recSeq k.recA) (recSeq k.recB) + 1, k.opsec, k.temp, 0x21, 0, c⟩ := by
    rw [hr]
    rfl
  rw [hr, hcrc, hsum]
  rfl

theorem exec_calRecordWrite_waiting {c : CalObs} {r : CalRec} (hk : k = s.calU u) (hwaits : k.unwritten = some c)
    (hshut : s.shutdown = false) (hage : k.written = none ∨ ∃ w, k.written = some w ∧ w + 600 ≤ s.opSec)
    (hr : newRec u k c = r)
    (hv : v = s.setCalU u { (if recSeq k.recA ≤ recSeq k.recB then { k with recA := some r } else { k with recB := some r } :
      CalUnit) with
      unwritten := none
      written := some s.opSec }) :
    exec (.calRecordWrite u) s =
      .next (v.wrB F.SPN_CAL_STATUS_NV_PENDING [] (v.cal.units.any (fun e => e.2.unwritten.isSome))) := by
  subst hk hv hr
  show execCalRecordWrite u s = _
  rw [execCalRecordWrite, hwaits]
  refine if_pos ?_
  obtain hnever | ⟨t, hlast, hlong⟩ := hage
  · rw [hshut, hnever]
    rfl
  · rw [hshut, hlast]
    exact decide_eq_true hlong

/-! ## Boot calibration (19 R419, R421) -/

theorem exec_bootCalDone_running {bad us : List UnitDesc} (hboot : s.cal.boot = true)
    (hus : us = (s.cal.reqs.filter (fun r => decide (r.scope = 1) && r.mbx.isNone)).flatMap (fun r => r.todo.map Prod.fst))
    (hv : v = us.foldl (fun s u => s.bootUnit bad u) s) :
    exec (.bootCalDone bad) s = .next { v with cal := { v.cal with
      reqs := v.cal.reqs.filter (fun r => !(decide (r.scope = 1) && r.mbx.isNone)) } } := by
  subst hus hv
  exact if_pos hboot

theorem State.bootOver_last (hboot : s.cal.boot = true)
    (hover : s.cal.reqs.any (fun r => decide (r.scope = 1) && r.mbx.isNone) = false) :
    s.bootOver = (State.wr { s with cal := { s.cal with boot := false } } F.SPN_CAL_STATUS_FOREGROUND [] 0).wr
      F.MBX_GLOBAL_IDLE_READY [] 1 :=
  if_pos (by rw [hboot, hover]; rfl)

theorem State.bringCorrections_without_ref
    (hw : w = s.cal.coming.foldl (fun s e => s.bringOne e.1 e.2) { s with cal := { s.cal with coming := [] } })
    (href : w.cal.refDue = none) : s.bringCorrections = w.bootOver := by
  rw [State.bringCorrections]
  dsimp only
  rw [← hw, href]

end Calibration

/-- Settles O56: each event takes the branch that its premises name; a record's CRC does not cover itself, so the record
written is the one with the CRC of its own bytes. -/
theorem calibrationEvents : Obligations.CalibrationEvents := by
  refine ⟨fun _ _ hvalid hpresent hkind hrot hmode hauto hold =>
      exec_calDue_aged hvalid hpresent hkind hrot hmode (State.aged_of_auto hauto hold),
    fun _ _ _ _ => exec_calStale_late, fun u d s v k hv hk hdue hfenced htotal hgap hturn hidle => ?step,
    fun _ _ _ b _ _ hk hwork hfrom =>
      ⟨State.settleStep_counts hk hwork hfrom b, State.commitOn_discards hk hwork hfrom⟩,
    fun u o s w hvalid hpresent hfenced hheld hcoming => ?complete, fun _ _ _ => exec_calHoldTimeout_passed,
    fun _ _ _ _ _ _ hk hwaits hshut hage hcrc hr =>
      exec_calRecordWrite_waiting hk hwaits hshut hage (newRec_eq hcrc hr),
    fun _ _ _ _ => exec_bootCalDone_running,
    fun _ _ hw href hboot hover => (State.bringCorrections_without_ref hw href).trans (State.bootOver_last hboot hover)⟩
  case step =>
    exact ⟨exec_gapCalStep_first hv hk hdue hfenced htotal hgap hturn hidle,
      fun _ => exec_gapCalStep_next hv hk hdue hfenced htotal hgap hturn hidle⟩
  case complete =>
    exact ⟨exec_calComplete_converter hvalid hpresent hfenced hheld hcoming,
      exec_calComplete_lead hvalid hpresent hfenced hheld hcoming,
      exec_calComplete_fit hvalid hpresent hfenced hheld hcoming⟩

end Sys2Proof.Machine

/-! SUPPORT. Temperature samples, states, failed sensors, shutdown and restart (obligation O57). -/

namespace Sys2Proof.Machine

section Temperature

variable {s u v : State} {n : Nat}

/-! ## Samples (20 R433-R436) -/

theorem exec_thermSample_silent {r : Sensor} (hn : n < 6 + 12 * s.variant.tiles) (hr : r = s.sensor n)
    (hdue : r.due s.now (s.sensFast n) = true) : exec (.thermSample n none) s = .next (s.setSensor n { r with
      last := some s.now
      slowAt := if r.onGrid s.now (s.sensFast n) = true then s.now else r.slowAt
      silent := if s.sensFailed n = false ∧ 4 ≤ r.silent then 4 else min 4 (r.silent + 1) }) := by
  subst hr
  refine (if_neg ?_).trans ?_
  · simpa [hdue] using hn
  · simp only [owed, consec, Bool.and_eq_true, Bool.not_eq_true', decide_eq_true_eq, if_true]

/-- Fast sampling is due 50 us after the last sample. -/
theorem Sensor.due_of_fast {r : Sensor} {now : Nat} (h : ∀ l, r.last = some l → l + 7812 ≤ now) : r.due now true = true := by
  rw [Sensor.due]
  cases hlast : r.last with
  | none => rfl
  | some l => exact decide_eq_true (h l hlast)

/-- A reading more than 5 degrees below a level is not close to it. -/
theorem not_close_of_below {t l : Int} (h : 640 < l - t) : (decide (t ≤ l + 640) && decide (l ≤ t + 640)) = false := by
  rw [Bool.and_eq_false_iff, decide_eq_false_iff_not, decide_eq_false_iff_not]
  omega

theorem exec_thermSample_below {t : Int} {r : Sensor} (hn : n < 6 + 12 * s.variant.tiles)
    (hbetween : s.now < (s.sensor n).slowAt + 156250) (hfast : s.sensFast n = true)
    (hdue : ∀ l, (s.sensor n).last = some l → l + 7812 ≤ s.now)
    (hbelow : ∀ l, l = s.threshold .warn ∨ l = s.threshold .crit ∨ l = shutLevel → 640 < l - t)
    (hr : r = { s.sensor n with
      last := some s.now
      silent := owed (!s.sensFailed n) false (s.sensor n).silent
      bad := owed (!s.sensFailed n) (decide (t < -5120) || decide (19200 < t)) (s.sensor n).bad
      warnUp := owed (!s.inState n .warn) (decide (s.threshold .warn ≤ t)) (s.sensor n).warnUp
      warnDown := owed (s.inState n .warn) (decide (t < s.leaveLevel .warn)) (s.sensor n).warnDown
      critUp := owed (!s.inState n .crit) (decide (s.threshold .crit ≤ t)) (s.sensor n).critUp
      critDown := owed (s.inState n .crit) (decide (t < s.leaveLevel .crit)) (s.sensor n).critDown
      hotUp := owed (!s.shutdown) (decide (shutLevel ≤ t)) (s.sensor n).hotUp
      far := min 4 ((s.sensor n).far + 1) })
    (hu : u = (s.putSens n F.THM_SENS_TEMP F.THM_SENS_T_TEMP (unsigned 16 t)).putSens n F.THM_SENS_FAST F.THM_SENS_T_FAST
      (if 4 ≤ r.far then 0 else 1)) :
    exec (.thermSample n (some t)) s = .next (State.dwell (State.setSensor
      (if u.sens n F.THM_SENS_MAX F.THM_SENS_T_MAX < min 255 (t / 128).toNat then
        u.putSens n F.THM_SENS_MAX F.THM_SENS_T_MAX (min 255 (t / 128).toNat) else u) n r)) := by
  subst hr hu
  have hgrid : decide ((s.sensor n).slowAt + 156250 ≤ s.now) = false := decide_eq_false (Nat.not_le.2 hbetween)
  have hlevel (l : Int) (hl : l = s.threshold .warn ∨ l = s.threshold .crit ∨ l = shutLevel) :=
    not_close_of_below (hbelow l hl)
  refine (if_neg ?_).trans ?_
  · simpa [hfast, Sensor.due_of_fast hdue] using hn
  · simp only [hlevel _ (.inl rfl), hlevel _ (.inr (.inl rfl)), hlevel _ (.inr (.inr rfl)), hfast, Sensor.keep, Sensor.onGrid,
      hgrid, consec, Bool.or_false, Bool.not_true, Bool.not_false, if_true, Bool.false_eq_true, if_false]

/-! ## States (20 R436, R438, R439) -/

section States

variable (hworks : s.works n = true)

include hworks

theorem exec_thermStateEntry_warn (hstate : s.inState n .warn = false) (hup : 4 ≤ (s.sensor n).warnUp) :
    exec (.thermStateEntry n .warn) s = .next ((s.putSens n F.THM_SENS_WARN F.THM_SENS_T_WARN 1).thermFault 4 n) :=
  if_pos ⟨hworks, by rw [hstate]; rfl, hup⟩

theorem exec_thermStateEntry_crit (hstate : s.inState n .crit = false) (hup : 4 ≤ (s.sensor n).critUp) :
    exec (.thermStateEntry n .crit) s = .next ((s.putSens n F.THM_SENS_CRIT F.THM_SENS_T_CRIT 1).thermFault 1 n) :=
  if_pos ⟨hworks, by rw [hstate]; rfl, hup⟩

theorem exec_thermStateLeave_warn (hstate : s.inState n .warn = true) (hdown : 4 ≤ (s.sensor n).warnDown) :
    exec (.thermStateLeave n .warn) s = .next (s.putSens n F.THM_SENS_WARN F.THM_SENS_T_WARN 0) :=
  if_pos ⟨hworks, hstate, hdown⟩

theorem exec_thermStateLeave_crit (hstate : s.inState n .crit = true) (hdown : 4 ≤ (s.sensor n).critDown) :
    exec (.thermStateLeave n .crit) s = .next (s.putSens n F.THM_SENS_CRIT F.THM_SENS_T_CRIT 0) :=
  if_pos ⟨hworks, hstate, hdown⟩

theorem exec_thermRateEntry_reached (hrate : s.inRate n = false) (hup : 4 ≤ (s.sensor n).rateUp) :
    exec (.thermRateEntry n) s = .next ((s.putSens n F.THM_SENS_RATE F.THM_SENS_T_RATE 1).thermFault 3 n) :=
  if_pos ⟨hworks, by rw [hrate]; rfl, hup⟩

theorem exec_thermRateLeave_reached (hrate : s.inRate n = true) (hdown : 4 ≤ (s.sensor n).rateDown) :
    exec (.thermRateLeave n) s = .next (s.putSens n F.THM_SENS_RATE F.THM_SENS_T_RATE 0) :=
  if_pos ⟨hworks, hrate, hdown⟩

end States

/-! ## Failed sensors (20 R435) -/

section Failure

variable (hworks : s.works n = true) (hbad : 4 ≤ (s.sensor n).bad ∨ 4 ≤ (s.sensor n).silent)
  (hu : u = State.dwell (State.note ((((s.putSens n F.THM_SENS_FAILED F.THM_SENS_T_FAILED 1).putSens n F.THM_SENS_WARN
      F.THM_SENS_T_WARN 0).putSens n F.THM_SENS_CRIT F.THM_SENS_T_CRIT 0).putSens n F.THM_SENS_RATE F.THM_SENS_T_RATE 0)
      (.spine 2) 5 n))

include hworks hbad hu

theorem exec_thermSensorFail_spine (hn : n < 6) : exec (.thermSensorFail n) s =
    .next (if ((List.range 6).filter u.works).length < 3 then u.fault (.spine 2) 2 n else u) := by
  subst hu
  exact ((if_pos ⟨hworks, hbad⟩).trans (if_pos hn)).trans (apply_ite _ _ _ _).symm

theorem exec_thermSensorFail_tile {t : Nat} (hn : 6 ≤ n) (ht : t = (n - 6) / 12) : exec (.thermSensorFail n) s =
    .next (if ((List.range 12).filter (fun k => u.works (6 + 12 * t + k))).length < 6 then u.fault (.spine 2) 6 t else u) := by
  subst hu ht
  exact ((if_pos ⟨hworks, hbad⟩).trans (if_neg (Nat.not_lt.2 hn))).trans (apply_ite _ _ _ _).symm

end Failure

/-! ## Shutdown and restart (20 R440-R443) -/

theorem exec_thermShutdown_hot
    (hn : s.sensors.find? (fun n => s.works n && decide (4 ≤ (s.sensor n).hotUp)) = some n) (hshut : s.shutdown = false)
    (hu : u = s.shutBegin.fault (.spine 2) 0 n)
    (hv : v = (List.range u.variant.tiles).foldl (fun s t => (s.haltScan t).capSafe t) u) :
    exec .thermShutdown s = .next (((v.wr F.MBX_GLOBAL_IDLE_READY [] 0).abandonCal).dwell) := by
  subst hu hv
  show execThermShutdown s = _
  rw [execThermShutdown, hn]
  dsimp only
  rw [State.shutDown, if_neg (ne_true_of_eq_false hshut), State.shutEnd]

theorem exec_thermRestart_cool {t : Nat} (hdwell : s.therm.dwellAt = some t) (hshut : s.shutdown = true)
    (hlong : t + 1562500000 ≤ s.now)
    (hu : u = (State.wr { s with
        therm := { s.therm with
          dwellAt := none
          thermN := false }
        clk := { s.clk with strobe := true } } F.THM_STATUS_SHUTDOWN [] 0).wr F.THM_STATUS_DWELL [] 0) :
    exec .thermRestart s = .next (if u.mode = mSafe then (u.setMode mSafe 3).beginBootCal else u) := by
  subst hu
  show execThermRestart s = _
  rw [execThermRestart, hdwell]
  dsimp only
  rw [if_pos ⟨hshut, hlong⟩]

/-! ## Registers (20 R433, R437) -/

theorem exec_thmCfgWrite (x : Word) : exec (.thmCfgWrite x) s = .next (if thmCfgOk x.toNat = true then s.stage (.thmCfg x) false
    else s.refuse (R.THM_CFG.addr [] 0) 0x0803) := rfl

theorem exec_maxClear : exec .maxClear s = .next ((List.range (6 + 12 * s.variant.tiles)).foldl
    (fun s n => s.putSens n F.THM_SENS_MAX F.THM_SENS_T_MAX 0) s) := rfl

end Temperature

/-- Settles O57: each event takes the branch that its premises name; a reading below every threshold and between the
1 kHz samples leaves the rate and the grid of its sensor. -/
theorem temperature : Obligations.Temperature := by
  refine ⟨fun _ _ _ => exec_thermSample_silent, fun _ _ _ _ _ => exec_thermSample_below,
    fun _ _ hworks => ⟨exec_thermStateEntry_warn hworks, exec_thermStateEntry_crit hworks, exec_thermStateLeave_warn hworks,
      exec_thermStateLeave_crit hworks, exec_thermRateEntry_reached hworks, exec_thermRateLeave_reached hworks⟩,
    fun _ _ _ hworks hbad hu => ⟨exec_thermSensorFail_spine hworks hbad hu,
      fun _ => exec_thermSensorFail_tile hworks hbad hu⟩,
    fun _ _ _ _ => exec_thermShutdown_hot, fun _ _ _ => exec_thermRestart_cool, fun x _ => exec_thmCfgWrite x,
    fun _ => exec_maxClear⟩

end Sys2Proof.Machine

/-! SUPPORT. Rails, PERST, the loss of VAUX, the choice of a boot image and firmware ready (obligation O59). -/

namespace Sys2Proof.Machine

section Supplies

variable {s u v : State} {r : Nat}

/-! ## Rails (22 R468, R469, R472) -/

section Return

variable (hr : r < 8) (hbefore : s.railGood r = false) (hvaux : r = 0 ∨ s.railGood 0 = true) (hu : u = s.setRail r true)

include hr hbefore hvaux hu

theorem State.railUp_eq : s.railUp r = if (!s.railOrder r || s.hvLate r) = true then u.seqError else u := by
  subst hu
  refine (if_neg ?_).trans (if_neg ?_)
  · rintro (hbeyond | hgood)
    · exact Nat.not_le.2 hr hbeyond
    · exact ne_true_of_eq_false hbefore hgood
  · rintro ⟨hother, hnone⟩
    obtain hzero | hgood := hvaux
    · exact hother hzero
    · rw [hgood] at hnone
      exact Bool.false_ne_true hnone

theorem exec_railReturn_inOrder (horder : s.railOrder r = true) (hlate : s.hvLate r = false) :
    exec (.railReturn r) s = .next u :=
  congrArg Host.Outcome.next ((State.railUp_eq hr hbefore hvaux hu).trans (if_neg (by simp [horder, hlate])))

section OutOfOrder

variable (hbad : s.railOrder r = false ∨ s.hvLate r = true) (hv : v = u.resetPart.wr F.SPN_RAIL_STATUS_SEQ_ERR [] 1)

include hbad hv

theorem State.railUp_outOfOrder : s.railUp r = { v with boot := { v.boot with
    seqHold := true
    seqLow := false } } := by
  subst hv
  exact (State.railUp_eq hr hbefore hvaux hu).trans (if_pos (by simpa using hbad))

theorem exec_railReturn_outOfOrder : exec (.railReturn r) s = .next { v with boot := { v.boot with
    seqHold := true
    seqLow := false } } :=
  congrArg Host.Outcome.next (State.railUp_outOfOrder hr hbefore hvaux hu hbad hv)

theorem exec_railSeqError_found (hgood : s.railGood 0 = true) : exec (.railSeqError r) s = .next { v with boot := { v.boot with
    seqHold := true
    seqLow := false } } :=
  (if_pos ⟨hr, hgood, by rw [hbefore]; rfl, by simpa using hbad⟩).trans
    (congrArg Host.Outcome.next (State.railUp_outOfOrder hr hbefore hvaux hu hbad hv))

end OutOfOrder

end Return

section Drop

variable (hfirst : 1 ≤ r) (hr : r < 8) (hbefore : s.railGood r = true) (hu : u = s.setRail r false)

include hfirst hr hbefore hu

theorem exec_railDrop_resets (hperst : u.boot.perstN = true) (hhold : u.boot.seqHold = false) : exec (.railDrop r) s =
    .next ((u.resetPart.wr F.SPN_RAIL_STATUS_DROP [] 1).wr F.SPN_RAIL_STATUS_DROP_RAIL [] r) := by
  subst hu
  exact (if_pos ⟨hfirst, hr, hbefore⟩).trans (if_pos ⟨hperst, by rw [hhold]; rfl⟩)

theorem exec_railDrop_marks (hheld : u.boot.perstN = false ∨ u.boot.seqHold = true) : exec (.railDrop r) s = .next u := by
  subst hu
  refine (if_pos ⟨hfirst, hr, hbefore⟩).trans (if_neg ?_)
  simpa [imp_iff_not_or] using hheld

end Drop

/-! ## PERST and the begin of boot (22 R470-R472) -/

theorem exec_perstDeassert_counts (hperst : s.boot.perstN = false) (hu : u = { s with
      boot := { s.boot with perstN := true }
      flt := { s.flt with bootCount := s.flt.bootCount + 1 } }) :
    exec .perstDeassert s = .next (if u.bootable = true then { u with boot := { u.boot with started := true } } else u) := by
  subst hu
  show execPerstDeassert s = _
  rw [execPerstDeassert, if_neg (ne_true_of_eq_false hperst)]
  rfl

theorem exec_bootStart_ready {t : Nat} (hperst : s.boot.perstN = true) (hhold : s.boot.seqHold = false)
    (hstarted : s.boot.started = false) (hclk : s.hif.refclk = true) (hrails : s.boot.railsAt = some t)
    (hlong : t + 3906250 ≤ s.now) : exec .bootStart s = .next { s with boot := { s.boot with started := true } } := by
  have hready : s.bootable = true := by
    rw [State.bootable, hperst, hhold, hstarted, hclk, hrails]
    simpa using hlong
  show Host.Outcome.next s.startBoot = _
  rw [State.startBoot, if_pos hready]

theorem exec_vauxLoss (hu : u = s.hardReset [] .idle { Boot.idle with perstN := s.boot.perstN }) :
    exec .vauxLoss s = .next { u with clk := { u.clk with age := 0 } } := by
  subst hu
  rfl

end Supplies

section BootImage

variable {s u v w : State} {a b : SlotObs} {p x : Bool} {c₁ c₂ : Nat}

/-! ## The ROM's choice of an image (22 R476, R477) -/

/-- The ROM records a slot's cause in the field of that slot. -/
theorem wr_cause_of_slot (s : State) (p : Bool) (c : Nat) :
    (if p = true then s.wr F.SPN_BOOT_STATUS_B_CAUSE [] c else s.wr F.SPN_BOOT_STATUS_A_CAUSE [] c) =
      s.wr (if p = true then F.SPN_BOOT_STATUS_B_CAUSE else F.SPN_BOOT_STATUS_A_CAUSE) [] c := by
  cases p <;> rfl

theorem wr_cause_of_other_slot (s : State) (p : Bool) (c : Nat) :
    (if (!p) = true then s.wr F.SPN_BOOT_STATUS_B_CAUSE [] c else s.wr F.SPN_BOOT_STATUS_A_CAUSE [] c) =
      s.wr (if p = true then F.SPN_BOOT_STATUS_A_CAUSE else F.SPN_BOOT_STATUS_B_CAUSE) [] c := by
  cases p <;> rfl

theorem exec_bootImageCheck (hstarted : s.boot.started = true) (haccepted : s.boot.accepted = false)
    (hfail : s.rdB F.SPN_BOOT_STATUS_BOOT_FAIL [] = false) (hp : p = s.boot.preferred)
    (hc₁ : c₁ = slotCause (if p = true then b else a) s.boot.minSvn)
    (hc₂ : c₂ = slotCause (if p = true then a else b) s.boot.minSvn)
    (hu : u = State.wr { s.wrB F.SPN_BOOT_STATUS_FLASH_8D [] x with boot := { s.boot with
        slotA := some a
        slotB := some b } } (if p = true then F.SPN_BOOT_STATUS_B_CAUSE else F.SPN_BOOT_STATUS_A_CAUSE) [] c₁)
    (hw : w = u.wr (if p = true then F.SPN_BOOT_STATUS_A_CAUSE else F.SPN_BOOT_STATUS_B_CAUSE) [] c₂) :
    exec (.bootImageCheck a b x) s =
      if c₁ = 0 then .next (u.acceptSlot p (if p = true then b else a))
      else if c₂ = 0 then .next ((w.wr F.SPN_BOOT_STATUS_FALLBACK [] 1).acceptSlot (!p) (if p = true then a else b))
      else .next (State.configReady { w.wr F.SPN_BOOT_STATUS_BOOT_FAIL [] 1 with flt := { w.flt with errN := true } }) := by
  subst hp hc₁ hc₂ hu hw
  refine (if_pos ⟨hstarted, by rw [haccepted]; rfl, by rw [hfail]; rfl⟩).trans ?_
  dsimp only
  rw [wr_cause_of_slot, wr_cause_of_other_slot]
  rfl

end BootImage

/-! ## Firmware ready (22 R479) -/

theorem exec_fwReady_asked {s u v : State} {mem : Bool} (hmem : mem = s.rdB F.SPN_HIF_STATUS_MEM_ACTIVE [])
    (haccepted : s.boot.accepted = true) (hready : s.rdB F.MBX_GLOBAL_FW_READY [] = false) (hlost : s.flt.lost = false)
    (hdecided : mem = true ∨ s.rdB F.SPN_HIF_STATUS_MEM_FAIL [] = true) (hlock : s.rdB F.TIM_PLL_STATUS_LOCKED [] = true)
    (hu : u = if mem = true then s.loadMicrocode else s)
    (hv : v = ((((List.range 64).foldl (fun s n => s.wr F.MBX_STATUS_STATE [n] 0) ((((u.loadAll.loadRef).logEvent 8 0 0 0 0x700
      0 0xFFFFFFFF []).wr F.MBX_GLOBAL_FW_READY [] 1).wr F.MBX_GLOBAL_STANDBY_READY [] 1)).configReady).setMode mSafe
      0).errPolicy.advise) :
    exec .fwReady s = .next (if v.shutdown = true then v else v.beginBootCal) := by
  subst hmem hu hv
  exact if_pos ⟨haccepted, by rw [hready]; rfl, by rw [hlost]; rfl, hdecided, hlock⟩

/-- Settles O59: each event takes the branch that its premises name; the ROM's two tries come to one of three ends. -/
theorem supplyAndBoot : Obligations.SupplyAndBoot := by
  refine ⟨fun r s u hr hbefore hvaux hu => ⟨exec_railReturn_inOrder hr hbefore hvaux hu, fun hbad v hv =>
      ⟨exec_railReturn_outOfOrder hr hbefore hvaux hu hbad hv, exec_railSeqError_found hr hbefore hvaux hu hbad hv⟩⟩,
    fun r s u hfirst hr hbefore hu =>
      ⟨exec_railDrop_resets hfirst hr hbefore hu, exec_railDrop_marks hfirst hr hbefore hu⟩,
    fun _ => rfl, fun _ _ => exec_perstDeassert_counts, fun _ _ => exec_bootStart_ready, fun _ _ => exec_vauxLoss,
    fun p x y z a b o c₁ c₂ s u v hstarted haccepted hfail hp hc₁ hc₂ hu hv => ?image,
    fun _ _ _ _ => exec_fwReady_asked⟩
  case image =>
    have hends := exec_bootImageCheck hstarted haccepted hfail hp hc₁ hc₂ hu rfl
    refine ⟨fun hone hy hz ho => ?accepted, fun hbad₁ hbad₂ => ?failed⟩
    case accepted =>
      subst hz ho
      by_cases hfirst : c₁ = 0
      · rw [if_pos hfirst] at hends hy hv
        subst hy hv
        exact hends
      · have hsecond := hone.resolve_left hfirst
        rw [if_neg hfirst] at hends hy hv
        rw [if_pos hsecond] at hends hv
        subst hy hv
        rw [hends]
        cases p <;> rfl
    case failed =>
      rw [if_neg hbad₁, if_neg hbad₂] at hends hv
      subst hv
      exact hends

end Sys2Proof.Machine
